-- ==== Sys2Proof/Word.lean ====
section
/-! DEFINITION. The word types of the manual (R8, R9, R11): a register and a structure word are 64 bits, a byte is 8. -/

namespace Sys2Proof

/-- A 64-bit word: a register (R11) or one word Wn of a structure (R9). -/
abbrev Word := BitVec 64

/-- One byte; byte order is little-endian throughout (Table 0-2). -/
abbrev Byte := BitVec 8

/-- A 16-bit status or Ledger code (R15). -/
abbrev Code := BitVec 16

/-- A carrel or function number: 0 is the manager, 1 to 1023 the carrels (R79). -/
abbrev Func := BitVec 10

/-- A shelf number, range × 64 + shelf-in-range (R6). -/
abbrev ShelfNo := BitVec 12

end Sys2Proof
end

