-- ==== Sys2Proof/Syntax.lean ====
section
/-! DEFINITION. The commands the block takes: one constructor of `Instr` per row of spec/opcode_table.json, with the
operands the row's rule gives it, and the records those operands are made of. An operand that is a reading or a result of the
package around the chiplet (R3, R4: sensors, training, host and flash data) stands for what the environment supplied. -/

namespace Sys2Proof

/-- Who makes a control-window access (R460, R463): host traffic tagged with a function (R79), the TAP (R54) or a curator. -/
inductive Requester where
  | host (func : Func)
  | tap
  | curator (k : BitVec 2)
  deriving DecidableEq, Repr

/-- The PEC byte of an SMBus transaction (Table 2-9): absent, present and right, or present and wrong. -/
inductive Pec where
  | absent
  | valid
  | invalid
  deriving DecidableEq, Repr

/-- The engine of a stream (R22): matrix, vector or stream engine; numbered 0, 1, 2 as in Table 18-3. -/
inductive Engine where
  | m
  | v
  | s
  deriving DecidableEq, Repr

/-- What training found on one stack port (R48, R91, R328). -/
structure StackTrain where
  present  : Bool
  height   : BitVec 2
  density  : Bool
  /-- the highest of the four data rates at which the stack trains -/
  rate     : BitVec 2
  /-- channels that failed training -/
  failed   : BitVec 32
  deriving DecidableEq, Repr

/-- What training found on one Interloan port (R45 to R47), and the capacity of a CXL device behind it (R332). -/
structure PortTrain where
  streaming : Bool
  cxl       : Bool
  trains    : Bool
  rate      : BitVec 3
  half      : Bool
  modules   : BitVec 3
  repairs   : BitVec 6
  farBytes  : Nat
  deriving DecidableEq, Repr

/-- The headers an SPI boot source holds at its three places (R87), eight words each; a port 0 boot reads the boot window. -/
structure HeaderRead where
  primary  : List Word
  sec8M    : List Word
  sec128M  : List Word
  deriving DecidableEq, Repr

/-- The resident parts an SPI boot source holds after the primary header and after the secondary header in use (R87). -/
structure ResidentRead where
  primary   : List Byte
  headers   : HeaderRead
  secondary : List Byte
  deriving DecidableEq, Repr

/-- What the chiplet senses at a stamp: the core rail in mV (R75), whether it has been in tolerance for 100 µs (R76), the
ranges whose sensors have been below EMERG − 3 °C for 100 µs (R439), and the six stack temperature reports in °C (R353). -/
structure StampSense where
  railMv     : Nat
  railOk     : Bool
  calm       : Word
  stackTemps : List (BitVec 8)
  deriving DecidableEq, Repr

/-- Measured power of the period (R434) in 1/8 W: one figure per range, and the rest of the chiplet. -/
structure PowerReading where
  ranges : List Nat
  other  : Nat
  deriving DecidableEq, Repr

/-- One pass run as the Bindery derives it: its passes and its principal region (R232); the rest of the run is computed by R227. -/
structure RunPrincipal where
  count     : BitVec 32
  principal : BitVec 8
  pbase     : BitVec 48
  inner     : BitVec 32
  sIn       : BitVec 48
  outer     : BitVec 32
  sOut      : BitVec 48
  deriving DecidableEq, Repr

/-- Where the Bindery combines sliver partials (R304): the loan bytes from `base` on, six tallies, and, for partials of several passes,
the kernel's recipes by which a pass writes its own partials and reads those of its group. -/
structure TreeTr where
  base    : Nat
  tallies : List Nat
  wr      : Nat
  rd      : Nat
  deriving DecidableEq, Repr

/-- One folio of a translation: the statement it was translated from (none for a folio of the Bindery's own, such as ACC_CLEAR), its eight
words (R224, R250), and where its partials combine, if it has any. -/
structure FolioTr where
  stmt  : Option Nat
  words : List Word
  tree  : Option TreeTr
  deriving DecidableEq, Repr

/-- The released Bindery's translation of one kernel: recipes, the three rings, and its pass runs. -/
structure KernelTr where
  recipes : List (List Word)
  ringM   : List FolioTr
  ringV   : List FolioTr
  ringS   : List FolioTr
  runs    : List RunPrincipal
  deriving DecidableEq, Repr

/-- An Interloan packet (Table 13-2): the fields of its header, its payload, its CRC (R361), and the header's reserved bits. -/
structure Packet where
  cls      : BitVec 4
  channel  : BitVec 2
  holdover : Bool
  len      : BitVec 9
  typ      : BitVec 3
  epoch    : BitVec 16
  src      : BitVec 16
  dst      : BitVec 16
  carrel   : Func
  seq      : BitVec 16
  reqId    : BitVec 16
  target   : Word
  payload  : List Byte
  /-- W3: CRC -/
  crc      : BitVec 32
  /-- reserved bits: W0 [7] and, above it, W0 [31:20]; W1 [31:26]; W3 [63:32] -/
  res0     : BitVec 13
  res1     : BitVec 6
  res3     : BitVec 32
  deriving DecidableEq, Repr

/-- A tally signal on the aisle network (R265): the destination pass and the increment. `core` none means every core. -/
structure TallySig where
  carrel : Func
  tag    : BitVec 32
  pass   : BitVec 32
  core   : Option (BitVec 8)
  tally  : BitVec 5
  inc    : BitVec 8
  deriving DecidableEq, Repr

/-- A write to a shelf's window from this chip (R318, R319). -/
structure WindowAccess where
  carrel : Func
  shelf  : ShelfNo
  offset : Nat
  data   : List Byte
  deriving DecidableEq, Repr

/-- A fault message to the Ledger (R412): what Table 16-1 records of it but what the Ledger adds. -/
structure LMsg where
  source   : BitVec 10
  kind     : BitVec 6
  code     : Code
  carrel   : Func
  holdover : Bool
  stamp    : Word
  addr     : Word
  tag      : BitVec 32
  /-- the detail; INFO of a record is its low 32 bits (R412) -/
  info     : Word
  deriving DecidableEq, Repr

/-- An operation at a memory-side adder (R346, R347) for a carrel; `typ` as ADD_TYPE numbers it (Table 5-4). -/
structure AdderOp where
  carrel : Func
  addr   : BitVec 48
  typ    : BitVec 3
  data   : List Byte
  /-- an error of the DRAM or of the far device that it meets, if any -/
  fail   : Option Code
  deriving DecidableEq, Repr

/-- A word written to a register, and the bits whose own event falls in the fabric cycle of the write (R14). -/
structure Written where
  v     : Word
  recur : Word
  deriving DecidableEq, Repr

/-- Data of a host request: the bytes written, or as many as a read asks for; and, as for `Written`, the bits that recur (R14). -/
structure HostData where
  bytes : List Byte
  recur : Word
  deriving DecidableEq, Repr

/-- A packet that arrives, and an error that the memory it names meets while it is served (R333, R354). -/
structure Arriving where
  packet : Packet
  fail   : Option Code
  deriving DecidableEq, Repr

/-- The nth enqueue that waits, and an error that its memory meets (R152, R158). -/
structure AppendOp where
  n    : Nat
  fail : Option Code
  deriving DecidableEq, Repr

/-- The HOLDING slip whose ZERO writes end, by its tag, and the unit of the holding whose write a far device fails (R342, R355). -/
structure ZeroDone where
  tag  : BitVec 32
  fail : Option Nat
  deriving DecidableEq, Repr

/-- One command: a row of spec/opcode_table.json, in the table's order. -/
inductive Instr where
  -- pins, boot and clock
  | pwrokRise
  | pwrokFall
  | pinReset
  | resetNDeassert (straps : BitVec 4)
  | store
  | header (h : HeaderRead)
  | resident (r : ResidentRead)
  | train (stks : List StackTrain) (ports : List PortTrain)
  | selftest (failed : List (Nat × Word))
  | bulk (part : List Byte)
  | configure
  | bootTimeLimit
  | bootSourceTimeout
  | cfgBootGo (v : Word)
  | refclkLost
  | refclkRestored
  | vcoreLow
  -- test access port
  | tapReset
  | extest (pins : BitVec 10)
  | samplePreload (pins load : BitVec 10)
  | idcode
  | clamp
  | highz
  | stackWsp (sel : BitVec 3) (len : BitVec 7) (data reply : Word)
  | hushScan (nbits : Nat)
  | ctlAccess (write : Bool) (off : BitVec 25) (v : Written)
  | bypass (code : BitVec 8) (tdi : Bool)
  -- SMBus
  | status (pec : Pec)
  | tempCompute (pec : Pec)
  | tempSram (pec : Pec)
  | power (pec : Pec)
  | vcoreReq (pec : Pec)
  | alertCauseRead (pec : Pec)
  | alertCauseClear (pec : Pec) (v : Byte) (recur : BitVec 6)
  | ident (pec : Pec)
  | powerCapRead (pec : Pec)
  | powerCapWrite (pec : Pec) (v : BitVec 16)
  | alertResponse
  | smbusStop
  -- stamp unit and period grid
  | stamp (sense : StampSense)
  | stampPulse (inputB : Bool) (width : Nat) (edge : Int)
  | epochFrame
  | stampLost
  | stampNoFrame
  | stampChangeArm
  | stampChangeCancel
  | relock
  | opFix (p : PowerReading)
  | planCutoff
  | planDelivery
  -- settings store
  | commit (section_ : Bool)
  | load (section_ : Bool)
  | cfgSsUnlock (v : Word)
  | ssCommandEnd (verified : Bool)
  -- Circulation
  | dbPtrWrite (func page : Func) (receipt : Bool) (ring : BitVec 5) (v : BitVec 32)
  | dbRestart (func page : Func) (receipt : Bool) (ring : BitVec 5)
  | wmarkClear (func page : Func) (receipt : Bool) (ring : BitVec 5)
  | ringEnable (k : BitVec 13) (ctl : Word)
  | ringDisable (k : BitVec 13) (ctl : Word)
  | ringDisableEffect (k : BitVec 13)
  | deskGrant
  | burstEnd (d : BitVec 4) (host : List Byte) (fail : Option Code)
  | receiptWrite (k : BitVec 13) (fail : Option Code)
  | notifyHoldoffEnd (k : BitVec 13)
  | enqueueAppend (n : AppendOp)
  | enqLimitWrite (c : Func) (v : Word)
  -- Catalogue
  | passTableRead (c : Func) (tag : BitVec 32)
  | noProgress (c : Func) (tag : BitVec 32)
  | catCancelSlip (c : Func) (tag : BitVec 32)
  | catCancelCarrel (c : Func)
  | catCancelRing (k : BitVec 13)
  | catSnapClear (c : Func)
  | catShareWrite (c : Func) (v : Word)
  -- Bindery, copies and the Keeper's slips
  | accession (slot : Bool) (tr : List KernelTr)
  | accessionDone (slot : Bool) (fail : Option Code)
  | copyChunk (c : Func) (tag : BitVec 32) (host : List Byte) (fail : Option Code)
  | register (c : Func) (tag : BitVec 32)
  | release (c : Func) (tag : BitVec 32)
  | pin (c : Func) (tag : BitVec 32)
  | unpin (c : Func) (tag : BitVec 32)
  | prefetch (c : Func) (tag : BitVec 32)
  | evict (c : Func) (tag : BitVec 32)
  | leafMoveStart (n : Nat)
  | leafMoveDone (n : Nat) (writeFails : Bool)
  -- passes on shelves
  | preloadStart (sh : ShelfNo)
  | preloadDone (sh : ShelfNo) (fail : Option Code)
  | passStart (sh : ShelfNo)
  | periodOverrun (sh : ShelfNo)
  | passEnd (sh : ShelfNo)
  | shelfWithdrawn (sh : ShelfNo)
  -- folios
  | folioHead (sh : ShelfNo) (core : BitVec 8) (e : Engine)
  | folioComplete (sh : ShelfNo) (core : BitVec 8) (e : Engine)
  | folioErrorEnd (sh : ShelfNo) (core : BitVec 8) (e : Engine) (n : Nat) (code : Code) (addr : Word)
  | nop (sh : ShelfNo) (core : BitVec 8) (e : Engine)
  | mma (sh : ShelfNo) (core : BitVec 8)
  | mmaSparse (sh : ShelfNo) (core : BitVec 8)
  | accClear (sh : ShelfNo) (core : BitVec 8)
  | accDrain (sh : ShelfNo) (core : BitVec 8)
  | accStore (sh : ShelfNo) (core : BitVec 8)
  | accLoad (sh : ShelfNo) (core : BitVec 8)
  | elemwiseAdd (sh : ShelfNo) (core : BitVec 8)
  | elemwiseSub (sh : ShelfNo) (core : BitVec 8)
  | elemwiseMul (sh : ShelfNo) (core : BitVec 8)
  | elemwiseFma (sh : ShelfNo) (core : BitVec 8)
  | elemwiseMax (sh : ShelfNo) (core : BitVec 8)
  | elemwiseMin (sh : ShelfNo) (core : BitVec 8)
  | convert (sh : ShelfNo) (core : BitVec 8)
  | scale (sh : ShelfNo) (core : BitVec 8)
  | exp (sh : ShelfNo) (core : BitVec 8)
  | rsqrt (sh : ShelfNo) (core : BitVec 8)
  | recip (sh : ShelfNo) (core : BitVec 8)
  | reduceSum (sh : ShelfNo) (core : BitVec 8)
  | reduceMax (sh : ShelfNo) (core : BitVec 8)
  | reduceMin (sh : ShelfNo) (core : BitVec 8)
  | reduceSumsq (sh : ShelfNo) (core : BitVec 8)
  | copy (sh : ShelfNo) (core : BitVec 8)
  | addAt (sh : ShelfNo) (core : BitVec 8)
  | fill (sh : ShelfNo) (core : BitVec 8)
  | gather (sh : ShelfNo) (core : BitVec 8)
  | scatter (sh : ShelfNo) (core : BitVec 8)
  | signalRemote (sh : ShelfNo) (core : BitVec 8)
  | wait (sh : ShelfNo) (core : BitVec 8) (e : Engine)
  | select (sh : ShelfNo) (core : BitVec 8) (e : Engine)
  | enqueue (sh : ShelfNo) (core : BitVec 8)
  | slipWrite (sh : ShelfNo) (core : BitVec 8)
  -- aisle traffic, lending, clearing
  | tallySignal (sh : ShelfNo) (sig : TallySig)
  | windowWrite (a : WindowAccess)
  | lendStart (sh : ShelfNo)
  | lendEnd (sh : ShelfNo)
  | clearStart (sh : ShelfNo)
  | clearDone (sh : ShelfNo) (verified : Bool)
  -- near and far memory
  | stackAdd (op : AdderOp)
  | fetchAdd (op : AdderOp)
  | compareSwap (op : AdderOp) (compare : Word)
  | retrainSlotEnd (stk : Fin 6) (lost : BitVec 32)
  | farLinkDown (p : BitVec 2)
  | farLinkUp (p : BitVec 2)
  | nearExtentWrite (c : Func) (stk : Fin 6) (v : Word)
  | farExtentWrite (c : Func) (v : Word)
  | regShareWrite (c : Func) (v : Word)
  | kprQuery (v : Word)
  | testStateRequest (stk : Fin 6)
  | testStateEnter (stk : Fin 6)
  | testStateLeave (stk : Fin 6) (t : StackTrain)
  | shiftInstruction (stk : Fin 6) (len : BitVec 7) (reply : Word)
  | shiftData (stk : Fin 6) (len : BitVec 7) (reply : Word)
  -- Interloan packets and links
  | ilnWrite (port : BitVec 2) (p : Packet)
  | ilnSignal (port : BitVec 2) (p : Packet)
  | ilnRead (port : BitVec 2) (p : Arriving)
  | ilnAdd (port : BitVec 2) (p : Arriving)
  | ilnResponse (port : BitVec 2) (p : Packet)
  | ilnAck (port : BitVec 2) (p : Packet)
  | ilnResend (port : BitVec 2) (p : Packet)
  | ilnSync (port : BitVec 2) (p : Packet)
  | ilnSyncAck (port : BitVec 2) (p : Packet)
  | hostReq (port : BitVec 2) (write : Bool) (func : Func) (target : Word) (data : HostData) (reqId : BitVec 16)
  | hostRsp (port : BitVec 2) (p : Packet)
  | retryTimeout (peer : BitVec 16) (channel : BitVec 2)
  | ackTimer (peer : BitVec 16) (channel : BitVec 2)
  | syncRetry (peer : BitVec 16)
  | ilnLinkLost (peer : BitVec 16)
  | ilnRemoteTimeout (reqId : BitVec 16)
  | hostTimeout (reqId : BitVec 16)
  | peerIdle (peer : BitVec 16)
  | portDown (p : BitVec 2)
  | portTrained (p : BitVec 2) (t : PortTrain)
  | disable (p : BitVec 2)
  | retrain (p : BitVec 2)
  | routeWrite (i : BitVec 4) (v : Word)
  | epochArm
  | epochCancel
  -- carrels and the manager
  | create (c : Func) (elastic : Bool)
  | openCarrel (c : Func)
  | freeze (c : Func)
  | carrelFrozen (c : Func)
  | thaw (c : Func)
  | save (c : Func)
  | restore (c : Func)
  | reset (c : Func) (squash : Bool)
  | drainLimit (c : Func)
  | drainComplete (c : Func)
  | destroy (c : Func)
  | roomAdd (c : Func) (r : BitVec 6)
  | roomRemove (c : Func) (r : BitVec 6)
  | mboxWrite (manager : Bool) (c : Func) (w : BitVec 4) (v : Word)
  | upSet (c : Func)
  | upClear (c : Func)
  | downSet (c : Func)
  | downClear (c : Func)
  | cancelSlip (c : Func)
  | cancelRing (c : Func)
  | cancelAll (c : Func)
  | query (c : Func)
  -- Bell
  | belDoorbell (who : Requester) (n : BitVec 11)
  | belPendSet (who : Requester) (n : BitVec 11)
  | belComplete (n : BitVec 11)
  | bellRoute
  | belQHeadWrite (k : BitVec 2) (v : Word)
  -- Ledger
  | ledgerMessage (src : BitVec 10) (natural : Option LMsg)
  | ldgLogHead (v : Word)
  | logConfigWrite (ctl : Bool) (v : Word)
  | ldgBlockReset (v : Word)
  | ldgOosClear (v : Word)
  | ldgHeartbeat (v : Word)
  | watchdogExpired
  -- observation
  | hush
  | scanStart
  | scanDone
  | cntClear
  | cntSel (v : Word)
  | wfgCmd (v : Word)
  | wfgDone
  | onlineSelftestFull (r : BitVec 6)
  | onlineSelftestMemory (r : BitVec 6)
  | selftestDone (failed : Word)
  | bisectRelease (v : Word)
  -- power
  | domainOn (d : BitVec 7)
  | domainOff (d : BitVec 7)
  | domainRetain (d : BitVec 7)
  | domainSwitchDone
  | thermalSample (r : BitVec 6) (compute sram : BitVec 16)
  -- the rest of the register map and the rows added later
  | registerWrite (who : Requester) (off : BitVec 25) (size : Nat) (v : Written)
  | hushRelease
  | shelfJoin (sh : ShelfNo)
  | zeroWriteDone (c : Func) (tag : ZeroDone)
  | waitForInterrupt (k : BitVec 2)
  | normalBankReturn (k : BitVec 2)
  deriving DecidableEq, Repr

end Sys2Proof
end

