-- ==== Sys2Proof/Decode.lean ====
section
/-! DEFINITION. Words of the opcode table. The table gives no row any bits: its commands arrive as register writes, packets, pin events
and events inside the chip, so no word spells a command. -/

namespace Sys2Proof

/-- The command a word spells by the table's bits: no row of the table gives bits, so no word spells one. -/
def decodeTableWord (_nbits _w : Nat) : Option Instr := none

end Sys2Proof
end

