-- ==== Sys2Proof/Machine/Bits.lean ====
section
/-! DEFINITION. Bit fields of words, little-endian bytes, saturating counts and the two checksums of the manual
(R8 to R15, Table 3-6, R119). -/

namespace Sys2Proof.Machine

/-- Field [lo + width − 1 : lo] of a word as a number (R8, Table 0-2). -/
def fld (w : Word) (lo width : Nat) : Nat := (w.toNat >>> lo) % 2 ^ width

/-- A word with ones exactly in field [lo + width − 1 : lo]. -/
def fieldMask (lo width : Nat) : Word := BitVec.ofNat 64 ((2 ^ width - 1) <<< lo)

/-- A word with field [lo + width − 1 : lo] set to v mod 2^width, every other bit kept. -/
def setFld (w : Word) (lo width v : Nat) : Word :=
  (w &&& ~~~ (fieldMask lo width)) ||| BitVec.ofNat 64 ((v % 2 ^ width) <<< lo)

/-- Bit i of a word. -/
def bitAt (w : Word) (i : Nat) : Bool := w.getLsbD i

/-- A word with bit i set to b. -/
def setBitAt (w : Word) (i : Nat) (b : Bool) : Word := setFld w i 1 (if b then 1 else 0)

/-- A word made of one field. -/
def mk1 (lo v : Nat) : Word := BitVec.ofNat 64 (v <<< lo)

/-- The number a flag stands for. -/
def b2n (b : Bool) : Nat := if b then 1 else 0

/-- A count that saturates at its largest value (R13 and the field tables). -/
def satAdd (max a b : Nat) : Nat := min max (a + b)

/-- Two's complement reading of the low `width` bits of n. -/
def sext (width n : Nat) : Int :=
  let m := n % 2 ^ width
  if m < 2 ^ (width - 1) then (m : Int) else (m : Int) - (2 ^ width : Nat)

/-- Low `width` bits of an integer, as a number. -/
def wrapInt (width : Nat) (v : Int) : Nat := (v % (2 ^ width : Nat)).toNat

/-- The n low bytes of a number, least significant first (Table 0-2: little-endian). -/
def leBytes : Nat → Nat → List Byte
  | 0, _ => []
  | n + 1, v => BitVec.ofNat 8 v :: leBytes n (v / 256)

/-- The number a little-endian byte list spells. -/
def leVal : List Byte → Nat
  | [] => 0
  | b :: bs => b.toNat + 256 * leVal bs

/-- A word from its eight bytes. -/
def wordOfBytes (bs : List Byte) : Word := BitVec.ofNat 64 (leVal (bs.take 8))

/-- The 64-bit words of a byte list, Word n from bytes 8n to 8n + 7 (R9). -/
def wordsOfBytes : Nat → List Byte → List Word
  | 0, _ => []
  | n + 1, bs => wordOfBytes bs :: wordsOfBytes n (bs.drop 8)

/-- The bytes of a list of words (R9). -/
def bytesOfWords (ws : List Word) : List Byte := ws.flatMap (fun w => leBytes 8 w.toNat)

/-- Word i of a structure; 0 beyond its end. -/
def wordAt (ws : List Word) (i : Nat) : Word := ws.getD i 0

/-- The list with element i replaced; unchanged where i is beyond its end. -/
def listSet {α : Type} (l : List α) (i : Nat) (a : α) : List α := l.set i a

/-- One bit step of CRC-32C in reflected form (Table 3-6). -/
def crc32cBit (c : Nat) : Nat := if c % 2 = 1 then (c / 2) ^^^ 0x82F63B78 else c / 2

/-- CRC-32C over one more byte. -/
def crc32cByte (c : Nat) (b : Byte) : Nat :=
  crc32cBit (crc32cBit (crc32cBit (crc32cBit (crc32cBit (crc32cBit (crc32cBit (crc32cBit (c ^^^ b.toNat))))))))

/-- CRC-32C with the parameters of Table 3-6. -/
def crc32c (bs : List Byte) : Nat := (bs.foldl crc32cByte 0xFFFFFFFF) ^^^ 0xFFFFFFFF

/-- One bit step of the frame CRC, most significant bit first (R119). -/
def crc8Bit (c : Nat) : Nat := if c / 128 % 2 = 1 then (c * 2 % 256) ^^^ 0x07 else c * 2 % 256

/-- Frame CRC over one more byte (R119). -/
def crc8Byte (c : Nat) (b : Nat) : Nat :=
  crc8Bit (crc8Bit (crc8Bit (crc8Bit (crc8Bit (crc8Bit (crc8Bit (crc8Bit (c ^^^ b))))))))

/-- CRC-8 of the bytes in order (R119). -/
def crc8 (bs : List Nat) : Nat := bs.foldl crc8Byte 0

/-- The number whose bits are the list's, least significant first. -/
def natOfBits : List Bool → Nat
  | [] => 0
  | b :: bs => b2n b + 2 * natOfBits bs

/-- Ceiling division (the manual's "rounded up"). -/
def ceilDiv (a b : Nat) : Nat := (a + b - 1) / b

/-- a rounded up to a multiple of b. -/
def alignUp (a b : Nat) : Nat := ceilDiv a b * b

/-- Whether two half-open intervals [a, a+n) and [b, b+m) share an address. -/
def overlaps (a n b m : Nat) : Bool := decide (a < b + m) && decide (b < a + n)

/-- Position of the highest set bit of n plus one, by fuel; 0 for 0. -/
def bitLen : Nat → Nat → Nat
  | 0, _ => 0
  | k + 1, n => if n = 0 then 0 else 1 + bitLen k (n / 2)

/-- Number of set bits among the low k bits. -/
def popCount : Nat → Nat → Nat
  | 0, _ => 0
  | k + 1, n => n % 2 + popCount k (n / 2)

/-- The numbers below k whose bit is set in n, rising. -/
def bitList (k n : Nat) : List Nat := (List.range k).filter (fun i => n.testBit i)

/-- The maximum of a list of numbers; 0 for the empty list. -/
def listMax (l : List Nat) : Nat := l.foldl max 0

/-- The sum of a list of numbers. -/
def listSum (l : List Nat) : Nat := l.foldl (· + ·) 0

end Sys2Proof.Machine
end

