-- ==== Sys2Proof/Machine/Formats.lean ====
section
/-! DEFINITION. Number formats (R278 to R284): codes, element values, exact magnitudes, rounding (R297, R298), results that do not fit
(R280), block scales (R300) and the draw of stochastic rounding (R299). -/

namespace Sys2Proof.Machine

/-! ## Values -/

/-- An operand or result value: a NaN, an infinity by sign, −0, or m × 2^e exactly (+0 is m = 0). -/
inductive Val where
  | nan
  | inf (neg : Bool)
  | negZero
  | fin (m : Int) (e : Int)
  deriving DecidableEq, Repr

/-- +0. -/
def Val.zero : Val := .fin 0 0

/-- The value is +0 or −0. -/
def Val.isZero : Val → Bool
  | .negZero => true
  | .fin m _ => m == 0
  | _ => false

/-- The sign of the value is negative. -/
def Val.isNeg : Val → Bool
  | .inf n => n
  | .negZero => true
  | .fin m _ => decide (m < 0)
  | .nan => false

/-- Magnitude m × 2^k as an integer for k ≥ 0. -/
def shiftInt (m : Int) (k : Int) : Int := if 0 ≤ k then m * 2 ^ k.toNat else m / 2 ^ (-k).toNat

/-- a × 2^ea + b × 2^eb exactly. -/
def Val.addFin (a ea b eb : Int) : Val :=
  let e := min ea eb
  .fin (a * 2 ^ (ea - e).toNat + b * 2 ^ (eb - e).toNat) e

/-- a × 2^ea compared with b × 2^eb. -/
def dyLt (a ea b eb : Int) : Bool :=
  let e := min ea eb
  decide (a * 2 ^ (ea - e).toNat < b * 2 ^ (eb - e).toNat)

/-- An exact positive magnitude as rounding needs it: floor(X × 2^k), whether X × 2^k is an integer, and floor(log2 X). -/
structure Mag where
  floorAt : Int → Nat
  exactAt : Int → Bool
  log     : Int

/-- The magnitude m × 2^e, m > 0. -/
def Mag.ofDyadic (m : Nat) (e : Int) : Mag :=
  { floorAt := fun k => if 0 ≤ e + k then m * 2 ^ (e + k).toNat else m / 2 ^ (-(e + k)).toNat
    exactAt := fun k => if 0 ≤ e + k then true else m % 2 ^ (-(e + k)).toNat == 0
    log := (m.log2 : Int) + e }

/-! ## Rounding (R297, R298) -/

/-- X in units of 2^q rounded to an integer: to nearest even, or stochastically with a 32-bit draw. -/
def Mag.roundAt (x : Mag) (q : Int) (stoch : Bool) (draw : Nat) : Nat :=
  let a := x.floorAt (-q)
  if x.exactAt (-q) then a
  else if stoch then (if 2 ^ 32 ≤ x.floorAt (32 - q) % 2 ^ 32 + draw then a + 1 else a)
  else
    let half := x.floorAt (1 - q) % 2 == 1
    let sticky := !x.exactAt (1 - q)
    if half && (sticky || a % 2 == 1) then a + 1 else a

/-! ## Formats (Table 10-1) -/

/-- What the all-ones exponent of a float element means: IEEE, NaN only at all ones (E4M3), or finite values. -/
inductive FltSpec where
  | ieee
  | nanOnly
  | none
  deriving DecidableEq, Repr

/-- An element encoding: two's complement with a binary point, or a float. -/
inductive Elem where
  | int (bits frac : Nat)
  | flt (ebits mbits bias : Nat) (spec : FltSpec)
  deriving DecidableEq, Repr

/-- Width of an element in bits. -/
def Elem.bits : Elem → Nat
  | .int b _ => b
  | .flt e m _ _ => 1 + e + m

/-- A format: element, block size (0 for none), HB (E5M3) or MX (E8M0) scale, and its Use letters. -/
structure Fmt where
  elem  : Elem
  block : Nat
  hb    : Bool
  emax  : Int
  use   : List Char
  deriving DecidableEq, Repr

/-- Scalar format. -/
def Fmt.scalar (e : Elem) (emax : Int) (use : List Char) : Fmt := ⟨e, 0, false, emax, use⟩

/-- The format of a code (Table 10-1); LA128 is code 0x40, whose words are not elements. -/
def fmtOf (code : Nat) : Option Fmt :=
  if code = 0x01 then some (.scalar (.int 4 0) 4 ['M', 'S', 'C', 'D'])
  else if code = 0x02 then some (.scalar (.int 8 0) 8 ['M', 'C', 'D'])
  else if code = 0x03 then some (.scalar (.int 16 0) 16 ['V', 'C', 'D'])
  else if code = 0x04 then some (.scalar (.int 32 0) 32 ['V', 'C', 'D', 'A'])
  else if code = 0x05 then some (.scalar (.int 64 0) 64 ['A'])
  else if code = 0x10 then some (.scalar (.flt 5 10 15 .ieee) 16 ['M', 'V', 'C', 'D'])
  else if code = 0x11 then some (.scalar (.flt 8 7 127 .ieee) 128 ['M', 'V', 'C', 'D', 'A'])
  else if code = 0x12 then some (.scalar (.flt 8 23 127 .ieee) 128 ['V', 'C', 'D', 'A'])
  else if code = 0x18 then some (.scalar (.flt 4 3 7 .nanOnly) 9 ['M', 'C', 'D'])
  else if code = 0x19 then some (.scalar (.flt 5 2 15 .ieee) 16 ['M', 'C', 'D'])
  else if code = 0x20 then some ⟨.flt 2 1 1 .none, 32, false, 130, ['M', 'S', 'C', 'D']⟩
  else if code = 0x21 then some ⟨.flt 2 3 1 .none, 32, false, 130, ['M', 'C', 'D']⟩
  else if code = 0x22 then some ⟨.flt 3 2 3 .none, 32, false, 132, ['M', 'C', 'D']⟩
  else if code = 0x23 then some ⟨.flt 4 3 7 .nanOnly, 32, false, 136, ['M', 'C', 'D']⟩
  else if code = 0x24 then some ⟨.flt 5 2 15 .ieee, 32, false, 143, ['M', 'C', 'D']⟩
  else if code = 0x25 then some ⟨.int 8 6, 32, false, 129, ['M', 'C', 'D']⟩
  else if code = 0x30 then some ⟨.int 4 0, 16, true, 20, ['M', 'C', 'D']⟩
  else if code = 0x31 then some ⟨.int 4 0, 32, true, 20, ['M', 'S', 'C', 'D']⟩
  else if code = 0x32 then some ⟨.int 8 0, 16, true, 24, ['M', 'C', 'D']⟩
  else if code = 0x33 then some ⟨.int 8 0, 32, true, 24, ['M', 'C', 'D']⟩
  else if code = 0x40 then some (.scalar (.int 128 0) 0 ['C', 'A'])
  else none

/-- A code with a Use letter. -/
def fmtUse (code : Nat) (u : Char) : Bool :=
  match fmtOf code with
  | some f => f.use.contains u
  | none => false

/-- Block size of a code; 0 for none. -/
def fmtBlock (code : Nat) : Nat := match fmtOf code with
  | some f => f.block
  | none => 0

/-- Whether a code is an integer scalar format; LA128 is none. -/
def fmtIsInt (code : Nat) : Bool := code != 0x40 && match fmtOf code with
  | some ⟨.int _ 0, 0, _, _, _⟩ => true
  | _ => false

/-- Bytes of one block of a format: elements packed, then the scale byte (R282). -/
def Fmt.blockBytes (f : Fmt) : Nat := f.block * f.elem.bits / 8 + 1

/-- Bytes of n elements of a format: whole blocks, or bits rounded up to a byte (R281, R282). -/
def fmtBytes (code n : Nat) : Nat :=
  match fmtOf code with
  | some f => if f.block = 0 then ceilDiv (n * f.elem.bits) 8 else n / f.block * f.blockBytes
  | none => 0

/-! ## Reading elements -/

/-- Element i of a packed bit string (R281). -/
def packedAt (bs : List Byte) (bits i : Nat) : Nat := leVal bs >>> (bits * i) % 2 ^ bits

/-- The value an element's bits encode (R279, R281, R283). -/
def Elem.value (e : Elem) (n : Nat) : Val :=
  match e with
  | .int b fr => .fin (sext b n) (-(fr : Int))
  | .flt eb mb bias spec =>
    let m := n % 2 ^ mb
    let x := n / 2 ^ mb % 2 ^ eb
    let neg := n / 2 ^ (eb + mb) % 2 == 1
    let sg : Int := if neg then -1 else 1
    if spec = .ieee ∧ x = 2 ^ eb - 1 then (if m = 0 then .inf neg else .nan)
    else if spec = .nanOnly ∧ x = 2 ^ eb - 1 ∧ m = 2 ^ mb - 1 then .nan
    else if x = 0 then (if m = 0 then (if neg then .negZero else .zero) else .fin (sg * m) (1 - (bias : Int) - mb))
    else .fin (sg * (2 ^ mb + m : Nat)) ((x : Int) - bias - mb)

/-- σ and unit exponent of a scale byte; none for NaN (Table 10-3, R283). -/
def scaleOf (hb : Bool) (b : Nat) : Option (Nat × Int) :=
  if b = 0xFF then none
  else if hb then (if b / 8 = 0 then some (b % 8, -17) else some (8 + b % 8, (b / 8 : Nat) - 18))
  else some (1, (b : Int) - 127)

/-- A value times a block scale. -/
def Val.scaled (v : Val) (s : Option (Nat × Int)) : Val :=
  match s with
  | none => .nan
  | some (sg, u) =>
    match v with
    | .fin m e => .fin (m * sg) (e + u)
    | v => v

/-- One block of elements. -/
def Fmt.readBlock (f : Fmt) (bs : List Byte) : List Val :=
  let nb := f.block * f.elem.bits / 8
  let s := scaleOf f.hb (bs.getD nb 0).toNat
  (List.range f.block).map (fun i => (f.elem.value (packedAt (bs.take nb) f.elem.bits i)).scaled s)

/-- n elements from bytes, exactly (R281, R282). -/
def Fmt.read (f : Fmt) (n : Nat) (bs : List Byte) : List Val :=
  if f.block = 0 then (List.range n).map (fun i => f.elem.value (packedAt bs f.elem.bits i))
  else (List.range (n / f.block)).flatMap (fun k => f.readBlock ((bs.drop (k * f.blockBytes)).take f.blockBytes))

/-- n elements of a format code. -/
def fmtRead (code n : Nat) (bs : List Byte) : List Val :=
  match fmtOf code with
  | some f => f.read n bs
  | none => []

/-! ## Writing elements (R280, R297, R298, R300) -/

/-- A result before rounding: a value, or a magnitude with a sign that is no dyadic number. -/
inductive Res where
  | val (v : Val)
  | mag (neg : Bool) (x : Mag)

/-- Integer result of a magnitude: rounded and saturated (R280, R296). -/
def satInt (bits : Nat) (neg : Bool) (n : Nat) : Nat :=
  if neg then wrapInt bits (-(min n (2 ^ (bits - 1)) : Nat)) else min n (2 ^ (bits - 1) - 1)

/-- NaN bits of an element (Table 10-2); an integer gives 0. -/
def Elem.nanBits : Elem → Nat
  | .int _ _ => 0
  | .flt eb mb _ .ieee => (2 ^ eb - 1) * 2 ^ mb + 2 ^ (mb - 1)
  | .flt eb mb _ .nanOnly => 2 ^ (eb + mb) - 1
  | .flt _ _ _ .none => 0

/-- Largest finite magnitude of a float element, as its bits. -/
def Elem.maxBits : Elem → Nat
  | .int b _ => 2 ^ (b - 1) - 1
  | .flt eb mb _ .ieee => (2 ^ eb - 1) * 2 ^ mb - 1
  | .flt eb mb _ .nanOnly => 2 ^ (eb + mb) - 2
  | .flt eb mb _ .none => 2 ^ (eb + mb) - 1

/-- Overflow result bits of an element by sign (Table 10-2); `sat` for an element of a block, which saturates (R300). -/
def Elem.overBits (e : Elem) (neg sat : Bool) : Nat :=
  match e with
  | .int b _ => if neg then 2 ^ (b - 1) else 2 ^ (b - 1) - 1
  | .flt eb mb _ spec =>
    let s := if neg then 2 ^ (eb + mb) else 0
    if spec = .ieee ∧ sat = false then s + (2 ^ eb - 1) * 2 ^ mb else s + e.maxBits

/-- Bits of a magnitude rounded into an element (R297, R298, R280). -/
def Elem.roundBits (el : Elem) (neg : Bool) (x : Mag) (stoch sat : Bool) (draw : Nat) : Nat :=
  match el with
  | .int b fr => satInt b neg (x.roundAt (-(fr : Int)) stoch draw)
  | .flt eb mb bias _ =>
    let q : Int := max x.log (1 - (bias : Int)) - mb
    let n := x.roundAt q stoch draw
    let s := if neg then 2 ^ (eb + mb) else 0
    let bits : Nat :=
      if n < 2 ^ mb then n
      else
        -- exponent field of the value n × 2^q, whose significand is n or, after a carry, n / 2
        let ex := (q + mb + bias + (if n = 2 ^ (mb + 1) then 1 else 0)).toNat
        ex * 2 ^ mb + (if n = 2 ^ (mb + 1) then 0 else n - 2 ^ mb)
    if el.maxBits < bits then el.overBits neg sat else s + bits

/-- Bits of a result in an element. -/
def Elem.encode (el : Elem) (r : Res) (stoch sat : Bool) (draw : Nat) : Nat :=
  match r with
  | .val .nan => el.nanBits
  | .val (.inf neg) => el.overBits neg sat
  | .val .negZero => match el with
    | .int _ _ => 0
    | .flt eb mb _ _ => 2 ^ (eb + mb)
  | .val (.fin m e) => if m = 0 then 0 else el.roundBits (decide (m < 0)) (Mag.ofDyadic m.natAbs e) stoch sat draw
  | .mag neg x => el.roundBits neg x stoch sat draw

/-- Numbers of `bits` bits packed least significant first into whole bytes (R281). -/
def packBits (bits : Nat) (l : List Nat) : List Byte :=
  leBytes (ceilDiv (bits * l.length) 8) ((l.zip (List.range l.length)).foldl (fun a p => a + p.1 * 2 ^ (bits * p.2)) 0)

/-- A result divided by a block scale σ × 2^u. -/
def Res.divScale (r : Res) (sg : Nat) (u : Int) : Res :=
  match r with
  | .val (.fin m e) =>
    if m = 0 then .val .zero
    else
      let n := m.natAbs
      let e := e - u
      .mag (decide (m < 0))
        { floorAt := fun k => if 0 ≤ e + k then n * 2 ^ (e + k).toNat / sg else n / (sg * 2 ^ (-(e + k)).toNat)
          exactAt := fun k => if 0 ≤ e + k then n * 2 ^ (e + k).toNat % sg == 0 else n % (sg * 2 ^ (-(e + k)).toNat) == 0
          log :=
            let lg : Int := (n.log2 : Int) - sg.log2
            -- floor(log2(n / σ)) is lg or lg − 1
            (if (if 0 ≤ lg then sg * 2 ^ lg.toNat ≤ n else sg ≤ n * 2 ^ (-lg).toNat) then lg else lg - 1) + e }
  | r => r

/-- A ≤ σ × 2^u × c, for A = m × 2^e. -/
def scaleCovers (m : Nat) (e : Int) (sg : Nat) (u : Int) (c : Nat) : Bool := !dyLt ((sg * c : Nat) : Int) u (m : Int) e

/-- The largest |X| of a block's finite values. -/
def blockMax (l : List Val) : Nat × Int :=
  l.foldl (fun (a : Nat × Int) v => match v with
    | .fin m e => if dyLt (a.1 : Int) a.2 (m.natAbs : Int) e then (m.natAbs, e) else a
    | _ => a) (0, 0)

/-- m of R300: the largest exponent of an MX element. -/
def Elem.mxExp : Elem → Int
  | .int _ _ => 0
  | .flt 2 _ _ _ => 2
  | .flt 3 _ _ _ => 4
  | .flt 4 _ _ _ => 8
  | .flt _ _ _ _ => 15

/-- The scale byte of a block (R300). -/
def Fmt.pickScale (f : Fmt) (l : List Val) : Nat :=
  let (m, e) := blockMax l
  if m = 0 then (if f.hb then 0x78 else 0x7F)
  else if f.hb then
    let c := 2 ^ (f.elem.bits - 1) - 1
    ((List.range 255).find? (fun b => match scaleOf true b with
      | some (sg, u) => scaleCovers m e sg u c
      | none => false)).getD 0xFE
  else
    let x : Int := (m.log2 : Int) + e - f.elem.mxExp
    (max (-127) (min 127 x) + 127).toNat

/-- One block written; `bad` marks it as a NaN block (R280, R300). -/
def Fmt.writeBlock (f : Fmt) (l : List Val) (bad : Bool) (stoch : Bool) (draws : List Nat) : List Byte :=
  let nb := f.block * f.elem.bits / 8
  let nonfin := l.any (fun v => match v with
    | .nan => true
    | .inf _ => true
    | _ => false)
  if bad || nonfin then List.replicate nb 0 ++ [0xFF]
  else
    let b := f.pickScale l
    let s := (scaleOf f.hb b).getD (1, 0)
    packBits f.elem.bits ((l.zip draws).map (fun p => f.elem.encode ((Res.val p.1).divScale s.1 s.2) stoch true p.2)) ++ [BitVec.ofNat 8 b]

/-- Results written in a scalar format. -/
def Fmt.writeScalar (f : Fmt) (l : List Res) (stoch : Bool) (draws : List Nat) : List Byte :=
  packBits f.elem.bits ((l.zip draws).map (fun p => f.elem.encode p.1 stoch false p.2))

/-- The value of a result that is one. -/
def Res.toVal : Res → Val
  | .val v => v
  | .mag _ _ => .nan

/-- Results written in a format code; `bads` marks elements whose block becomes a NaN block (R300). -/
def fmtWrite (code : Nat) (l : List Res) (bads : List Bool) (stoch : Bool) (draws : List Nat) : List Byte :=
  match fmtOf code with
  | none => []
  | some f =>
    if f.block = 0 then f.writeScalar l stoch draws
    else (List.range (l.length / f.block)).flatMap (fun k =>
      f.writeBlock (((l.drop (k * f.block)).take f.block).map Res.toVal) (((bads.drop (k * f.block)).take f.block).any id) stoch
        ((draws.drop (k * f.block)).take f.block))

/-! ## The draw (R299) -/

/-- mix of R299. -/
def mix64 (z : Nat) : Nat :=
  let z := (z ^^^ (z >>> 30)) * 0xBF58476D1CE4E5B9 % 2 ^ 64
  let z := (z ^^^ (z >>> 27)) * 0x94D049BB133111EB % 2 ^ 64
  z ^^^ (z >>> 31)

/-- The 32-bit draw of an element (R299). -/
def drawOf (seed tensor slot lap sliver ordinal : Nat) : Nat :=
  let c0 := tensor + 2 ^ 16 * slot + 2 ^ 28 * lap
  let c1 := sliver + 2 ^ 32 * ordinal
  mix64 (mix64 (seed ^^^ c0) ^^^ c1) / 2 ^ 32

end Sys2Proof.Machine
end

