-- ==== Sys2Proof/Machine/Tab.lean ====
section
/-! DEFINITION. Sparse arrays in one canonical form: keys strictly rising. Register arrays, unit tables and memory are held this
way, so that equal contents are equal data. A key that is not listed reads as the array's default. -/

namespace Sys2Proof.Machine

/-- A sparse array: (index, value) pairs, indices strictly rising. -/
abbrev Tab (α : Type) := List (Nat × α)

/-- The value listed under a key. -/
def Tab.find? {α : Type} : Tab α → Nat → Option α
  | [], _ => none
  | (k, v) :: t, n => if n = k then some v else Tab.find? t n

/-- The value under a key, the default where none is listed. -/
def Tab.getD {α : Type} (t : Tab α) (n : Nat) (d : α) : α := (Tab.find? t n).getD d

/-- Whether a key is listed. -/
def Tab.mem {α : Type} (t : Tab α) (n : Nat) : Bool := (Tab.find? t n).isSome

/-- The array with a key listed, in its place in the order. -/
def Tab.insert {α : Type} : Tab α → Nat → α → Tab α
  | [], n, v => [(n, v)]
  | (k, w) :: t, n, v =>
    if n < k then (n, v) :: (k, w) :: t
    else if n = k then (n, v) :: t
    else (k, w) :: Tab.insert t n v

/-- The array with a key not listed. -/
def Tab.erase {α : Type} (t : Tab α) (n : Nat) : Tab α := t.filter (fun p => p.1 != n)

/-- The array with no key in [lo, lo + n) listed. -/
def Tab.eraseRange {α : Type} (t : Tab α) (lo n : Nat) : Tab α :=
  t.filter (fun p => decide (p.1 < lo) || decide (lo + n ≤ p.1))

/-- A write: the default is not listed, so the form stays canonical. -/
def Tab.put {α : Type} [DecidableEq α] (t : Tab α) (n : Nat) (v d : α) : Tab α :=
  if v = d then Tab.erase t n else Tab.insert t n v

/-- An update of one element of an array of records. -/
def Tab.modify {α : Type} [DecidableEq α] (t : Tab α) (n : Nat) (d : α) (f : α → α) : Tab α :=
  Tab.put t n (f (Tab.getD t n d)) d

/-- Keys strictly rising from a bound. -/
def Tab.sortedFrom {α : Type} : Nat → Tab α → Bool
  | _, [] => true
  | lo, (k, _) :: t => decide (lo ≤ k) && Tab.sortedFrom (k + 1) t

/-- The canonical form: keys strictly rising, no entry equal to its default. -/
def Tab.wf {α : Type} [DecidableEq α] (t : Tab α) (d : Nat → α) : Bool :=
  Tab.sortedFrom 0 t && t.all (fun p => decide (p.2 ≠ d p.1))

/-- The first entry a test accepts. -/
def Tab.first? {α : Type} (t : Tab α) (f : Nat × α → Bool) : Option (Nat × α) := List.find? f t

/-- The keys listed. -/
def Tab.keys {α : Type} (t : Tab α) : List Nat := t.map (·.1)

/-- The values listed. -/
def Tab.vals {α : Type} (t : Tab α) : List α := t.map (·.2)

end Sys2Proof.Machine
end

