-- ==== Sys2Proof/Machine/Mem.lean ====
section
/-! DEFINITION. Bytes of the chip's local address map (Table 13-1), one sparse list in canonical form; an unlisted byte reads 0
(DESIGN CHOICE, notes/assumptions/4.md). -/

namespace Sys2Proof.Machine

/-- The local memories: near tier, far tier, shelf stores and folio memories, keyed by local address. -/
abbrev Memory := List Host.Cell

/-- What an unlisted byte reads as. -/
def Memory.fill : Byte := 0

/-- One byte. -/
def Memory.read (m : Memory) (a : Nat) : Byte := Tab.getD m a Memory.fill

/-- Write one byte; the fill value is not listed. -/
def Memory.write (m : Memory) (a : Nat) (b : Byte) : Memory := Tab.put m a b Memory.fill

/-- n bytes from a. -/
def Memory.readN (m : Memory) (a : Nat) : Nat → List Byte
  | 0 => []
  | n + 1 => Memory.read m a :: Memory.readN m (a + 1) n

/-- A list of bytes written from a. -/
def Memory.writeN (m : Memory) (a : Nat) : List Byte → Memory
  | [] => m
  | b :: bs => Memory.writeN (Memory.write m a b) (a + 1) bs

/-- n bytes from a cleared to zero, or lost (R85): nothing listed there any more. -/
def Memory.clear (m : Memory) (a n : Nat) : Memory := Tab.eraseRange m a n

/-- The canonical form of memory. -/
def Memory.wf (m : Memory) : Bool := Tab.wf m (fun _ => Memory.fill)

/-- A little-endian number of n bytes. -/
def Memory.readLe (m : Memory) (a n : Nat) : Nat := leVal (Memory.readN m a n)

/-- A little-endian number written as n bytes. -/
def Memory.writeLe (m : Memory) (a n v : Nat) : Memory := Memory.writeN m a (leBytes n v)

/-- The 64-bit word at a. -/
def Memory.readWord (m : Memory) (a : Nat) : Word := BitVec.ofNat 64 (Memory.readLe m a 8)

/-- n words from a (R9). -/
def Memory.readWords (m : Memory) (a : Nat) : Nat → List Word
  | 0 => []
  | n + 1 => Memory.readWord m a :: Memory.readWords m (a + 8) n

/-- Local base of the far tier (Table 13-1). -/
def farBase : Nat := 0x100000000000

/-- Local base of the shelf stores (Table 13-1). -/
def storeBase : Nat := 0x200000000000

/-- Address of byte a of shelf s's store (Tables 13-1, 16-1). -/
def storeAddr (s a : Nat) : Nat := storeBase + (0x80000 * s + a)

/-- Address of byte a of shelf s's folio memory (Table 13-1). -/
def folioAddr (s a : Nat) : Nat := 0x200100000000 + (0x40000 * s + a)

end Sys2Proof.Machine
end

