-- ==== Sys2Proof/Machine/Parts/Chip.lean ====
section
/-! DEFINITION. State of the parts around the units: pins, test port, SMBus target, settings store, boot, Stamp unit. Registers that
Tables 19-3 to 19-15 name are held in the register file; these records hold what the registers do not show. -/

namespace Sys2Proof.Machine

/-- The life the sideband pins are in (Table 2-10, R61, R69, R89). -/
inductive Life where
  /-- PWROK low: the whole chiplet held in reset (R71) -/
  | off
  /-- RESET_N low, or within its 10 µs (R72) -/
  | reset
  /-- from RESET_N deassertion, or a block reset, until service -/
  | boot
  | service
  /-- phase 0xF (R89) or a trip in the reset or boot life (R69): SPI pins released, SB_LIVE high, ranges off -/
  | failed
  deriving DecidableEq, Repr

/-- Pins and the always-on domain's watchers (R56, R57 to R76). -/
structure Pins where
  life      : Life
  /-- filtered level of RESET_N (R71) -/
  resetN    : Bool
  sbLive    : Bool
  /-- the THERMTRIP_N latch: asserted until PWROK falls (R69) -/
  thermTrip : Bool
  /-- REFCLK within specification (R56) -/
  refclk    : Bool
  /-- VCORE_LOW in force (R76) -/
  vcoreLow  : Bool
  /-- boundary register as last captured and as last preloaded (R53) -/
  boundary  : BitVec 10
  preload   : BitVec 10
  /-- EXTEST or CLAMP drives the preloaded outputs -/
  driving   : Bool
  highz     : Bool
  deriving DecidableEq, Repr

/-- The test access port (R51, R52). -/
structure Tap where
  /-- instruction register, Table 2-4 -/
  ir       : BitVec 8
  bypass   : Bool
  /-- stack selected for STACK_WSP (R50) -/
  stk      : BitVec 3
  /-- the data register as last shifted out: IDCODE, CTL_ACCESS read data, a wrapper reply or the BUSY answer -/
  data     : Word
  busy     : Bool
  /-- bits of the scan image already shifted out, and the last bits shifted (R447) -/
  scanPos  : Nat
  scanBits : List Bool
  deriving DecidableEq, Repr

/-- What the SMBus target last answered (R66). -/
inductive SmbReply where
  | none
  | nack
  | ack (bytes : List Byte)
  deriving DecidableEq, Repr

/-- The SMBus target (R64, R66 to R68). -/
structure Smb where
  /-- CFG_SMB_CTL in effect since the last stop condition (R64) -/
  active : Word
  /-- POWER_CAP in W; 0 none (R66) -/
  cap    : BitVec 16
  /-- ALERT_CAUSE (R67) -/
  cause  : BitVec 6
  reply  : SmbReply
  deriving DecidableEq, Repr

/-- One section of the settings store (R94). -/
structure Section where
  /-- the 32,764 bytes; an unlisted byte is 0 -/
  bytes   : Tab Byte
  /-- the stored check word -/
  check   : BitVec 32
  /-- a commit was cut off or read back wrong: the section fails its check at the next boot (R100) -/
  broken  : Bool
  /-- commits over the life of the part (R102) -/
  commits : Nat
  deriving DecidableEq, Repr

/-- The command the settings store is running (R99): LOAD or COMMIT, of the calibration section or of the configuration section. -/
structure SsCommand where
  commit : Bool
  cal    : Bool
  /-- COMMIT: the 32,764 bytes being programmed -/
  bytes  : Tab Byte
  deriving DecidableEq, Repr

/-- The settings store and its command (R94 to R103). -/
structure Settings where
  cfg      : Section
  cal      : Section
  /-- the sections in use: those of the store at the first phase 0x1 after the last RESET_N deassertion (R101) -/
  cfgUse   : Section
  calUse   : Section
  busy     : Option SsCommand
  result   : BitVec 3
  /-- CFG_SS_UNLOCK has armed one calibration commit (R103) -/
  unlocked : Bool
  /-- the configuration items in use since phase 0x1 (R95, R96) -/
  items    : Tab Byte
  deriving DecidableEq, Repr

/-- One read command on the SPI pins (R65): its code, flash address, bytes, and clock in kHz. -/
structure SpiRead where
  code : Byte
  addr : Nat
  len  : Nat
  kHz  : Nat
  deriving DecidableEq, Repr

/-- The boot in progress (R82 to R93). -/
structure Boot where
  /-- begun by a RESET_N deassertion, and phase 0x1 not yet done (R101) -/
  pin       : Bool
  /-- read commands issued on the SPI pins, oldest first (R65), and the flash address of the slot in use (R87) -/
  spi       : List SpiRead
  slotAt    : Nat
  trained   : Bool
  tested    : Bool
  /-- a CFG_BOOT_GO write not yet taken by the boot ROM (R88) -/
  go        : Bool
  /-- the header in use -/
  header    : List Word
  /-- a configuration or calibration check failed: recorded once service begins (R96, R97) -/
  cfgLog    : Bool
  calLog    : Bool
  /-- cause of the block reset under way: source and kind (R425) -/
  cause     : Option (Nat × Nat)
  /-- the escalation check of the block reset under way reached LIMIT (R428) -/
  escalated : Bool
  deriving DecidableEq, Repr

/-- The last pulse a master drove on STAMP_OUT (R60): its rising edge, in fc as `Stp.total` counts, and its frame bit (80 ns for 1). -/
structure StampOut where
  edge : Nat
  wide : Bool
  deriving DecidableEq, Repr

/-- The Stamp unit and the always-on clock (R108 to R128). -/
structure Stp where
  /-- STAMP of the datestamp (R108) -/
  stamp    : BitVec 48
  /-- fc since the last stamp, and length of the period in progress in fc (R109, R112) -/
  t        : Nat
  len      : Nat
  /-- fc since PWROK rose, as the always-on oscillator counts them (R428) -/
  total    : Nat
  /-- the Stamp unit has been started (phase 0x1, R84) -/
  running  : Bool
  /-- STP_STATUS.STATE (Table 4-3) -/
  state    : BitVec 3
  /-- STP_CTL, DELAY and OFFSETs in effect since the last stamp (R140) -/
  ctl      : Word
  delay    : Nat
  offA     : Nat
  offB     : Nat
  /-- the armed period change: effective stamp and period, 0 for none (R137) -/
  armed    : Option (Nat × Nat)
  /-- the last 128 frame bits of the master input, oldest first; none for an invalid or missing bit (R120) -/
  bits     : List (Option Bool)
  /-- internal stamp of the accepted edge for the stamp to come (R117), and its compensated partner on STAMP_B (R122) -/
  edgeA    : Option Int
  edgeB    : Option Int
  bitB     : Option Bool
  /-- in HOLDOVER: the last master-input edge has agreed (R122, R127) -/
  agreed   : Bool
  /-- time of the last stamp-class edge on the master input, relative to the last stamp -/
  lastEdge : Option Int
  misses   : Nat
  /-- periods in SEEK without a valid edge, or in FRAMING without alignment (Table 4-3) -/
  periods  : Nat
  /-- consecutive edges that met R127, and the frame number aligned on them for the last of these edges -/
  relockRun : Nat
  relockNum : Option Nat
  /-- RELOCK was written since the other conditions began to hold (R127) -/
  permit   : Bool
  /-- a stamp number or a period the master's frames give, to be taken (R121) -/
  newNum   : Option Nat
  newPer   : Option Nat
  /-- the cutoff of the period in progress has come (R131) -/
  cut      : Bool
  /-- STAMP_OUT: none until a master has driven a pulse (R60, R84) -/
  out      : Option StampOut
  deriving DecidableEq, Repr

end Sys2Proof.Machine
end

