-- ==== Sys2Proof/Machine/Parts/Ctl.lean ====
section
/-! DEFINITION. State of the Bell, the Ledger and the watchdog, the Power unit and the Observation unit beyond their registers. -/

namespace Sys2Proof.Machine

/-- State of a Bell source (R405). -/
inductive BelPhase where
  | idle
  | pending
  | active
  deriving DecidableEq, Repr

/-- One Bell source (R405, Table 15-5). -/
structure BelSrc where
  phase   : BelPhase
  count   : Nat
  sat     : Bool
  soft    : Bool
  /-- first datestamp, and whether it was taken in holdover -/
  first   : Word
  firstHo : Bool
  curator : Nat
  deriving DecidableEq, Repr

/-- A source at reset. -/
def BelSrc.rest : BelSrc := ⟨.idle, 0, false, false, 0, false, 0⟩

/-- The Bell and the curators' states (R403 to R410). -/
structure Bel where
  srcs   : Tab BelSrc
  /-- curator chosen last (R407) -/
  last   : Nat
  /-- curators waiting for an interrupt, and on their alternate bank: bit k -/
  asleep : BitVec 4
  alt    : BitVec 4
  /-- integer registers 1 to 31 of each curator's normal and alternate bank (R36): register i of bank b of curator k at 64 k + 32 b + i;
  an unlisted one holds 0 -/
  banks  : Tab Word
  /-- stretches of code the curators have run, which number the free values in the banks -/
  ran    : Nat
  deriving DecidableEq, Repr

/-- The Ledger beyond its registers (R412, R413), the escalation state (R428, R429) and the watchdog (R422). -/
structure Ldg where
  /-- messages waiting for acceptance, by source, oldest first (at most four each) -/
  waiting  : Tab (List LMsg)
  /-- records in the on-die buffer, oldest first, four words each -/
  buffer   : List (List Word)
  /-- records in the log from HEAD to TAIL, oldest first -/
  records  : List (List Word)
  /-- records lost since LOG_FULL was last recorded -/
  lost     : Nat
  /-- times of the counted block resets, newest first (R428) -/
  history  : List Nat
  /-- the out-of-service latch, and whether PWROK has risen since it was set (R429) -/
  oos      : Bool
  cycled   : Bool
  wdArmed  : Bool
  wdSeen   : BitVec 4
  /-- fc left of the watchdog's 100 ms -/
  wdLeft   : Nat
  wdExpiries : Nat
  deriving DecidableEq, Repr

/-- The Power unit beyond its registers (R432 to R440). -/
structure Pwr where
  /-- VCORE_REQ in mV (R74) -/
  vcore    : Nat
  /-- the points of the next period are fixed (R113): OP_FIX has come in this period -/
  fixed    : Bool
  /-- last measured rail power in 1/8 W, and the readings of the last 1 ms with their times, newest first (R66) -/
  power    : Nat
  recent   : List (Nat × Nat)
  /-- global cap used at the last phase 0.70; 0 none (R435) -/
  capUsed  : Nat
  /-- the readings R434 last worked on -/
  reading  : PowerReading
  /-- domain command in progress: domain and target state -/
  switching : Option (Nat × Nat)
  /-- compute and SRAM thermal level by range (R438) -/
  lvlC     : Tab Nat
  lvlS     : Tab Nat
  /-- stack temperature level by stack (R353) -/
  lvlStk   : Tab Nat
  /-- ranges under emergency throttle for a thermal cause, and for VCORE_LOW: bit r -/
  emThermal : Word
  emVcore   : Word
  /-- shelves lending (R436) -/
  lending  : List Nat
  /-- times at which a tally increment first reached a lending shelf, and at which a shelf's last pass ended (R436) -/
  wakes    : Tab Nat
  quiet    : Tab Nat
  /-- per-carrel caps used at the last phase 0.70 (R435) -/
  carrelCaps : Tab Nat
  deriving DecidableEq, Repr

/-- A write that left the chip towards host memory (R165, R396, R384): function, address, bytes. -/
structure HostWrite where
  func : Nat
  addr : Nat
  data : List Byte
  deriving DecidableEq, Repr

/-- A running online self-test: range and level (R458). -/
structure SelfTest where
  range : Nat
  full  : Bool
  deriving DecidableEq, Repr

/-- A running wait-for-graph assembly (R457). -/
structure Wfg where
  carrel  : Nat
  /-- the command asked for a hush and the die was running -/
  hushed  : Bool
  start   : Word
  deriving DecidableEq, Repr

/-- The Observation unit beyond its registers. -/
structure Obs where
  /-- a curator scan-out runs (R447) -/
  scan     : Bool
  /-- a hush was released in this period: the Shelver resumes after the next stamp (R445) -/
  resuming : Bool
  /-- fc spent in the hush so far (R445) -/
  hushFc   : Nat
  selftest : Option SelfTest
  wfg      : Option Wfg
  /-- engine counters but for IDLE, by shelf (R455): ten a engine in the order of OBS_CNT, in core-cc / 1280 -/
  counters : Tab (List Nat)
  /-- cc counted per range with CNT_EN since CNT_CLEAR, and shelf-cc with a pass running (R456), in cc / 1280 -/
  ccs      : Tab Nat
  util     : Tab Nat
  /-- the journal has passed the end of its region (R452) -/
  wrapped  : Bool
  deriving DecidableEq, Repr

end Sys2Proof.Machine
end

