-- ==== Sys2Proof/Machine/Parts/Work.lean ====
section
/-! DEFINITION. State of Circulation, the Catalogue, the Bindery and the Shelver beyond their registers. -/

namespace Sys2Proof.Machine

/-- A burst a desk is reading (R148): the ring's context, the first count and the number of slips. -/
structure Desk where
  ring  : Nat
  first : Nat
  n     : Nat
  deriving DecidableEq, Repr

/-- A receipt that is due (R160, R161): the ring it goes to by carrel and local number, its words but for LAP, and what follows it. -/
structure DueReceipt where
  carrel : Nat
  rring  : Nat
  w0     : Word
  w1     : Word
  w2     : Word
  w3     : Word
  /-- the record to remove when the receipt is written; none for a KIND 2 receipt -/
  record : Option Nat
  notify : Bool
  fail   : Bool
  deriving DecidableEq, Repr

/-- Who waits for an append (R158, R273). -/
inductive EnqFrom where
  | slip (id : Nat)
  | folio (shelf core : Nat)
  deriving DecidableEq, Repr

/-- An enqueue that waits for room and credit (R158): its source is near-tier or shelf-store memory, read when it is appended. -/
structure WaitEnq where
  carrel : Nat
  ctx    : Nat
  count  : Nat
  src    : Nat
  who    : EnqFrom
  deriving DecidableEq, Repr

/-- Circulation beyond its registers (R141 to R168). -/
structure Cir where
  /-- fetch point by context (R148) -/
  fetch     : Tab Nat
  /-- contexts whose LK fields are committed (R143) -/
  committed : Tab Bool
  /-- contexts with an ENABLE write of 0 waiting for a burst to end (R168) -/
  disabling : Tab Bool
  desks     : Tab Desk
  /-- context granted a desk last, by carrel (R148: round-robin among a carrel's rings) -/
  lastRing  : Tab Nat
  due       : List DueReceipt
  waits     : List WaitEnq
  /-- enqueue credit by carrel; unlisted: 4,096, the reset BURST (R159) -/
  credit    : Tab Nat
  /-- overflow entries that a ring waits for at its HEAD (R171) -/
  edgeWait  : Tab Nat
  /-- contexts within the HOLDOFF_US of their last notify write; true when another is due at its end (R165) -/
  holdoff   : Tab Bool
  deriving DecidableEq, Repr

/-- Slip states (Table 6-1). -/
inductive SlipState where
  | entered
  | ready
  | planned
  | running
  | retired
  deriving DecidableEq, Repr

/-- One pass run as the Shelver read it (Table 8-7). -/
structure PassRun where
  first : Nat
  count : Nat
  c     : Nat
  m     : Nat
  fp    : Nat
  group : Nat
  principal : Nat
  inner : Nat
  pbase : Nat
  sIn   : Nat
  sOut  : Nat
  outer : Nat
  deriving DecidableEq, Repr

/-- What the Shelver holds of a LAUNCH (R191, R200 to R203, R233). -/
structure Launch where
  q       : Nat
  runs    : List PassRun
  /-- call numbers of the kernel's holdings (R222) -/
  holds   : List Nat
  mFirst  : Nat
  vFirst  : Nat
  sFirst  : Nat
  /-- passes below this index have been placed at least once -/
  placed  : Nat
  /-- pass indices returned for placing again (R214) -/
  redo    : List Nat
  /-- passes that have ended -/
  ended   : Nat
  misses  : Nat
  /-- order in which it became blocking -/
  blocking : Option Nat
  wideLogged : Bool
  longLogged : Bool
  deriving DecidableEq, Repr

/-- The counts a receipt carries (Table 5-5). -/
structure SlipCounts where
  skipped : Nat
  wrapped : Nat
  /-- bytes streamed from the far tier -/
  spill   : Nat
  crossed : Nat
  shelfCc : Nat
  shelves : List Nat
  launchStamp : Option Nat
  launchHo : Bool
  deferred : Bool
  overrun : Bool
  empty   : Bool
  deriving DecidableEq, Repr

/-- No count yet. -/
def SlipCounts.zero : SlipCounts := ⟨0, 0, 0, 0, 0, [], none, false, false, false, false⟩

/-- A waits-on tag of a slip: the record it named, none where no resident slip had it, and its resolution: 0 open, 1 success, 2 failure
(R173, R179). -/
structure Edge where
  pred : Option Nat
  res  : Nat
  deriving DecidableEq, Repr

/-- A Catalogue record (R169, R173 to R188). -/
structure Slip where
  /-- the slip's sixteen words -/
  words   : List Word
  carrel  : Nat
  ctx     : Nat
  head    : Nat
  rring   : Nat
  st      : SlipState
  /-- readiness datestamp (R200, R233, R239) -/
  readyAt : Nat
  /-- predecessors, by record, whose edges are unresolved -/
  waits   : List Nat
  /-- a resolved edge carries a failure (R179) -/
  predFail : Bool
  /-- what each waits-on tag named, in order (R173) -/
  edges   : List Edge
  /-- overflow entries held (R170) -/
  ovf     : Nat
  /-- W3 to W6 in effect, INDIRECT applied (R155) -/
  par     : List Word
  /-- first failure observed, the fc it was observed in (R164), and the status once retired -/
  fail    : Option Code
  failAt  : Nat
  status  : Code
  /-- the Shelver's read of the pass table is in progress (R233) -/
  reading : Bool
  launch  : Option Launch
  /-- COPY: bytes done; HOLDING: leaves done -/
  progress : Nat
  stall   : Nat
  advanced : Bool
  /-- the lowest shelf on which a pass of it ran in this period (R186, R189) -/
  ran     : Option Nat
  /-- what the last stamp's test of its stall count asked for: 0 nothing, 1 NO_PROGRESS, 2 NO_PROGRESS and its abandonment (R186, R187); and
  the lowest shelf that ran a pass of it in the period that stamp ended -/
  due     : Nat
  stallOn : Option Nat
  noprog  : Bool
  cnt     : SlipCounts
  deriving DecidableEq, Repr

/-- The Catalogue (R169 to R190). Records are keyed in order of entry. -/
structure Cat where
  slips  : Tab Slip
  nextId : Nat
  /-- fault snapshot by carrel: sixteen words (R189) -/
  snaps  : Tab (List Word)
  /-- carrels a folio of whose passes has been skipped and logged since their snapshot was last cleared (R189) -/
  skips  : Tab Bool
  /-- launches that have become blocking so far, which orders them (R200) -/
  blockings : Nat
  deriving DecidableEq, Repr

/-- A volume known to a carrel or being loaded (R230, R231, R236). -/
structure Volume where
  first  : Nat
  blocks : Nat
  /-- slicing size (R226) -/
  s      : Nat
  /-- LAUNCH may use it -/
  usable : Bool
  /-- its image, eight words a slot -/
  image  : List Word
  deriving DecidableEq, Repr

/-- An accession in a Bindery slot (R226, R239). -/
structure BindJob where
  slip   : Nat
  carrel : Nat
  volId  : Nat
  s      : Nat
  limit  : Nat
  periodCc : Nat
  /-- its image and place, once checks 4 to 7 have passed -/
  placed : Option Volume
  /-- shelves being loaded -/
  shelves : List Nat
  deriving DecidableEq, Repr

/-- The Bindery: slots 0 and 1 (R239), and the volumes by carrel × 65,536 + VOLUME_ID. -/
structure Bindery where
  slot0 : Option BindJob
  slot1 : Option BindJob
  vols  : Tab Volume
  deriving DecidableEq, Repr

end Sys2Proof.Machine
end

