-- ==== Sys2Proof/Machine/Parts/Shelf.lean ====
section
/-! DEFINITION. State of a shelf: its loans and window, its plan and queue, the running pass, its cores and their streams. -/

namespace Sys2Proof.Machine

/-- A long accumulator, in its LA128 form (R288, Table 10-5); all zeros at the start of a pass. -/
abbrev Acc := BitVec 128

/-- A region a started folio has claimed (R262): space, lowest and highest byte (accumulators: 16 bytes each), written or read. -/
structure Region where
  space : Nat
  lo    : Nat
  hi    : Nat
  write : Bool
  deriving DecidableEq, Repr

/-- How far a folio taken from its stream has come. -/
inductive ExecPhase where
  /-- started; its operation has not been performed -/
  | started
  /-- performed; writes not yet acknowledged -/
  | performed
  /-- completed, or passed: its effects, if any, fire in ring order (R248) -/
  | done (fires : Bool)
  deriving DecidableEq, Repr

/-- A folio in execution in an engine (R248, R262). -/
structure Exec where
  slot    : Nat
  lap     : Nat
  words   : List Word
  regions : List Region
  phase   : ExecPhase
  /-- ids of the Interloan requests outstanding for it -/
  reqs    : List Nat
  /-- its effects have fired with its last write posted (POSTED, R264) -/
  fired   : Bool
  /-- rows already moved or asked for, of a transfer that waits for request room (R385) -/
  moved   : Nat
  /-- time it has been in execution while its engine was busy, in cc / 1280 (R184) -/
  busy    : Nat
  /-- it does not move: it waits for request room, or for the append of its slips (R385, R454) -/
  waits   : Bool
  deriving DecidableEq, Repr

/-- A core stream (R22, R242, R268). -/
structure Stream where
  ptr      : Nat
  lap      : Nat
  /-- folios of the ring passed in this lap -/
  inLap    : Nat
  skipLeft : Nat
  ended    : Bool
  /-- progress count (R184) -/
  prog     : BitVec 16
  /-- folios passed, for the bisection cutoff (R277) -/
  passed   : Nat
  /-- its cutoff holds it; a hold has been released; its cutoff has acted (R277) -/
  held     : Bool
  released : Bool
  cut      : Bool
  /-- the folio at its head has met its wait and its predicate is true; it waits to start (R268) -/
  ready    : Bool
  /-- last stall reason in the pass (R454) -/
  reason   : Nat
  /-- folios taken from the stream, oldest first -/
  execs    : List Exec
  deriving DecidableEq, Repr

/-- A stream at the start of a pass from its first slot; slot 0 is an empty stream (R242). -/
def Stream.fresh (first : Nat) : Stream :=
  ⟨first, 0, 0, 0, first == 0, 0, 0, false, false, false, false, 0, []⟩

/-- A core (R22, R246): accumulators, staging buffers A then B, tallies, streams. -/
structure CoreSt where
  acc   : Tab Acc
  stage : Tab Byte
  tally : Tab (BitVec 16)
  m     : Stream
  v     : Stream
  s     : Stream
  deriving DecidableEq, Repr

/-- A core at the start of a pass whose streams begin at these slots. -/
def CoreSt.fresh (mF vF sF : Nat) : CoreSt :=
  ⟨[], [], [], Stream.fresh mF, Stream.fresh vF, Stream.fresh sF⟩

/-- A loan held in a launch frame (R312, R313). -/
structure Loan where
  carrel : Nat
  tag    : Nat
  gen    : Nat
  base   : Nat
  size   : Nat
  deriving DecidableEq, Repr

/-- One pass of a plan or queue (R129, R194). -/
structure PassEntry where
  slip   : Nat
  carrel : Nat
  tag    : Nat
  pass   : Nat
  /-- budget in cc at `f` MHz, the operating point planned with -/
  budget : Nat
  f      : Nat
  /-- its distance factor (R197) -/
  k      : Nat
  offset : Nat
  fp     : Nat
  gFirst : Nat
  /-- the group map: shelf of each member -/
  map    : List Nat
  carried : Bool
  /-- PASS_DEFERRED logged -/
  logged : Bool
  /-- principal leaf held for plan: record and leaf index (R208) -/
  leaf   : Option (Nat × Nat)
  /-- its launch frame, its loan's generation (R313), and whether its preload has ended -/
  frame  : Option Nat
  gen    : Nat
  loaded : Bool
  /-- first failure of the preload's transfers, with the PRE folio's slot (R260; 0 the argument read), and PRE folios refused at the preload: slot, and kind of Table 9-10 -/
  err    : Option (Nat × Code)
  preBad : Tab Nat
  /-- one more than the rows of PRE folios asked of peers, 0 before the preload's own reads; and the requests outstanding -/
  preMoved : Nat
  preReqs : List Nat
  deriving DecidableEq, Repr

/-- The window a running pass holds open (R317): shelf-store bytes [lo, hi) and the settings it took. -/
structure Window where
  lo  : Nat
  hi  : Nat
  loc : Bool
  rem : Bool
  src : Word
  deriving DecidableEq, Repr

/-- A folio record of a pass that is not yet sent: one per slot and lap for a folio skipped (R271), and one beside it for conversions that
wrapped (R296); kind as the folio kinds of Table 16-3 are numbered. It is sent when the pass ends, with the lowest core and the count of cores, or of elements for what R296 records (notes/assumptions/32.md). -/
structure SkipRec where
  slot  : Nat
  lap   : Nat
  eng   : Nat
  kind  : Nat
  core  : Nat
  cores : Nat
  stamp : Word
  ho    : Bool
  deriving DecidableEq, Repr

/-- A running pass (R133, R134, R246). -/
structure Running where
  e        : PassEntry
  /-- always-on time of its start and deadline, in fc -/
  start    : Nat
  deadline : Nat
  overrun  : Bool
  window   : Option Window
  /-- bisection entries as the pass took them: MATCH, PASS, CUT (R276) -/
  bisect   : List (List Word)
  cores    : Tab CoreSt
  skips    : List SkipRec
  /-- some stream count changed since the last stamp (R184) -/
  moved    : Bool
  /-- the three first slots -/
  firsts   : Nat × Nat × Nat
  /-- clock cycles it has run, in cc / 1280 (SHELF_CC of Table 5-5) -/
  cc       : Nat
  /-- time for which every stream has been held at a wait, in cc / 1280 (R436) -/
  still    : Nat
  deriving DecidableEq, Repr

/-- Posted traffic held back at a shelf, behind a signal that waits for room in its early-signal buffer (R265): a further signal, a write from
this chip, or an Interloan request that has been accepted, with its class. -/
inductive Held where
  | signal (g : TallySig)
  | write (a : WindowAccess)
  | remote (p : Packet) (cls : Nat)
  deriving DecidableEq, Repr

/-- A shelf (R24, R322, Table 11-4). -/
structure Shelf where
  owner    : Nat
  clearing : Bool
  /-- the clear engine has started (R324) -/
  clearRun : Bool
  /-- it is leaving its room (R213), or joining the room of this carrel (R240) -/
  leaving  : Bool
  joining  : Nat
  /-- when it last came into its room or began to leave it, in fc as `Stp.total` counts, one more (R195); 0 never -/
  since    : Nat
  loan0    : Option Loan
  loan1    : Option Loan
  gen0     : BitVec 8
  gen1     : BitVec 8
  /-- plan frozen at the last cutoff, and whether it has been delivered -/
  plan     : List PassEntry
  delivered : Bool
  /-- passes waiting, in order (R133) -/
  queue    : List PassEntry
  /-- the rest of the period stays idle (R133, R134) -/
  halted   : Bool
  run      : Option Running
  /-- early signals, at most 256, and the posted traffic held back behind the first that found no room (R265) -/
  early    : List TallySig
  posted   : List Held
  /-- the pass that ended last, and when, in fc as `Stp.total` counts (R315) -/
  ended    : Option (Nat × PassEntry)
  deriving DecidableEq, Repr

/-- A shelf in no room, idle. -/
def Shelf.idle : Shelf :=
  ⟨0, false, false, false, 0, 0, none, none, 0, 0, [], false, [], false, none, [], [], none⟩

end Sys2Proof.Machine
end

