-- ==== Sys2Proof/Machine/Accum.lean ====
section
/-! DEFINITION. The long accumulator and its LA128 word (R288 to R292), the memory adds (R294, R295), conversion of an accumulated value
(R296, Table 10-6), and the canonical tree (R303). -/

namespace Sys2Proof.Machine

/-- The fields of an LA128 word (Table 10-5). -/
structure La where
  v      : Int
  w      : Int
  flags  : Nat
  anchor : Int
  deriving DecidableEq, Repr

/-- Flag bits of an LA word, from bit 104: ANCHORED, WRAP_SAT, NAN, POS_INF, NEG_INF, INEXACT, ANCHOR_MISMATCH. -/
def La.flag (x : La) (i : Nat) : Bool := x.flags.testBit i

/-- A blank word is treated as zero whatever its other bits hold (R288). -/
def La.blank : La := ⟨0, 0, 0, 0⟩

/-- The word's fields; a blank word reads as blank. -/
def laOf (a : Acc) : La :=
  let n := a.toNat
  if (n >>> 104) % 2 = 0 then La.blank
  else ⟨sext 96 n, sext 8 (n >>> 96), (n >>> 104) % 128, sext 16 (n >>> 112)⟩

/-- The word of the fields. -/
def La.toWord (x : La) : Acc :=
  BitVec.ofNat 128 (wrapInt 96 x.v + wrapInt 8 x.w * 2 ^ 96 + x.flags % 128 * 2 ^ 104 + wrapInt 16 x.anchor * 2 ^ 112)

/-- ANCHORED. -/
def La.anchored (x : La) : Bool := x.flag 0

/-- An accumulator cleared with an anchor (R288). -/
def La.cleared (anchor : Int) : La := ⟨0, 0, 1, anchor⟩

/-- Flags set. -/
def La.orFlags (x : La) (f : Nat) : La := { x with flags := x.flags ||| f }

/-- reduce of R291: m × 2^u in units of the anchor, truncated towards zero, and whether bits were lost. -/
def laReduce (m u anchor : Int) : Int × Bool :=
  let k := u - anchor
  if 0 ≤ k then (m * 2 ^ k.toNat, false)
  else
    let d : Nat := 2 ^ (-k).toNat
    let c : Int := if m < 0 then -((m.natAbs / d : Nat) : Int) else ((m.natAbs / d : Nat) : Int)
    (c, m.natAbs % d != 0)

/-- la_update of R291. -/
def La.update (x : La) (c wIn : Int) : La :=
  let t := x.v + c
  let v := sext 96 (wrapInt 96 t)
  let w := x.w + wIn + (t - v) / 2 ^ 96
  if x.flag 1 then { x with v := v }
  else if 127 ≤ w then { x with v := v, w := 127, flags := x.flags ||| 2 }
  else if w ≤ -127 then { x with v := v, w := -127, flags := x.flags ||| 2 }
  else { x with v := v, w := w }

/-- An exact contribution m × 2^u added (R291). -/
def La.add (x : La) (m u : Int) : La :=
  let r := laReduce m u x.anchor
  (if r.2 then x.orFlags 32 else x).update r.1 0

/-- A product of two operands judged on its own (R289, R290): flags it sets, and its exact finite value. -/
def productOf (a b : Val) : Nat × Int × Int :=
  match a, b with
  | .fin m e, .fin m' e' => (0, m * m', e + e')
  | .negZero, .fin _ _ => (0, 0, 0)
  | .fin _ _, .negZero => (0, 0, 0)
  | .negZero, .negZero => (0, 0, 0)
  | a, b =>
    if a = .nan ∨ b = .nan then (4, 0, 0)
    else if a.isZero || b.isZero then (4, 0, 0)
    else if a.isNeg == b.isNeg then (8, 0, 0) else (16, 0, 0)

/-- Sum of exact values as one exact value. -/
def sumExact (l : List (Nat × Int × Int)) : Int × Int :=
  l.foldl (fun (a : Int × Int) p =>
    if p.2.1 = 0 then a
    else if a.1 = 0 then p.2
    else
      let e := min a.2 p.2.2
      (a.1 * 2 ^ (a.2 - e).toNat + p.2.1 * 2 ^ (p.2.2 - e).toNat, e)) (0, 0)

/-- One contribution, of one product or of one block pair (R289 to R291): products that are not finite add nothing and set flags; where no
other is in it, V and W are left alone (R290). -/
def La.contribute (x : La) (prods : List (Nat × Int × Int)) : La :=
  let f := prods.foldl (fun a p => a ||| p.1) 0
  let s := sumExact prods
  let x := x.orFlags f
  if prods.all (fun p => p.1 != 0) then x
  else if s.1 = 0 then x.update 0 0 else x.add s.1 s.2

/-- poisoned of R294. -/
def La.poisoned (flags : Nat) : La := ⟨0, 0, flags ||| 1 ||| 64, 0⟩

/-- ACC_LOAD of one word into an anchored accumulator (R292). -/
def La.load (x word : La) : La :=
  if !word.anchored then x
  else if word.anchor ≠ x.anchor then La.poisoned (x.flags ||| word.flags)
  else (x.update word.v word.w).orFlags word.flags

/-- la128_add of R294. -/
def laAdd (d s : Acc) : Acc :=
  let x := laOf d
  let y := laOf s
  if x.flag 6 || y.flag 6 || (x.anchored && y.anchored && x.anchor != y.anchor) then (La.poisoned (x.flags ||| y.flags)).toWord
  else if !y.anchored then d
  else if !x.anchored then s
  else
    let low := (d.toNat % 2 ^ 104 + s.toNat % 2 ^ 104) % 2 ^ 104
    BitVec.ofNat 128 (low + (x.flags ||| y.flags) * 2 ^ 104 + wrapInt 16 x.anchor * 2 ^ 112)

/-! ## Floating-point sums -/

/-- a + b exactly, with the special results of R302. -/
def Val.add (a b : Val) : Val :=
  match a, b with
  | .nan, _ => .nan
  | _, .nan => .nan
  | .inf n, .inf n' => if n = n' then .inf n else .nan
  | .inf n, _ => .inf n
  | _, .inf n => .inf n
  | .negZero, .negZero => .negZero
  | .negZero, b => b
  | a, .negZero => a
  | .fin m e, .fin m' e' =>
    match Val.addFin m e m' e' with
    | .fin m e => if m = 0 then .zero else .fin m e
    | v => v

/-- −a. -/
def Val.neg : Val → Val
  | .nan => .nan
  | .inf n => .inf (!n)
  | .negZero => .zero
  | .fin m e => if m = 0 then .negZero else .fin (-m) e

/-- a × b exactly. -/
def Val.mul (a b : Val) : Val :=
  match a, b with
  | .nan, _ => .nan
  | _, .nan => .nan
  | .fin m e, .fin m' e' =>
    if m * m' = 0 then (if decide (m < 0) == decide (m' < 0) then .zero else .negZero) else .fin (m * m') (e + e')
  | a, b =>
    let neg := a.isNeg != b.isNeg
    if a.isZero || b.isZero then
      (match a, b with
        | .inf _, _ => .nan
        | _, .inf _ => .nan
        | _, _ => if neg then .negZero else .zero)
    else .inf neg

/-- a < b in the order of MAX and MIN: −0 below +0 (R302). -/
def Val.lt (a b : Val) : Bool :=
  match a, b with
  | .inf n, .inf n' => n && !n'
  | .inf n, _ => n
  | _, .inf n => !n
  | .negZero, .negZero => false
  | .negZero, .fin m _ => decide (0 ≤ m)
  | .fin m _, .negZero => decide (m < 0)
  | .fin m e, .fin m' e' => dyLt m e m' e'
  | _, _ => false

/-- MAX and MIN (R302). -/
def Val.max2 (a b : Val) : Val := if a = .nan ∨ b = .nan then .nan else if a.lt b then b else a
def Val.min2 (a b : Val) : Val := if a = .nan ∨ b = .nan then .nan else if b.lt a then b else a

/-- Binary32 element. -/
def fp32 : Elem := .flt 8 23 127 .ieee

/-- A value rounded to the nearest FP32 value (R297). -/
def Val.toFp32 (v : Val) : Val := fp32.value (fp32.encode (.val v) false false 0)

/-- fp32_add: an FP32 addition rounded by R297. -/
def fp32Add (a b : Val) : Val := (a.add b).toFp32

/-- The canonical tree (R303) over a list, by fuel: the first half has 2^(ceil(log2 n) − 1) leaves. -/
def treeN (f : Val → Val → Val) : Nat → List Val → Val
  | 0, l => l.headD .zero
  | k + 1, l =>
    if l.length ≤ 1 then l.headD .zero
    else
      let h := 2 ^ k
      if l.length ≤ h then treeN f k l else f (treeN f k (l.take h)) (treeN f k (l.drop h))

/-- tree of R303. -/
def tree (f : Val → Val → Val) (l : List Val) : Val := treeN f 17 l

/-! ## Conversion of an accumulated value (Table 10-6) -/

/-- What Table 10-6 records: 0 nothing, 1 ACC_ANCHOR_MISMATCH, 2 WRAPPED, 3 ACC_RANGE. -/
structure LaOut where
  res  : Res
  bad  : Bool
  note : Nat

/-- The element that a word gives (Table 10-6). `int` is the destination's kind. -/
def La.convert (x : La) (int : Bool) : LaOut :=
  if x.flag 6 then ⟨.val .nan, true, 1⟩
  else if x.flag 2 || (x.flag 3 && x.flag 4) then ⟨.val .nan, true, 0⟩
  else if x.flag 3 then ⟨.val (.inf false), true, 0⟩
  else if x.flag 4 then ⟨.val (.inf true), true, 0⟩
  else if x.flag 1 then
    (if int then ⟨.val (.inf (if x.w = 0 then decide (x.v < 0) else decide (x.w < 0))), true, 2⟩ else ⟨.val .nan, true, 2⟩)
  else if x.w ≠ 0 then ⟨.val (.inf (decide (x.w < 0))), true, 3⟩
  else ⟨.val (if x.v = 0 then .zero else .fin x.v x.anchor), false, 0⟩

/-- Bits of one element add at a memory-side adder (R294, R295), by ADD type 0 INT32, 1 INT64, 2 FP32, 3 BF16, 4 LA128. -/
def adderSum (typ : Nat) (d s : Nat) : Nat :=
  if typ = 0 then (d + s) % 2 ^ 32
  else if typ = 1 then (d + s) % 2 ^ 64
  else if typ = 2 then fp32.encode (.val ((fp32.value d).add (fp32.value s))) false false 0
  else if typ = 3 then
    let bf : Elem := .flt 8 7 127 .ieee
    bf.encode (.val ((bf.value d).add (bf.value s))) false false 0
  else (laAdd (BitVec.ofNat 128 d) (BitVec.ofNat 128 s)).toNat

end Sys2Proof.Machine
end

