-- ==== Sys2Proof/Config.lean ====
section
/-! DEFINITION. What the manual leaves open and the model leaves open too: constants with no body. No proof can see a value of them. -/

namespace Sys2Proof.Config

/-- A free value: the nth value drawn (a scanned logic bit string, R448; notes/assumptions/3.md). -/
opaque freeValue : Nat → BitVec 64

/-- Supply in mV of a range at an operating point (0 to 4) by the calibration section of the part (R74, R97, R434): the manual gives the
calibration tables no layout (notes/assumptions/3.md). The arguments are the section's listed bytes, the range and the point. -/
opaque calSupply : List (Nat × BitVec 8) → Nat → Nat → Nat

/-- VCORE_REQ in mV that a calibrated part publishes for a range at an operating point (R74, R97). -/
opaque calRequest : List (Nat × BitVec 8) → Nat → Nat → Nat

/-- Byte of the 256 KiB boot ROM (R36): the manual does not give its contents (notes/assumptions/3.md). -/
opaque bootRom : Nat → BitVec 8

/-- What a curator's code leaves in its registers (R36): the stretch of code it has run, and the register (notes/assumptions/3.md). -/
opaque curatorReg : Nat → Nat → BitVec 64

/-- A node record of a wait-for graph: the manual names what a node holds and not where (R457; notes/assumptions/3.md). The arguments are
its kind (0 slip, 1 stream, 2 ring, 3 peer chip) and the fields R457 names, in its order. -/
opaque wfgNode : Nat → List Nat → BitVec 128

/-- A statement's size-table reference whose shifted entry does not fit the 16-bit field it stands for (R224): the manual does not say what
the field then holds (notes/assumptions/77.md). The arguments are the field and the shifted entry. -/
opaque wideSize : Nat → Nat → BitVec 16

/-- SCALE, EXP, RSQRT or RECIP of an integer element: every ELEMWISE opcode accepts the integer formats (R301), and the manual gives these four
no integer result (notes/assumptions/29.md). The arguments are the opcode, the low half of W7 (SCALE's factor), the format codes of A and D, and the
element. -/
opaque intFunction : Nat → Nat → Nat → Nat → Int → BitVec 32

end Sys2Proof.Config
end

