-- ==== Sys2Proof/Machine/Parts/Fabric.lean ====
section
/-! DEFINITION. State of the Keeper, the stack ports, the Interloan endpoint and the carrel manager beyond their registers. -/

namespace Sys2Proof.Machine

/-- One leaf of a holding (R337, R342, R343). -/
structure Leaf where
  /-- near frame (address div 2 MiB) it lies in; none at home -/
  frame : Option Nat
  dirty : Bool
  /-- stamp at which a frozen plan or an access last named it -/
  named : Nat
  deriving DecidableEq, Repr

/-- A leaf at home. -/
def Leaf.home : Leaf := ⟨none, false, 0⟩

/-- A registered call number (R337): a pinned region, or a holding with its leaves. -/
structure Holding where
  carrel : Nat
  call   : Nat
  pin    : Bool
  /-- home, or near-tier address of the pinned region -/
  addr   : Nat
  size   : Nat
  flags  : Nat
  leaves : Tab Leaf
  /-- its RELEASE runs: unregistered (R340) -/
  gone   : Bool
  deriving DecidableEq, Repr

/-- Why a leaf moves (R342): the slip it is moved for, a plan's prefetch (R207), a victim making room (R343), a quota cut (R345). -/
inductive MoveWhy where
  | slip (id : Nat)
  | plan
  | victim
  | quota
  deriving DecidableEq, Repr

/-- A leaf move (R342): destination frame, or none for home; started once it holds its places on the stack ports; the chunks of 4 KiB granted to it
on each of them so far (R399). -/
structure Move where
  carrel  : Nat
  call    : Nat
  leaf    : Nat
  dst     : Option Nat
  why     : MoveWhy
  started : Bool
  chunks  : Tab Nat
  deriving DecidableEq, Repr

/-- Who waits for an operation at a memory-side adder (R342). -/
inductive AddFor where
  /-- whoever commanded it at the adder -/
  | adder
  /-- a peer, by the ADD packet it sent -/
  | peer (p : Packet)
  /-- a COPY slip -/
  | slip (id : Nat)
  deriving DecidableEq, Repr

/-- An adder operation on a leaf that moves, its answer held until the move ends (R342; notes/assumptions/50.md). -/
structure HeldAdd where
  /-- the access: function, address, bytes, and whether it wrote -/
  carrel : Nat
  addr   : Nat
  n      : Nat
  writes : Bool
  who    : AddFor
  /-- the answer: a status, none for success, and the old value -/
  status : Option Code
  old    : Word
  deriving DecidableEq, Repr

/-- The Keeper and the stack ports beyond their registers (R326 to R356). -/
structure Kpr where
  /-- by carrel × 2^32 + call -/
  calls    : Tab Holding
  moves    : List Move
  /-- writebacks given up by a HOLDING slip: record and leaf (R354) -/
  given    : List (Nat × Nat)
  /-- HOLDING slips whose ZERO writes are under way (R342) -/
  zeroing  : List Nat
  /-- carrels that are OVER (R345) -/
  excess     : Tab Bool
  /-- poisoned near granules and far lines (R354, R355), keyed as poisonKey says -/
  poison   : Tab Bool
  /-- uncorrectable errors since training by stack × 32 + channel (R329) -/
  chanErrs : Tab Nat
  /-- stacks in their retraining slot (R350) -/
  slots    : List Nat
  /-- HBM_RETRAIN and the loan limit in effect since the last cutoff (R350, R316) -/
  retrain  : Word
  limit    : Nat
  /-- far windows whose link is down: bit p (R333) -/
  farDown  : BitVec 4
  /-- what the last operation commanded at a memory-side adder answered (R346): status, 0 for none, and old value -/
  adderStatus : Code
  adderOld : Word
  /-- operations on leaves that are moving: what each will answer when its move ends (R342) -/
  adds     : List HeldAdd
  deriving DecidableEq, Repr

/-- Who waits for an Interloan request (R376, R377). -/
inductive ReqFor where
  /-- a folio: shelf, core, engine number, slot, lap, and where READ data goes (space, address) -/
  | folio (shelf core eng slot lap : Nat) (space addr : Nat)
  /-- a PRE folio of a pass being preloaded (R260): shelf, slip, pass, its slot, and the loan byte READ data goes to -/
  | pre (shelf slip pass slot dst : Nat)
  /-- a COPY slip's chunk, and where READ data goes -/
  | slip (id : Nat) (dst : Option Nat)
  deriving DecidableEq, Repr

/-- A request outstanding at the endpoint. -/
structure Req where
  peer  : Nat
  who   : ReqFor
  /-- it is a READ -/
  reads : Bool
  carrel : Nat
  /-- its packet has been acknowledged, and the always-on times at which it was made and first sent (R376, R377) -/
  acked : Bool
  made  : Nat
  sent  : Option Nat
  deriving DecidableEq, Repr

/-- A sequenced packet kept until it is acknowledged (R365). -/
structure SentPacket where
  packet : Packet
  /-- always-on time of its first sending, restarted on a route switch (R376, R379), and of its last -/
  first  : Nat
  last   : Nat
  deriving DecidableEq, Repr

/-- One channel of a peer (R363 to R367). -/
structure Chan where
  next     : BitVec 16
  unacked  : List SentPacket
  /-- packets waiting for the direction to sync or for room -/
  waiting  : List Packet
  expected : BitVec 16
  /-- accepted since the last ACK, and the always-on time of the oldest of them (R367) -/
  accepted : Nat
  since    : Nat
  /-- always-on time of the last RESEND sent -/
  resentAt : Option Nat
  /-- always-on time of the last ACK that came (R365) -/
  ackedAt  : Nat
  deriving DecidableEq, Repr

/-- A channel just synced. -/
def Chan.fresh : Chan := ⟨0, [], [], 0, 0, 0, none, 0⟩

/-- What the endpoint keeps of a peer (R368, R369, R381). -/
structure Peer where
  /-- outgoing direction as ILN_PEER_STATE.STATE: 0 none, 1 syncing, 2 synced, 3 given up -/
  out      : BitVec 2
  /-- incoming direction synced -/
  inSync   : Bool
  chans    : List Chan
  holdover : Bool
  epoch    : BitVec 16
  /-- always-on time of the last traffic (R369) and of the last SYNC sent (R368) -/
  seen     : Nat
  syncAt   : Nat
  deriving DecidableEq, Repr

/-- A peer just taken into the table. -/
def Peer.fresh (t : Nat) : Peer := ⟨0, false, [.fresh, .fresh, .fresh, .fresh], false, 0, t, t⟩

/-- A packet that left through a port. -/
structure SentOn where
  port   : BitVec 2
  packet : Packet
  deriving DecidableEq, Repr

/-- The answer to a host request that left through port 0 (Table 13-3): function, REQ_ID echoed, read data or none. -/
structure HostAnswer where
  func  : Func
  reqId : BitVec 16
  data  : List Byte
  deriving DecidableEq, Repr

/-- Who waits for a host access that the chiplet made (R384). -/
inductive HostFor where
  /-- a ring: a receipt or an appended slip written at addr -/
  | ring (k addr : Nat)
  /-- a COPY slip -/
  | slip (id : Nat)
  /-- nobody: a notify write, a record of the log -/
  | nobody
  deriving DecidableEq, Repr

/-- A host access outstanding on port 0: its function and the always-on time at which it left (R384). -/
structure HostReq where
  func  : Nat
  since : Nat
  who   : HostFor
  deriving DecidableEq, Repr

/-- The Interloan endpoint beyond its registers (R357 to R385). -/
structure Iln where
  peers    : Tab Peer
  /-- outstanding requests by REQ_ID -/
  reqs     : Tab Req
  nextReq  : BitVec 16
  /-- outstanding host accesses by REQ_ID (R384); REQ_ID and status of the one completed last -/
  host     : Tab HostReq
  hostLast : Option (Nat × Code)
  /-- armed epoch change: stamp and epoch (R375) -/
  armed    : Option (Nat × Nat)
  /-- always-on time at which the last epoch change fired (R373) -/
  firedAt  : Option Nat
  /-- ports in retraining: bit p (R383) -/
  retrain  : BitVec 4
  /-- ILN_CHIP is committed (R385) -/
  committed : Bool
  /-- packets sent, oldest first: what the transport was given -/
  sent     : List SentOn
  /-- HOST_RSPs sent, oldest first -/
  answers  : List HostAnswer
  deriving DecidableEq, Repr

/-- A carrel reset in progress (R400). -/
structure CarrelReset where
  squash : Bool
  /-- always-on time it began -/
  since  : Nat
  deriving DecidableEq, Repr

/-- A carrel command that has not completed (R387): operation, carrel, range and shelves. -/
structure CrlCommand where
  op     : Nat
  carrel : Nat
  range  : Nat
  mask   : Word
  deriving DecidableEq, Repr

/-- An arbiter between carrels (R399). -/
structure Arbiter where
  credit : Tab Nat
  last   : Nat
  deriving DecidableEq, Repr

/-- The carrel manager beyond its registers (R386 to R402). -/
structure Crl where
  cmd     : Option CrlCommand
  resets  : Tab CarrelReset
  /-- arbiters: 0 the desks, 1 the copy engines, 2 + s the move queue of stack s -/
  arbs    : Tab Arbiter
  deriving DecidableEq, Repr

end Sys2Proof.Machine
end

