-- ==== Sys2Proof/Machine/Regs.lean ====
section
/-! DEFINITION. The register map (Tables 19-1 to 19-15): offsets in the control window under the manual's names, reset values,
and the writable and write-1-to-clear bits of the registers whose writes have no further effect. -/

namespace Sys2Proof.Machine

namespace R
-- CFG_ (Table 19-3)
abbrev CFG_ID : Nat := 0x0
abbrev CFG_RANGE_ENABLE : Nat := 0x8
abbrev CFG_SERIAL : Nat := 0x10
abbrev CFG_STATUS : Nat := 0x18
abbrev CFG_BOOT_STATUS : Nat := 0x20
abbrev CFG_FW_VERSION : Nat := 0x28
abbrev CFG_BOOT_GO : Nat := 0x30
abbrev CFG_BOOT_BULK_BASE : Nat := 0x38
abbrev CFG_STRAP : Nat := 0x100
abbrev CFG_SMB_CTL : Nat := 0x108
abbrev CFG_SS_CMD : Nat := 0x200
abbrev CFG_SS_STATUS : Nat := 0x208
abbrev CFG_SS_UNLOCK : Nat := 0x210
abbrev CFG_SHELF_WITHDRAWN (r : Nat) : Nat := 0x400 + 8 * r
abbrev STORE_WINDOW (i : Nat) : Nat := 0x10000 + 8 * i
abbrev STAGING (i : Nat) : Nat := 0x20000 + 8 * i
-- STP_ (Table 19-4)
abbrev STP_DATESTAMP : Nat := 0x100000
abbrev STP_STATUS : Nat := 0x100008
abbrev STP_PERIOD : Nat := 0x100010
abbrev STP_CTL : Nat := 0x100018
abbrev STP_GRID_DELAY : Nat := 0x100020
abbrev STP_IN_OFFSET (i : Nat) : Nat := 0x100028 + 8 * i
abbrev STP_CHANGE_AT : Nat := 0x100040
abbrev STP_NEXT_PERIOD : Nat := 0x100048
abbrev STP_CHANGE_CMD : Nat := 0x100050
abbrev STP_CHANGE_STATUS : Nat := 0x100058
abbrev STP_EVENT : Nat := 0x100060
abbrev STP_IN_COUNT (i : Nat) : Nat := 0x100068 + 8 * i
abbrev STP_SKEW : Nat := 0x100078
abbrev STP_RELOCK_STEP : Nat := 0x100080
-- CIR_ (Table 19-5)
abbrev CIR_RING_BASE (k : Nat) : Nat := 0x200000 + 0x40 * k
abbrev CIR_RING_CTL (k : Nat) : Nat := 0x200008 + 0x40 * k
abbrev CIR_RING_HEAD (k : Nat) : Nat := 0x200010 + 0x40 * k
abbrev CIR_RING_TAIL (k : Nat) : Nat := 0x200018 + 0x40 * k
abbrev CIR_RING_NOTIFY_ADDR (k : Nat) : Nat := 0x200020 + 0x40 * k
abbrev CIR_RING_NOTIFY_CTL (k : Nat) : Nat := 0x200028 + 0x40 * k
abbrev CIR_RING_WMARK (k : Nat) : Nat := 0x200030 + 0x40 * k
abbrev CIR_RING_STATUS (k : Nat) : Nat := 0x200038 + 0x40 * k
abbrev CIR_DB_ENABLE (i : Nat) : Nat := 0x280000 + 8 * i
abbrev CIR_DESK_STATUS (d : Nat) : Nat := 0x280100 + 8 * d
abbrev CIR_SLIP_COUNT : Nat := 0x280200
abbrev CIR_RECEIPT_COUNT : Nat := 0x280208
abbrev CIR_ENQ_LIMIT (c : Nat) : Nat := 0x281000 + 8 * c
-- CAT_ (Table 19-6)
abbrev CAT_STATUS : Nat := 0x300000
abbrev CAT_CANCEL : Nat := 0x300008
abbrev CAT_CANCEL_STATUS : Nat := 0x300010
abbrev CAT_SNAP_SEL : Nat := 0x300018
abbrev CAT_SNAP_CLEAR : Nat := 0x300020
abbrev CAT_SNAP (w : Nat) : Nat := 0x300080 + 8 * w
abbrev CAT_SHARE (c : Nat) : Nat := 0x302000 + 8 * c
abbrev CAT_NOPROG (c : Nat) : Nat := 0x304000 + 8 * c
abbrev CAT_CARREL_STATE (c : Nat) : Nat := 0x306000 + 8 * c
-- SHV_ (Table 19-7)
abbrev SHV_POLICY : Nat := 0x400000
abbrev SHV_STATUS : Nat := 0x400008
abbrev SHV_PLAN_STAMP : Nat := 0x400010
abbrev SHV_EVENT : Nat := 0x400018
abbrev SHV_HEADROOM (r : Nat) : Nat := 0x401000 + 8 * r
abbrev SHV_CARREL (c : Nat) : Nat := 0x402000 + 8 * c
abbrev SHV_CARREL_STATS (c : Nat) : Nat := 0x404000 + 8 * c
-- KPR_ and HBM_ (Table 19-8)
abbrev KPR_STATUS : Nat := 0x500000
abbrev KPR_EVENT : Nat := 0x500008
abbrev KPR_POLICY : Nat := 0x500010
abbrev KPR_FAR_STATUS : Nat := 0x500018
abbrev KPR_QUERY : Nat := 0x500020
abbrev KPR_QUERY_RESULT : Nat := 0x500028
abbrev KPR_FAR_MAP (i : Nat) : Nat := 0x500100 + 8 * i
abbrev KPR_EXTENT (c s : Nat) : Nat := 0x510000 + 8 * (8 * c + s)
abbrev KPR_FAR_EXTENT (c : Nat) : Nat := 0x520000 + 8 * c
abbrev KPR_REG_SHARE (c : Nat) : Nat := 0x522000 + 8 * c
abbrev KPR_USE (c : Nat) : Nat := 0x524000 + 8 * c
abbrev HBM_STACK_STATE (s : Nat) : Nat := 0x580000 + 8 * s
abbrev HBM_CHAN_STATE (s : Nat) : Nat := 0x580040 + 8 * s
abbrev HBM_MAPOUT_FORCE (s : Nat) : Nat := 0x580080 + 8 * s
abbrev HBM_RETRAIN : Nat := 0x5800C0
abbrev HBM_TEMP_LIMIT : Nat := 0x5800C8
abbrev HBM_CHAN_ERR_LIMIT : Nat := 0x5800D0
abbrev HBM_TEMP (s : Nat) : Nat := 0x580100 + 8 * s
abbrev HBM_ERR_COUNT (s : Nat) : Nat := 0x580140 + 8 * s
abbrev HBM_TEST_CTL (s : Nat) : Nat := 0x580200 + 8 * s
abbrev HBM_WSP_CMD (s : Nat) : Nat := 0x580240 + 8 * s
abbrev HBM_WSP_DATA (s : Nat) : Nat := 0x580280 + 8 * s
-- LND_ (Table 19-9)
abbrev LND_LOAN_LIMIT : Nat := 0x600000
abbrev LND_STATUS : Nat := 0x600008
abbrev LND_EVENT : Nat := 0x600010
abbrev LND_REFUSALS : Nat := 0x600018
abbrev LND_WINDOW (c : Nat) : Nat := 0x601000 + 8 * c
abbrev LND_WINDOW_SRC (c : Nat) : Nat := 0x603000 + 8 * c
abbrev LND_SHELF_STATE (s : Nat) : Nat := 0x608000 + 8 * s
-- ILN_ (Table 19-10)
abbrev ILN_CHIP : Nat := 0x700000
abbrev ILN_CTL : Nat := 0x700008
abbrev ILN_TIMEOUT : Nat := 0x700010
abbrev ILN_EPOCH : Nat := 0x700018
abbrev ILN_EPOCH_NEXT : Nat := 0x700020
abbrev ILN_EPOCH_AT : Nat := 0x700028
abbrev ILN_EPOCH_CMD : Nat := 0x700030
abbrev ILN_EPOCH_STATUS : Nat := 0x700038
abbrev ILN_EVENT : Nat := 0x700040
abbrev ILN_COUNT : Nat := 0x700048
abbrev ILN_PORT_STATE (p : Nat) : Nat := 0x700100 + 8 * p
abbrev ILN_PORT_CTL (p : Nat) : Nat := 0x700140 + 8 * p
abbrev ILN_ROUTE (i : Nat) : Nat := 0x700200 + 8 * i
abbrev ILN_PEER_SEL : Nat := 0x700300
abbrev ILN_PEER_STATE : Nat := 0x700308
abbrev ILN_REMOTE_MEM (c : Nat) : Nat := 0x701000 + 8 * c
-- CRL_ (Table 19-11)
abbrev CRL_CMD : Nat := 0x800000
abbrev CRL_CMD_STATUS : Nat := 0x800008
abbrev CRL_ROOM_MASK : Nat := 0x800010
abbrev CRL_IMAGE_ADDR : Nat := 0x800018
abbrev CRL_CTL : Nat := 0x800020
abbrev CRL_EVENT : Nat := 0x800028
abbrev CRL_MGR_NOTIFY_ADDR : Nat := 0x800030
abbrev CRL_MGR_NOTIFY_CTL : Nat := 0x800038
abbrev CRL_MBOX_SUMMARY (i : Nat) : Nat := 0x800100 + 8 * i
abbrev CRL_CARREL_CFG (c : Nat) : Nat := 0x801000 + 8 * c
abbrev CRL_CARREL_STATE (c : Nat) : Nat := 0x803000 + 8 * c
abbrev CRL_MBOX_MSG (c w : Nat) : Nat := 0x810000 + 0x100 * c + 8 * w
abbrev CRL_MBOX_DB (c : Nat) : Nat := 0x810080 + 0x100 * c
abbrev CRL_MBOX_NOTIFY_ADDR (c : Nat) : Nat := 0x810088 + 0x100 * c
abbrev CRL_MBOX_NOTIFY_CTL (c : Nat) : Nat := 0x810090 + 0x100 * c
-- BEL_ (Table 19-12)
abbrev BEL_DOORBELL : Nat := 0x900000
abbrev BEL_PEND_SET : Nat := 0x900008
abbrev BEL_COMPLETE : Nat := 0x900010
abbrev BEL_STATUS : Nat := 0x900018
abbrev BEL_CUR_PRIO (k : Nat) : Nat := 0x900100 + 8 * k
abbrev BEL_Q_BASE (k : Nat) : Nat := 0x900120 + 8 * k
abbrev BEL_Q_CTL (k : Nat) : Nat := 0x900140 + 8 * k
abbrev BEL_Q_HEAD (k : Nat) : Nat := 0x900160 + 8 * k
abbrev BEL_Q_TAIL (k : Nat) : Nat := 0x900180 + 8 * k
abbrev BEL_CUR_STATUS (k : Nat) : Nat := 0x9001A0 + 8 * k
abbrev BEL_SRC_CFG (n : Nat) : Nat := 0x901000 + 8 * n
abbrev BEL_SRC_STATE (n : Nat) : Nat := 0x905000 + 8 * n
abbrev BEL_PENDING (i : Nat) : Nat := 0x909000 + 8 * i
-- LDG_ (Table 19-13)
abbrev LDG_CTL : Nat := 0xA00000
abbrev LDG_STATUS : Nat := 0xA00008
abbrev LDG_LOG_BASE : Nat := 0xA00010
abbrev LDG_LOG_CTL : Nat := 0xA00018
abbrev LDG_LOG_HEAD : Nat := 0xA00020
abbrev LDG_LOG_TAIL : Nat := 0xA00028
abbrev LDG_NEXT (w : Nat) : Nat := 0xA00030 + 8 * w
abbrev LDG_BLOCK_RESET : Nat := 0xA00050
abbrev LDG_ESCALATION : Nat := 0xA00058
abbrev LDG_OOS_CLEAR : Nat := 0xA00060
abbrev LDG_HEARTBEAT : Nat := 0xA00068
abbrev LDG_WDOG_STATUS : Nat := 0xA00070
abbrev LDG_FIRST (i : Nat) : Nat := 0xA00100 + 8 * i
abbrev LDG_INJECT (i : Nat) : Nat := 0xA00200 + 8 * i
abbrev LDG_INJECT_ADDR (i : Nat) : Nat := 0xA00240 + 8 * i
abbrev LDG_KEEP (w : Nat) : Nat := 0xA00400 + 8 * w
abbrev LDG_SEVERITY (n : Nat) : Nat := 0xA01000 + 8 * n
abbrev LDG_COUNT (n : Nat) : Nat := 0xA03000 + 8 * n
-- PWR_ (Table 19-14)
abbrev PWR_CTL : Nat := 0xB00000
abbrev PWR_STATUS : Nat := 0xB00008
abbrev PWR_EVENT : Nat := 0xB00010
abbrev PWR_CAP : Nat := 0xB00018
abbrev PWR_LEND : Nat := 0xB00020
abbrev PWR_THERM_LIMIT : Nat := 0xB00028
abbrev PWR_SRAM_LIMIT : Nat := 0xB00030
abbrev PWR_ALERT_EN : Nat := 0xB00038
abbrev PWR_DOMAIN_CMD : Nat := 0xB00040
abbrev PWR_DOMAIN_RESULT : Nat := 0xB00048
abbrev PWR_DOMAIN_STATE (d : Nat) : Nat := 0xB00100 + 8 * d
abbrev PWR_RANGE_CEIL (r : Nat) : Nat := 0xB00400 + 8 * r
abbrev PWR_RANGE_STATE (r : Nat) : Nat := 0xB00600 + 8 * r
abbrev PWR_TEMP (r : Nat) : Nat := 0xB00800 + 8 * r
abbrev PWR_CARREL_CAP (c : Nat) : Nat := 0xB01000 + 8 * c
-- OBS_ (Table 19-15)
abbrev OBS_CTL : Nat := 0xC00000
abbrev OBS_EVENT : Nat := 0xC00008
abbrev OBS_HUSH : Nat := 0xC00010
abbrev OBS_HUSH_STATUS : Nat := 0xC00018
abbrev OBS_HUSH_WHEN : Nat := 0xC00020
abbrev OBS_SCAN_CTL : Nat := 0xC00028
abbrev OBS_SCAN_RANGES : Nat := 0xC00030
abbrev OBS_SCAN_BASE : Nat := 0xC00038
abbrev OBS_SCAN_STATUS : Nat := 0xC00040
abbrev OBS_JNL_BASE : Nat := 0xC00100
abbrev OBS_JNL_CTL : Nat := 0xC00108
abbrev OBS_JNL_FILTER : Nat := 0xC00110
abbrev OBS_JNL_STATUS : Nat := 0xC00118
abbrev OBS_WP_BASE (w : Nat) : Nat := 0xC00200 + 0x10 * w
abbrev OBS_WP_LIMIT (w : Nat) : Nat := 0xC00208 + 0x10 * w
abbrev OBS_CNT_SEL : Nat := 0xC01000
abbrev OBS_CNT (i : Nat) : Nat := 0xC01008 + 8 * i
abbrev OBS_UTIL (r : Nat) : Nat := 0xC01200 + 8 * r
abbrev OBS_ERR (r : Nat) : Nat := 0xC01400 + 8 * r
abbrev OBS_SELFTEST_CMD : Nat := 0xC01800
abbrev OBS_SELFTEST_STATUS : Nat := 0xC01808
abbrev OBS_WFG_CMD : Nat := 0xC01900
abbrev OBS_WFG_ADDR : Nat := 0xC01908
abbrev OBS_WFG_STATUS : Nat := 0xC01910
abbrev OBS_BISECT_MATCH (e : Nat) : Nat := 0xC80000 + 0x20 * e
abbrev OBS_BISECT_PASS (e : Nat) : Nat := 0xC80008 + 0x20 * e
abbrev OBS_BISECT_CUT (e : Nat) : Nat := 0xC80010 + 0x20 * e
abbrev OBS_BISECT_STATUS (e : Nat) : Nat := 0xC80018 + 0x20 * e
abbrev OBS_BISECT_RELEASE : Nat := 0xC80200
-- doorbell pages (R465)
abbrev DB_PAGE (c : Nat) : Nat := 0x1000000 + 0x1000 * c
end R

/-- Whether a Bell source is of the status class (Table 15-1). -/
def belIsStatus (n : Nat) : Bool :=
  (1024 ≤ n && n ≤ 1102) || n == 1107

/-- Reset severity of a Ledger source (Table 16-2); reserved sources read 0 (DESIGN CHOICE, notes/assumptions/6.md). -/
def severityReset (n : Nat) : Nat :=
  if n ≤ 1 then 2
  else if n = 2 then 1
  else if n = 3 then 2
  else if n = 4 then 1
  else if n = 5 then 2
  else if n = 6 then 1
  else if n = 7 then 2
  else if n = 8 then 1
  else if n = 9 then 0
  else if n ≤ 11 then 2
  else if n ≤ 13 then 1
  else if n = 14 then 2
  else if n = 15 then 0
  else if n ≤ 25 then 2
  else if n ≤ 63 then 0
  else if n ≤ 147 then 2
  else if n ≤ 511 then 0
  else 1

/-- Whether `off` is element i of an array at `base` of `count` registers `stride` bytes apart. -/
def inArray (off base stride count : Nat) : Bool :=
  decide (base ≤ off) && decide (off < base + stride * count) && (off - base) % stride == 0

/-- The Reset column of Tables 19-3 to 19-15 (R464). A register the column loads from the settings store, a fuse or the straps
has here the value of the factory settings of a grade F part (notes/assumptions/6.md). -/
def regReset (off : Nat) : Word :=
  if off = R.CFG_ID then 0x05C30000A3E10100
  else if off = R.CFG_RANGE_ENABLE then 0xFFFFFFFFFFFFFFFF
  else if off = R.CFG_SMB_CTL then 0x5A
  else if off = R.STP_PERIOD then 32
  else if off = R.STP_CTL then 0x000700C8
  else if inArray off (R.CIR_ENQ_LIMIT 0) 8 1024 then 0x0000000110000400
  else if inArray off (R.CAT_NOPROG 0) 8 1024 then 0x0000000100007A12
  else if off = R.SHV_POLICY then 0x0000000140180410
  else if off = R.KPR_POLICY then 4
  else if off = R.HBM_RETRAIN then 0x21000
  else if off = R.HBM_TEMP_LIMIT then 0x5F55
  else if off = R.HBM_CHAN_ERR_LIMIT then 0x10
  else if off = R.LND_LOAN_LIMIT then 0x80000
  else if off = R.ILN_CTL then 0x143200
  else if off = R.ILN_TIMEOUT then 0x1F40
  else if off = R.CRL_CTL then 0x496
  else if inArray off (R.CRL_CARREL_CFG 0) 8 1024 then 0x10
  else if inArray off (R.BEL_Q_CTL 0) 8 4 then 0x18
  else if inArray off (R.BEL_SRC_CFG 0) 8 2048 then
    (if belIsStatus ((off - R.BEL_SRC_CFG 0) / 8) then 0x7C0 else 0x3C0)
  else if off = R.LDG_LOG_CTL then 0xF
  else if inArray off (R.LDG_SEVERITY 0) 8 1024 then
    BitVec.ofNat 64 (severityReset ((off - R.LDG_SEVERITY 0) / 8))
  else if off = R.PWR_CTL then 1
  else if off = R.PWR_LEND then 0x2400004000
  else if off = R.PWR_THERM_LIMIT then 0x6C64605A
  else if off = R.PWR_SRAM_LIMIT then 0x665E5A54
  else if off = R.PWR_ALERT_EN then 0x3F
  else if inArray off (R.PWR_RANGE_CEIL 0) 8 64 then 4
  else 0

/-- A register file: the registers whose value differs from their Reset column, by offset. -/
abbrev RegFile := Tab Word

/-- A register's value. -/
def RegFile.get (f : RegFile) (off : Nat) : Word := Tab.getD f off (regReset off)

/-- A register written whole by its unit. -/
def RegFile.set (f : RegFile) (off : Nat) (v : Word) : RegFile := Tab.put f off v (regReset off)

/-- Registers that fuses give (R5, Table 3-7): no reset changes them. -/
def fused (off : Nat) : Bool := off == R.CFG_ID || off == R.CFG_RANGE_ENABLE || off == R.CFG_SERIAL

/-- Registers of a block that a block reset of the chiplet keeps (R464): CFG_STRAP, those in the always-on domain that R72 keeps,
and those Table 16-6 and R356 name. -/
def keptOverBlockReset (off : Nat) : Bool :=
  fused off || off == R.CFG_STRAP
  || inArray off (R.LDG_FIRST 0) 8 16 || inArray off (R.LDG_KEEP 0) 8 64 || inArray off (R.LDG_COUNT 0) 8 1024
  || inArray off (R.HBM_MAPOUT_FORCE 0) 8 6 || inArray off (R.HBM_ERR_COUNT 0) 8 6

/-- A row of Tables 19-3 to 19-15: base, stride and count of the array, the bits that a write only stores and those it clears by 1, and
whether its index is a carrel's. Bits whose writes do more have neither. -/
structure RegRow where
  base   : Nat
  stride : Nat
  count  : Nat
  rw     : Word
  w1c    : Word
  carrel : Bool := false
  deriving DecidableEq, Repr

end Sys2Proof.Machine
end

