-- ==== Sys2Proof/Machine/State.lean ====
section
/-! DEFINITION. The whole state of the chiplet, plain data: the register file, the memories, the units' state beyond their
registers, the commands waiting, and what has left the chip. State.reset is the chiplet held in reset by PWROK (R71). -/

namespace Sys2Proof.Machine

/-- Why a step stops with a fault. No meaning of this model raises one: every command of the table has an effect in every state. -/
inductive Fault where
  /-- raised by nothing; a closed name for a stuck state (safe: no claim can be proved through it) -/
  | stuck
  deriving DecidableEq, Repr

/-- Why a step is refused. -/
inductive Refusal where
  /-- a command with no meaning yet, by its mnemonic (safe) -/
  | notModelled (mnemonic : String)
  deriving DecidableEq, Repr

/-- The chiplet. -/
structure State where
  /-- commands waiting, first in first out -/
  pending : List Instr
  /-- free values drawn so far (the model's own field) -/
  freeCtr : Nat
  /-- registers, by control-window offset -/
  rf      : RegFile
  /-- near tier, far tier, shelf stores and folio memories, by local address -/
  mem     : Memory
  /-- check bits an injector inverted (R421): 1 or 2, by the address of the word or granule; curator words from 2^50 -/
  ecc     : Tab Nat
  /-- curator shared memory, 1 MiB (R36), and the boot window onto it (R88) -/
  curMem  : Memory
  pins    : Pins
  tap     : Tap
  smb     : Smb
  ss      : Settings
  boot    : Boot
  stp     : Stp
  cir     : Cir
  cat     : Cat
  bind    : Bindery
  shelves : Tab Shelf
  kpr     : Kpr
  iln     : Iln
  crl     : Crl
  bel     : Bel
  ldg     : Ldg
  pwr     : Pwr
  obs     : Obs
  /-- posted writes that left for host memory, oldest first -/
  hostOut : List HostWrite
  deriving DecidableEq, Repr

/-- Factory defaults of the configuration section (Table 3-4), by store offset. -/
def factoryConfig : Tab Byte :=
  [(0x0000, 0x01), (0x0002, 32), (0x0004, 200), (0x0007, 3), (0x0009, 0x5A), (0x000E, 1), (0x0010, 3), (0x0011, 24)]

/-- The pins with PWROK low (Table 2-10). -/
def Pins.reset : Pins :=
  { life := .off, resetN := false, sbLive := false, thermTrip := false, refclk := true, vcoreLow := false,
    boundary := 0, preload := 0, driving := false, highz := false }

/-- The TAP after Test-Logic-Reset: IDCODE selected and loaded (R52, R54). -/
def Tap.reset : Tap :=
  { ir := 0x02, bypass := false, stk := 0, data := 0x1A3E1B87, busy := false, scanPos := 0, scanBits := [] }

/-- The SMBus target with its factory address (R64). -/
def Smb.reset : Smb := { active := 0x5A, cap := 0, cause := 0, reply := .none }

/-- The settings store as the part ships (R95, R97): factory configuration; a calibration section that holds the serial
(R97) and otherwise zero. The check words are those of Table 3-6 over the sections. -/
def Settings.factory : Settings :=
  { cfg := { bytes := factoryConfig, check := 0xab077e1e, broken := false, commits := 0 }
    cal := { bytes := [], check := 0x7511220e, broken := false, commits := 0 }
    cfgUse := { bytes := factoryConfig, check := 0xab077e1e, broken := false, commits := 0 }
    calUse := { bytes := [], check := 0x7511220e, broken := false, commits := 0 }
    busy := none, result := 0, unlocked := false, items := factoryConfig }

/-- No boot in progress. -/
def Boot.reset : Boot :=
  { pin := false, spi := [], slotAt := 0, trained := false, tested := false, go := false, header := [], cfgLog := false, calLog := false, cause := none,
    escalated := false }

/-- The Stamp unit at PWROK: datestamp zero (R84), factory period, not started. -/
def Stp.reset : Stp :=
  { stamp := 0, t := 0, len := 40960, total := 0, running := false, state := 1, ctl := 0x700C8, delay := 0,
    offA := 0, offB := 0, armed := none, bits := [], edgeA := none, edgeB := none, bitB := none, agreed := false, lastEdge := none,
    misses := 0, periods := 0, relockRun := 0, relockNum := none, permit := false, newNum := none,
    newPer := none, cut := false, out := none }

/-- Circulation after a block reset. -/
def Cir.reset : Cir :=
  { fetch := [], committed := [], disabling := [], desks := [], lastRing := [], due := [], waits := [], credit := [],
    edgeWait := [], holdoff := [] }

/-- An empty Catalogue. -/
def Cat.reset : Cat := { slips := [], nextId := 0, snaps := [], skips := [], blockings := 0 }

/-- The Bindery with no volume. -/
def Bindery.reset : Bindery := { slot0 := none, slot1 := none, vols := [] }

/-- The Keeper with nothing registered; HBM_RETRAIN and the loan limit at their reset values. -/
def Kpr.reset : Kpr :=
  { calls := [], moves := [], given := [], zeroing := [], excess := [], poison := [], chanErrs := [], slots := [],
    retrain := 0x21000, limit := 0x80000, farDown := 0, adderStatus := 0, adderOld := 0, adds := [] }

/-- The endpoint with no peer. -/
def Iln.reset : Iln :=
  { peers := [], reqs := [], nextReq := 0, host := [], hostLast := none, armed := none, firedAt := none, retrain := 0, committed := false, sent := [], answers := [] }

/-- The carrel manager with no command; every arbiter's credits and last-granted carrel are 0 (R399). -/
def Crl.reset : Crl := { cmd := none, resets := [], arbs := [] }

/-- The Bell after a block reset (R411): every source IDLE. -/
def Bel.reset : Bel := { srcs := [], last := 0, asleep := 0, alt := 0, banks := [], ran := 0 }

/-- The Ledger at power-up: nothing waits, no reset noted, the latch clear. -/
def Ldg.reset : Ldg :=
  { waiting := [], buffer := [], records := [], lost := 0, history := [], oos := false, cycled := false, wdArmed := false, wdSeen := 0,
    wdLeft := 0, wdExpiries := 0 }

/-- The Power unit at power-up: VCORE_REQ 520 mV (Table 17-4). -/
def Pwr.reset : Pwr :=
  { vcore := 520, fixed := false, power := 0, recent := [], capUsed := 0, reading := ⟨[], 0⟩, switching := none, lvlC := [], lvlS := [], lvlStk := [],
    emThermal := 0, emVcore := 0, lending := [], wakes := [], quiet := [], carrelCaps := [] }

/-- The Observation unit after a block reset (R459). -/
def Obs.reset : Obs :=
  { scan := false, resuming := false, hushFc := 0, selftest := none, wfg := none, counters := [], ccs := [], util := [], wrapped := false }

/-- The chiplet held in reset by PWROK low (R71): every register at its Reset column (R464), memory with nothing listed, the
settings store as shipped. The first command that acts is PWROK_RISE. -/
def State.reset : State :=
  { pending := [], freeCtr := 0, rf := [], mem := [], ecc := [], curMem := [], pins := .reset, tap := .reset, smb := .reset,
    ss := .factory, boot := .reset, stp := .reset, cir := .reset, cat := .reset, bind := .reset, shelves := [],
    kpr := .reset, iln := .reset, crl := .reset, bel := .reset, ldg := .reset, pwr := .reset, obs := .reset,
    hostOut := [] }

end Sys2Proof.Machine
end

