-- ==== Sys2Proof/Machine/Ops.lean ====
section
/-! DEFINITION. The named operations every meaning is written with: registers, time, datestamps, events and the Bell, the Ledger's
messages, the near-tier map, and a carrel's admission to memory. -/

namespace Sys2Proof.Machine

/-- What a command answers. -/
abbrev Out := Host.Outcome State Fault Refusal

/-! ## Registers -/

/-- The value a register holds. -/
def State.reg (s : State) (off : Nat) : Word := RegFile.get s.rf off

/-- A register written whole by its unit. -/
def State.setReg (s : State) (off : Nat) (v : Word) : State := { s with rf := RegFile.set s.rf off v }

/-- A field of a register. -/
def State.field (s : State) (off lo width : Nat) : Nat := fld (s.reg off) lo width

/-- A field of a register written by its unit. -/
def State.setField (s : State) (off lo width v : Nat) : State := s.setReg off (setFld (s.reg off) lo width v)

/-- A bit of a register. -/
def State.regBit (s : State) (off i : Nat) : Bool := bitAt (s.reg off) i

/-- A bit of a register written by its unit. -/
def State.setRegBit (s : State) (off i : Nat) (b : Bool) : State := s.setReg off (setBitAt (s.reg off) i b)

/-- Bits of a register set by hardware. -/
def State.orReg (s : State) (off : Nat) (mask : Word) : State := s.setReg off (s.reg off ||| mask)

/-- Bits of a register cleared. -/
def State.andNotReg (s : State) (off : Nat) (mask : Word) : State := s.setReg off (s.reg off &&& ~~~ mask)

/-- A counter field that saturates (R13: "saturates"). -/
def State.countSat (s : State) (off lo width n : Nat) : State :=
  s.setField off lo width (satAdd (2 ^ width - 1) (s.field off lo width) n)

/-- A counter field that wraps. -/
def State.countWrap (s : State) (off lo width n : Nat) : State :=
  s.setField off lo width (s.field off lo width + n)

/-! ## Time (R108, R109) -/

/-- PHASE (R109); it never reaches 65,536, also where an accepted edge lengthens the period. -/
def State.phase (s : State) : Nat := min 65535 (65536 * s.stp.t / s.stp.len)

/-- The datestamp (Table 4-1). -/
def State.now (s : State) : Word := BitVec.ofNat 64 (s.stp.stamp.toNat * 65536 + s.phase)

/-- The datestamp carries the holdover mark (R126). -/
def State.holdover (s : State) : Bool := s.stp.state == 4

/-- The die is hushed or stopping (OBS_HUSH_STATUS.STATE). -/
def State.hushed (s : State) : Bool := s.field R.OBS_HUSH_STATUS 0 2 != 0

/-- MHz of an operating point, by its code. -/
def opMHz (op : Nat) : Nat := if op = 0 then 160 else if op = 1 then 320 else if op = 2 then 480 else if op = 3 then 640 else 720

/-- Index of the state an engine's stream is in (R454): none idle, 0 busy, 2 + reason stalled. -/
def Stream.engState (x : Stream) : Option Nat :=
  if x.ended && x.execs.isEmpty then none
  else if x.execs.any (fun e => e.phase == .started && !e.waits) then some 0
  else some (2 + x.reason)

/-- 65,536 cc, as `Exec.busy` counts. -/
def busyUnit : Nat := 65536 * 1280

/-- A stream after w of time in the clock of its shelf: the oldest folio in execution ages while the engine is busy, and the progress count rises
with each 65,536 cc of it (R184). -/
def Stream.age (x : Stream) (w : Nat) : Stream :=
  if x.engState ≠ some 0 then x
  else
    match x.execs.find? (fun e => e.phase == .started || e.phase == .performed) with
    | none => x
    | some y =>
      { x with
        prog := x.prog + BitVec.ofNat 16 ((y.busy + w) / busyUnit - y.busy / busyUnit)
        execs := x.execs.map (fun e => if e.slot = y.slot ∧ e.lap = y.lap then { e with busy := e.busy + w } else e) }

/-- The three progress counts of a core. -/
def CoreSt.progs (c : CoreSt) : List (BitVec 16) := [c.m.prog, c.v.prog, c.s.prog]

/-- A stream is over, or its engine is stalled at a wait (R436, R454). -/
def Stream.still (x : Stream) : Bool := x.engState == none || (x.engState == some 2 && x.execs.isEmpty)

/-- Every stream of a running pass is held at a wait, or over. -/
def Running.stands (r : Running) : Bool :=
  r.cores.all (fun p => p.2.m.still && p.2.v.still && p.2.s.still) && (r.firsts == (0, 0, 0) || r.cores.length == 256)

/-- A running pass after w of time in the clock of its shelf: its own cc for SHELF_CC, and its folios in execution. -/
def Running.age (r : Running) (w : Nat) : Running :=
  let cores := r.cores.map (fun p => (p.1, { p.2 with m := p.2.m.age w, v := p.2.v.age w, s := p.2.s.age w }))
  { r with cc := r.cc + w, still := if r.stands then r.still + w else 0, cores := cores, moved := r.moved || cores.map (fun p => p.2.progs) != r.cores.map (fun p => p.2.progs) }

/-- Core-cc a running pass adds to a shelf's thirty counters in w units of time: cores not listed still wait for their first issue. -/
def Running.counts (r : Running) (w : Nat) (c : List Nat) : List Nat :=
  let bump := fun (c : List Nat) (e k n : Nat) => c.set (10 * e + k) (c.getD (10 * e + k) 0 + n * w)
  let c := r.cores.foldl (fun c p => [(0, p.2.m), (1, p.2.v), (2, p.2.s)].foldl (fun c q =>
    match Stream.engState q.2 with
    | none => c
    | some k => bump c q.1 k 1) c) c
  let rest := 256 - r.cores.length
  [(0, r.firsts.1), (1, r.firsts.2.1), (2, r.firsts.2.2)].foldl (fun c q => if q.2 = 0 then c else bump c q.1 7 rest) c

/-- n fc pass while the die runs: running passes age (R184), and Observation counts per range the cc, per shelf the engine states, and shelf-cc
with a pass running (R455, R456). -/
def State.observe (s : State) (n : Nat) : State :=
  let w := fun (r : Nat) => n * opMHz (fld (RegFile.get s.rf (R.PWR_RANGE_STATE r)) 0 3)
  let busy := s.shelves.filter (fun p => p.2.run.isSome)
  let util := busy.foldl (fun t p => Tab.put t (p.1 / 64) (Tab.getD t (p.1 / 64) 0 + w (p.1 / 64)) 0) s.obs.util
  let s := if busy.isEmpty then s else
    { s with shelves := s.shelves.map (fun p => (p.1, { p.2 with run := p.2.run.map (fun r => r.age (w (p.1 / 64))) })) }
  let on := bitAt (RegFile.get s.rf R.OBS_CTL) 0
  if !on then { s with obs := { s.obs with util := util } }
  else
    let ranges := (List.range 64).filter (fun r => fld (RegFile.get s.rf (R.PWR_DOMAIN_STATE r)) 0 2 == 1)
    let ccs := ranges.foldl (fun t r => Tab.put t r (Tab.getD t r 0 + w r) 0) s.obs.ccs
    let counters := busy.foldl (fun t p =>
      match p.2.run with
      | none => t
      | some x => Tab.insert t p.1 (x.counts (w (p.1 / 64)) (Tab.getD t p.1 (List.replicate 30 0)))) s.obs.counters
    { s with obs := { s.obs with util := util, ccs := ccs, counters := counters } }

/-! ## STAMP_OUT (R58 to R60, R114, R118) -/

/-- Period in effect in µs (R112). -/
def State.period (s : State) : Nat := s.field R.STP_PERIOD 0 13

/-- The period that the plans of period m are built with: the armed value counts from the moment of arming (R138), a master's as if it
were staged (R121). -/
def State.periodOf (s : State) (m : Nat) : Nat :=
  let base := if s.stp.stamp.toNat < m then s.stp.newPer.getD s.period else s.period
  match s.stp.armed with
  | some (at_, p) => if p != 0 && decide (at_ ≤ m) then p else base
  | none => base

/-- The frame bit of stamp n, the period in effect at its frame's first stamp being `per` µs (R118, Table 4-4). -/
def frameBit (n per : Nat) : Bool :=
  let low := n / 64 + (per - 1) * 2 ^ 42
  let crc := crc8 ((List.range 7).map (fun k => low / 256 ^ k % 256))
  (low + crc * 2 ^ 56).testBit (n % 64)

/-- A master drives STAMP_OUT from the end of phase 0x1, in the boot and service lives (R84, Table 2-10). -/
def State.drivesStamps (s : State) : Bool :=
  (s.pins.life == .boot || s.pins.life == .service) && s.stp.running && s.stp.state == 0

/-- When in the period in progress the rising edge of the pulse for the stamp that ends it leaves: 64 fc and the grid delay before (R59,
R114). -/
def State.outEdge (s : State) : Nat := s.stp.len - 64 - s.stp.delay

/-- STAMP_OUT's last pulse after n fc: a master's next edge leaves, with the bit of the next stamp. -/
def State.outAfter (s : State) (n : Nat) : Option StampOut :=
  if s.drivesStamps && decide (s.stp.t < s.outEdge) && decide (s.outEdge ≤ s.stp.t + n) then
    some ⟨s.stp.total + (s.outEdge - s.stp.t), frameBit (s.stp.stamp.toNat + 1) (s.periodOf (s.stp.stamp.toNat + 1))⟩
  else s.stp.out

/-- The level of STAMP_OUT: high for 40 ns or 80 ns from a master's edge; a follower holds it low (R60). -/
def State.stampOut (s : State) : Bool :=
  s.drivesStamps && s.stp.out.any (fun o => decide (o.edge ≤ s.stp.total)
    && decide ((s.stp.total - o.edge) * 100 < (if o.wide then 80 else 40) * 128))

/-- n fabric cycles pass: the clock, the watchdog unless a hush holds the die (R422, R423), the time a hush has lasted, and what the
Observation unit counts while the die runs. -/
def State.advance (s : State) (n : Nat) : State :=
  let s' := if s.hushed || !(s.pins.life == .service) then s else s.observe n
  { s' with
    stp := { s.stp with t := s.stp.t + n, total := s.stp.total + n, out := s.outAfter n }
    ldg := { s.ldg with wdLeft := if s.ldg.wdArmed && !s.hushed then s.ldg.wdLeft - n else s.ldg.wdLeft }
    obs := { s'.obs with hushFc := if s.hushed then s.obs.hushFc + n else s.obs.hushFc } }

/-- First fc of a period at which phase 0.75, the plan cutoff's, has come (R130). -/
def State.cutFc (s : State) : Nat := ceilDiv (3 * s.stp.len) 4

/-- Fabric cycles in one microsecond (R8). -/
def fcPerUs : Nat := 1280

/-! ## Lives -/

/-- In the service life, and not held in reset. -/
def State.inService (s : State) : Bool := s.pins.life == .service

/-- The boot or service life: registers can be written and the Stamp unit's inputs are taken. -/
def State.alive (s : State) : Bool := s.pins.life == .boot || s.pins.life == .service

/-- The units that stop in a hush run (Table 18-1). -/
def State.running (s : State) : Bool := s.inService && !s.hushed

/-- The Stamp unit lets the Shelver plan and the Catalogue release launches (R116): MASTER, LOCKED or HOLDOVER. -/
def State.launchable (s : State) : Bool := s.stp.state == 0 || s.stp.state == 3 || s.stp.state == 4

/-! ## The Bell (R403 to R410) -/

/-- A source's state. -/
def State.belSrc (s : State) (n : Nat) : BelSrc := Tab.getD s.bel.srcs n BelSrc.rest

/-- A source's state written. -/
def State.setBelSrc (s : State) (n : Nat) (x : BelSrc) : State :=
  { s with bel := { s.bel with srcs := Tab.put s.bel.srcs n x BelSrc.rest } }

/-- An arrival at a source (Table 15-2). -/
def BelSrc.arrive (x : BelSrc) (status soft : Bool) (now : Word) (ho : Bool) : BelSrc :=
  match x.phase with
  | .idle =>
    { x with phase := .pending, count := if status then 0 else 1, soft := x.soft || soft, first := now, firstHo := ho }
  | .pending =>
    if status then x
    else { x with count := min 255 (x.count + 1), sat := x.sat || decide (x.count = 255), soft := x.soft || soft }
  | .active =>
    if status then x
    else { x with
      count := min 255 (x.count + 1), sat := x.sat || decide (x.count = 255), soft := x.soft || soft
      first := if x.count = 0 then now else x.first, firstHo := if x.count = 0 then ho else x.firstHo }

/-- Level of curator k's queue (R408). -/
def State.belLevel (s : State) (k : Nat) : Nat :=
  (s.field (R.BEL_Q_TAIL k) 0 16 + (65536 - s.field (R.BEL_Q_HEAD k) 0 16)) % 65536

/-- Whether a pending enabled source names curator k (R410). -/
def State.belNames (s : State) (k : Nat) : Bool :=
  s.bel.srcs.any (fun p => p.2.phase == .pending && s.regBit (R.BEL_SRC_CFG p.1) 0 && s.regBit (R.BEL_SRC_CFG p.1) (6 + k))

/-- Sleeping curators that R410 wakes. -/
def State.belWake (s : State) : State :=
  let woken := (List.range 4).filter (fun k => s.bel.asleep.getLsbD k && (s.belNames k || decide (0 < s.belLevel k)))
  { s with bel := { s.bel with asleep := woken.foldl (fun a k => a &&& ~~~ (1#4 <<< k)) s.bel.asleep } }

/-- A unit signals a source (R403). -/
def State.bell (s : State) (n : Nat) (soft : Bool := false) : State :=
  (s.setBelSrc n ((s.belSrc n).arrive (belIsStatus n) soft s.now s.holdover)).belWake

/-- The Bell source that a sticky event register holds up (Table 15-1); KPR_EVENT stands for the six stack ports' sources. -/
def eventSources (off : Nat) : List Nat :=
  if off = R.STP_EVENT then [1099]
  else if off = R.SHV_EVENT then [1101]
  else if off = R.LND_EVENT then [1102]
  else if off = R.OBS_EVENT then [1107]
  else if off = R.KPR_EVENT then [1088, 1089, 1090, 1091, 1092, 1093]
  else []

/-- A unit sets bits of its sticky event register; a level that rises signals its source. -/
def State.event (s : State) (off : Nat) (mask : Word) : State :=
  let s1 := s.orReg off mask
  if s.reg off = 0 then (eventSources off).foldl (fun s n => s.bell n) s1 else s1

/-- A cause of ALERT_N recorded (R67). -/
def State.alert (s : State) (bit : Nat) : State :=
  { s with smb := { s.smb with cause := s.smb.cause ||| (1#6 <<< bit) } }

/-- Lowest REQ_ID free among outstanding host accesses. -/
def freeHostId (t : Tab HostReq) : Nat := ((List.range (t.length + 1)).find? (fun i => !Tab.mem t i)).getD 0

/-- A write towards host memory leaves through port 0, tagged with a function (R79, R384); it is outstanding until its HOST_RSP. Nothing
leaves while the link is down. -/
def State.hostWrite (s : State) (func addr : Nat) (data : List Byte) (who : HostFor := .nobody) : State :=
  if !s.regBit (R.ILN_PORT_STATE 0) 2 then s
  else { s with
    hostOut := s.hostOut ++ [⟨func, addr, data⟩]
    iln := { s.iln with host := Tab.insert s.iln.host (freeHostId s.iln.host) ⟨func, s.stp.total, who⟩ } }

/-! ## Ledger messages (R412, Tables 16-2 and 16-3) -/

/-- A Ledger kind: index within its source's kinds, and code. -/
structure Kind where
  idx  : Nat
  code : Nat
  deriving DecidableEq, Repr

/-- The ledger kinds of Table 16-3 whose severity R418 fixes: the fixed value. -/
def fixedSeverity (code : Nat) : Option Nat :=
  if code = 0x8010 || code = 0x8011 || code = 0x8030 then some 4
  else if code = 0x7010 || code = 0x7011 then some 2
  else if code = 0x1020 || code = 0x1070 then some 1
  else none

/-- Severity of a message as the registers stand (R417, R418). -/
def State.severity (s : State) (src code : Nat) : Nat :=
  (fixedSeverity code).getD (s.field (R.LDG_SEVERITY src) 0 3)

/-- A source's counter and first-error bit (R417, R420). -/
def State.ldgCount (s : State) (src : Nat) : State :=
  (s.countSat (R.LDG_COUNT src) 0 32 1).setRegBit (R.LDG_FIRST (src / 64)) (src % 64) true

/-- A block reset is under way, from its hush to its end: only source 0 is accepted (R419). -/
def State.blockResetting (s : State) : Bool := s.boot.cause.isSome

/-- A hush begins, or its cause joins the one in progress (R443). The die is shown as hushed at once: the 16 fc of stopping are
timing. Causes: 1 manager, 2 watchpoint, 3 TAP, 4 block reset, 5 wait-for graph. -/
def State.startHush (s : State) (cause : Nat) (wp : Nat := 0) : State :=
  if s.hushed then s
  else
    { s with
      rf := RegFile.set (RegFile.set s.rf R.OBS_HUSH_STATUS (BitVec.ofNat 64 (2 + cause * 4 + wp * 32))) R.OBS_HUSH_WHEN s.now
      obs := { s.obs with hushFc := 0 } }

/-- A message sent to the Ledger: it waits at its source, or is merged when four wait there (R413). -/
def State.send (s : State) (m : LMsg) : State :=
  let q := Tab.getD s.ldg.waiting m.source.toNat []
  if q.length < 4 then
    { s with ldg := { s.ldg with waiting := Tab.put s.ldg.waiting m.source.toNat (q ++ [m]) [] } }
  else if s.severity m.source.toNat m.code.toNat = 0 then s
  else (s.ldgCount m.source.toNat).countSat R.LDG_STATUS 44 12 1

/-- A fault observed now by a unit. -/
def State.log (s : State) (src : Nat) (k : Kind) (carrel : Nat := 0) (addr : Nat := 0) (tag : Nat := 0) (info : Nat := 0)
    (stamp : Option Word := none) : State :=
  s.send { source := BitVec.ofNat 10 src, kind := BitVec.ofNat 6 k.idx, code := BitVec.ofNat 16 k.code,
           carrel := BitVec.ofNat 10 carrel, holdover := s.holdover, stamp := stamp.getD s.now,
           addr := BitVec.ofNat 64 addr, tag := BitVec.ofNat 32 tag, info := BitVec.ofNat 64 info }

/-- Ledger source of a shelf's folio and pass records (Table 16-2). -/
def shelfSource (sh : Nat) : Nat := 512 + 8 * (sh / 64) + sh % 64 / 8

/-- ADDR of a shelf record: the shelf-store form with byte address b and chip number 0xFFFF (Table 16-1). -/
def shelfAdr (sh b : Nat) : Nat := 0xFFFF000000000000 + storeAddr sh b

/-- ADDR of a local address in the global form of R357. -/
def globalAdr (a : Nat) : Nat := 0xFFFF000000000000 + a % 2 ^ 48

namespace K
def refclkLost : Kind := ⟨0, 0x8010⟩
def vcoreLow : Kind := ⟨1, 0x1010⟩
def watchdog : Kind := ⟨2, 0x8011⟩
def cfgDefaulted : Kind := ⟨3, 0x1011⟩
def calDefaulted : Kind := ⟨4, 0x1012⟩
def blockReset : Kind := ⟨5, 0x7010⟩
def outOfService : Kind := ⟨6, 0x7011⟩
def stampSplit : Kind := ⟨0, 0x5010⟩
def stampLost : Kind := ⟨1, 0x5011⟩
def stampNoFrame : Kind := ⟨2, 0x5012⟩
def stampNumber : Kind := ⟨3, 0x5013⟩
def stampPeriod : Kind := ⟨4, 0x5014⟩
def stampRelock : Kind := ⟨5, 0x1030⟩
def doorbellDrop : Kind := ⟨0, 0x2020⟩
def ringStopped : Kind := ⟨1, 0x4010⟩
def noProgress : Kind := ⟨0, 0x8001⟩
def launchBlocking : Kind := ⟨0, 0x1040⟩
def groupTooWide : Kind := ⟨1, 0x4020⟩
def passTooLong : Kind := ⟨2, 0x4021⟩
def planOverfull : Kind := ⟨3, 0x4022⟩
def memRefused : Kind := ⟨0, 0x2030⟩
def overQuota : Kind := ⟨1, 0x4030⟩
def moveFail : Kind := ⟨2, 0x6010⟩
def capacityShrunk : Kind := ⟨3, 0x4031⟩
def farLinkDown : Kind := ⟨4, 0x5020⟩
def farPoisonRead : Kind := ⟨5, 0x6011⟩
def loanDouble : Kind := ⟨0, 0x2040⟩
def loanForeign : Kind := ⟨1, 0x2041⟩
def windowRefused : Kind := ⟨2, 0x2042⟩
def clearFailed : Kind := ⟨3, 0x6020⟩
def linkLost : Kind := ⟨0, 0x5030⟩
def remoteTimeout : Kind := ⟨1, 0x5031⟩
def epochMismatch : Kind := ⟨2, 0x5003⟩
def ilnRefused : Kind := ⟨3, 0x2050⟩
def ilnMalformed : Kind := ⟨4, 0x3020⟩
def misrouted : Kind := ⟨5, 0x5032⟩
def noRoute : Kind := ⟨6, 0x5033⟩
def altRoute : Kind := ⟨7, 0x1050⟩
def peerHoldover : Kind := ⟨8, 0x1051⟩
def peerTableFull : Kind := ⟨9, 0x4040⟩
def carrelReset : Kind := ⟨0, 0x7020⟩
def logFull : Kind := ⟨0, 0x4070⟩
def emergency : Kind := ⟨0, 0x1100⟩
def watchpoint : Kind := ⟨0, 0x1110⟩
def journalFull : Kind := ⟨1, 0x4080⟩
def notPermitted : Kind := ⟨0, 0x2000⟩
def regSize : Kind := ⟨1, 0x3010⟩
def tapAccess : Kind := ⟨2, 0x1020⟩
def hostTag : Kind := ⟨3, 0x2010⟩
def hbmUncorrectable : Kind := ⟨1, 0x6040⟩
def hbmFenced : Kind := ⟨2, 0x6041⟩
def hbmMapout : Kind := ⟨3, 0x4050⟩
def hbmTrainFail : Kind := ⟨4, 0x4051⟩
def hbmTemp : Kind := ⟨5, 0x1071⟩
def hbmCorrected : Kind := ⟨0, 0x1070⟩
def portDown : Kind := ⟨0, 0x5040⟩
def portDegraded : Kind := ⟨1, 0x1080⟩
def shelfWithdrawn : Kind := ⟨0, 0x4060⟩
def thermWarn : Kind := ⟨1, 0x1090⟩
def thermThrottle : Kind := ⟨2, 0x1091⟩
def thermTrip : Kind := ⟨3, 0x8030⟩
def folioOpcode : Kind := ⟨0, 0x3030⟩
def folioReserved : Kind := ⟨1, 0x3031⟩
def folioFormat : Kind := ⟨2, 0x3032⟩
def folioOperand : Kind := ⟨3, 0x3033⟩
def folioBounds : Kind := ⟨4, 0x3034⟩
def folioDenied : Kind := ⟨5, 0x2060⟩
def folioStream : Kind := ⟨6, 0x3035⟩
def passDeferred : Kind := ⟨7, 0x10A0⟩
def periodOverrun : Kind := ⟨8, 0x10A1⟩
def tallyStale : Kind := ⟨9, 0x10A2⟩
def accWrap : Kind := ⟨10, 0x10A3⟩
def accRange : Kind := ⟨11, 0x10A4⟩
def accAnchor : Kind := ⟨12, 0x3036⟩
def storeError : Kind := ⟨13, 0x6003⟩
def folioMemError : Kind := ⟨14, 0x6004⟩
end K

/-! ## The near-tier map (R326, R327) -/

/-- Base of stack s's range. -/
def stackBase (s : Nat) : Nat := 0x1000000000 * s

/-- Whether stack s is present (HBM_STACK_STATE). -/
def State.stackUp (s : State) (k : Nat) : Bool := s.regBit (R.HBM_STACK_STATE k) 0

/-- Bytes of stack s's range. -/
def State.stackSize (s : State) (k : Nat) : Nat :=
  if s.stackUp k then 0x200000 * s.field (R.HBM_STACK_STATE k) 12 16 else 0

/-- Stack whose range a near-tier address would lie in. -/
def stackOf (a : Nat) : Nat := a / 0x1000000000

/-- Every byte of [a, a + n) lies in one present stack's range, the stack not in its test state (R326, R351). -/
def State.nearBacked (s : State) (a n : Nat) : Bool :=
  decide (a + n ≤ 0x6000000000) && !s.regBit (R.HBM_STACK_STATE (stackOf a)) 28 && decide (a + n ≤ stackBase (stackOf a) + s.stackSize (stackOf a))

/-- Working channels of stack k, ascending (R326). -/
def State.channels (s : State) (k : Nat) : List Nat :=
  (List.range 32).filter (fun c => !s.regBit (R.HBM_CHAN_STATE k) (32 + c))

/-- Channel of the granule of a near-tier address (R327). -/
def State.channelOf (s : State) (a : Nat) : Nat :=
  let chs := s.channels (stackOf a)
  chs.getD ((a - stackBase (stackOf a)) / 256 % chs.length) 0

/-- Lowest present stack: the one that holds the main part of the firmware region (R92). -/
def State.mainStack (s : State) : Option Nat := (List.range 6).find? (fun k => s.stackUp k)

/-- Base of the main part of the firmware region (R92). -/
def State.fwBase (s : State) : Nat := stackBase (s.mainStack.getD 0)

/-- Bytes of the firmware region on stack k (R92). -/
def State.fwSize (s : State) (k : Nat) : Nat :=
  if s.stackUp k then (if s.mainStack = some k then 0x8000000 else 0x200000) else 0

/-- [a, a + n) touches the firmware region. -/
def State.touchesFw (s : State) (a n : Nat) : Bool :=
  (List.range 6).any (fun k => overlaps a n (stackBase k) (s.fwSize k))

/-- Pseudo-channel of a near-tier byte within its channel, and its byte within that pseudo-channel (R327). -/
def State.pseudoChannelOf (s : State) (a : Nat) : Nat :=
  let n := max 1 (s.channels (stackOf a)).length
  (a - stackBase (stackOf a)) / 256 / n % 2
def State.channelByte (s : State) (a : Nat) : Nat :=
  let n := max 1 (s.channels (stackOf a)).length
  (a - stackBase (stackOf a)) / 256 / (2 * n) * 256 + (a - stackBase (stackOf a)) % 256

/-- The stack nearest a shelf (R33). -/
def nearestStack (sh : Nat) : Nat :=
  let x := sh / 64
  (if x ≤ 21 then 0 else if x ≤ 42 then 1 else 2) + (if sh % 64 < 32 then 0 else 3)

/-! ## Carrels -/

/-- CRL_CARREL_STATE[c].STATE (Table 14-1). -/
def State.carrelState (s : State) (c : Nat) : Nat := s.field (R.CRL_CARREL_STATE c) 0 3

/-- A carrel exists in every state but ABSENT (R386). -/
def State.carrelExists (s : State) (c : Nat) : Bool := c != 0 && s.carrelState c != 0

/-- A shelf. -/
def State.shelf (s : State) (sh : Nat) : Shelf := Tab.getD s.shelves sh Shelf.idle

/-- A shelf written. -/
def State.setShelf (s : State) (sh : Nat) (x : Shelf) : State :=
  { s with shelves := Tab.put s.shelves sh x Shelf.idle }

/-- Shelves of carrel c's room, leaving shelves included, ascending (R390). -/
def State.room (s : State) (c : Nat) : List Nat :=
  (s.shelves.filter (fun p => p.2.owner == c && c != 0 && !p.2.clearing)).map (·.1)

/-- Shelf s is withdrawn (R93). -/
def State.withdrawn (s : State) (sh : Nat) : Bool := s.regBit (R.CFG_SHELF_WITHDRAWN (sh / 64)) (sh % 64)

/-- Range r is enabled by the fuses (R5). -/
def State.rangeEnabled (s : State) (r : Nat) : Bool := s.regBit R.CFG_RANGE_ENABLE r

/-- Power domain d is ON (Table 17-1). -/
def State.domainOn (s : State) (d : Nat) : Bool := s.field (R.PWR_DOMAIN_STATE d) 0 2 == 1

/-! ## Holdings and a carrel's memory (R334 to R338) -/

/-- Key of a call number. -/
def callKey (c call : Nat) : Nat := 2 ^ 32 * c + call

/-- A registered call number, unless its RELEASE runs (R340). -/
def State.holding (s : State) (c call : Nat) : Option Holding :=
  (Tab.find? s.kpr.calls (callKey c call)).filter (fun h => !h.gone)

/-- Holdings and pins of carrel c. -/
def State.holdings (s : State) (c : Nat) : List Holding :=
  (Tab.vals s.kpr.calls).filter (fun h => h.carrel == c && !h.gone)

/-- Leaves of a holding (2 MiB each). -/
def Holding.nLeaves (h : Holding) : Nat := ceilDiv h.size 0x200000

/-- Leaf i of a holding. -/
def Holding.leaf (h : Holding) (i : Nat) : Leaf := Tab.getD h.leaves i Leaf.home

/-- Frames that hold leaves of any holding: the near frames taken (R336). -/
def State.framesInUse (s : State) : List Nat :=
  (Tab.vals s.kpr.calls).flatMap (fun h => (Tab.vals h.leaves).filterMap (·.frame))
    ++ s.kpr.moves.filterMap (·.dst)

/-- Frames that hold a leaf now, moves in progress excluded. -/
def State.leafFrames (s : State) : List Nat :=
  (Tab.vals s.kpr.calls).flatMap (fun h => (Tab.vals h.leaves).filterMap (·.frame))

/-- Extent of carrel c on stack k: base and size in bytes (R334). -/
def State.extent (s : State) (c k : Nat) : Nat × Nat :=
  (0x200000 * s.field (R.KPR_EXTENT c k) 0 18, 0x200000 * s.field (R.KPR_EXTENT c k) 32 16)

/-- Every byte of [a, a + n) lies within an extent of c, in present near tier. -/
def State.inExtents (s : State) (c a n : Nat) : Bool :=
  s.nearBacked a n &&
  (List.range 6).any (fun k => decide ((s.extent c k).1 ≤ a) && decide (a + n ≤ (s.extent c k).1 + (s.extent c k).2))

/-- [a, a + n) touches a frame that holds a leaf. -/
def State.touchesFrame (s : State) (a n : Nat) : Bool :=
  s.leafFrames.any (fun f => overlaps a n (0x200000 * f) 0x200000)

/-- The registered holding whose home holds a far-tier address of carrel c. -/
def State.homeOf (s : State) (c a : Nat) : Option Holding :=
  (s.holdings c).find? (fun h => !h.pin && decide (h.addr ≤ a) && decide (a < h.addr + 0x200000 * h.nLeaves))

/-- A byte of carrel c's memory is admitted (R335): near tier within an extent and not in a leaf's frame, or a holding's home. -/
def State.byteAdmitted (s : State) (c a : Nat) : Bool :=
  if a < 0x6000000000 then s.inExtents c a 1 && !s.touchesFrame a 1
  else (s.homeOf c a).isSome

/-- Boundaries at which R335 can change its answer: 2 MiB units touched by [a, a + n). -/
def unitStarts (a n : Nat) : List Nat :=
  if n = 0 then [] else (List.range ((a + n - 1) / 0x200000 - a / 0x200000 + 1)).map (fun i => max a (0x200000 * (a / 0x200000 + i)))

/-- A far window that backs a far-tier address, by its port (R332). -/
def State.farPort (s : State) (a : Nat) : Option Nat :=
  ((List.range 8).find? (fun i =>
    s.regBit (R.KPR_FAR_MAP i) 56
      && decide (farBase + 0x200000 * s.field (R.KPR_FAR_MAP i) 0 21 ≤ a)
      && decide (a < farBase + 0x200000 * (s.field (R.KPR_FAR_MAP i) 0 21 + s.field (R.KPR_FAR_MAP i) 32 22)))).map
    (fun i => s.field (R.KPR_FAR_MAP i) 54 2)

/-- An access for function c (0 the manager) to [a, a + n) of local near-tier or far-tier memory is admitted, judged whole (R335). -/
def State.memAdmitted (s : State) (c a n : Nat) : Bool :=
  if n = 0 then true
  else if c = 0 then
    (unitStarts a n).all (fun u =>
      if u < 0x6000000000 then s.nearBacked u (min (a + n) (0x200000 * (u / 0x200000 + 1)) - u)
      else decide (farBase ≤ u) && decide (u < 0x140000000000) &&
        ((s.farPort u).isSome || (List.range 1024).any (fun k => (s.homeOf k u).isSome)))
  else if a + n ≤ 0x6000000000 then s.inExtents c a n && !s.touchesFrame a n
  else (unitStarts a n).all (fun u => s.byteAdmitted c u) && decide (a + n ≤ 0x140000000000)

/-- The holding in whose home a far-tier address lies, as function c reaches it: the manager's accesses are translated in every carrel's
holdings (R335). -/
def State.homeFor (s : State) (c a : Nat) : Option Holding :=
  if c = 0 then
    (Tab.vals s.kpr.calls).find? (fun h => !h.pin && !h.gone && decide (h.addr ≤ a) && decide (a < h.addr + 0x200000 * h.nLeaves))
  else s.homeOf c a

/-- Current place of a byte of local memory (R338): a byte of a holding's home is where its leaf lies. -/
def State.place (s : State) (c a : Nat) : Nat :=
  if a < farBase then a
  else if 0x140000000000 ≤ a then a
  else
    match s.homeFor c a with
    | none => a
    | some h =>
      match (h.leaf ((a - h.addr) / 0x200000)).frame with
      | none => a
      | some f => 0x200000 * f + (a - h.addr) % 0x200000

/-- What a memory access ended with (Table 12-6): a status, or none when every granule was served. -/
abbrev MemStatus := Option Code

/-- Key under which the poison of a byte's granule or far line is held (R355): near granules of 256 bytes, far lines of 64. -/
def poisonKey (a : Nat) : Nat := if a < 0x6000000000 then a / 256 else 2 ^ 50 + a / 64

/-- Outcome of one byte's granule: near tier on a fenced channel or poisoned fails; a far line poisoned, or whose link is down, fails
(R329, R333, R355). -/
def State.byteStatus (s : State) (a : Nat) : MemStatus :=
  if a < 0x6000000000 then
    if s.regBit (R.HBM_CHAN_STATE (stackOf a)) (s.channelOf a) || Tab.getD s.kpr.poison (poisonKey a) false then some 0x6001
    else none
  else if farBase ≤ a ∧ a < 0x140000000000 then
    match s.farPort a with
    | none => none
    | some p => if s.kpr.farDown.getLsbD p || Tab.getD s.kpr.poison (poisonKey a) false then some 0x6002 else none
  else none

end Sys2Proof.Machine
end

