-- ==== Sys2Proof/Machine/Access.lean ====
section
/-! DEFINITION. Accesses to near-tier and far-tier memory: watchpoints (R453), errors granule by granule (R354, R355, R467),
reads, writes, and the bytes of a shelf's store. -/

namespace Sys2Proof.Machine

/-- Kinds of access as a watchpoint numbers them (R453): 0 read, 1 write, 2 add. -/
abbrev AccessKind := Nat

/-- Watchpoint w matches an admitted access (R453). -/
def State.wpMatches (s : State) (w : Nat) (c : Nat) (kind : AccessKind) (a n : Nat) : Bool :=
  let b := s.reg (R.OBS_WP_BASE w)
  bitAt b 48 && bitAt b (49 + kind) && (fld b 53 10 == 0 || fld b 53 10 == c)
    && decide (fld b 0 48 < a + n) && decide (a ≤ s.field (R.OBS_WP_LIMIT w) 0 48)

/-- A match counted, logged and, with HUSH set, hushing the die (WATCHPOINT_HIT, R453). -/
def State.wpHit (s : State) (w c : Nat) (kind : AccessKind) (a : Nat) : State :=
  let s := ((s.countSat (R.OBS_WP_LIMIT w) 48 16 1).event R.OBS_EVENT 2).log 12 K.watchpoint c (globalAdr a) 0 (w + kind * 64)
  if s.regBit (R.OBS_WP_BASE w) 52 then s.startHush 2 w else s

/-- Every watchpoint is tried on an admitted access of n bytes at local address a for carrel c. -/
def State.watch (s : State) (c : Nat) (kind : AccessKind) (a n : Nat) : State :=
  if n = 0 then s
  else ((List.range 64).filter (fun w => s.wpMatches w c kind a n)).foldl (fun s w => s.wpHit w c kind a) s

/-- The Keeper refuses an access (R335) and records the cause. -/
def State.memRefused (s : State) (c a : Nat) (tag : Nat := 0) : State := s.log 5 K.memRefused c (globalAdr a) tag

/-- Places of n bytes named from a. -/
def State.places (s : State) (c a n : Nat) : List Nat := (List.range n).map (fun i => s.place c (a + i))

/-- Failing granules and far lines among places in order, each once, by a judgement of one place: its first place and status (R467). -/
def failures (judge : Nat → MemStatus) (last : Option Nat) : List Nat → List (Nat × Code)
  | [] => []
  | p :: ps =>
    match judge p with
    | none => failures judge last ps
    | some c => if last = some (poisonKey p) then failures judge last ps else (p, c) :: failures judge (some (poisonKey p)) ps

/-! ## Injected errors (R421, Table 16-5) -/

/-- The lowest armed injector of a checker and instance. -/
def State.injector (s : State) (checker index : Nat) : Option Nat :=
  (List.range 8).find? (fun i =>
    s.regBit (R.LDG_INJECT i) 16 && s.field (R.LDG_INJECT i) 0 3 == checker
      && (checker == 4 || s.field (R.LDG_INJECT i) 3 12 == index))

/-- Injector i fires on an access at `addr` (ADDR form of Table 16-1). -/
def State.injectorFired (s : State) (i addr : Nat) : State :=
  ((s.setRegBit (R.LDG_INJECT i) 16 false).setRegBit (R.LDG_INJECT i) 17 true).setReg (R.LDG_INJECT_ADDR i) (BitVec.ofNat 64 addr)

/-- The next write through a checker meets an armed injector: the word or granule under `key` gets one or two wrong check bits. -/
def State.inject (s : State) (checker index key addr : Nat) : State :=
  match s.injector checker index with
  | none => s
  | some i =>
    let s := { s with ecc := Tab.insert s.ecc key (if s.regBit (R.LDG_INJECT i) 15 then 2 else 1) }
    s.injectorFired i addr

/-- Check bits of a word or granule that are wrong: 0, 1 or 2. -/
def State.eccAt (s : State) (key : Nat) : Nat := Tab.getD s.ecc key 0

/-- A word or granule written whole, or corrected: its check bits are right again. -/
def State.eccClear (s : State) (key : Nat) : State := { s with ecc := Tab.erase s.ecc key }

/-! ## Near and far tier -/

/-- A channel is fenced (CHANNEL_FENCE, R329), recorded once per channel (Table 12-6). -/
def State.fence (s : State) (k ch carrel addr : Nat) : State :=
  if s.regBit (R.HBM_CHAN_STATE k) ch then s
  else ((s.setRegBit (R.HBM_CHAN_STATE k) ch true).event R.KPR_EVENT 0x10).log (16 + k) K.hbmFenced carrel addr

/-- n uncorrectable errors reach the limit of one channel, where one is set (HBM_CHAN_ERR_LIMIT, R329). -/
def State.channelFull (s : State) (n : Nat) : Bool :=
  let limit := s.field R.HBM_CHAN_ERR_LIMIT 0 8
  limit != 0 && decide (limit ≤ n)

/-- An uncorrectable error at a near-tier place: recorded, counted, and fencing its channel at the limit (R329, Table 12-6). -/
def State.uncorrectable (s : State) (c p : Nat) (tag : Nat := 0) : State :=
  let k := stackOf p
  let ch := s.channelOf p
  let n := Tab.getD s.kpr.chanErrs (k * 32 + ch) 0 + 1
  let s := (s.log (16 + k) K.hbmUncorrectable c (globalAdr p) tag).countSat (R.HBM_ERR_COUNT k) 32 16 1
  let s := { s with kpr := { s.kpr with chanErrs := Tab.insert s.kpr.chanErrs (k * 32 + ch) n } }
  if s.channelFull n then s.fence k ch c (globalAdr p) else s

/-- The unit that failed an access records it (Table 12-6): an uncorrectable granule, a fenced channel once, a poisoned far line. A port that is
down was recorded when it went down. -/
def State.logBad (s : State) (c : Nat) (p : Nat) (code : Code) (tag : Nat := 0) : State :=
  if code = 0x6001 then
    let k := stackOf p
    let ch := s.channelOf p
    if s.regBit (R.HBM_CHAN_STATE k) ch then s
    else s.uncorrectable c p tag
  else if (s.farPort p).any (fun q => s.kpr.farDown.getLsbD q) then s
  else if Tab.getD s.kpr.poison (poisonKey p) false then s.log 5 K.farPoisonRead c (globalAdr p) tag
  else s

/-- Every granule and line that failed an access is recorded and counted (R329, R354). -/
def State.logAll (s : State) (c tag : Nat) (l : List (Nat × Code)) : State := l.foldl (fun s q => s.logBad c q.1 q.2 tag) s

/-- A granule or line is poisoned (R354, R355). -/
def State.poison (s : State) (p : Nat) : State :=
  { s with kpr := { s.kpr with poison := Tab.put s.kpr.poison (poisonKey p) true false } }

/-- Near granules among places, by address, each once. -/
def granulesOf (ps : List Nat) : List Nat := ((ps.filter (fun p => decide (p < 0x6000000000))).map (fun p => p / 256 * 256)).eraseDups

/-- Injected errors met by a read of these places: one bit is corrected and counted, two poison the granule (R354, R421). -/
def State.eccRead (s : State) (ps : List Nat) : State :=
  if s.ecc.isEmpty then s
  else (granulesOf ps).foldl (fun s g =>
    if s.eccAt g = 1 then
      ((s.eccClear g).countSat (R.HBM_ERR_COUNT (stackOf g)) 0 32 1).log (16 + stackOf g) K.hbmCorrected 0 (globalAdr g)
    else if s.eccAt g = 2 then (s.eccClear g).poison g
    else s) s

/-- A write marks the leaves it touches dirty; every access names them at this stamp (R342, R343). -/
def State.touchLeaf (s : State) (c a : Nat) (dirty : Bool) : State :=
  match s.homeFor c a with
  | none => s
  | some h =>
    let i := (a - h.addr) / 0x200000
    let l := h.leaf i
    let l' : Leaf := { l with dirty := l.dirty || (dirty && l.frame.isSome), named := s.stp.stamp.toNat }
    { s with kpr := { s.kpr with
        calls := Tab.insert s.kpr.calls (callKey h.carrel h.call) { h with leaves := Tab.put h.leaves i l' Leaf.home } } }

/-- Every leaf that [a, a + n) touches. -/
def State.touchLeaves (s : State) (c a n : Nat) (dirty : Bool) : State :=
  if a < farBase then s else (unitStarts a n).foldl (fun s u => s.touchLeaf c u dirty) s

/-- An admitted read of n bytes (R354, R467): the bytes of every granule that is served, zeros for the others, and the status. -/
def State.readMem (s : State) (c a n : Nat) (tag : Nat := 0) : State × List Byte × MemStatus :=
  let s := s.watch c 0 a n
  let ps := s.places c a n
  let s := (s.eccRead ps).touchLeaves c a n false
  let bytes := ps.map (fun p => if (s.byteStatus p).isSome then 0 else Memory.read s.mem p)
  let bad := failures s.byteStatus none ps
  (s.logAll c tag bad, bytes, bad.head?.map (·.2))

/-- Every byte of [g, g + n) is among the places. -/
def coveredBy (ps : List Nat) (g n : Nat) : Bool := (List.range n).all (fun i => ps.contains (g + i))

/-- Places of a write meet poison (R355): a near granule or far line written whole loses it; what becomes of a far line written in part is
the device's to decide, a free value. -/
def State.unpoison (s : State) (ps : List Nat) : State :=
  let keys := ((s.kpr.poison.map (·.1)).filter (fun k => ps.any (fun p => poisonKey p == k)))
  keys.foldl (fun s k =>
    let whole := if k < 2 ^ 50 then coveredBy ps (k * 256) 256 else coveredBy ps ((k - 2 ^ 50) * 64) 64
    if whole then { s with kpr := { s.kpr with poison := Tab.erase s.kpr.poison k } }
    else if k < 2 ^ 50 then s
    else
      let keep := bitAt (Config.freeValue s.freeCtr) 0
      { s with freeCtr := s.freeCtr + 1
               kpr := { s.kpr with poison := if keep then s.kpr.poison else Tab.erase s.kpr.poison k } }) s

/-- Injected errors met by a write: a granule written whole is good again, one written in part with two wrong bits is poisoned; then an
armed injector acts on the first granule (R354, R421). -/
def State.eccWrite (s : State) (ps : List Nat) : State :=
  let gs := granulesOf ps
  let s := if s.ecc.isEmpty then s else gs.foldl (fun s g =>
    if coveredBy ps g 256 then s.eccClear g
    else if s.eccAt g = 2 then (s.eccClear g).poison g
    else s) s
  match gs with
  | [] => s
  | g :: _ => s.inject 2 (stackOf g) g (globalAdr g)

/-- No write reaches a place: its channel is fenced (R329), or its far link down (R333). -/
def State.unreachable (s : State) (p : Nat) : Bool :=
  if p < 0x6000000000 then s.regBit (R.HBM_CHAN_STATE (stackOf p)) (s.channelOf p)
  else (s.farPort p).any (fun q => s.kpr.farDown.getLsbD q)

/-- Outcome of the byte at p in a write of places ps: a poisoned near granule is written only whole, a far line is passed to its device
(R354, R355). -/
def State.writeStatus (s : State) (ps : List Nat) (p : Nat) : MemStatus :=
  if s.unreachable p then some (if p < 0x6000000000 then 0x6001 else 0x6002)
  else if decide (p < 0x6000000000) && Tab.getD s.kpr.poison (poisonKey p) false && !coveredBy ps (p / 256 * 256) 256 then some 0x6001
  else none

/-- An admitted write (R354, R355, R467): nothing of a granule that fails changes, its poison included. `skip` is the key of a far line
whose device answers with an error. -/
def State.writeMem (s : State) (c a : Nat) (bs : List Byte) (tag : Nat := 0) (skip : Option Nat := none) : State × MemStatus :=
  let s := s.watch c 1 a bs.length
  let ps := s.places c a bs.length
  let s := s.eccWrite (ps.filter (fun p => !s.unreachable p))
  let judge := fun (p : Nat) => if skip = some (poisonKey p) then some 0x6002 else s.writeStatus ps p
  let bad := failures judge none ps
  let s := s.unpoison (if bad.isEmpty then ps else ps.filter (fun p => (judge p).isNone))
  let s := (ps.zip bs).foldl (fun s pb => if (judge pb.1).isSome then s else { s with mem := Memory.write s.mem pb.1 pb.2 }) s
  let s := s.touchLeaves c a bs.length true
  (s.logAll c tag bad, bad.head?.map (·.2))

/-! ## Errors of the DRAM and of far devices -/

/-- An uncorrectable error of the DRAM, or an error response or time-out of a far device, at local address `addr` (R331, R333, R354): the
granule is poisoned and recorded by its stack port, the far error by the Keeper. -/
def State.memFault (s : State) (c tag : Nat) (code : Code) (addr : Nat) : State :=
  let a := addr % 2 ^ 48
  if code = 0x6001 && s.nearBacked a 1 && !s.regBit (R.HBM_CHAN_STATE (stackOf a)) (s.channelOf a) then (s.poison a).uncorrectable c a tag
  else if code = 0x6002 then s.log 5 K.farPoisonRead c (globalAdr a) tag
  else s

/-- Where an access of function c to [a, a + n) meets an error of the status `fail`, which the command's operand brings: NEAR_UNCORRECTABLE
at a byte in the near tier, FAR_POISON at one behind a far port that is up. None where the access is not admitted. -/
def State.deviceHit (s : State) (c a n : Nat) (fail : Option Code) : Option (Nat × Code) :=
  match fail with
  | none => none
  | some code =>
    if s.memAdmitted c a n then
      ((s.places c a n).find? (fun p => (code == 0x6001 && s.nearBacked p 1)
        || (code == 0x6002 && (s.farPort p).any (fun q => !s.kpr.farDown.getLsbD q)))).map (fun p => (p, code))
    else none

/-- A read or an adder operation that meets an error at `hit`: the granule is poisoned (R354), for the far tier in this access only. -/
def State.withError {α : Type} (s : State) (hit : Option (Nat × Code)) (f : State → State × α) : State × α :=
  match hit with
  | none => f s
  | some (p, _) =>
    let was := Tab.getD s.kpr.poison (poisonKey p) false
    match f (s.poison p) with
    | (s, r) =>
      (if p < 0x6000000000 || was then s else { s with kpr := { s.kpr with poison := Tab.erase s.kpr.poison (poisonKey p) } }, r)

/-- Bytes of [a, a + n) that lie at far-tier homes, in leaves streamed (R208, R344). -/
def State.farBytes (s : State) (c a n : Nat) : Nat :=
  if a < farBase then 0
  else listSum (((unitStarts a n).filter (fun u => decide (farBase ≤ s.place c u))).map
    (fun u => min (a + n) (0x200000 * (u / 0x200000 + 1)) - u))

/-- A read for function c, judged whole by R335: the status is NOT_PERMITTED where it is refused. -/
def State.readFor (s : State) (c a n : Nat) (tag : Nat := 0) : State × List Byte × MemStatus :=
  if s.memAdmitted c a n then s.readMem c a n tag else (s.memRefused c a tag, List.replicate n 0, some 0x2000)

/-- A write for function c, judged whole by R335. -/
def State.writeFor (s : State) (c a : Nat) (bs : List Byte) (tag : Nat := 0) : State × MemStatus :=
  if s.memAdmitted c a bs.length then s.writeMem c a bs tag else (s.memRefused c a tag, some 0x2000)

/-- A read for function c that may meet an error of the DRAM or of a far device. -/
def State.readMay (s : State) (c a n : Nat) (fail : Option Code) (tag : Nat := 0) : State × List Byte × MemStatus :=
  s.withError (s.deviceHit c a n fail) (fun s => s.readFor c a n tag)

/-- A write for function c that may meet one: a near granule written in part, or a far device that answers with an error (R354, R355). -/
def State.writeMay (s : State) (c a : Nat) (bs : List Byte) (fail : Option Code) (tag : Nat := 0) : State × MemStatus :=
  match s.deviceHit c a bs.length fail with
  | none => s.writeFor c a bs tag
  | some (p, code) =>
    if code = 0x6002 then
      match s.writeMem c a bs tag (some (poisonKey p)) with
      | (s, st) => (s.log 5 K.farPoisonRead c (globalAdr p) tag, st)
    else if coveredBy (s.places c a bs.length) (p / 256 * 256) 256 then s.writeFor c a bs tag
    else s.withError (some (p, code)) (fun s => s.writeFor c a bs tag)

/-! ## Shelf store and folio memory (R305, R309) -/

/-- Word addresses (of 8 bytes) that [a, a + n) touches. -/
def wordsOf (a n : Nat) : List Nat := if n = 0 then [] else (List.range ((a + n - 1) / 8 - a / 8 + 1)).map (fun i => (a / 8 + i) * 8)

/-- Injected errors met by a read of [a, a + n) of a shelf's store or folio memory: corrected ones are repaired and counted in OBS_ERR, at
field `lo` (corrected) or lo + 32 (uncorrectable); the first word in error is answered (R309, R456). -/
def State.eccShelfRead (s : State) (sh a n lo : Nat) : State × Option Nat :=
  if s.ecc.isEmpty then (s, none)
  else (wordsOf a n).foldl (fun (r : State × Option Nat) w =>
    if r.1.eccAt w = 1 then ((r.1.eccClear w).countSat (R.OBS_ERR (sh / 64)) lo 16 1, r.2)
    else if r.1.eccAt w = 2 then (r.1.countSat (R.OBS_ERR (sh / 64)) (lo + 32) 16 1, some (r.2.getD w))
    else r) (s, none)

/-- A read of shelf sh's store: the bytes, and the address (Table 16-1 form but for chip number) of a word in error. -/
def State.storeRead (s : State) (sh a n : Nat) : State × List Byte × Option Nat :=
  let r := s.eccShelfRead sh (storeAddr sh a) n 0
  (r.1, Memory.readN s.mem (storeAddr sh a) n, r.2)

/-- A write of shelf sh's store. A word written in part is read first: one wrong bit is corrected and counted, two refuse the write (R309). -/
def State.storeWrite (s : State) (sh a : Nat) (bs : List Byte) : State × Option Nat :=
  let lo := storeAddr sh a
  let hi := lo + bs.length
  let merged := (wordsOf lo bs.length).filter (fun w => decide (w < lo) || decide (hi < w + 8))
  match merged.find? (fun w => s.eccAt w == 2) with
  | some w => (s.countSat (R.OBS_ERR (sh / 64)) 32 16 1, some w)
  | none =>
    let s := if s.ecc.isEmpty then s else s.countSat (R.OBS_ERR (sh / 64)) 0 16 (merged.filter (fun w => s.eccAt w == 1)).length
    let s := { s with mem := Memory.writeN s.mem lo bs
                      ecc := if s.ecc.isEmpty then [] else (wordsOf lo bs.length).foldl (fun t w => Tab.erase t w) s.ecc }
    match wordsOf lo bs.length with
    | [] => (s, none)
    | w :: _ => (s.inject 0 sh w (globalAdr w), none)

/-- Folio-memory slot i of a shelf: eight words (R242). -/
def State.folioSlot (s : State) (sh i : Nat) : List Word := Memory.readWords s.mem (folioAddr sh (64 * i)) 8

/-- Words written to folio memory from slot i. -/
def State.folioWrite (s : State) (sh i : Nat) (ws : List Word) : State :=
  let a := folioAddr sh (64 * i)
  let s := { s with mem := Memory.writeN s.mem a (bytesOfWords ws)
                    ecc := if s.ecc.isEmpty then [] else (wordsOf a (8 * ws.length)).foldl (fun t w => Tab.erase t w) s.ecc }
  if ws.isEmpty then s else s.inject 1 sh a (globalAdr a)

end Sys2Proof.Machine
end

