-- ==== Sys2Proof/Machine/Flags.lean ====
section
/-! DEFINITION. The chip's status bits as one place computes each: ALERT_N, the Bell levels, the remarks of a receipt, the no-fault
classes of a status, and the sticky event masks. -/

namespace Sys2Proof.Machine

/-- A status of class 0x0 or 0x1 counts as success (R16). -/
def isSuccess (c : Code) : Bool := decide (c.toNat / 4096 ≤ 1)

/-- ALERT_N is asserted while a cause is set and its enable bit is set (R67, R441). -/
def State.alertN (s : State) : Bool := s.smb.cause.toNat &&& s.field R.PWR_ALERT_EN 0 6 != 0

/-- A port is down or in retraining: its Bell level (Table 15-1). -/
def State.portUp (s : State) (p : Nat) : Bool := s.regBit (R.ILN_PORT_STATE p) 2

/-- Level of the log: records between LDG_LOG_HEAD and LDG_LOG_TAIL. -/
def State.logLevel (s : State) : Nat :=
  (s.field R.LDG_LOG_TAIL 0 32 + (2 ^ 32 - s.field R.LDG_LOG_HEAD 0 32)) % 2 ^ 32

/-- Address and place of record n of the log: near tier, or manager host memory (R413). -/
def State.logAddr (s : State) (n : Nat) : Nat :=
  4096 * s.field R.LDG_LOG_BASE 12 52 + 32 * (n % 2 ^ s.field R.LDG_LOG_CTL 0 4)

/-- Log in the near tier and in use. -/
def State.logNear (s : State) : Bool := s.regBit R.LDG_LOG_CTL 4 && !s.regBit R.LDG_LOG_BASE 0

/-- SEVERITY of a record (Table 16-1). -/
def recordSeverity (ws : List Word) : Nat := fld (wordAt ws 0) 28 3

/-- A record of severity 2 or above awaits the manager between HEAD and TAIL (R417, Table 15-1). -/
def State.logAsserts (s : State) : Bool := s.ldg.records.any (fun ws => decide (2 ≤ recordSeverity ws))

/-- Level now asserted by a status-class source (Table 15-1). -/
def State.belLevelOf (s : State) (n : Nat) : Bool :=
  if n < 1088 then decide (1 ≤ s.field (R.PWR_RANGE_STATE (n - 1024)) 6 3)
  else if n < 1094 then s.reg R.KPR_EVENT != 0 || s.field (R.HBM_TEMP (n - 1088)) 16 2 != 0
  else if n < 1098 then !s.portUp (n - 1094)
  else if n = 1098 then s.logAsserts
  else if n = 1099 then s.reg R.STP_EVENT != 0
  else if n = 1100 then (List.range 1024).any (fun c => s.regBit (R.CAT_CARREL_STATE c) 26)
  else if n = 1101 then s.reg R.SHV_EVENT != 0
  else if n = 1102 then s.reg R.LND_EVENT != 0
  else if n = 1107 then s.reg R.OBS_EVENT != 0
  else false

/-- STATUS of a slip that succeeded: the first applicable remark in the order of R164, DONE where none applies. -/
def SlipCounts.remark (c : SlipCounts) : Code :=
  if 0 < c.wrapped then 0x1005
  else if 0 < c.skipped then 0x1004
  else if c.overrun then 0x1003
  else if c.deferred then 0x1002
  else if 0 < c.spill then 0x1006
  else if c.empty then 0x1001
  else 0x0000

end Sys2Proof.Machine
end

