-- ==== Sys2Proof/Machine/Life.lean ====
section
/-! DEFINITION. The lives of the chiplet: the settings sections as phase 0x1 judges them (R94 to R97), what each reset domain resets
(Table 16-6), the end of a boot that fails (R89), and the block reset (R425, R428). -/

namespace Sys2Proof.Machine

/-! ## Settings (R94 to R97, Tables 3-3 and 3-4) -/

/-- An item of a configuration section: little-endian at its offset. -/
def itemOf (t : Tab Byte) (off size : Nat) : Nat := leVal ((List.range size).map (fun i => Tab.getD t (off + i) 0))

/-- An item of the configuration in use since phase 0x1. -/
def State.item (s : State) (off size : Nat) : Nat := itemOf s.ss.items off size

/-- The 32,764 bytes of a section. -/
def sectionBytes (t : Tab Byte) : List Byte := (List.range 32764).map (fun i => Tab.getD t i 0)

/-- A section's check word is right, and its last commit was not cut off or misread (R94, R100). -/
def Section.sound (x : Section) : Bool := !x.broken && x.check.toNat == crc32c (sectionBytes x.bytes)

/-- Every item of the configuration section is within its allowed values, and every reserved byte is zero (R95). -/
def itemsAllowed (t : Tab Byte) : Bool :=
  itemOf t 0x0 2 == 1
  && decide (4 ≤ itemOf t 0x2 2) && decide (itemOf t 0x2 2 ≤ 4096)
  && decide (50 ≤ itemOf t 0x4 2) && decide (itemOf t 0x4 2 ≤ 10000)
  && decide (itemOf t 0x6 1 ≤ 2) && decide (itemOf t 0x7 1 ≤ 3)
  && (List.range 3).all (fun i => itemOf t 0x8 1 / 4 ^ i % 4 != 3) && decide (itemOf t 0x8 1 < 64)
  && itemOf t 0xA 2 != 0xFFFF
  && decide (itemOf t 0xE 1 ≤ 1) && decide (itemOf t 0xF 1 ≤ 1)
  && itemOf t 0x10 1 != 0 && itemOf t 0x11 1 != 0
  && (itemOf t 0x12 2 == 0 || (decide (50 ≤ itemOf t 0x12 2) && decide (itemOf t 0x12 2 ≤ 250)))
  && t.all (fun p => decide (p.1 < 0x14) || p.2 == 0)

/-- The calibration section in use: its first eight bytes are CFG_SERIAL (R97). -/
def State.calOwn (s : State) : Bool := itemOf s.ss.calUse.bytes 0 8 == (s.reg R.CFG_SERIAL).toNat

/-- The escalation limit and window in hours (R428, Table 3-4). -/
def State.escLimit (s : State) : Nat := s.item 0x10 1
def State.escWindow (s : State) : Nat := s.item 0x11 1

/-- Derated: generic constants in use (R97). -/
def State.derated (s : State) : Bool := s.regBit R.CFG_STATUS 1

/-! ## What a reset reaches (Table 16-6) -/

/-- Contents lost with the near tier, the shelf stores and the folio memories (R78, R85); far-tier bytes stay. -/
def Memory.dropOnDie (m : Memory) : Memory := Memory.clear (Memory.clear m 0 farBase) storeBase (2 ^ 64)

/-- The Stamp unit after a block reset: the datestamp and a master's state are kept (R72, Table 4-14). -/
def Stp.blockReset (p : Stp) : Stp :=
  { Stp.reset with stamp := p.stamp, t := p.t, len := p.len, total := p.total, state := if p.state == 0 then 0 else 1 }

/-- The always-on part of the Ledger: the watchdog, the escalation state and source 0's messages (R72, Table 16-6). -/
def Ldg.blockReset (g : Ldg) : Ldg :=
  { Ldg.reset with
    waiting := g.waiting.filter (fun p => p.1 == 0)
    history := g.history, oos := g.oos, cycled := g.cycled
    wdArmed := g.wdArmed, wdSeen := g.wdSeen, wdLeft := g.wdLeft, wdExpiries := g.wdExpiries }

/-- Every domain but always-on reset (R424, R464). -/
def State.resetUnits (s : State) : State :=
  { s with
    rf := s.rf.filter (fun p => keptOverBlockReset p.1)
    mem := Memory.dropOnDie s.mem, ecc := [], curMem := []
    smb := { s.smb with reply := .none }
    boot := { Boot.reset with cause := s.boot.cause }
    pins := { s.pins with vcoreLow := false }
    stp := s.stp.blockReset
    cir := .reset, cat := .reset, bind := .reset, shelves := [], kpr := .reset
    iln := { Iln.reset with sent := s.iln.sent, answers := s.iln.answers }
    crl := .reset, bel := .reset, ldg := s.ldg.blockReset, pwr := .reset, obs := .reset }

/-- PHASE of CFG_BOOT_STATUS, and its setting (R82). -/
def State.bootPhase (s : State) : Nat := s.field R.CFG_BOOT_STATUS 0 4
def State.setPhase (s : State) (p : Nat) : State := s.setField R.CFG_BOOT_STATUS 0 4 p

/-- The straps name port 0 as the boot source (Table 2-6). -/
def State.port0Boot (s : State) : Bool := !s.regBit R.CFG_STRAP 0

/-- Every range compute domain off, the fuse bit kept (R69, R89, R440). -/
def State.rangesOff (s : State) : State :=
  (List.range 64).foldl (fun s r => s.setField (R.PWR_DOMAIN_STATE r) 0 2 0) s

/-- The boot is abandoned (R89, Table 3-9). -/
def State.bootFail (s : State) (error : Nat) : State :=
  let s := ((s.setPhase 0xF).setField R.CFG_BOOT_STATUS 4 8 error).rangesOff
  { s with pins := { s.pins with life := .failed, sbLive := true } }

/-! ## Block reset (R425) and escalation (R428) -/

/-- Fabric cycles in an hour. -/
def fcPerHour : Nat := 3600 * 1000000 * fcPerUs

/-- Counted block resets of the last WINDOW hours (R428). -/
def State.escCount (s : State) : Nat :=
  (s.ldg.history.filter (fun t => decide (s.stp.total < t + s.escWindow * fcPerHour))).length

/-- The out-of-service latch is set (R428, R429). -/
def State.latchOos (s : State) : State :=
  ({ s with ldg := { s.ldg with oos := true, cycled := false } }.alert 2).log 0 K.outOfService

/-- Steps 3 and 4 of R425: everything but always-on is reset and the boot runs from phase 0x1; with escalation at LIMIT the
chiplet latches out of service instead (R428). -/
def State.blockResetGo (s : State) : State :=
  if s.boot.escalated then { s.latchOos with boot := { s.boot with escalated := false } }
  else
    let s := s.resetUnits
    { s with pins := { s.pins with life := .boot, sbLive := false } }.setPhase 1

/-- Every injector disarmed (R421). -/
def State.disarm (s : State) : State := (List.range 8).foldl (fun s i => s.setRegBit (R.LDG_INJECT i) 16 false) s

/-- A block reset from a record, the watchdog or the manager (R425). One under way absorbs it (R419, R427). -/
def State.blockReset (s : State) (source kind : Nat) (counted : Bool) : State :=
  if s.blockResetting || !s.alive then s
  else
    let s := (s.startHush 4).disarm
    let s := if counted then { s with ldg := { s.ldg with history := s.stp.total :: s.ldg.history } } else s
    let s := { s with
      ldg := { s.ldg with wdArmed := false }
      boot := { s.boot with cause := some (source, kind), escalated := counted && decide (s.escLimit ≤ s.escCount) } }
    if s.obs.scan then s
    else if s.regBit R.OBS_SCAN_CTL 2 then { s.setField R.OBS_SCAN_STATUS 0 2 1 with obs := { s.obs with scan := true } }
    else s.blockResetGo

/-- The next fc is one that a row brings: the stamp's, or that of a plan cutoff that has not come. Events of a cutoff's fc come after it
(R183, R195, R205). -/
def State.heldTick (s : State) : Bool :=
  decide (s.stp.len ≤ s.stp.t + 1) || (s.running && !s.stp.cut && !s.obs.resuming && decide (s.cutFc ≤ s.stp.t + 1))

/-- What a step does on an empty queue: one fabric cycle passes, while the period in progress lasts (DESIGN CHOICE,
notes/assumptions/2.md). -/
def State.tick (s : State) : State := if s.pins.life == .off || s.heldTick then s else s.advance 1

end Sys2Proof.Machine
end

