-- ==== Sys2Proof/Machine/Rings.lean ====
section
/-! DEFINITION. Ring contexts, counts, crossings, notify writes, stops and receipts that are due (R141 to R168), the doorbell pages
(R145, R146) and the ENABLE writes. -/

namespace Sys2Proof.Machine

/-! ## Contexts (Table 5-9) -/

/-- A field of CIR_RING_CTL[k]. -/
def State.ringFld (s : State) (k lo width : Nat) : Nat := s.field (R.CIR_RING_CTL k) lo width

/-- ENABLE, KIND (true a receipt ring), LOCAL, DEVICE_PRODUCER, size in entries, CARREL, RECEIPT_RING. -/
def State.ringOn (s : State) (k : Nat) : Bool := s.regBit (R.CIR_RING_CTL k) 0
def State.ringIsReceipt (s : State) (k : Nat) : Bool := s.regBit (R.CIR_RING_CTL k) 1
def State.ringLocal (s : State) (k : Nat) : Nat := s.ringFld k 2 5
def State.ringDevice (s : State) (k : Nat) : Bool := s.regBit (R.CIR_RING_CTL k) 7
def State.ringSize (s : State) (k : Nat) : Nat := 2 ^ s.ringFld k 8 4
def State.ringCarrel (s : State) (k : Nat) : Nat := s.ringFld k 12 10
def State.ringReceipt (s : State) (k : Nat) : Nat := s.ringFld k 22 5

/-- HEAD, TAIL and level (R144). -/
def State.ringHead (s : State) (k : Nat) : Nat := s.field (R.CIR_RING_HEAD k) 0 32
def State.ringTail (s : State) (k : Nat) : Nat := s.field (R.CIR_RING_TAIL k) 0 32
def State.ringLevel (s : State) (k : Nat) : Nat := (s.ringTail k + (2 ^ 32 - s.ringHead k)) % 2 ^ 32

/-- STOPPED (R152). -/
def State.ringStopped (s : State) (k : Nat) : Bool := s.regBit (R.CIR_RING_STATUS k) 17

/-- RING_LOC: the ring lies in host memory (R142). -/
def State.ringHost (s : State) (k : Nat) : Bool := s.regBit (R.CIR_RING_BASE k) 0

/-- Bytes of one entry: a slip 128, a receipt 32. -/
def State.ringEntry (s : State) (k : Nat) : Nat := if s.ringIsReceipt k then 32 else 128

/-- Base address, and the address of entry n (R144). -/
def State.ringBase (s : State) (k : Nat) : Nat := 4096 * s.field (R.CIR_RING_BASE k) 12 52
def State.ringAddr (s : State) (k n : Nat) : Nat := s.ringBase k + n % s.ringSize k * s.ringEntry k

/-- Contexts in service, ascending. -/
def State.ringsOn (s : State) : List Nat :=
  (s.rf.filter (fun p => inArray p.1 (R.CIR_RING_CTL 0) 0x40 8192 && bitAt p.2 0)).map (fun p => (p.1 - R.CIR_RING_CTL 0) / 0x40)

/-- The enabled context of a carrel's ring, by kind and local number (R141). -/
def State.ringOf (s : State) (c : Nat) (receipt : Bool) (n : Nat) : Option Nat :=
  s.ringsOn.find? (fun k => s.ringCarrel k == c && s.ringIsReceipt k == receipt && s.ringLocal k == n)

/-! ## Notify writes and watermarks (R165, R166) -/

/-- The four-byte notify write of context k. -/
def State.notifySend (s : State) (k : Nat) : State :=
  s.hostWrite (s.ringCarrel k) (s.reg (R.CIR_RING_NOTIFY_ADDR k)).toNat (leBytes 4 (s.field (R.CIR_RING_NOTIFY_CTL k) 0 32))

/-- A notify write is due: sent now, or merged into the one at the end of HOLDOFF_US (R165). -/
def State.notify (s : State) (k : Nat) : State :=
  if Tab.mem s.cir.holdoff k then { s with cir := { s.cir with holdoff := Tab.insert s.cir.holdoff k true } }
  else
    let s := s.notifySend k
    if s.field (R.CIR_RING_NOTIFY_CTL k) 36 12 = 0 then s
    else { s with cir := { s.cir with holdoff := Tab.insert s.cir.holdoff k false } }

/-- A level that went from `old` to `new` crosses THRESH in the direction DIR (R166). -/
def State.crosses (s : State) (k old new : Nat) : Bool :=
  let t := s.field (R.CIR_RING_WMARK k) 0 17
  s.regBit (R.CIR_RING_WMARK k) 18 &&
    (if s.regBit (R.CIR_RING_WMARK k) 17 then decide (t ≤ old) && decide (new < t) else decide (old < t) && decide (t ≤ new))

/-- WATERMARK_CROSSING (R166). -/
def State.cross (s : State) (k : Nat) : State :=
  if s.regBit (R.CIR_RING_STATUS k) 18 then s.countSat (R.CIR_RING_STATUS k) 19 8 1
  else
    let s := s.setRegBit (R.CIR_RING_STATUS k) 18 true
    if s.regBit (R.CIR_RING_NOTIFY_CTL k) 33 then s.notify k else s

/-- A count of ring k set, with the crossing its change of level makes. -/
def State.setRingCount (s : State) (k : Nat) (tail : Bool) (v : Nat) : State :=
  let s' := s.setReg (if tail then R.CIR_RING_TAIL k else R.CIR_RING_HEAD k) (BitVec.ofNat 64 (v % 2 ^ 32))
  if s.crosses k (s.ringLevel k) (s'.ringLevel k) then s'.cross k else s'

/-- CROSSED and CROSS_COUNT cleared (R166). -/
def State.clearCrossed (s : State) (k : Nat) : State := s.setField (R.CIR_RING_STATUS k) 18 9 0

/-! ## Receipts due (R160, R161) and stops (R152) -/

/-- RECEIPT_DISCARD (R160): a receipt discarded is counted, and its slip leaves the Catalogue. -/
def State.receiptDrop (s : State) (d : DueReceipt) : State :=
  let s := (s.countSat (R.CRL_CARREL_STATE d.carrel) 47 8 1).orReg R.CRL_EVENT 0x10
  match d.record with
  | some id => { s with cat := { s.cat with slips := Tab.erase s.cat.slips id } }
  | none => s

/-- A receipt joins those Circulation is to write, or is discarded where the carrel has no such receipt ring enabled (R160). -/
def State.receiptDue (s : State) (d : DueReceipt) : State :=
  if (s.ringOf d.carrel true d.rring).isNone then s.receiptDrop d
  else { s with cir := { s.cir with due := s.cir.due ++ [d] } }

/-- The KIND 2 receipt of a slip ring: an entry refusal (R150) or a stop (R152); LAP is filled when it is written. -/
def State.ringRecord (s : State) (k tag : Nat) (status : Code) (typ head : Nat) (notify : Bool) : State :=
  s.receiptDue
    { carrel := s.ringCarrel k, rring := s.ringReceipt k
      w0 := BitVec.ofNat 64 (tag + status.toNat * 2 ^ 32 + 2 * 2 ^ 56 + b2n s.holdover * 2 ^ 58 + typ * 2 ^ 60)
      w1 := BitVec.ofNat 64 (head % 2 ^ 32 + s.ringLocal k * 2 ^ 48), w2 := s.now, w3 := 0
      record := none, notify := notify, fail := !isSuccess status }

/-- TAG and TYPE of the slip at HEAD of slip ring k where it can be read (R161), zeros where there is none: the ring is empty, its memory
does not answer, or it lies in host memory, whose port has just failed. -/
def State.headSlip (s : State) (k : Nat) : Nat × Nat :=
  if s.ringHost k || s.ringLevel k == 0 then (0, 0)
  else
    match s.readFor (s.ringCarrel k) (s.ringAddr k (s.ringHead k)) 128 with
    | (_, bs, none) =>
      let typ := leVal (bs.take 1)
      (leVal ((bs.drop 4).take 4), if typ ≤ 6 then typ else 0)
    | (_, _, some _) => (0, 0)

/-- RING_STOP (R152): an access to the ring's memory at `addr` failed with `status`. -/
def State.ringStop (s : State) (k : Nat) (status : Code) (addr : Nat) : State :=
  if s.ringStopped k then s
  else
    let s := (s.setRegBit (R.CIR_RING_STATUS k) 17 true).setField (R.CIR_RING_STATUS k) 48 16 status.toNat
    let s := if s.ringIsReceipt k then s else s.ringRecord k (s.headSlip k).1 status (s.headSlip k).2 (s.ringHead k) false
    s.log 2 K.ringStopped (s.ringCarrel k) addr 0 (k + status.toNat * 2 ^ 16)

/-- A stop cleared: the ring resumes at the same counts (R152). -/
def State.ringRestart (s : State) (k : Nat) : State := s.setRegBit (R.CIR_RING_STATUS k) 17 false

/-- Offset of a word of a doorbell slot (R145, R465). -/
def dbOffset (page : Nat) (receipt : Bool) (ring word : Nat) : Nat :=
  R.DB_PAGE page + (if receipt then 0x800 else 0) + 0x40 * ring + 8 * word

/-! ## Doorbell pages (R145, R146) -/

/-- A refusal of a carrel at the control window (R398, Table 16-11). -/
def State.notPermitted (s : State) (off carrel cause : Nat) : State :=
  s.log 13 K.notPermitted carrel off 0 (off / 2 ^ 20 % 256 + cause * 2 ^ 16)

/-- A doorbell write dropped: counted where its slot names an enabled context, and logged (R145, R146). -/
def State.dbDrop (s : State) (page : Nat) (receipt : Bool) (ring off cause : Nat) : State :=
  let k := s.ringOf page receipt ring
  let s := match k with
    | some k => s.countSat (R.CIR_RING_STATUS k) 32 16 1
    | none => s
  s.log 2 K.doorbellDrop page off 0 (k.getD 0x1FFF + ring * 2 ^ 13 + b2n receipt * 2 ^ 18 + cause * 2 ^ 19)

/-- What stops a doorbell write before its ring is looked at: no service, a tag of no carrel, another carrel's page, a page not
enabled (R80, R83, R145). none: it goes on. -/
def State.dbGate (s : State) (func page : Nat) (receipt : Bool) (ring off : Nat) : Option State :=
  if !s.inService then some s
  else if func != 0 && !s.carrelExists func then some (s.log 13 K.hostTag func off)
  else if func != 0 && func != page then some (s.notPermitted off func 3)
  else if page = 0 || !s.regBit (R.CIR_DB_ENABLE (page / 64)) (page % 64) then some (s.dbDrop page receipt ring off 4)
  else none

/-- The cause for which a DB_PTR write of v to ring k is dropped, if any (R146). -/
def State.dbPtrCause (s : State) (k : Nat) (v : Nat) : Option Nat :=
  let old := if s.ringIsReceipt k then s.ringHead k else s.ringTail k
  let d := (v + (2 ^ 32 - old)) % 2 ^ 32
  if d = 0 then none
  else if s.ringStopped k then some 2
  else if !s.ringIsReceipt k && s.ringDevice k then some 3
  else if s.ringIsReceipt k then (if d ≤ s.ringLevel k then none else some 0)
  else if d ≤ s.ringSize k - s.ringLevel k then none else some 0

/-- A DB_PTR write that has reached ring k: dropped for a cause, or HEAD or TAIL moves (R146). -/
def State.dbMove (s : State) (page : Nat) (receipt : Bool) (ring off k v : Nat) : State :=
  match s.dbPtrCause k v with
  | some c => s.dbDrop page receipt ring off c
  | none => s.setRingCount k (!receipt) v

/-- A DB_PTR write (R146). -/
def State.dbPtr (s : State) (func page : Nat) (receipt : Bool) (ring : Nat) (v : Nat) : State :=
  let off := dbOffset page receipt ring 0
  match s.dbGate func page receipt ring off with
  | some s' => s'
  | none =>
    match s.ringOf page receipt ring with
    | none => s.dbDrop page receipt ring off 1
    | some k => s.dbMove page receipt ring off k v

/-- DB_PTR_WRITE (R146). -/
def execDbPtrWrite (func page : Func) (receipt : Bool) (ring : BitVec 5) (v : BitVec 32) (s : State) : Out :=
  .next (s.dbPtr func.toNat page.toNat receipt ring.toNat v.toNat)

/-- A write of 1 to another word of a doorbell slot: DB_RESTART (word 4) or DB_WMARK (word 3) (Table 5-1). -/
def State.dbWord (s : State) (func page : Nat) (receipt : Bool) (ring word : Nat) (act : Nat → State) : State :=
  let off := dbOffset page receipt ring word
  match s.dbGate func page receipt ring off with
  | some s' => s'
  | none =>
    match s.ringOf page receipt ring with
    | none => s.dbDrop page receipt ring off 1
    | some k => act k

/-- DB_RESTART (R152): the access that failed is made again by the next burst or receipt write. -/
def execDbRestart (func page : Func) (receipt : Bool) (ring : BitVec 5) (s : State) : Out :=
  .next (s.dbWord func.toNat page.toNat receipt ring.toNat 4 s.ringRestart)

/-- WMARK_CLEAR (R166). -/
def execWmarkClear (func page : Func) (receipt : Bool) (ring : BitVec 5) (s : State) : Out :=
  .next (s.dbWord func.toNat page.toNat receipt ring.toNat 3 s.clearCrossed)

/-- A word of a doorbell slot as it reads (Table 5-1); zero where the page or the ring is not in service. -/
def State.dbRead (s : State) (page : Nat) (receipt : Bool) (ring word : Nat) : Word :=
  if page = 0 || !s.regBit (R.CIR_DB_ENABLE (page / 64)) (page % 64) then 0
  else match s.ringOf page receipt ring with
    | none => 0
    | some k =>
      if word = 0 then BitVec.ofNat 64 (if receipt then s.ringHead k else s.ringTail k)
      else if word = 1 then BitVec.ofNat 64 (if receipt then s.ringTail k else s.ringHead k)
      else if word = 2 then BitVec.ofNat 64 (min (s.ringLevel k) 0x1FFFF + b2n (s.ringStopped k) * 2 ^ 17 + 2 ^ 18)
      else if word = 3 then
        BitVec.ofNat 64 (b2n (s.regBit (R.CIR_RING_STATUS k) 18) + s.field (R.CIR_RING_STATUS k) 19 8 * 256)
      else 0

/-! ## ENABLE (R141 to R143, R168) -/

/-- Writable bits of CIR_RING_CTL while ENABLE is 0. -/
def ringCtlMask : Word := 0x7FFFFFF

/-- The ring named by the registers breaks R141, R142 or R168. SIZE_LOG2 is the four-bit field of Table 5-9, so a ring of 2^16 entries has no
spelling (notes/assumptions/76.md). -/
def State.ringRefused (s : State) (k : Nat) : Bool :=
  let c := s.ringCarrel k
  let bytes := s.ringSize k * s.ringEntry k
  !(decide (6 ≤ s.ringFld k 8 4)) || !s.carrelExists c
    || s.ringsOn.any (fun j => j != k && s.ringCarrel j == c && s.ringIsReceipt j == s.ringIsReceipt k && s.ringLocal j == s.ringLocal k)
    || decide (s.ringBase k % max bytes 4096 ≠ 0)
    || (!s.ringHost k && (decide (2 ^ 48 ≤ s.ringBase k) || !s.inExtents c (s.ringBase k) bytes || s.touchesFrame (s.ringBase k) bytes))
    || (!s.ringIsReceipt k && (s.ringOf c true (s.ringReceipt k)).isNone)

/-- A write of CIR_RING_CTL[k] with ENABLE 1 (R141, R143, R168). While the ring is enabled, only a pending disable is withdrawn. -/
def State.ringEnable (s : State) (k : Nat) (ctl : Word) : State :=
  if s.ringOn k then { s with cir := { s.cir with disabling := Tab.erase s.cir.disabling k } }
  else
    let s1 := s.setReg (R.CIR_RING_CTL k) (setBitAt (ctl &&& ringCtlMask) 0 false)
    if s1.ringRefused k then s1.setRegBit (R.CIR_RING_STATUS k) 27 true
    else
      let s2 := s1.setRegBit (R.CIR_RING_CTL k) 0 true
      { s2 with cir := { s2.cir with
          committed := Tab.insert s2.cir.committed k true
          fetch := Tab.insert s2.cir.fetch k (s2.ringHead k) } }

/-- RING_ENABLE (R141). -/
def execRingEnable (k : BitVec 13) (ctl : Word) (s : State) : Out :=
  .next (if s.alive then s.ringEnable k.toNat ctl else s)

end Sys2Proof.Machine
end

