-- ==== Sys2Proof/Machine/Frames.lean ====
section
/-! DEFINITION. Leaves of holdings, frames of the near tier, and which of them are free (R336, R337, R339). -/

namespace Sys2Proof.Machine

/-! ## Leaves and frames -/

/-- Bytes of a leaf and of a frame. -/
def leafBytes : Nat := 0x200000

/-- A call number as the table holds it, its RELEASE running or not. -/
def State.callAt (s : State) (key : Nat) : Option Holding := Tab.find? s.kpr.calls key

/-- The Keeper's part changed. -/
def State.modKpr (s : State) (f : Kpr → Kpr) : State := { s with kpr := f s.kpr }

/-- A call number written. -/
def State.setHolding (s : State) (h : Holding) : State :=
  s.modKpr (fun k => { k with calls := Tab.insert k.calls (callKey h.carrel h.call) h })

/-- Leaf i of a call number changed. -/
def State.modLeaf (s : State) (key i : Nat) (f : Leaf → Leaf) : State :=
  match s.callAt key with
  | some h => s.setHolding { h with leaves := Tab.put h.leaves i (f (h.leaf i)) Leaf.home }
  | none => s

/-- Home address of leaf i. -/
def Holding.home (h : Holding) (i : Nat) : Nat := h.addr + leafBytes * i

/-- A leaf is backed when its home lies in a far window (R337). -/
def State.backed (s : State) (h : Holding) (i : Nat) : Bool := (s.farPort (h.home i)).isSome

/-- A leaf is held for plan: a pass that a frozen plan put on a shelf names it and has not ended (R208). -/
def State.heldLeaf (s : State) (key i : Nat) : Bool :=
  s.shelves.any (fun p => (p.2.queue ++ p.2.plan ++ (p.2.run.map (·.e)).toList).any (fun e => e.leaf == some (key, i)))

/-- A leaf is moving, or its move waits. -/
def State.movingLeaf (s : State) (key i : Nat) : Bool := s.kpr.moves.any (fun m => callKey m.carrel m.call == key && m.leaf == i)

/-- Pinned regions and enabled near-tier rings of a carrel: base and bytes (R336). -/
def State.rawRanges (s : State) (c : Nat) : List (Nat × Nat) :=
  ((s.holdings c).filter (·.pin)).map (fun h => (h.addr, h.size))
    ++ (s.ringsOn.filter (fun k => s.ringCarrel k == c && !s.ringHost k)).map (fun k => (s.ringBase k, s.ringSize k * s.ringEntry k))

/-- Free frames of carrel c on stack k, ascending (R339). -/
def State.freeFrames (s : State) (c k : Nat) : List Nat :=
  let e := s.extent c k
  let raw := s.rawRanges c
  let used := s.framesInUse
  ((List.range (e.2 / leafBytes)).map (fun i => e.1 / leafBytes + i)).filter (fun f =>
    !used.contains f && !raw.any (fun r => overlaps (leafBytes * f) leafBytes r.1 r.2))

/-- The stack with the most free frames in a carrel's extents, the lowest on a tie (R339). -/
def State.roomiestStack (s : State) (c : Nat) : Nat :=
  ((List.range 6).foldl (fun (best : Nat × Nat) k =>
    let n := (s.freeFrames c k).length
    if best.2 < n then (k, n) else best) (0, (s.freeFrames c 0).length)).1

/-- STACK of an HFLAGS value where it applies: valid, and within the carrel's extents (Table 12-3). -/
def State.flagStack (s : State) (c flags : Nat) : Option Nat :=
  let k := flags / 16 % 8
  if flags / 8 % 2 = 1 ∧ k < 6 ∧ (s.extent c k).2 ≠ 0 then some k else none

/-- Frame f lies wholly within an extent of c. -/
def State.frameInExtents (s : State) (c f : Nat) : Bool := s.inExtents c (leafBytes * f) leafBytes

/-- Near leaves of a carrel: holding, leaf and frame. -/
def State.nearLeaves (s : State) (c : Nat) : List (Holding × Nat × Nat) :=
  ((s.holdings c).filter (fun h => !h.pin)).flatMap (fun h => h.leaves.filterMap (fun p => p.2.frame.map (fun f => (h, p.1, f))))

/-- Something of carrel c lies outside its extents: a leaf, a pin or a near-tier ring. -/
def State.outsideExtents (s : State) (c : Nat) : Bool :=
  (s.nearLeaves c).any (fun x => !s.frameInExtents c x.2.2) || (s.rawRanges c).any (fun r => !s.inExtents c r.1 r.2)

/-- OVER clears when nothing of a carrel lies outside its extents. -/
def State.overSettle (s : State) : State :=
  if s.kpr.excess.isEmpty then s
  else s.modKpr (fun k => { k with excess := k.excess.filter (fun p => s.outsideExtents p.1) })

end Sys2Proof.Machine
end

