-- ==== Sys2Proof/Machine/Stamps.lean ====
section
/-! DEFINITION. The Stamp unit: pulses, epoch frames, the two inputs, holdover and relock, staged period changes, and the instant a
stamp falls (R108 to R128, R137, R138, R140). Times are in fc, relative to the last stamp. -/

namespace Sys2Proof.Machine

/-! ## Inputs -/

/-- STP_CTL enables input i (0 STAMP_A, 1 STAMP_B), as in effect since the last stamp (R140). -/
def State.inputOn (s : State) (i : Nat) : Bool := bitAt s.stp.ctl (16 + i)

/-- The master input (R117). -/
def State.masterInput (s : State) : Nat := if s.inputOn 0 then 0 else 1

/-- Both inputs enabled: they are compared (R122). -/
def State.bothInputs (s : State) : Bool := s.inputOn 0 && s.inputOn 1

/-- STP_GRID_DELAY.DELAY − STP_IN_OFFSET[i].OFFSET, an OFFSET beyond DELAY acting as DELAY (R115). -/
def State.inputDelay (s : State) (i : Nat) : Nat := s.stp.delay - (if i = 0 then s.stp.offA else s.stp.offB)

/-- Period in effect in fc (R112). -/
def State.periodFc (s : State) : Nat := fcPerUs * s.period

/-- The effective window of R122: whether a difference in fc lies within it. -/
def State.inWindow (s : State) (d : Int) : Bool :=
  decide (d.natAbs * 100 ≤ min (fld s.stp.ctl 0 14) (s.period * 250) * 128)

/-- Within ±64 fc of an expected time. -/
def near64 (x e : Int) : Bool := decide ((x - e).natAbs ≤ 64)

/-- Class of a pulse by its width in fc (Table 2-5): none a glitch, else the frame bit, none within for an invalid bit. -/
def pulseClass (w : Nat) : Option (Option Bool) :=
  if w * 100 < 24 * 128 then none
  else if w * 100 ≤ 56 * 128 then some (some false)
  else if w * 100 < 64 * 128 then some none
  else if w * 100 ≤ 96 * 128 then some (some true)
  else some none

/-! ## Epoch frames (R118 to R120) -/

/-- STAMP_HI and period in µs of a received frame: 64 valid bits, CRC right, reserved bits zero (Table 4-4). -/
def parseFrame (bits : List (Option Bool)) : Option (Nat × Nat) :=
  if bits.length = 64 ∧ bits.all Option.isSome then
    let n := natOfBits (bits.map (fun b => b.getD false))
    if n / 2 ^ 54 % 4 = 0 ∧ crc8 ((List.range 7).map (fun k => n / 256 ^ k % 256)) = n / 2 ^ 56 then
      some (n % 2 ^ 42, n / 2 ^ 42 % 4096 + 1)
    else none
  else none

/-- The frame bits kept after one more: the last 128. -/
def pushBit (bits : List (Option Bool)) (b : Option Bool) : List (Option Bool) :=
  let l := bits ++ [b]
  l.drop (l.length - 128)

/-- Alignment (R120): frames ending now and 64 stamps ago both pass, STAMP_HI differing by exactly 1; the number of this stamp. -/
def alignedNumber (bits : List (Option Bool)) : Option Nat :=
  if bits.length = 128 then
    match parseFrame (bits.take 64), parseFrame (bits.drop 64) with
    | some (h, _), some (h', _) => if h' = h + 1 then some (h' * 64 + 63) else none
    | _, _ => none
  else none

/-- The bit a master sends at the current stamp (R58, R118). -/
def State.stampOutBit (s : State) : Bool := frameBit s.stp.stamp.toNat s.period

/-! ## States (Table 4-3) -/

/-- The follower enters HOLDOVER: the relock conditions begin afresh. -/
def Stp.toHoldover (p : Stp) : Stp :=
  { p with state := 4, bits := [], agreed := false, relockRun := 0, relockNum := none, permit := false, misses := 0, periods := 0 }

/-- The relock conditions but for the permission (R127), the last master edge having agreed. -/
def State.relockReady (s : State) : Bool :=
  !bitAt s.stp.ctl 19 && (s.inputOn 0 || s.inputOn 1) && decide (64 ≤ s.stp.relockRun) && s.stp.relockNum.isSome
    && (!s.bothInputs || s.stp.agreed)

/-- The relock of R127 at an accepted edge whose internal stamp is `at_`: the next stamp falls there, with the frame's number. -/
def State.relockAt (s : State) (at_ : Int) (bit : Option Bool) : State :=
  let n : Nat := (s.stp.relockNum.getD 0 + 1) % 2 ^ 48
  let step : Int := at_ - (s.stp.len : Int)
  let nstep : Int := (n : Int) - ((s.stp.stamp.toNat + 1 : Nat) : Int)
  let s := s.setReg R.STP_RELOCK_STEP (BitVec.ofNat 64 (wrapInt 32 step + wrapInt 32 nstep * 2 ^ 32))
  let s := (s.log 1 K.stampRelock).event R.STP_EVENT (if at_ < s.stp.len then 0x44 else 0x4)
  { s with stp := { s.stp with
      state := 3, edgeA := some at_, lastEdge := some at_, bits := pushBit s.stp.bits bit, newNum := some n, permit := false
      relockRun := 0, relockNum := none, misses := 0, periods := 0 } }

/-- An edge on the master input in HOLDOVER (R127). -/
def State.holdoverEdge (s : State) (at_ : Int) (bit : Option Bool) : State :=
  let spaced := match s.stp.lastEdge with
    | some l => near64 at_ (l + s.periodFc)
    | none => false
  let prevOk := !s.bothInputs || s.stp.agreed
  if spaced && s.relockReady && (bitAt s.stp.ctl 18 || s.stp.permit) then s.relockAt at_ bit
  else
    let cont := spaced && prevOk
    let bits := if cont then pushBit s.stp.bits bit else [bit]
    let num := match alignedNumber bits with
      | some n => some n
      | none => if cont then s.stp.relockNum.map (· + 1) else none
    { s with stp := { s.stp with
        bits := bits, lastEdge := some at_, relockNum := num
        relockRun := if cont then s.stp.relockRun + 1 else if spaced then 1 else 0
        permit := s.stp.permit && cont
        agreed := match s.stp.edgeB with
          | some b => s.inWindow (b - at_)
          | none => false } }

/-- A stamp-class pulse on the master input (R117, Table 4-3). In SEEK an edge is valid by its class alone, and the second of two one period
apart is the first edge of FRAMING: the stamp falls at it, and the local period it ends counts as no truncated one; a second pulse in the
window, once one was accepted, is off-grid (DEDUCED, notes/assumptions/18.md). -/
def State.masterEdge (s : State) (at_ : Int) (bit : Option Bool) : State :=
  if s.stp.state = 1 then
    match s.stp.lastEdge with
    | some l =>
      if near64 at_ (l + s.periodFc) then
        { s with stp := { s.stp with state := 2, bits := [bit], edgeA := some at_, lastEdge := some at_, misses := 0, periods := 0 } }
      else { s with stp := { s.stp with lastEdge := some at_, periods := 0 } }
    | none => { s with stp := { s.stp with lastEdge := some at_, periods := 0 } }
  else if s.stp.state = 4 then s.holdoverEdge at_ bit
  else if s.stp.edgeA.isNone && near64 at_ s.stp.len then
    { s with stp := { s.stp with edgeA := some at_, lastEdge := some at_, bits := pushBit s.stp.bits bit } }
  else s.countSat (R.STP_IN_COUNT s.masterInput) 16 16 1

/-- A stamp-class pulse on STAMP_B where it is not the master input (R122): the one nearest the expected time counts. No such pulse is
counted as off-grid: R117 names the term for the master input alone (DEDUCED, notes/assumptions/18.md). -/
def State.otherEdge (s : State) (at_ : Int) (bit : Option Bool) : State :=
  if s.stp.state = 4 then
    { s with stp := { s.stp with
        edgeB := some at_, bitB := bit
        agreed := s.stp.agreed || (match s.stp.lastEdge with
          | some l => s.inWindow (at_ - l)
          | none => false) } }
  else
    let nearer := match s.stp.edgeB with
      | some b => decide ((at_ - s.stp.edgeA.getD s.stp.len).natAbs < (b - s.stp.edgeA.getD s.stp.len).natAbs)
      | none => true
    if nearer then { s with stp := { s.stp with edgeB := some at_, bitB := bit } } else s

/-- A pulse of w fc on an input whose rising edge reached its bump at `edge` fc from the last stamp (R57, R115, R117). -/
def execStampPulse (inputB : Bool) (width : Nat) (edge : Int) (s : State) : Out :=
  let i := if inputB then 1 else 0
  .next (
    if !s.alive || !s.stp.running || s.stp.state == 0 || !s.inputOn i then s
    else match pulseClass width with
      | none => s.countSat (R.STP_IN_COUNT i) 0 16 1
      | some bit =>
        let at_ := edge + 64 + s.inputDelay i
        if i = s.masterInput then s.masterEdge at_ bit else s.otherEdge at_ bit)

/-- EPOCH_FRAME (R121): in LOCKED, the frame that ends at the current stamp is checked against the follower's number and period. -/
def execEpochFrame (s : State) : Out :=
  .next (
    let p := s.stp
    if !s.alive || !p.running || p.state != 3 || p.stamp.toNat % 64 != 63 || decide (p.bits.length < 64) then s
    else
      let fr := parseFrame (p.bits.drop (p.bits.length - 64))
      let s := { s with stp := { p with bits := [] } }
      match fr with
      | none => s.countSat (R.STP_IN_COUNT s.masterInput) 32 16 1
      | some (hi, per) =>
        let s := if hi = p.stamp.toNat / 64 then s else
          { (s.log 1 K.stampNumber).event R.STP_EVENT 8 with stp := { s.stp with newNum := some ((hi * 64 + 64) % 2 ^ 48) } }
        if per = s.period then s else
          { (s.log 1 K.stampPeriod).event R.STP_EVENT 16 with stp := { s.stp with newPer := some per } })

/-- STAMP_LOST (R125, Table 4-3): two misses in a row, or 64 periods of SEEK without a valid edge. -/
def execStampLost (s : State) : Out :=
  .next (
    let p := s.stp
    if s.alive && p.running && (((p.state == 2 || p.state == 3) && decide (2 ≤ p.misses)) || (p.state == 1 && decide (64 ≤ p.periods))) then
      { (s.event R.STP_EVENT 2).log 1 K.stampLost with stp := p.toHoldover }
    else s)

/-- STAMP_NO_FRAME (Table 4-3): 256 periods of FRAMING without alignment. -/
def execStampNoFrame (s : State) : Out :=
  .next (
    if s.alive && s.stp.running && s.stp.state == 2 && decide (256 ≤ s.stp.periods) then
      { (s.event R.STP_EVENT 0x20).log 1 K.stampNoFrame with stp := s.stp.toHoldover }
    else s)

/-- RELOCK (R127): the permission counts once the other conditions hold. -/
def State.relock (s : State) : State :=
  if s.stp.running && s.stp.state == 4 && s.relockReady then { s with stp := { s.stp with permit := true } } else s

/-- The RELOCK command. -/
def execRelock (s : State) : Out := .next (if s.alive then s.relock else s)

/-! ## Staged period change (R137, R138) -/

/-- Result of arming: a refusal of the table of R137 (3 LATE, 4 MISALIGNED, 5 INVALID) or 1. -/
def State.changeResult (s : State) : Nat :=
  let at_ := s.field R.STP_CHANGE_AT 0 48
  let p := s.field R.STP_NEXT_PERIOD 0 13
  let c := s.stp.stamp.toNat
  if at_ < c + 1 || (at_ == c + 1 && decide (0xC000 ≤ s.phase)) then 3
  else if p != 0 && at_ % 64 != 0 then 4
  else if p != 0 && !(decide (4 ≤ p) && decide (p ≤ 4096)) then 5
  else 1

/-- ARM (R137). -/
def State.changeArm (s : State) : State :=
  let r := s.changeResult
  let s' := s.setField R.STP_CHANGE_STATUS 0 3 r
  if r = 1 then
    { s' with stp := { s'.stp with armed := some (s.field R.STP_CHANGE_AT 0 48, s.field R.STP_NEXT_PERIOD 0 13) } }
  else s'

/-- CANCEL (R137). -/
def State.changeCancel (s : State) : State :=
  let s' := s.setField R.STP_CHANGE_STATUS 0 3 6
  { s' with stp := { s'.stp with armed := none } }

/-- STAMP_CHANGE_ARM (R137). -/
def execStampChangeArm (s : State) : Out := .next (if s.alive then s.changeArm else s)

/-- STAMP_CHANGE_CANCEL (R137). -/
def execStampChangeCancel (s : State) : Out := .next (if s.alive then s.changeCancel else s)

/-! ## The stamp -/

/-- How the compared inputs stand at a stamp in FRAMING or LOCKED (R122): none for one input or no edge at all. -/
def State.agrees (s : State) : Option Bool :=
  if s.bothInputs && (s.stp.state == 2 || s.stp.state == 3) then
    match s.stp.edgeA, s.stp.edgeB with
    | none, none => none
    | some a, some b => some (s.inWindow (b - a))
    | _, _ => some false
  else none

/-- The instant at which the stamp falls (R114, R117, R124, R127). -/
def State.stampAt (s : State) : Int :=
  match s.stp.edgeA with
  | some a => if s.agrees == some false || s.stp.state == 1 || s.stp.state == 4 then s.stp.len else a
  | none => s.stp.len

/-- What the inputs leave at a stamp in FRAMING or LOCKED: misses (R117), skew and differing bits (R122, R123). -/
def State.stampInputs (s : State) : State :=
  if !(s.stp.state == 2 || s.stp.state == 3) then s
  else
    let s := match s.stp.edgeA with
      | some _ => { s with stp := { s.stp with misses := 0 } }
      | none => { s.countSat (R.STP_IN_COUNT s.masterInput) 48 16 1 with
                  stp := { s.stp with misses := s.stp.misses + 1, bits := pushBit s.stp.bits none } }
    match s.agrees, s.stp.edgeA, s.stp.edgeB with
    | some true, some a, some b =>
      let s := s.setReg R.STP_SKEW (BitVec.ofNat 64 (wrapInt 16 (b - a) + max (s.field R.STP_SKEW 16 16) (min 65535 (b - a).natAbs) * 65536))
      if s.stp.bits.getLast? == some s.stp.bitB then s else s.countSat (R.STP_IN_COUNT 1) 32 16 1
    | _, _, _ => s

/-- The grid delay in force: the master's own, or a follower's for its input (R140). -/
def State.gridDelay (s : State) (input : Nat) : Nat := if s.stp.state = 0 then s.stp.delay else s.inputDelay input

/-- The period that begins at the stamp: a staged or a master's period (R121, R138), and the grid moved by a change of the delays of the
input that sets the stamps from now on (R140). -/
def State.stampPeriod (s : State) : State :=
  let n := s.stp.stamp.toNat
  let s := match s.stp.newPer with
    | some p => { s.setReg R.STP_PERIOD (BitVec.ofNat 64 p) with stp := { s.stp with newPer := none } }
    | none => s
  let s := match s.stp.armed with
    | some (at_, p) =>
      if at_ ≤ n then
        let s := if p = 0 then s else s.setReg R.STP_PERIOD (BitVec.ofNat 64 p)
        { s.setReg R.STP_CHANGE_STATUS (BitVec.ofNat 64 (2 + n * 65536)) with stp := { s.stp with armed := none } }
      else s
    | none => s
  let before := s.gridDelay s.masterInput
  let s := { s with stp := { s.stp with
    delay := s.field R.STP_GRID_DELAY 0 10
    offA := s.field (R.STP_IN_OFFSET 0) 0 10, offB := s.field (R.STP_IN_OFFSET 1) 0 10 } }
  let after := s.gridDelay s.masterInput
  { s with stp := { s.stp with len := s.periodFc + after - before } }

/-- Detail word of STAMP_SPLIT (R124): the compensated difference B − A in fc in bits 15:0, or bit 16 for a missing STAMP_A, bit 17 for a
missing STAMP_B (DESIGN CHOICE, notes/assumptions/69.md). -/
def State.splitDetail (s : State) : Nat :=
  match s.stp.edgeA, s.stp.edgeB with
  | some a, some b => wrapInt 16 (b - a)
  | none, _ => 2 ^ 16
  | some _, none => 2 ^ 17

/-- A write of STP_CTL takes effect at the stamp (R140). -/
def State.takeCtl (s : State) : State := { s with stp := { s.stp with ctl := s.reg R.STP_CTL } }

/-- The follower's state at a stamp: split, alignment, forced or inputless holdover (Table 4-3, R120, R124). -/
def State.stampState (s : State) (split : Bool) (detail : Nat) : State :=
  let p := s.stp
  if p.state = 0 then s
  else if split then { (s.event R.STP_EVENT 1).log 1 K.stampSplit 0 0 0 detail with stp := p.toHoldover }
  else if !s.inputOn 0 && !s.inputOn 1 && p.state != 4 then { s with stp := p.toHoldover }
  else if p.state = 3 && bitAt p.ctl 19 then { s with stp := p.toHoldover }
  else if p.state = 2 then
    match alignedNumber p.bits with
    | some n => { s with stp := { p with state := 3, stamp := BitVec.ofNat 48 n, bits := [], misses := 0, periods := 0 } }
    | none => s
  else s

/-- Number of the next stamp (R108, R121, R127). -/
def Stp.nextStamp (p : Stp) : BitVec 48 :=
  match p.newNum with
  | some n => BitVec.ofNat 48 n
  | none => p.stamp + 1

/-- Length in fc of the period in progress, to the stamp that ends it. -/
def State.stampFc (s : State) : Nat :=
  if s.stp.running then (max (s.stp.t : Int) s.stampAt).toNat else max s.stp.t s.stp.len

/-- The Stamp unit's part of a stamp: the datestamp, the state and the period that begins (R108, R111, R117 to R128, R138, R140). -/
def State.stampClock (s : State) : State :=
  let p := s.stp
  let split := p.running && s.agrees == some false
  let detail := s.splitDetail
  let f := s.stampFc
  let short := p.running && decide (p.len < s.periodFc)
  let s := if p.running then s.stampInputs else s
  let s := s.advance (f - p.t)
  let shift : Option Int → Option Int := fun e => e.map (fun x => x - f)
  let s := { s with stp := { s.stp with
    stamp := p.nextStamp
    t := 0, cut := false, newNum := none, lastEdge := shift s.stp.lastEdge
    edgeA := none, bitB := if p.state = 4 || p.state = 1 then s.stp.bitB else none
    edgeB := if p.state = 4 || p.state = 1 then shift s.stp.edgeB else none
    periods := if p.state = 1 || p.state = 2 then s.stp.periods + 1 else s.stp.periods } }
  let s := if short then s.event R.STP_EVENT 0x40 else s
  if p.running then (s.takeCtl.stampState split detail).stampPeriod
  else { s with stp := { s.stp with len := fcPerUs * s.period } }

end Sys2Proof.Machine
end

