-- ==== Sys2Proof/Machine/Slips.lean ====
section
/-! DEFINITION. Catalogue records: their fields, retirement and receipts (R161, R164, R181), fault snapshots (R189), readiness and its
checks (R178 to R180, R155, R156), and the hand-over to the units (R180, R239). -/

namespace Sys2Proof.Machine

/-! ## Records (Tables 5-2 to 5-4) -/

/-- The record of a slip. -/
def State.slip (s : State) (id : Nat) : Option Slip := Tab.find? s.cat.slips id

/-- A record written. -/
def State.setSlip (s : State) (id : Nat) (x : Slip) : State := { s with cat := { s.cat with slips := Tab.insert s.cat.slips id x } }

/-- A record changed, if it is there. -/
def State.modSlip (s : State) (id : Nat) (f : Slip → Slip) : State :=
  match s.slip id with
  | some x => s.setSlip id (f x)
  | none => s

/-- Word i of a slip. -/
def Slip.w (x : Slip) (i : Nat) : Word := wordAt x.words i

/-- Word W(3+i), INDIRECT applied (R155). -/
def Slip.p (x : Slip) (i : Nat) : Word := wordAt x.par i

/-- TYPE, TAG and FLAGS. -/
def Slip.typ (x : Slip) : Nat := fld (x.w 0) 0 8
def Slip.tag (x : Slip) : Nat := fld (x.w 0) 32 32
def Slip.notifies (x : Slip) : Bool := bitAt (x.w 0) 8
def Slip.nbValid (x : Slip) : Bool := bitAt (x.w 0) 9
def Slip.edgesExt (x : Slip) : Bool := bitAt (x.w 0) 10
def Slip.quiet (x : Slip) : Bool := bitAt (x.w 0) 11
def Slip.proceed (x : Slip) : Bool := bitAt (x.w 0) 12
def Slip.indirect (x : Slip) : Bool := bitAt (x.w 0) 13

/-- NOT_BEFORE, and the parameter block in bytes. -/
def Slip.notBefore (x : Slip) : Nat := fld (x.w 1) 0 48
def Slip.paramAddr (x : Slip) : Nat := fld (x.w 2) 0 48
def Slip.paramLen (x : Slip) : Nat := 64 * fld (x.w 2) 48 12

/-- Records of carrel c, in order of entry. -/
def State.slipsOf (s : State) (c : Nat) : List (Nat × Slip) := s.cat.slips.filter (fun p => p.2.carrel == c)

/-- The resident slip of a carrel with a tag (R151). -/
def State.slipByTag (s : State) (c tag : Nat) : Option (Nat × Slip) :=
  s.cat.slips.first? (fun p => p.2.carrel == c && p.2.tag == tag)

/-- Named bits of W3 to W6 by type (Table 5-4); every other bit is reserved. -/
def slipParMask (typ : Nat) : List Word :=
  if typ = 1 then [0xFFFFFFFFFFFF, 0xFFFFFFFFFFFF, 1, 0]
  else if typ = 2 then [0xFFFFFFFF, 0xFF3F, 0xFFFFFFFFFFFFFFFF, 0]
  else if typ = 3 then [0xFFFFFFFFFFFFFFFF, 0xFFFFFFFFFFFFFFFF, 0xFFFFFFFFFFFF, 0xFFF]
  else if typ = 4 then [1, 0, 0, 0]
  else if typ = 5 then [0xFFFFFFFFFFFF, 0x1FFFFF, 0, 0]
  else [0xFFFFFFFF000000FF, 0xFFFFFFFFFFFF, 0xFFFFFFFFFFFF, 0xFF]

/-- Some bit outside the named ones is set (R12). -/
def reservedSet (ws masks : List Word) : Bool := (ws.zip masks).any (fun p => p.1 &&& ~~~ p.2 != 0)

/-! ## Snapshots (R189, Table 6-2) -/

/-- Where a fault arose: pass, shelf, core, engine (3 none), folio, the folio's W0, the three engine words and the eight tally words. -/
structure SnapPlace where
  pass  : Nat
  shelf : Nat
  core  : Nat
  eng   : Nat
  folio : Nat
  w0    : Word
  engs  : List Word
  tally : List Word
  deriving DecidableEq, Repr

/-- Outside any core. -/
def SnapPlace.none : SnapPlace := ⟨0, 0, 0, 3, 0, 0, [0, 0, 0], [0, 0, 0, 0, 0, 0, 0, 0]⟩

/-- SNAPSHOT_CAPTURE (R189): cause 0 slip failure, 1 folio skipped, 2 no progress. -/
def State.capture (s : State) (x : Slip) (cause : Nat) (status : Code) (p : SnapPlace) : State :=
  let r := R.CAT_CARREL_STATE x.carrel
  if s.regBit r 27 then s.countSat r 28 8 1
  else
    let w0 : Word := BitVec.ofNat 64 (x.tag + status.toNat * 2 ^ 32 + x.carrel * 2 ^ 48 + b2n s.holdover * 2 ^ 58 + cause * 2 ^ 59)
    let w2 : Word := BitVec.ofNat 64 (x.head + x.ctx * 2 ^ 32 + p.folio * 2 ^ 45)
    let w3 : Word := BitVec.ofNat 64 (p.pass + p.shelf * 2 ^ 32 + p.core * 2 ^ 44 + p.eng * 2 ^ 52)
    let snap := [w0, s.now, w2, w3, p.w0] ++ p.engs ++ p.tally
    { s.setRegBit r 27 true with cat := { s.cat with snaps := Tab.insert s.cat.snaps x.carrel snap } }

/-- A failure a slip meets: the first is its status, and of two in one fc the lower code (R164); it is captured (R189). -/
def State.slipFault (s : State) (id : Nat) (code : Code) (p : SnapPlace) : State :=
  match s.slip id with
  | none => s
  | some x =>
    if x.st == .retired then s
    else
      match x.fail with
      | none => (s.capture x 0 code p).modSlip id (fun x => { x with fail := some code, failAt := s.stp.total })
      | some f =>
        if x.failAt = s.stp.total ∧ code < f then s.modSlip id (fun x => { x with fail := some code }) else s

/-! ## Retirement (R161, R164, R181) -/

/-- W0 of a KIND 0 receipt but for LAP (Table 5-5). -/
def Slip.receiptW0 (x : Slip) (code : Code) (ho sat : Bool) : Word :=
  BitVec.ofNat 64 (x.tag + code.toNat * 2 ^ 32 + min 255 x.cnt.crossed * 2 ^ 48
    + b2n (!(x.typ == 1 && code == 0) && (ho || x.cnt.launchHo)) * 2 ^ 58 + b2n sat * 2 ^ 59 + x.typ % 8 * 2 ^ 60)

/-- SHELF_CC in units of 2^20 cc, and SPILL in 2 MiB leaves, rounded up. -/
def SlipCounts.ccUnits (c : SlipCounts) : Nat := ceilDiv c.shelfCc (2 ^ 20)
def SlipCounts.spillLeaves (c : SlipCounts) : Nat := ceilDiv c.spill 0x200000

/-- A count of a receipt saturated (SAT). -/
def SlipCounts.saturated (c : SlipCounts) : Bool :=
  decide (255 < c.crossed) || decide (2 ^ 28 ≤ c.ccUnits) || decide (1023 < c.skipped) || decide (1023 < c.wrapped)
    || decide (65535 < c.spillLeaves)

/-- The receipt of a slip that retires now with a status. -/
def State.slipReceipt (s : State) (id : Nat) (x : Slip) (code : Code) : DueReceipt :=
  let c := x.cnt
  { carrel := x.carrel, rring := x.rring
    w0 := x.receiptW0 code s.holdover c.saturated
    w1 := BitVec.ofNat 64 (c.launchStamp.getD 0 % 2 ^ 48 + c.shelves.length * 2 ^ 48)
    w2 := s.now
    w3 := BitVec.ofNat 64 (min (2 ^ 28 - 1) c.ccUnits + min 1023 c.skipped * 2 ^ 28 + min 1023 c.wrapped * 2 ^ 38
      + min 65535 c.spillLeaves * 2 ^ 48)
    record := some id, notify := x.notifies, fail := !isSuccess code }

/-- Edges to a record that has retired are resolved with its outcome (R179). -/
def Slip.resolve (x : Slip) (id : Nat) (failed : Bool) : Slip :=
  if x.waits.contains id then
    { x with
      waits := x.waits.filter (fun i => i != id), predFail := x.predFail || failed
      edges := x.edges.map (fun e => if e.pred = some id ∧ e.res = 0 then { e with res := if failed then 2 else 1 } else e) }
  else x

/-- The statuses that are no fault of the slip itself, and are not captured (R189): CANCELLED, PREDECESSOR_FAILED and the resets'. -/
def notCaptured (c : Code) : Bool := c == 0x2004 || c == 0x2005 || c == 0x7001 || c == 0x7002 || c == 0x8001

/-- The status a slip retires with (R164): its first failure, else a remark, else what ends it; a reset's status overrides (R188). -/
def Slip.outcome (x : Slip) (st : Code) (force : Bool) : Code :=
  if force then st
  else match x.fail with
    | some f => f
    | none => if isSuccess st then { x.cnt with empty := x.cnt.empty || st == 0x1001 }.remark else st

/-- SLIP_RETIRE (R181): the outcome is fixed, dependents are released, and the receipt is due or the record leaves (QUIET). -/
def State.retire (s : State) (id : Nat) (st : Code) (force : Bool := false) : State :=
  match s.slip id with
  | none => s
  | some x =>
    if x.st == .retired then s
    else
      let code := x.outcome st force
      let s := if !isSuccess code && x.fail.isNone && !notCaptured code then s.capture x 0 code SnapPlace.none else s
      let x' : Slip := { x with st := .retired, status := code, waits := [], reading := false, launch := none }
      let rest := (Tab.erase s.cat.slips id).map (fun p => (p.1, p.2.resolve id (!isSuccess code)))
      let s := { s with
        cat := { s.cat with slips := rest }
        cir := { s.cir with waits := s.cir.waits.filter (fun w => w.who != .slip id) } }
      if x.quiet && code.toNat / 4096 = 0 then s
      else (s.setSlip id x').receiptDue (s.slipReceipt id x code)

/-! ## Readiness (R178, R132) -/

/-- The period whose plans are being built (R131, R132): the next, or the one after it once the cutoff has come. -/
def State.planned (s : State) : Nat := s.stp.stamp.toNat + (if s.phase < 0xC000 then 1 else 2)

/-- nb_ok of R178. -/
def State.nbOk (s : State) (x : Slip) : Bool :=
  !x.nbValid || decide (x.notBefore ≤ if x.typ = 2 then s.planned else s.stp.stamp.toNat)

/-- The Catalogue works for this carrel: it exists and is not in reset or destruction (R400). -/
def State.carrelLive (s : State) (c : Nat) : Bool := decide (1 ≤ s.carrelState c) && decide (s.carrelState c ≤ 4)

/-- R178 moves this ENTERED record now. -/
def State.canLeaveEntered (s : State) (x : Slip) : Bool :=
  x.st == .entered && !x.reading && x.waits.isEmpty && s.carrelLive x.carrel
    && ((x.predFail && !x.proceed) || (s.nbOk x && (x.typ != 2 || s.launchable)))

/-- A parameter block lies wholly within the carrel's memory, where there is one (R156). -/
def State.paramOk (s : State) (x : Slip) : Bool := x.paramLen == 0 || s.memAdmitted x.carrel x.paramAddr x.paramLen

/-! ## The checks at readiness (R155, R156, R180) -/

/-- Chip number part of a global address is this chip (R357). -/
def State.ownChip (s : State) (g : Nat) : Bool := g / 2 ^ 48 == 0xFFFF || g / 2 ^ 48 == s.field R.ILN_CHIP 0 16

/-- [a, a + n) lies in the shelf-store windows of this chip (Table 13-1). -/
def inWindows (a n : Nat) : Bool := decide (storeBase ≤ a) && decide (a + n ≤ storeBase + 4096 * 0x80000)

/-- A COPY range can be judged now and is refused (R156): near or far memory the carrel may not reach, folio memory, the control
window, a source in the shelf-store windows, or a range that runs past the end of the host address space. -/
def State.copyRangeBad (s : State) (c space g n : Nat) (dst : Bool) : Bool :=
  if space = 1 then decide (2 ^ 64 < g + n)
  else if !s.ownChip g then false
  else
    let a := g % 2 ^ 48
    if dst && inWindows a n then false else !s.memAdmitted c a n

/-- Bytes of an ADD_TYPE element (Table 5-4). -/
def addSize (t : Nat) : Nat := if t = 0 then 4 else if t = 1 then 8 else if t = 2 then 4 else if t = 3 then 2 else 16

/-- Checks of a COPY (R156): the status of the first that fails, or none; a LENGTH of 0 names no range. BAD_PARAM goes before NOT_PERMITTED
(notes/assumptions/76.md). -/
def State.copyCheck (s : State) (x : Slip) : Option Code :=
  let src := (x.p 0).toNat
  let dst := (x.p 1).toNat
  let n := fld (x.p 2) 0 48
  let op := fld (x.p 3) 0 4
  let ty := fld (x.p 3) 4 4
  let ss := fld (x.p 3) 8 2
  let ds := fld (x.p 3) 10 2
  if 1 < op ∨ 4 < ty ∨ 1 < ss ∨ 1 < ds then some 0x3004
  else if n = 0 then none
  else if op = 1 && (ds == 1 || (s.ownChip dst && inWindows (dst % 2 ^ 48) 1) || dst % addSize ty != 0 || n % addSize ty != 0) then some 0x3004
  else if s.copyRangeBad x.carrel ss src n false || s.copyRangeBad x.carrel ds dst n true then some 0x2000
  else none

/-- Checks of an enqueue's target and source (R157): BAD_RING, then NOT_PERMITTED. -/
def State.enqueueCheck (s : State) (c ring count src : Nat) : Option Code :=
  match s.ringOf c false ring with
  | none => some 0x3005
  | some k =>
    if !s.ringDevice k || s.ringSize k < count then some 0x3005
    else if !s.memAdmitted c src (128 * count) then some 0x2000
    else none

/-- Checks of an ENQUEUE slip. A source that is not 128-byte aligned is BAD_PARAM, before the checks of R157 (notes/assumptions/76.md). -/
def State.enqueueSlipCheck (s : State) (x : Slip) : Option Code :=
  let src := fld (x.p 0) 0 48
  let count := fld (x.p 1) 0 16
  if count = 0 then none
  else if src % 128 ≠ 0 then some 0x3004
  else s.enqueueCheck x.carrel (fld (x.p 1) 16 5) count src

/-- Key of a volume: carrel and VOLUME_ID. -/
def volKey (c vid : Nat) : Nat := 65536 * c + vid

/-- The accessions running. -/
def Bindery.jobs (b : Bindery) : List BindJob := b.slot0.toList ++ b.slot1.toList

/-- Check 3 of Table 8-8 fails for a VOLUME_ID of a carrel. -/
def State.volumeInUse (s : State) (c vid : Nat) (replace : Bool) : Bool :=
  s.bind.jobs.any (fun j => j.carrel == c && j.volId == vid)
    || (Tab.mem s.bind.vols (volKey c vid) &&
      (!replace || s.cat.slips.any (fun p => p.2.carrel == c && p.2.typ == 2 && p.2.st != .retired && fld (p.2.p 0) 0 16 == vid)))

/-- Checks 1 to 3 of an ACCESSION (Table 8-8), and the two forms with VOLUME_LEN 0 (R237). -/
def State.accessionCheck (s : State) (x : Slip) : Option Code :=
  let len := fld (x.p 1) 0 32
  let vid := fld (x.p 1) 32 16
  let replace := bitAt (x.p 2) 0
  let addr := fld (x.p 0) 0 48
  if len = 0 && !replace then none
  else if addr % 64 ≠ 0 ∨ vid = 0 then some 0x3004
  else if len != 0 && !s.inExtents x.carrel addr len then some 0x2000
  else if len != 0 && s.touchesFrame addr len then some 0x2000
  else if s.volumeInUse x.carrel vid replace then some 0x2008
  else none

/-- HOP, CALL, ADDR, SIZE and HFLAGS of a HOLDING slip (Table 5-4). -/
def Slip.hop (x : Slip) : Nat := fld (x.p 0) 0 8
def Slip.call (x : Slip) : Nat := fld (x.p 0) 32 32
def Slip.hAddr (x : Slip) : Nat := fld (x.p 1) 0 48
def Slip.hSize (x : Slip) : Nat := fld (x.p 2) 0 48
def Slip.hFlags (x : Slip) : Nat := fld (x.p 3) 0 8
def Slip.hKey (x : Slip) : Nat := callKey x.carrel x.call

/-- HFLAGS bits named for a HOP (Table 12-3). -/
def hopFlags (hop : Nat) : Nat := if hop = 1 then 0x7B else if hop = 2 then 0x04 else if hop = 5 then 0x78 else 0

/-- A blank field or an HFLAGS bit not named for the HOP is not zero (R339). -/
def Slip.holdReserved (x : Slip) : Bool :=
  (x.hFlags &&& hopFlags x.hop != x.hFlags) || ((x.hop == 2 || x.hop == 4) && (x.hAddr != 0 || x.hSize != 0))

/-- KPR_USE[c].OVER (R345). -/
def State.overQuota (s : State) (c : Nat) : Bool := Tab.mem s.kpr.excess c

/-- [a, a + n) lies within the far extent of carrel c (R334). -/
def State.inFarExtent (s : State) (c a n : Nat) : Bool :=
  let lo := farBase + leafBytes * s.field (R.KPR_FAR_EXTENT c) 0 21
  decide (lo ≤ a) && decide (a + n ≤ lo + leafBytes * s.field (R.KPR_FAR_EXTENT c) 32 22) && decide (a + n ≤ 0x140000000000)

/-- A call number is in use by a LAUNCH that resolved it and is READY, PLANNED or RUNNING (R341). -/
def State.callInUse (s : State) (c call : Nat) : Bool :=
  s.cat.slips.any (fun p => p.2.carrel == c && p.2.typ == 2 && (p.2.st == .ready || p.2.st == .planned || p.2.st == .running)
    && p.2.launch.any (fun l => l.holds.contains call))

/-- Free frames of a carrel's extents, on every stack. -/
def State.freeAll (s : State) (c : Nat) : Nat := listSum ((List.range 6).map (fun k => (s.freeFrames c k).length))

/-- Bytes of a range of a holding lie beyond it (Table 12-2). -/
def Holding.beyond (h : Holding) (x : Slip) : Bool := decide (leafBytes * h.nLeaves < x.hAddr + x.hSize)

/-- Leaves that a range of a holding names. -/
def Slip.namedLeaves (x : Slip) : List Nat :=
  if x.hSize = 0 then []
  else (List.range ((x.hAddr + x.hSize - 1) / leafBytes - x.hAddr / leafBytes + 1)).map (fun i => x.hAddr / leafBytes + i)

/-! ## The checks of HOLDING slips, in the order of Table 12-2

`turn`: no slip of the same call number that became ready before has yet to end (R341), so that what the call number is can be judged;
`quota`: the slip becomes ready now, so that it can still be refused for want of quota (R180, R215). -/

/-- Other HOLDING slips of the same call of the carrel. -/
def State.sameCall (s : State) (id : Nat) (x : Slip) : List (Nat × Slip) :=
  s.cat.slips.filter (fun p => p.1 != id && p.2.typ == 6 && p.2.hKey == x.hKey)

/-- A slip became ready before another (R341). -/
def readyBefore (a b : Nat × Slip) : Bool := decide (a.2.readyAt < b.2.readyAt) || (a.2.readyAt == b.2.readyAt && decide (a.1 < b.1))

/-- The holding a REGISTER asks for. -/
def Slip.newHolding (x : Slip) : Holding :=
  { carrel := x.carrel, call := x.call, pin := false, addr := x.hAddr, size := x.hSize, flags := x.hFlags, leaves := [], gone := false }

/-- Unbacked leaves of a holding, ascending (R337). -/
def State.unbackedOf (s : State) (h : Holding) : List Nat := (List.range h.nLeaves).filter (fun i => !s.backed h i)

/-- Frames a REGISTER may use. -/
def State.registerRoom (s : State) (x : Slip) : Nat :=
  match s.flagStack x.carrel x.hFlags with
  | some k => (s.freeFrames x.carrel k).length
  | none => s.freeAll x.carrel

/-- Leaves of a carrel in frames that touch a region, as holding, leaf and frame. -/
def State.leavesIn (s : State) (c a n : Nat) : List (Holding × Nat × Nat) :=
  (s.nearLeaves c).filter (fun y => overlaps (leafBytes * y.2.2) leafBytes a n)

/-- Free frames of a carrel outside a region. -/
def State.freeOutside (s : State) (c a n : Nat) : Nat :=
  listSum ((List.range 6).map (fun k => ((s.freeFrames c k).filter (fun f => !overlaps (leafBytes * f) leafBytes a n)).length))

/-- The call table and the free frames have room for a REGISTER or a PIN; other HOPs take none at their start. -/
def State.holdRoom (s : State) (x : Slip) : Bool :=
  if x.hop = 1 then decide (s.kpr.calls.length < 65536) && decide ((s.unbackedOf x.newHolding).length ≤ s.registerRoom x)
  else if x.hop = 3 then decide (s.kpr.calls.length < 65536)
    && decide (((s.leavesIn x.carrel x.hAddr x.hSize).filter (fun y => !s.backed y.1 y.2.1)).length ≤ s.freeOutside x.carrel x.hAddr x.hSize)
  else true

/-- REGISTER. -/
def State.registerRefusal (s : State) (x : Slip) (turn quota : Bool) : Option Code :=
  let n := alignUp x.hSize leafBytes
  if x.call = 0 ∨ x.hSize = 0 ∨ x.hAddr % leafBytes ≠ 0 then some 0x3004
  else if turn && (s.callAt x.hKey).isSome then some 0x2007
  else if !s.inFarExtent x.carrel x.hAddr n then some 0x2000
  else if turn && (s.holdings x.carrel).any (fun h => !h.pin && overlaps x.hAddr n h.addr (leafBytes * h.nLeaves)) then some 0x3004
  else if quota && (s.overQuota x.carrel || !s.holdRoom x) then some 0x4002
  else none

/-- RELEASE, UNPIN, PREFETCH and EVICT: what the call number must be. -/
def State.callRefusal (s : State) (x : Slip) (pin : Bool) : Option Code :=
  match s.holding x.carrel x.call with
  | none => some 0x2006
  | some h => if h.pin = pin then none else some 0x3004

/-- PIN. A pin takes a call number of the table too (R337). -/
def State.pinRefusal (s : State) (x : Slip) (turn quota : Bool) : Option Code :=
  if x.call = 0 ∨ x.hSize = 0 ∨ x.hAddr % 4096 ≠ 0 ∨ x.hSize % 4096 ≠ 0 then some 0x3004
  else if turn && (s.callAt x.hKey).isSome then some 0x2007
  else if !s.inExtents x.carrel x.hAddr x.hSize then some 0x2000
  else if turn && (s.rawRanges x.carrel).any (fun r => overlaps x.hAddr x.hSize r.1 r.2) then some 0x3004
  else if quota && (s.overQuota x.carrel || !s.holdRoom x) then some 0x4002
  else none

/-- PREFETCH and EVICT: the range, and what excludes the operation. -/
def State.rangeRefusal (s : State) (x : Slip) (quota : Bool) : Option Code :=
  match s.callRefusal x false with
  | some c => some c
  | none =>
    if x.hSize = 0 then some 0x1001
    else if (s.holding x.carrel x.call).any (fun h => h.beyond x) then some 0x2000
    else if x.hop = 5 && quota && s.overQuota x.carrel then some 0x4002
    else if x.hop = 6 ∧ s.callInUse x.carrel x.call then some 0x2007
    else none

/-- The refusal of a HOLDING slip, if any (R339). -/
def State.holdRefusal (s : State) (x : Slip) (turn quota : Bool) : Option Code :=
  if x.holdReserved then some 0x3002
  else if x.hop = 1 then s.registerRefusal x turn quota
  else if x.hop = 3 then s.pinRefusal x turn quota
  else if !turn then (if x.hop = 5 && quota && s.overQuota x.carrel then some 0x4002 else none)
  else if x.hop = 2 then (match s.callRefusal x false with
    | some c => some c
    | none => if s.callInUse x.carrel x.call then some 0x2007 else none)
  else if x.hop = 4 then s.callRefusal x true
  else s.rangeRefusal x quota

/-- The checks of a HOLDING slip that becomes ready: HOP, then Table 12-2 (R180, R339). -/
def State.holdCheck (s : State) (id : Nat) (x : Slip) : Option Code :=
  if x.hop = 0 ∨ 6 < x.hop then some 0x3006
  else s.holdRefusal x (!(s.sameCall id x).any (fun p => p.2.st == .running || p.2.st == .ready)) true

/-- The type's own checks of a slip that becomes ready (R180); LAUNCH has its own at the end of the pass-table read. -/
def State.typeCheck (s : State) (id : Nat) (x : Slip) : Option Code :=
  if x.typ = 1 then s.accessionCheck x
  else if x.typ = 3 then s.copyCheck x
  else if x.typ = 5 then s.enqueueSlipCheck x
  else if x.typ = 6 then s.holdCheck id x
  else none

/-- READY_CHECKS (R180): the record with W3 to W6 in effect, and the status of the first check that fails. -/
def State.readyChecks (s : State) (id : Nat) (x : Slip) : State × Slip × Option Code :=
  if !s.paramOk x then (s.memRefused x.carrel x.paramAddr x.tag, x, some 0x2000)
  else if x.indirect then
    match s.readFor x.carrel x.paramAddr 32 x.tag with
    | (s, bytes, some code) => (s, { x with par := wordsOfBytes 4 bytes }, some code)
    | (s, bytes, none) =>
      let x := { x with par := wordsOfBytes 4 bytes }
      if reservedSet x.par (slipParMask x.typ) then (s, x, some 0x3002) else (s, x, s.typeCheck id x)
  else (s, x, s.typeCheck id x)

/-! ## Hand-over (R180) -/

/-- An ACCESSION with VOLUME_LEN 0 and REPLACE withdraws its volume (R237). -/
def State.withdrawVolume (s : State) (id : Nat) (x : Slip) : State :=
  let key := volKey x.carrel (fld (x.p 1) 32 16)
  if Tab.mem s.bind.vols key then { s with bind := { s.bind with vols := Tab.erase s.bind.vols key } }.retire id 0x0000
  else s.retire id 0x1001

/-- A record whose edges, failures, not-before and stamp state let it leave ENTERED (R178). -/
def State.leaveEntered (s : State) (id : Nat) (x : Slip) : State :=
  if x.predFail && !x.proceed then s.retire id 0x2005
  else if x.typ = 2 then s.setSlip id { x with reading := true }
  else
    let r := s.readyChecks id x
    let x := { r.2.1 with st := .ready, readyAt := s.now.toNat }
    let s := r.1.setSlip id x
    match r.2.2 with
    | some code => s.retire id code
    | none => s

/-- An ACCESSION that reads no volume (R237). -/
def Slip.noVolume (x : Slip) : Bool := x.typ == 1 && fld (x.p 1) 0 32 == 0

/-- READY slips of an ACTIVE carrel that start at once: COPY, ENQUEUE, FENCE, and an ACCESSION of no volume (R177, R180, R392). -/
def State.canStart (s : State) (x : Slip) : Bool :=
  x.st == .ready && (x.typ == 3 || x.typ == 4 || x.typ == 5 || x.noVolume) && s.carrelState x.carrel == 2

/-- A COPY, an ENQUEUE or an ACCESSION of no volume starts; with LENGTH or COUNT 0 it retires at once (R156, R237), as a FENCE does, which
runs nothing (R177). -/
def State.startSlip (s : State) (id : Nat) (x : Slip) : State :=
  if x.typ = 4 then s.retire id 0x0000 else
  let s := s.setSlip id { x with st := .running }
  if x.typ = 1 then (if bitAt (x.p 2) 0 then s.withdrawVolume id x else s.retire id 0x1001)
  else if x.typ = 3 then (if fld (x.p 2) 0 48 = 0 then s.retire id 0x1001 else s)
  else if fld (x.p 1) 0 16 = 0 then s.retire id 0x1001
  else
    match s.ringOf x.carrel false (fld (x.p 1) 16 5) with
    | none => s.retire id 0x3005
    | some k =>
      { s with cir := { s.cir with
          waits := s.cir.waits ++ [⟨x.carrel, k, fld (x.p 1) 0 16, fld (x.p 0) 0 48, .slip id⟩] } }

/-- Shelves of carrel c's room that are not withdrawn (R226). -/
def State.roomInUse (s : State) (c : Nat) : List Nat := (s.room c).filter (fun sh => !s.withdrawn sh)

/-- Period in µs for an accession: an armed change included (Table 8-6). -/
def State.periodArmed (s : State) : Nat :=
  match s.stp.armed with
  | some (_, p) => if p = 0 then s.period else p
  | none => s.period

/-- The READY accession that goes next to a Bindery slot: the earliest readiness (R239). -/
def State.nextAccession (s : State) : Option (Nat × Slip) :=
  (s.cat.slips.filter (fun p => p.2.typ == 1 && p.2.st == .ready && s.carrelState p.2.carrel == 2)).foldl (fun best p =>
    match best with
    | none => some p
    | some q => if p.2.readyAt < q.2.readyAt then some p else some q) none

/-- The Catalogue hands an accession to the lower free Bindery slot: S, the loan limit and the period are taken now (R226, R239). -/
def State.startAccession (s : State) (slot : Bool) (id : Nat) (x : Slip) : State :=
  let vid := fld (x.p 1) 32 16
  let room := s.roomInUse x.carrel
  let job : BindJob :=
    { slip := id, carrel := x.carrel, volId := vid, s := room.length, limit := s.kpr.limit, periodCc := s.periodArmed * 640
      placed := none, shelves := room }
  let s := s.setSlip id { x with st := .running }
  let key := volKey x.carrel vid
  let vols := match Tab.find? s.bind.vols key with
    | some v => Tab.insert s.bind.vols key { v with usable := false }
    | none => s.bind.vols
  let b := if slot then { s.bind with slot1 := some job } else { s.bind with slot0 := some job }
  { s with bind := { b with vols := vols } }.bell (1108 + b2n slot)

/-- A free Bindery slot takes an accession (R239). -/
def State.fillBindery (s : State) : Option State :=
  if s.bind.slot0.isSome && s.bind.slot1.isSome then none
  else s.nextAccession.map (fun p => s.startAccession s.bind.slot0.isSome p.1 p.2)

/-- One move of the Catalogue, if any is due. -/
def State.settleOne (s : State) : Option State :=
  match s.cat.slips.first? (fun p => s.canLeaveEntered p.2) with
  | some (id, x) => some (s.leaveEntered id x)
  | none =>
    match s.cat.slips.first? (fun p => s.canStart p.2) with
    | some (id, x) => some (s.startSlip id x)
    | none => s.fillBindery

/-- Moves of the Catalogue until none is due (R178). -/
def State.settleN : Nat → State → State
  | 0, s => s
  | n + 1, s =>
    match s.settleOne with
    | some s' => State.settleN n s'
    | none => s

/-- The Catalogue settles: every record moves at most three times. -/
def State.settle (s : State) : State := if s.running then State.settleN (3 * s.cat.slips.length) s else s

/-- A unit's slip ends with a status, and the Catalogue settles. -/
def State.finish (s : State) (id : Nat) (st : Code) : State := (s.retire id st).settle

end Sys2Proof.Machine
end

