-- ==== Sys2Proof/Machine/Adders.lean ====
section
/-! DEFINITION. Operations at the memory-side adders (R294, R295, R346, R347, R374): the stack adder of a near-tier byte, the far adder of
one at home. -/

namespace Sys2Proof.Machine

/-- One element of an ADD at place p: applied unless its granule fails (R467). -/
def State.addElement (s : State) (typ p : Nat) (src : List Byte) : State :=
  if (s.byteStatus p).isSome then s
  else { s with mem := Memory.writeLe s.mem p src.length (adderSum typ (Memory.readLe s.mem p src.length) (leVal src)) }

/-- A byte list cut into elements of n bytes. -/
def elements (n : Nat) (bs : List Byte) : List (List Byte) := (List.range (bs.length / n)).map (fun i => (bs.drop (n * i)).take n)

/-- An admitted ADD of elements of one type at address a for carrel c. -/
def State.addMem (s : State) (c a typ : Nat) (bs : List Byte) (tag : Nat := 0) : State × MemStatus :=
  let n := addSize typ
  let s := s.watch c 2 a bs.length
  let ps := s.places c a bs.length
  let s := s.eccRead ps
  let bad := failures s.byteStatus none ps
  let es := elements n bs
  let s := ((List.range es.length).zip es).foldl (fun s q => s.addElement typ (s.place c (a + n * q.1)) q.2) s
  let s := (s.touchLeaves c a bs.length true)
  (s.logAll c tag bad, bad.head?.map (·.2))

/-- Some leaf that [a, a + n) of carrel c names has started to move: adds on it wait until its move ends (R342). -/
def State.addWaits (s : State) (c a n : Nat) : Bool :=
  decide (farBase ≤ a) && (unitStarts a n).any (fun u => (s.homeFor c u).any (fun h =>
    s.kpr.moves.any (fun m => m.started && callKey m.carrel m.call == callKey h.carrel h.call && m.leaf == (u - h.addr) / 0x200000)))

/-- An adder operation for carrel c on [a, a + n) is admitted, and its answer waits for a move. -/
def State.addHeld (s : State) (c a n : Nat) : Bool := s.memAdmitted c a n && s.addWaits c a n

/-- An answer is held until the move ends. The operation itself is made as it arrives, before any later access to its granule: the order
that R342 gives the granule's accesses. -/
def State.holdAdd (s : State) (x : HeldAdd) : State := { s with kpr := { s.kpr with adds := s.kpr.adds ++ [x] } }

/-- An ADD judged whole by R335. -/
def State.addFor (s : State) (c a typ : Nat) (bs : List Byte) (tag : Nat := 0) : State × MemStatus :=
  if s.memAdmitted c a bs.length then s.addMem c a typ bs tag else (s.memRefused c a tag, some 0x2000)

/-- An ADD that may meet an error of the DRAM or of a far device. -/
def State.addMay (s : State) (c a typ : Nat) (bs : List Byte) (fail : Option Code) (tag : Nat := 0) : State × MemStatus :=
  s.withError (s.deviceHit c a bs.length fail) (fun s => s.addFor c a typ bs tag)

/-- What an operation commanded at an adder answered. -/
def State.adderAnswer (s : State) (status : MemStatus) (old : Word) : State :=
  { s with kpr := { s.kpr with adderStatus := status.getD 0, adderOld := old } }

/-- The answer goes out, or is held while a leaf it names moves (R342). -/
def State.adderDone (s : State) (hold : Bool) (c a n : Nat) (writes : Bool) (status : MemStatus) (old : Word) : State :=
  if hold then s.holdAdd ⟨c, a, n, writes, .adder, status, old⟩ else s.adderAnswer status old

end Sys2Proof.Machine
end

