-- ==== Sys2Proof/Machine/Folio.lean ====
section
/-! DEFINITION. Folios: fields (Tables 9-3 to 9-7), the opcode table (Table 9-9), walks and static bounds (R251 to R255), and the checks
made at fetch (Table 9-10, checks 1 to 5). -/

namespace Sys2Proof.Machine

/-- A folio in its slot. -/
structure Folio where
  slot : Nat
  ws   : List Word
  deriving DecidableEq, Repr

/-- A field of a folio word. -/
def Folio.f (x : Folio) (w lo width : Nat) : Nat := fld (wordAt x.ws w) lo width

/-- Operand letters: D, A, B. -/
inductive Opnd where
  | d
  | a
  | b
  deriving DecidableEq, Repr

/-- Position of an operand among D, A, B. -/
def Opnd.ix : Opnd → Nat
  | .d => 0
  | .a => 1
  | .b => 2

/-- W0 (Table 9-3). -/
def Folio.opcode (x : Folio) : Nat := x.f 0 0 8 * 256 + x.f 0 8 8
def Folio.issuer (x : Folio) : Nat := x.f 0 17 2
def Folio.pre (x : Folio) : Bool := x.f 0 19 1 == 1
def Folio.fmt (x : Folio) (o : Opnd) : Nat := x.f 0 (32 + 8 * o.ix) 8
def Folio.stoch (x : Folio) : Bool := x.f 0 56 1 == 1

/-- END, which a non-zero reserved bit of W0 voids (R243), and AGAIN. -/
def Folio.end_ (x : Folio) : Bool := x.f 0 16 1 == 1 && x.f 0 57 7 == 0
def Folio.again (x : Folio) : Nat := if x.end_ then x.f 0 20 12 else 0

/-- W1 and W2. -/
def Folio.ext (x : Folio) (i : Nat) : Nat := x.f 1 (16 * i) 16
def Folio.stride (x : Folio) (o : Opnd) : Nat := x.f 2 (16 * o.ix) 16
def Folio.param (x : Folio) : Nat := x.f 2 48 16

/-- W3 and W4. -/
def Folio.coreStep (x : Folio) (o : Opnd) : Nat := x.f 3 (16 * o.ix) 16
def Folio.sel (x : Folio) (o : Opnd) : Nat := x.f 3 (48 + 2 * o.ix) 2
def Folio.split (x : Folio) : Nat := x.f 3 60 4
def Folio.addr (x : Folio) (o : Opnd) : Nat := x.f 4 (21 * o.ix) 19
def Folio.space (x : Folio) (o : Opnd) : Nat := x.f 4 (21 * o.ix + 19) 2

/-- W5 (Table 9-5). -/
def Folio.waitTally (x : Folio) : Nat := x.f 5 0 5
def Folio.waitEn (x : Folio) : Bool := x.f 5 5 1 == 1
def Folio.consume (x : Folio) : Bool := x.f 5 6 1 == 1
def Folio.waitValue (x : Folio) : Nat := x.f 5 8 16
def Folio.predOp (x : Folio) : Nat := x.f 5 24 3
def Folio.predWord (x : Folio) : Bool := x.f 5 27 1 == 1
def Folio.predValue (x : Folio) : Nat := x.f 5 32 16
def Folio.predLoc (x : Folio) : Nat := x.f 5 48 16

/-- W6 (Table 9-6). -/
def Folio.localTally (x : Folio) : Nat := x.f 6 0 5
def Folio.localInc (x : Folio) : Nat := x.f 6 8 8
def Folio.sigTally (x : Folio) : Nat := x.f 6 16 5
def Folio.sigScope (x : Folio) : Nat := x.f 6 21 3
def Folio.sigCore (x : Folio) : Nat := x.f 6 24 8
def Folio.sigMember (x : Folio) : Nat := x.f 6 32 12
def Folio.sigInc (x : Folio) : Nat := x.f 6 48 8
def Folio.onSkip (x : Folio) : Bool := x.f 6 56 1 == 1
def Folio.posted (x : Folio) : Bool := x.f 6 57 1 == 1

/-- W7. -/
def Folio.anchor (x : Folio) : Int := sext 16 (x.f 7 0 16)
def Folio.clear (x : Folio) : Bool := x.f 7 16 1 == 1
def Folio.xkind (x : Folio) : Nat := x.f 7 0 2
def Folio.recipe (x : Folio) : Nat := x.f 7 2 12
def Folio.arg (x : Folio) : Nat := x.f 7 2 8
def Folio.member (x : Folio) : Nat := x.f 7 2 12
def Folio.xoffset (x : Folio) : Nat := x.f 7 2 48

/-! ## The opcode table (Table 9-9) -/

/-- One row of Table 9-9: engine (none any), extents used, spaces each operand may have (none unused), whose stride and format fields are
used, whether ROUND is, and the bits of W7 and of PARAM the opcode uses itself. -/
structure OpSpec where
  eng     : Option Nat
  exts    : Nat
  spaces  : Opnd → List Nat
  strided : List Opnd
  fmts    : List Opnd
  round   : Bool
  w7      : Word
  par     : Nat

/-- Spaces of D, A, B. -/
def spacesOf (d a b : List Nat) : Opnd → List Nat
  | .d => d
  | .a => a
  | .b => b

/-- The row of an opcode. Operand spaces that Table 9-9 leaves unsaid are loan and staging (DEDUCED, notes/assumptions/31.md). -/
def opSpec (op : Nat) : Option OpSpec :=
  if op = 0x0000 then some ⟨none, 0, spacesOf [] [] [], [], [], false, 0, 0⟩
  else if op = 0x0100 ∨ op = 0x0101 then some ⟨some 0, 3, spacesOf [2] [0, 1] [0, 1], [.a, .b], [.a, .b], false, 0x1FFFF, 0⟩
  else if op = 0x0102 then some ⟨some 0, 1, spacesOf [2] [] [], [], [], false, 0xFFFF, 0⟩
  else if op = 0x0103 then some ⟨some 0, 1, spacesOf [0, 1] [2] [], [], [.d], true, 0xFFFFFFFF, 0⟩
  else if op = 0x0104 then some ⟨some 0, 1, spacesOf [0] [2] [], [], [], false, 0, 0⟩
  else if op = 0x0105 then some ⟨some 0, 1, spacesOf [2] [0] [], [], [], false, 0xFFFF, 0⟩
  else if 0x0200 ≤ op ∧ op ≤ 0x0205 then
    some ⟨some 1, 4, spacesOf [0, 1] [0, 1] [0, 1], [.d, .a, .b], [.d, .a, .b], true, 0, 0xFFFF⟩
  else if op = 0x0206 then some ⟨some 1, 4, spacesOf [0, 1] [0, 1, 2] [], [.d, .a], [.d, .a], true, 0, 0xFFFF⟩
  else if op = 0x0207 then some ⟨some 1, 4, spacesOf [0, 1] [0, 1] [], [.d, .a], [.d, .a], true, 0xFFFFFFFF, 0xFFFF⟩
  else if 0x0208 ≤ op ∧ op ≤ 0x020A then some ⟨some 1, 4, spacesOf [0, 1] [0, 1] [], [.d, .a], [.d, .a], true, 0, 0xFFFF⟩
  else if 0x0300 ≤ op ∧ op ≤ 0x0303 then some ⟨some 1, 2, spacesOf [0, 1] [0, 1] [], [.d, .a], [.d, .a], true, 0, 0xFFFF⟩
  else if op = 0x0400 then some ⟨some 2, 4, spacesOf [0, 1, 2, 3] [0, 1, 2, 3] [], [.d, .a], [], false, 0, 0⟩
  else if op = 0x0401 then some ⟨some 2, 4, spacesOf [3] [0, 1, 2] [], [.d, .a], [.a], false, 0, 0⟩
  else if op = 0x0402 then some ⟨some 2, 4, spacesOf [0, 1] [] [], [.d], [], false, 0xFFFFFFFFFFFFFFFF, 0⟩
  else if op = 0x0500 then some ⟨some 2, 2, spacesOf [0, 1] [0, 1, 3] [0], [.a], [], false, 0, 0⟩
  else if op = 0x0501 then some ⟨some 2, 2, spacesOf [0, 1, 3] [0, 1] [0], [.d], [], false, 0, 0⟩
  else if op = 0x0600 then some ⟨some 2, 0, spacesOf [] [] [], [], [], false, 0x00FF01FFFFFFFFFF, 0⟩
  else if op = 0x0601 then some ⟨none, 0, spacesOf [] [] [], [], [], false, 0, 0⟩
  else if op = 0x0700 then some ⟨none, 1, spacesOf [] [] [], [], [], false, 0, 0⟩
  else if op = 0x0800 then some ⟨some 2, 1, spacesOf [] [3] [], [], [], false, 0, 0x1F⟩
  else if op = 0x0801 then some ⟨some 2, 1, spacesOf [] [0] [], [], [], false, 0, 0x1F⟩
  else none

/-- The three operand letters. -/
def allOpnds : List Opnd := [.d, .a, .b]

/-- Operands an opcode names. -/
def OpSpec.opnds (p : OpSpec) : List Opnd := allOpnds.filter (fun o => !(p.spaces o).isEmpty)

/-- A used extent is zero: a counted no-op (R255). -/
def Folio.noop (x : Folio) (p : OpSpec) : Bool := (List.range p.exts).any (fun i => x.ext i == 0)

/-- A long folio (R253). -/
def Folio.long (x : Folio) : Bool :=
  let op := x.opcode
  op == 0x0500 || op == 0x0501
    || (((decide (0x0200 ≤ op) && decide (op ≤ 0x020A)) || (decide (0x0400 ≤ op) && decide (op ≤ 0x0402)))
      && (decide (1 < x.ext 2) || decide (1 < x.ext 3)))

/-- The external operand, if the folio has one. -/
def Folio.extOpnd (x : Folio) (p : OpSpec) : Option Opnd := p.opnds.find? (fun o => x.space o == 3)

/-- The folio takes an address stream of the clerk: it is long, or names a recipe (R257, R261). -/
def Folio.usesClerk (x : Folio) : Bool :=
  x.long || (x.xkind == 0 && (opSpec x.opcode).any (fun p => (x.extOpnd p).isSome))

/-! ## Walks (R252, R253) -/

/-- Rows, stride and bytes of a row of an operand's walk; none for the side that an index list drives. -/
def Folio.walk (x : Folio) (o : Opnd) : Option (Nat × Nat × Nat) :=
  let op := x.opcode
  let e0 := x.ext 0
  let e1 := x.ext 1
  let st := x.stride o
  if op = 0x0100 ∨ op = 0x0101 then
    match o with
    | .d => some (1, 0, 16 * e1 * x.ext 2)
    | .a => some (e1, st, fmtBytes (x.fmt .a) e0)
    | .b => some (x.ext 2, st, if op = 0x0101 then e0 / 32 * (if fmtBlock (x.fmt .b) = 0 then 12 else 13) else fmtBytes (x.fmt .b) e0)
  else if op = 0x0103 ∧ o = .d then some (1, 0, fmtBytes (x.fmt .d) e0)
  else if 0x0102 ≤ op ∧ op ≤ 0x0105 then some (1, 0, 16 * e0)
  else if 0x0200 ≤ op ∧ op ≤ 0x020A then some (e1 * x.ext 2 * x.ext 3, st, fmtBytes (x.fmt o) e0)
  else if 0x0300 ≤ op ∧ op ≤ 0x0303 then some (e1, st, fmtBytes (x.fmt o) (if o = .a then e0 else 1))
  else if 0x0400 ≤ op ∧ op ≤ 0x0402 then some (e1 * x.ext 2 * x.ext 3, st, e0)
  else if op = 0x0500 ∨ op = 0x0501 then
    (if o = .b then some (1, 0, 4 * e1)
     else if (o = .d) = (op = 0x0500) then some (1, 0, e0 * e1)
     else none)
  else some (1, 0, 128 * e0)

/-- Core coordinate of an operand on core j (R252). -/
def Folio.coord (x : Folio) (o : Opnd) (j : Nat) : Nat :=
  let s := x.split
  let k := x.sel o
  if k = 0 then 0 else if k = 1 then j else if k = 2 then j / 2 ^ s else j % 2 ^ s

/-- Core offset of an operand (R252). -/
def Folio.coreOff (x : Folio) (o : Opnd) (j : Nat) : Nat := x.coreStep o * x.coord o j

/-- Start of an operand on core j, in bytes of its space; an accumulator is 16 bytes (R251, R252). -/
def Folio.start (x : Folio) (o : Opnd) (j : Nat) : Nat :=
  x.addr o * (if x.space o = 2 then 16 else 1) + x.coreOff o j

/-- Lowest byte and the byte past the highest of an operand's walk; none where it touches nothing. -/
def Folio.span (x : Folio) (o : Opnd) (j : Nat) : Option (Nat × Nat) :=
  match x.walk o with
  | none => none
  | some (n, st, rb) =>
    if n = 0 ∨ rb = 0 then none else some (x.start o j, x.start o j + (n - 1) * st + rb)

/-- Starts of the rows of an operand's walk. -/
def Folio.rows (x : Folio) (o : Opnd) (j : Nat) : List Nat :=
  match x.walk o with
  | none => []
  | some (n, st, _) => (List.range n).map (fun r => x.start o j + r * st)

/-! ## Cells of products (Table 10-4) -/

/-- Code groups of Table 10-4 whose members pair in any combination at 4 cells per product. -/
def pairGroups : List (List Nat) :=
  [[0x02], [0x18, 0x19], [0x21, 0x22, 0x23, 0x24], [0x25], [0x32], [0x33], [0x11]]

/-- Cells per product of an operand pair; 0 where MMA does not accept it (R285). -/
def cellsOf (a b : Nat) : Nat :=
  if a = b ∧ [0x01, 0x20, 0x30, 0x31].contains a then 1
  else if (a = 1 ∧ b = 2) ∨ (a = 2 ∧ b = 1) then 2
  else if a = 0x10 ∧ b = 0x10 then 9
  else if pairGroups.any (fun g => g.contains a && g.contains b) then 4
  else 0

/-! ## Checks made at fetch (Table 9-10) -/

/-- Bits of W6 that are named (Table 9-6). -/
def w6Mask : Word := 0x03FF0FFFFFFFFF1F

/-- W6 is well formed (R271): reserved bits zero, SIG_SCOPE named, SIG_INC non-zero with a scope. -/
def Folio.w6Ok (x : Folio) : Bool :=
  (wordAt x.ws 6 &&& ~~~ w6Mask == 0) && decide (x.sigScope ≤ 4) && (x.sigScope == 0 || x.sigInc != 0)

/-- Named bits of W7 for an external reference (Table 9-7). -/
def xrefMask (k : Nat) : Word := if k = 1 then 0x3FF else if k = 2 then 0x3FFFFFFFFFFFF else 0x3FFF

/-- Every format the folio names is an integer format. -/
def Folio.allInt (x : Folio) (p : OpSpec) : Bool := p.fmts.all (fun o => fmtIsInt (x.fmt o))

/-- Named bits of W0 to W7 for an opcode. -/
def Folio.masks (x : Folio) (p : OpSpec) : List Word :=
  let m0 : Word := p.fmts.foldl (fun m o => m ||| fieldMask (32 + 8 * o.ix) 8) (0xFFFFFFFF ||| (if p.round then fieldMask 56 1 else 0))
  let m2 : Word := p.strided.foldl (fun m o => m ||| fieldMask (16 * o.ix) 16) (BitVec.ofNat 64 (p.par * 2 ^ 48))
  let m3 : Word := p.opnds.foldl (fun m o => m ||| fieldMask (16 * o.ix) 16 ||| fieldMask (48 + 2 * o.ix) 2)
    (if p.opnds.isEmpty then 0 else fieldMask 60 4)
  let m4 : Word := p.opnds.foldl (fun m o => m ||| fieldMask (21 * o.ix) 21) 0
  let m7 : Word := if (x.extOpnd p).isSome then xrefMask x.xkind else p.w7
  [m0, fieldMask 0 (16 * p.exts), m2, m3, m4, ~~~ (fieldMask 7 1 ||| fieldMask 28 4), w6Mask, m7]

/-- Check 2: a reserved bit or an unused field is not zero (R250, R267, R285, R302). -/
def Folio.reservedBad (x : Folio) (p : OpSpec) : Bool :=
  (x.ws.zip (x.masks p)).any (fun q => q.1 &&& ~~~ q.2 != 0)
    || !x.w6Ok
    || (x.f 0 16 1 == 0 && x.f 0 20 12 != 0)
    || (x.predOp != 0 && !x.predWord && decide (32 ≤ x.predLoc))
    || (x.opcode == 0x0600 && x.f 7 48 8 == 0)
    || (p.eng == some 1 && x.stoch && x.allInt p)

/-- Check 3: a format the opcode does not accept (R278, R285, R301). -/
def Folio.formatBad (x : Folio) (p : OpSpec) : Bool :=
  let op := x.opcode
  if p.fmts.any (fun o => (fmtOf (x.fmt o)).isNone) then true
  else if op = 0x0100 then cellsOf (x.fmt .a) (x.fmt .b) == 0
  else if op = 0x0101 then !(x.fmt .a == x.fmt .b && [0x01, 0x20, 0x31].contains (x.fmt .a))
  else if op = 0x0103 then !fmtUse (x.fmt .d) 'D'
  else if op = 0x0401 then !fmtUse (x.fmt .a) 'A'
  else if p.eng ≠ some 1 then false
  else if op = 0x0206 then !(fmtUse (x.fmt .a) 'C' && fmtUse (x.fmt .d) 'C' && x.fmt .d != 0x40)
  else
    p.fmts.any (fun o => !fmtUse (x.fmt o) 'V')
      || (!x.allInt p && p.fmts.any (fun o => fmtIsInt (x.fmt o)))

/-- Bytes of an ADD_AT element by format code (R346). -/
def addAtSize (code : Nat) : Nat := if code = 0x04 ∨ code = 0x12 then 4 else if code = 0x05 then 8 else if code = 0x11 then 2 else 16

/-- A block format's row is not whole blocks. -/
def blockRagged (code n : Nat) : Bool := fmtBlock code != 0 && n % fmtBlock code != 0

/-- Check 4 but for the recipe's volume and PRE's place (Tables 9-7, 9-9, R252, R259, R260, R287, R300); e is the engine. -/
def Folio.operandBad (x : Folio) (p : OpSpec) (e : Nat) : Bool :=
  let op := x.opcode
  x.issuer == 3 || x.predOp == 7 || decide (8 < x.split)
    || decide (1 < (p.opnds.filter (fun o => x.space o == 3)).length)
    || p.opnds.any (fun o => !(p.spaces o).contains (x.space o))
    || ((op == 0x0206 || op == 0x0401) && x.space .a == 2 && x.fmt .a != 0x40)
    || (x.pre && !(op == 0x0400 && e == 2 && x.space .a == 3 && x.space .d == 0 && x.issuer == 1))
    || ((x.extOpnd p).isSome && ((x.xkind == 1 && decide (247 < x.arg)) || (x.xkind == 0 && decide (x.recipe < 256))))
    || (!x.noop p && (
      ((op == 0x0100 || op == 0x0101) && (!([4, 8].contains (x.ext 1) && [4, 8].contains (x.ext 2)) || x.addr .d % 16 != 0
          || blockRagged (x.fmt .a) (x.ext 0) || blockRagged (x.fmt .b) (x.ext 0)))
      || (op == 0x0101 && x.ext 0 % 32 != 0)
      || ((p.eng == some 1 || op == 0x0103) && p.fmts.any (fun o => blockRagged (x.fmt o) (x.ext 0)))
      || (op == 0x0401 && x.ext 0 % addAtSize (x.fmt .a) != 0)
      || (op == 0x0402 && x.ext 0 % 8 != 0)
      || (op == 0x0801 && x.addr .a % 128 != 0)))

/-- Bytes of a space: the loan, 512 of staging, 64 accumulators of 16. -/
def spaceSize (loan sp : Nat) : Nat := if sp = 0 then loan else if sp = 1 then 512 else 1024

/-- The predicate word lies beyond the loan (R268). -/
def Folio.predBeyond (x : Folio) (loan : Nat) : Bool := x.predOp != 0 && x.predWord && decide (loan < 8 * x.predLoc + 8)

/-- Check 5: static bounds in loan, staging and accumulators for every core that runs the folio (R254, R268). A counted no-op touches no
operand, but its predicate is read (R255). -/
def Folio.boundsBad (x : Folio) (p : OpSpec) (loan : Nat) : Bool :=
  x.predBeyond loan
    || !x.noop p && p.opnds.any (fun o => x.space o != 3 && (if x.issuer = 0 then [0, 255] else [0]).any (fun j =>
      match x.span o j with
      | some (_, hi) => decide (spaceSize loan (x.space o) < hi)
      | none => false))

/-- The Ledger kind of the first fetch check that fails on engine e (0 M, 1 V, 2 S), by its index in Table 16-3: 0 opcode, 1 reserved,
2 format, 3 operand, 4 bounds. -/
def Folio.fetchCheck (x : Folio) (e loan : Nat) : Option Nat :=
  match opSpec x.opcode with
  | none => some 0
  | some p =>
    if p.eng.any (fun k => k != e) then some 0
    else if x.reservedBad p then some 1
    else if x.formatBad p then some 2
    else if x.operandBad p e then some 3
    else if x.boundsBad p loan then some 4
    else none

end Sys2Proof.Machine
end

