-- ==== Sys2Proof/Machine/Packets.lean ====
section
/-! DEFINITION. The Interloan packet header as words, and its CRC (R360, Table 13-2). -/

namespace Sys2Proof.Machine

/-- W0 to W3 of a packet with a CRC field given. -/
def Packet.header (p : Packet) (crc : Nat) : List Word :=
  [BitVec.ofNat 64 (p.cls.toNat + p.channel.toNat * 2 ^ 4 + b2n p.holdover * 2 ^ 6 + p.res0.toNat % 2 * 2 ^ 7 + p.len.toNat * 2 ^ 8
     + p.typ.toNat * 2 ^ 17 + p.res0.toNat / 2 * 2 ^ 20 + p.epoch.toNat * 2 ^ 32 + p.src.toNat * 2 ^ 48),
   BitVec.ofNat 64 (p.dst.toNat + p.carrel.toNat * 2 ^ 16 + p.res1.toNat * 2 ^ 26 + p.seq.toNat * 2 ^ 32 + p.reqId.toNat * 2 ^ 48),
   p.target, BitVec.ofNat 64 (crc + p.res3.toNat * 2 ^ 32)]

/-- CRC-32C over the header with its CRC field zero, then the payload. -/
def Packet.crcOf (p : Packet) : BitVec 32 := BitVec.ofNat 32 (crc32c (bytesOfWords (Packet.header p 0) ++ p.payload))

/-- The CRC of a packet holds. -/
def Packet.crcRight (p : Packet) : Bool := p.crc == Packet.crcOf p

/-- A packet with its CRC filled. -/
def Packet.sealed (p : Packet) : Packet := { p with crc := Packet.crcOf p }

/-- The reserved bits of a packet are zero. -/
def Packet.resZero (p : Packet) : Bool := p.res0 == 0 && p.res1 == 0 && p.res3 == 0

end Sys2Proof.Machine
end

