-- ==== Sys2Proof/Machine/IlnSend.lean ====
section
/-! DEFINITION. The sending side of the Interloan endpoint: routes, peers, channels, requests (R357, R360 to R368, R379, Tables 13-2
and 13-3). -/

namespace Sys2Proof.Machine

/-- This chip's number and the epoch in effect. -/
def State.chip (s : State) : Nat := s.field R.ILN_CHIP 0 16
def State.epoch (s : State) : Nat := s.field R.ILN_EPOCH 0 16

/-- The lowest enabled route entry for a chip number (R379). -/
def State.routeFor (s : State) (n : Nat) : Option Nat :=
  (List.range 16).find? (fun i =>
    s.regBit (R.ILN_ROUTE i) 37 && decide (s.field (R.ILN_ROUTE i) 0 16 ≤ n) && decide (n ≤ s.field (R.ILN_ROUTE i) 16 16))

/-- Port a route entry uses now. -/
def State.routePort (s : State) (i : Nat) : Nat :=
  if s.regBit (R.ILN_ROUTE i) 38 then s.field (R.ILN_ROUTE i) 34 2 else s.field (R.ILN_ROUTE i) 32 2

/-- A port in streaming mode with its link up. -/
def State.portStreams (s : State) (p : Nat) : Bool := s.field (R.ILN_PORT_STATE p) 0 2 == 1 && s.portUp p

/-- The endpoint's part changed. -/
def State.modIln (s : State) (f : Iln → Iln) : State := { s with iln := f s.iln }

/-- What the endpoint keeps of a peer. -/
def State.peer (s : State) (n : Nat) : Option Peer := Tab.find? s.iln.peers n

/-- A peer's state written. -/
def State.setPeer (s : State) (n : Nat) (x : Peer) : State := s.modIln (fun i => { i with peers := Tab.insert i.peers n x })

/-- A channel of a peer. -/
def Peer.chan (x : Peer) (ch : Nat) : Chan := x.chans.getD ch Chan.fresh

/-- A channel of a peer written. -/
def Peer.setChan (x : Peer) (ch : Nat) (c : Chan) : Peer := { x with chans := x.chans.set ch c }

/-- A packet leaves through a port; a sequenced one meets an armed CRC injector of the port, which inverts its whole CRC (Table 16-5). Nothing
leaves a port that is down. -/
def State.leave (s : State) (port : Nat) (p : Packet) : State :=
  if !s.portStreams port then s
  else
    let sequenced := decide (p.cls.toNat ≤ 5)
    match if sequenced then s.injector 3 port else none with
    | some i => (s.injectorFired i 0).modIln (fun x => { x with sent := x.sent ++ [⟨BitVec.ofNat 2 port, { p with crc := ~~~ p.crc }⟩] })
    | none => s.modIln (fun x => { x with sent := x.sent ++ [⟨BitVec.ofNat 2 port, p⟩] })

/-- A packet to a peer leaves through the port its route gives. -/
def State.transmit (s : State) (peer : Nat) (p : Packet) : State :=
  match s.routeFor peer with
  | none => s
  | some i => s.leave (s.routePort i) p

/-- A packet of this chip with every field but SEQ and CRC, and EPOCH and HOLDOVER as they stand, which sending fills (R360). -/
def State.packet (s : State) (cls ch peer carrel len typ reqId : Nat) (target : Word) (payload : List Byte) : Packet :=
  { cls := BitVec.ofNat 4 cls, channel := BitVec.ofNat 2 ch, holdover := s.holdover, len := BitVec.ofNat 9 len
    typ := BitVec.ofNat 3 typ, epoch := BitVec.ofNat 16 s.epoch, src := BitVec.ofNat 16 s.chip, dst := BitVec.ofNat 16 peer
    carrel := BitVec.ofNat 10 carrel, seq := 0, reqId := BitVec.ofNat 16 reqId, target := target, payload := payload
    crc := 0, res0 := 0, res1 := 0, res3 := 0 }

/-- LINK packets (Table 13-3): 0 ACK, 1 RESEND, 2 SYNC, 3 SYNC_ACK; ACK_SEQ carries the sequence number named. -/
def State.link (s : State) (peer ch kind seq : Nat) : State :=
  s.transmit peer (Packet.sealed (s.packet 6 ch peer 0 0 0 0 (BitVec.ofNat 64 (kind + seq % 65536 * 65536)) []))

/-- A waiting packet of a channel is sent, where its direction is synced and the channel has room (R365, R368). -/
def State.pumpOne (s : State) (peer ch : Nat) : State :=
  match s.peer peer with
  | none => s
  | some x =>
    let c := x.chan ch
    match c.waiting with
    | [] => s
    | p :: rest =>
      if x.out ≠ 2 ∨ 1024 ≤ c.unacked.length then s
      else
        let p := Packet.sealed { p with seq := c.next, epoch := BitVec.ofNat 16 s.epoch, holdover := s.holdover }
        let c' : Chan := { c with next := c.next + 1, waiting := rest, unacked := c.unacked ++ [⟨p, s.stp.total, s.stp.total⟩] }
        let s := (s.setPeer peer (x.setChan ch c')).modIln (fun i => { i with
          committed := true
          reqs := if p.cls = 5 then i.reqs else i.reqs.map (fun q => if q.1 = p.reqId.toNat then (q.1, { q.2 with sent := some s.stp.total }) else q) })
        s.transmit peer p

/-- Waiting packets of a channel are sent while there is room. -/
def State.pumpN : Nat → State → Nat → Nat → State
  | 0, s, _, _ => s
  | n + 1, s, peer, ch => State.pumpN n (s.pumpOne peer ch) peer ch

/-- All that may leave a channel now leaves. -/
def State.pump (s : State) (peer ch : Nat) : State :=
  match s.peer peer with
  | none => s
  | some x => s.pumpN (x.chan ch).waiting.length peer ch

/-- A SYNC is sent (R368). -/
def State.sendSync (s : State) (peer : Nat) (x : Peer) : State := (s.setPeer peer { x with out := 1, syncAt := s.stp.total }).link peer 0 2 0

/-- A direction that is not synced starts to sync (R368). -/
def State.startSync (s : State) (peer : Nat) : State :=
  match s.peer peer with
  | none => s
  | some x => if x.out = 0 ∨ x.out = 3 then s.sendSync peer x else s

/-- A sequenced packet handed to the endpoint for a peer in the table. -/
def State.enqueuePacket (s : State) (peer ch : Nat) (p : Packet) : State :=
  match s.peer peer with
  | none => s
  | some x =>
    let c := x.chan ch
    (((s.setPeer peer { x.setChan ch { c with waiting := c.waiting ++ [p] } with seen := s.stp.total }).startSync peer)).pump peer ch

/-- A further peer finds no room, or no entry routes it: the request completes at once with LINK_LOST (R369, R379). g is the global
address of the request. -/
def State.reachPeer (s : State) (peer carrel tag : Nat) (g : Nat) : State × Bool :=
  match s.routeFor peer with
  | none => ((s.log 7 K.noRoute carrel g tag peer).event R.ILN_EVENT 0x20, false)
  | some _ =>
    if (s.peer peer).isSome then (s, true)
    else if 1024 ≤ s.iln.peers.length then ((s.log 7 K.peerTableFull carrel g tag).event R.ILN_EVENT 0x100, false)
    else (s.setPeer peer (Peer.fresh s.stp.total), true)

/-- Lowest request identifier not outstanding, from the next on. -/
def State.freeReqN (s : State) : Nat → Nat → Nat
  | 0, k => k
  | n + 1, k => if Tab.mem s.iln.reqs (k % 65536) then s.freeReqN n (k + 1) else k % 65536

/-- Another request may be outstanding (at most 4,096, R385). -/
def State.reqRoom (s : State) (n : Nat) : Bool := decide (s.iln.reqs.length + n ≤ 4096)

/-- A request of one packet to a reached peer: its identifier. -/
def State.ilnRequest (s : State) (peer ch cls carrel len typ : Nat) (target : Nat) (payload : List Byte) (who : ReqFor) : State × Nat :=
  let id := s.freeReqN 4097 s.iln.nextReq.toNat
  let s := s.modIln (fun i => { i with nextReq := BitVec.ofNat 16 (id + 1), reqs := Tab.insert i.reqs id ⟨peer, who, cls == 3, carrel, false, s.stp.total, none⟩ })
  (s.enqueuePacket peer ch (s.packet cls ch peer carrel len typ id (BitVec.ofNat 64 target) payload), id)

/-- Byte ranges of at most 256 bytes that [a, a + n) is sent in: offset and length. -/
def pieces (n : Nat) : List (Nat × Nat) := (List.range (ceilDiv n 256)).map (fun i => (256 * i, min 256 (n - 256 * i)))

end Sys2Proof.Machine
end

