-- ==== Sys2Proof/Machine/Windows.lean ====
section
/-! DEFINITION. The journal (R450 to R452), the window a running pass holds open (R317 to R320), and tally signals that reach a shelf
(R265). -/

namespace Sys2Proof.Machine

/-! ## Journal -/

/-- A record of 16 bytes goes into the journal region (R451, R452): each shelf's buffer drains at once (notes/assumptions/33.md). -/
def State.jnlWrite (s : State) (w1 : Nat) : State :=
  let next := s.field R.OBS_JNL_STATUS 0 32
  let size := 65536 * s.field R.OBS_JNL_CTL 2 13
  if s.regBit R.OBS_JNL_STATUS 32 then s
  else
    let a := 4096 * s.field R.OBS_JNL_BASE 12 36 + 16 * next
    let s := { s with mem := Memory.writeN s.mem a (leBytes 8 s.now.toNat ++ leBytes 8 w1) }
    if next + 1 < size then s.setField R.OBS_JNL_STATUS 0 32 (next + 1)
    else if s.regBit R.OBS_JNL_CTL 1 then s.setField R.OBS_JNL_STATUS 0 32 0
    else (((s.setField R.OBS_JNL_STATUS 0 32 (next + 1)).setRegBit R.OBS_JNL_STATUS 32 true).event R.OBS_EVENT 4).log 12 K.journalFull

/-- Shelf and carrel are journalled (R450, Table 18-7). -/
def State.jnlShelf (s : State) (sh c : Nat) : Bool :=
  s.regBit R.OBS_JNL_CTL 0
    && (s.field R.OBS_JNL_FILTER 0 10 == 0 || s.field R.OBS_JNL_FILTER 0 10 == c)
    && decide (s.field R.OBS_JNL_FILTER 10 12 ≤ sh) && decide (sh ≤ s.field R.OBS_JNL_FILTER 22 12)

/-- A folio's record: KIND 0 begin, 1 end with its OUTCOME. -/
def State.jnlFolio (s : State) (kind sh c core eng slot lap outcome : Nat) : State :=
  if s.jnlShelf sh c && s.regBit R.OBS_JNL_CTL (15 + eng)
      && (s.regBit R.OBS_JNL_FILTER 42 || s.field R.OBS_JNL_FILTER 34 8 == core) then
    s.jnlWrite (kind + sh * 4 + b2n s.holdover * 2 ^ 14 + c * 2 ^ 15 + core * 2 ^ 25 + eng * 2 ^ 33 + slot * 2 ^ 35 + lap * 2 ^ 47
      + outcome * 2 ^ 59)
  else s

/-- A pass's record: KIND 2 start, 3 end. -/
def State.jnlPass (s : State) (kind sh c pass : Nat) : State :=
  if s.jnlShelf sh c && s.regBit R.OBS_JNL_CTL 18 then
    s.jnlWrite (kind + sh * 4 + b2n s.holdover * 2 ^ 14 + c * 2 ^ 15 + pass * 2 ^ 25)
  else s

/-! ## The running pass -/

/-- A running pass changed. -/
def State.modRun (s : State) (sh : Nat) (f : Running → Running) : State :=
  match (s.shelf sh).run with
  | some r => s.setShelf sh { s.shelf sh with run := some (f r) }
  | none => s

/-- A core of a running pass. -/
def Running.core (r : Running) (j : Nat) : CoreSt := Tab.getD r.cores j (CoreSt.fresh r.firsts.1 r.firsts.2.1 r.firsts.2.2)

/-- A core written. -/
def Running.setCore (r : Running) (j : Nat) (c : CoreSt) : Running := { r with cores := Tab.insert r.cores j c }

/-- A core of the pass on shelf sh changed. -/
def State.modCore (s : State) (sh j : Nat) (f : CoreSt → CoreSt) : State := s.modRun sh (fun r => r.setCore j (f (r.core j)))

/-- A tally. -/
def CoreSt.tallyAt (c : CoreSt) (t : Nat) : Nat := (Tab.getD c.tally t 0).toNat

/-- An increment applied modulo 2^16 (R263). -/
def CoreSt.bump (c : CoreSt) (t inc : Nat) : CoreSt :=
  { c with tally := Tab.put c.tally t (BitVec.ofNat 16 (c.tallyAt t + inc)) 0 }

/-- A tally increment reaches a lending shelf, which then returns to the full clock (R436). -/
def State.wake (s : State) (sh : Nat) : State :=
  if s.pwr.lending.contains sh && !Tab.mem s.pwr.wakes sh then { s with pwr := { s.pwr with wakes := Tab.insert s.pwr.wakes sh s.stp.total } }
  else s

/-- A signal's increment applied to one core or to every core of the pass that runs on sh. -/
def State.applySignal (s : State) (sh : Nat) (core : Option Nat) (t inc : Nat) : State :=
  let s := s.wake sh
  match core with
  | some j => s.modCore sh j (fun c => c.bump t inc)
  | none => (List.range 256).foldl (fun s j => s.modCore sh j (fun c => c.bump t inc)) s

/-! ## Tally signals (R265) -/

/-- A pass entry is the one a signal names. -/
def PassEntry.isPass (e : PassEntry) (carrel tag pass : Nat) : Bool := e.carrel == carrel && e.tag == tag && e.pass == pass

/-- The pass a signal names waits in the shelf's queue or frozen plan. -/
def Shelf.awaits (x : Shelf) (carrel tag pass : Nat) : Bool :=
  (x.queue ++ x.plan).any (fun e => e.isPass carrel tag pass)

/-- A signal is judged at its shelf: applied, held, or dropped with TALLY_STALE. -/
def State.judgeSignal (s : State) (sh : Nat) (g : TallySig) : State :=
  let x := s.shelf sh
  if x.run.any (fun r => r.e.isPass g.carrel.toNat g.tag.toNat g.pass.toNat) then
    s.applySignal sh (g.core.map (·.toNat)) g.tally.toNat g.inc.toNat
  else if x.awaits g.carrel.toNat g.tag.toNat g.pass.toNat then s.setShelf sh { x with early := x.early ++ [g] }
  else s.log (shelfSource sh) K.tallyStale g.carrel.toNat (shelfAdr sh 0) g.tag.toNat g.pass.toNat

/-- Posted traffic joins what is held back at a shelf. -/
def State.holdBack (s : State) (sh : Nat) (h : Held) : State := s.setShelf sh { s.shelf sh with posted := (s.shelf sh).posted ++ [h] }

/-- A signal reaches a shelf: while its early-signal buffer of 256 is full, or other traffic waits there, it waits its turn. -/
def State.deliverSignal (s : State) (sh : Nat) (g : TallySig) : State :=
  if 256 ≤ (s.shelf sh).early.length ∨ !(s.shelf sh).posted.isEmpty then s.holdBack sh (.signal g) else s.judgeSignal sh g

/-- TALLY_SIGNAL (R265). -/
def execTallySignal (sh : ShelfNo) (sig : TallySig) (s : State) : Out :=
  .next (if s.running then s.deliverSignal sh.toNat sig else s)

/-! ## Windows (R317 to R320) -/

/-- The window a pass opens at its start (R317): its loan's base and size, and the carrel's settings as they stand. -/
def State.windowOf (s : State) (c base size : Nat) : Option Window :=
  let w := s.reg (R.LND_WINDOW c)
  let lo := fld w 1 13 * 64
  let hi := min (lo + fld w 14 14 * 64) size
  if bitAt w 0 && decide (lo < hi) && c != 0 then
    some { lo := base + lo, hi := base + hi, loc := bitAt w 28, rem := bitAt w 29, src := s.reg (R.LND_WINDOW_SRC c) }
  else none

/-- The source of a window access is admitted (R319): on this chip for the pass's carrel, or a peer chip. -/
def Window.admits (w : Window) (owner carrel : Nat) (peer : Option Nat) : Bool :=
  match peer with
  | none => w.loc && carrel == owner
  | some n => w.rem && decide (fld w.src 0 16 ≤ n) && decide (n ≤ fld w.src 16 16)
      && (fld w.src 32 10 == 0 || fld w.src 32 10 == carrel)

/-- Cause for which a window access is refused (R319, R466), if it is: n bytes at x, or a signal. -/
def State.windowCause (s : State) (sh x n : Nat) (signal : Bool) (carrel : Nat) (peer : Option Nat) : Option Nat :=
  let h := s.shelf sh
  if h.owner = 0 || h.clearing then some 1
  else if peer.isNone && h.owner != carrel then some 2
  else match h.run with
    | none => some 3
    | some r =>
      match r.window with
      | none => some 3
      | some w =>
        if !signal && (n = 0 || decide (256 < n)) then some 6
        else if !signal && decide (w.hi - w.lo < x + n) then some 5
        else if !w.admits r.e.carrel carrel peer then some 4
        else none

/-- WINDOW_REFUSED (R320): counted, recorded with its cause, nothing written. -/
def State.windowRefused (s : State) (sh x carrel cause : Nat) (peer : Option Nat) : State :=
  ((s.countSat R.LND_REFUSALS 16 32 1).event R.LND_EVENT 4).log 6 K.windowRefused carrel
    (shelfAdr sh x) 0 (cause + peer.getD s.chip * 2 ^ 16)

/-- A write of at most 256 bytes at window offset x of shelf sh: its status (R319, R320). An admitted write meets watchpoints (R453) and
the store's check bits (R309). -/
def State.windowWrite (s : State) (sh x : Nat) (bs : List Byte) (carrel : Nat) (peer : Option Nat) : State × Option Code :=
  match s.windowCause sh x bs.length false carrel peer with
  | some cause => (s.windowRefused sh x carrel cause peer, some (if peer.isNone then 0x2000 else 0x5004))
  | none =>
    let lo := (((s.shelf sh).run.bind (·.window)).map (·.lo)).getD 0
    let s := s.watch carrel 1 (storeAddr sh x) bs.length
    match s.storeWrite sh (lo + x) bs with
    | (s, none) => (s, none)
    | (s, some w) => (s.log (shelfSource sh) K.storeError carrel (globalAdr w) 0 (3 * 2 ^ 20), some 0x6003)

/-- A signal to the pass that owns the open window of shelf sh (R267, R319). -/
def State.windowSignal (s : State) (sh core t inc carrel : Nat) (peer : Option Nat) : State × Option Code :=
  match s.windowCause sh 0 0 true carrel peer with
  | some cause => (s.windowRefused sh 0 carrel cause peer, some (if peer.isNone then 0x2000 else 0x5004))
  | none => (s.applySignal sh (some core) t inc, none)

/-- Shelf and window offset of a local address in the shelf-store windows (Table 13-1). -/
def windowAt (a : Nat) : Nat × Nat := ((a - storeBase) / 0x80000, (a - storeBase) % 0x80000)

/-- Bytes written to open windows of this chip in writes of at most 256 bytes; all are judged before any (R156, R319). -/
def State.windowRange (s : State) (a : Nat) (bs : List Byte) (carrel : Nat) (peer : Option Nat) : State × Option Code :=
  let rows := pieces bs.length
  match rows.find? (fun q => (s.windowCause (windowAt (a + q.1)).1 (windowAt (a + q.1)).2 q.2 false carrel peer).isSome) with
  | some q => s.windowWrite (windowAt (a + q.1)).1 (windowAt (a + q.1)).2 ((bs.drop q.1).take q.2) carrel peer
  | none =>
    rows.foldl (fun (r : State × Option Code) q =>
      match r.1.windowWrite (windowAt (a + q.1)).1 (windowAt (a + q.1)).2 ((bs.drop q.1).take q.2) carrel peer with
      | (s, st) => (s, r.2.or st)) (s, none)

/-! ## Posted traffic held back (R265) -/

/-- A shelf of the windows that [a, a + n) touches holds posted traffic back. -/
def State.heldBack (s : State) (a n : Nat) : Bool :=
  inWindows a 1 && [a, a + n - 1].any (fun b => !(s.shelf (windowAt b).1).posted.isEmpty)

/-- What a record of a received packet names as its address: the local address, for a signal its shelf. -/
def packetAdr (p : Packet) (cls : Nat) : Nat :=
  if cls = 2 then shelfAdr (fld p.target 0 12) 0 else if cls = 1 ∨ cls = 3 ∨ cls = 4 then globalAdr p.target.toNat else 0

/-- A RESPONSE to a request, on channel 3. -/
def State.respond (s : State) (p : Packet) (status : Code) (data : List Byte) : State :=
  let peer := p.src.toNat
  s.enqueuePacket peer 3
    (s.packet 5 3 peer p.carrel.toNat data.length 0 p.reqId.toNat (status.setWidth 64) data)

/-- A refusal at check 5. -/
def State.regionRefused (s : State) (p : Packet) (cls : Nat) : State × MemStatus × List Byte :=
  (s.log 7 K.ilnRefused p.carrel.toNat (packetAdr p cls), some 0x5004, [])

/-- A WRITE lands in an open window (R319). -/
def State.remoteWrite (s : State) (p : Packet) : State × MemStatus × List Byte :=
  if !inWindows p.target.toNat p.len.toNat then s.regionRefused p 1
  else
    match s.windowRange p.target.toNat p.payload p.carrel.toNat (some p.src.toNat) with
    | (s, st) => (s, st, [])

/-- A SIGNAL increments a tally of the pass that owns the open window (R267, R319). -/
def State.remoteSignal (s : State) (p : Packet) : State × MemStatus × List Byte :=
  match s.windowSignal (fld p.target 0 12) (fld p.target 12 8) (fld p.target 20 5) (fld p.target 32 8) p.carrel.toNat (some p.src.toNat) with
  | (s, st) => (s, st, [])

/-- An accepted request to a window or a tally is made and answered. -/
def State.windowServe (s : State) (p : Packet) (cls : Nat) : State :=
  match if cls = 1 then s.remoteWrite p else s.remoteSignal p with
  | (s, some code, _) => s.respond p code []
  | (s, none, data) => s.respond p 0 data

/-- Posted traffic reaches a shelf: behind what still waits there it waits too. -/
def State.deliverHeld (s : State) (sh : Nat) (h : Held) : State :=
  match h with
  | .signal g => s.deliverSignal sh g
  | .write a =>
    if (s.shelf sh).posted.isEmpty then (s.windowWrite a.shelf.toNat a.offset a.data a.carrel.toNat none).1 else s.holdBack sh h
  | .remote p cls => if (s.shelf sh).posted.isEmpty then s.windowServe p cls else s.holdBack sh h

/-- Early signals held for passes that `f` picks leave the buffer, and what waits behind it goes on in order. -/
def State.dropEarly (s : State) (sh : Nat) (f : TallySig → Bool) : State :=
  let x := s.shelf sh
  x.posted.foldl (fun s h => s.deliverHeld sh h) (s.setShelf sh { x with early := x.early.filter (fun g => !f g), posted := [] })

/-- WINDOW_WRITE (R319). -/
def execWindowWrite (a : WindowAccess) (s : State) : Out :=
  .next (if s.running then s.deliverHeld a.shelf.toNat (.write a) else s)

end Sys2Proof.Machine
end

