-- ==== Sys2Proof/Machine/Operands.lean ====
section
/-! DEFINITION. Operand forms of folios on a core: the four spaces (R251), the launch frame's contents (R244), external references and
recipes (R256, R257), bounds and permission of external operands (R254, R270), and the reads and writes of rows. -/

namespace Sys2Proof.Machine

/-- A pass on a shelf, running or being preloaded: its entry and its loan. -/
structure PassCtx where
  sh   : Nat
  e    : PassEntry
  base : Nat
  size : Nat
  deriving DecidableEq, Repr

/-- The loan in a launch frame. -/
def Shelf.loan (x : Shelf) (frame : Nat) : Option Loan := if frame = 0 then x.loan0 else x.loan1

/-- The context of a pass entry on shelf sh. -/
def State.ctxOf (s : State) (sh : Nat) (e : PassEntry) : PassCtx :=
  let l := (s.shelf sh).loan (e.frame.getD 0)
  ⟨sh, e, (l.map (·.base)).getD 0, (l.map (·.size)).getD 0⟩

/-- The context of the running pass. -/
def State.runCtx (s : State) (sh : Nat) : Option PassCtx := (s.shelf sh).run.map (fun r => s.ctxOf sh r.e)

/-- First slot of the context's launch frame (R244). -/
def PassCtx.frameSlot (c : PassCtx) : Nat := 128 * c.e.frame.getD 0

/-- Argument word i (Table 9-1), and SEED of the launch record (Table 9-2). -/
def State.argWord (s : State) (c : PassCtx) (i : Nat) : Nat := (Memory.readWord s.mem (folioAddr c.sh (64 * (c.frameSlot + 1) + 8 * i))).toNat
def State.seedOf (s : State) (c : PassCtx) : Nat := (Memory.readWord s.mem (folioAddr c.sh (64 * c.frameSlot + 40))).toNat

/-- Sliver index of a core (R192, R246). -/
def PassCtx.sliver (c : PassCtx) (j : Nat) : Nat := 256 * c.e.pass + j

/-! ## Local spaces (R251) -/

/-- The core's state. -/
def State.coreOf (s : State) (sh j : Nat) : CoreSt :=
  match (s.shelf sh).run with
  | some r => r.core j
  | none => CoreSt.fresh 0 0 0

/-- Accumulator i. -/
def CoreSt.accAt (c : CoreSt) (i : Nat) : Acc := Tab.getD c.acc i 0

/-- Accumulator i written. -/
def CoreSt.setAcc (c : CoreSt) (i : Nat) (a : Acc) : CoreSt := { c with acc := Tab.put c.acc i a 0 }

/-- n bytes of the accumulators, as 16-byte LA128 words, from byte a. -/
def CoreSt.accBytes (c : CoreSt) (a n : Nat) : List Byte :=
  (List.range n).map (fun i => BitVec.ofNat 8 ((c.accAt ((a + i) / 16)).toNat >>> (8 * ((a + i) % 16))))

/-- One byte of an accumulator written. -/
def CoreSt.setAccByte (c : CoreSt) (a : Nat) (b : Byte) : CoreSt :=
  let old := (c.accAt (a / 16)).toNat
  let k := 8 * (a % 16)
  c.setAcc (a / 16) (BitVec.ofNat 128 (old - (old >>> k) % 256 * 2 ^ k + b.toNat * 2 ^ k))

/-- Staging bytes written from a. -/
def CoreSt.setStage (c : CoreSt) (a : Nat) : List Byte → CoreSt
  | [] => c
  | b :: bs => CoreSt.setStage { c with stage := Tab.put c.stage a b 0 } (a + 1) bs

/-- Accumulator bytes written from a. -/
def CoreSt.setAccBytes (c : CoreSt) (a : Nat) : List Byte → CoreSt
  | [] => c
  | b :: bs => CoreSt.setAccBytes (c.setAccByte a b) (a + 1) bs

/-- n bytes of space sp from byte a on core j; a store word in error is answered by its address (R309). -/
def State.spRead (s : State) (c : PassCtx) (j sp a n : Nat) : State × List Byte × Option Nat :=
  if sp = 0 then s.storeRead c.sh (c.base + a) n
  else if sp = 1 then (s, (List.range n).map (fun i => Tab.getD (s.coreOf c.sh j).stage (a + i) 0), none)
  else (s, (s.coreOf c.sh j).accBytes a n, none)

/-- Bytes written to space sp from byte a on core j. -/
def State.spWrite (s : State) (c : PassCtx) (j sp a : Nat) (bs : List Byte) : State × Option Nat :=
  if sp = 0 then s.storeWrite c.sh (c.base + a) bs
  else if sp = 1 then (s.modCore c.sh j (fun x => x.setStage a bs), none)
  else (s.modCore c.sh j (fun x => x.setAccBytes a bs), none)

/-! ## Claims (R262) -/

/-- Bounds an operand claims; one that an index list drives has no static bounds and claims its space (notes/assumptions/31.md). -/
def Folio.claim (x : Folio) (loan : Nat) (o : Opnd) (j : Nat) : Option Region :=
  if x.space o = 3 then none
  else
    let w := decide (o = .d)
    match x.span o j with
    | some (lo, hi) => some ⟨x.space o, lo, hi - 1, w⟩
    | none => some ⟨x.space o, 0, spaceSize loan (x.space o) - 1, w⟩

/-- The entries a folio claims on core j: a destination that is also read is one entry, written. -/
def Folio.claims (x : Folio) (p : OpSpec) (loan j : Nat) : List Region := p.opnds.filterMap (fun o => x.claim loan o j)

/-- Two regions conflict: they overlap and either is written. -/
def Region.conflicts (a b : Region) : Bool :=
  a.space == b.space && (a.write || b.write) && decide (a.lo ≤ b.hi) && decide (b.lo ≤ a.hi)

/-! ## External references (R256, R257, Table 9-7) -/

/-- A resolved reference: global base address, and the bounds a byte must keep to where it has any. -/
structure Ext where
  base  : Nat
  limit : Option (Nat × Nat)
  deriving DecidableEq, Repr

/-- The slip of a pass. -/
def State.ctxSlip (s : State) (c : PassCtx) : Option Slip := s.slip c.e.slip

/-- Key of the volume a pass runs. -/
def State.ctxVolume (s : State) (c : PassCtx) : Option Volume :=
  (s.ctxSlip c).bind (fun x => Tab.find? s.bind.vols (volKey c.e.carrel (fld (x.p 0) 0 16)))

/-- The recipe a folio names, if it is valid: inside the volume's own blocks, reserved bits zero, naming a declared holding (R257). -/
def State.recipeOf (s : State) (c : PassCtx) (x : Folio) : Option (List Word × Nat) :=
  match s.ctxVolume c, (s.ctxSlip c).bind (·.launch) with
  | some v, some l =>
    let lo := 256 + 64 * v.first
    let ws := s.folioSlot c.sh x.recipe
    let reserved := fld (wordAt ws 0) 8 8 != 0 || (ws.drop 4).any (fun w => w != 0)
    if x.recipe < lo ∨ lo + 64 * v.blocks ≤ x.recipe ∨ reserved then none
    else (l.holds[fld (wordAt ws 0) 0 8]?).map (fun call => (ws, call))
  | _, _ => none

/-- One term of a recipe (R257). -/
def recipeTerm (w : Word) (p : Nat) : Nat :=
  let d := fld w 0 16
  let m := fld w 16 16
  if d = 0 then 0 else (if m = 0 then p / d else p / d % m) * fld w 32 32

/-- The holding offset a recipe gives for pass p (R257). -/
def recipeOffset (ws : List Word) (p : Nat) : Nat :=
  fld (wordAt ws 0) 16 48 + recipeTerm (wordAt ws 1) p + recipeTerm (wordAt ws 2) p + recipeTerm (wordAt ws 3) p

/-- Global form of a local address of this chip. -/
def ownGlobal (a : Nat) : Nat := 0xFFFF000000000000 + a

/-- Bytes a member-window reference may name on a shelf: its open window's, else the 512 KiB of its addresses, where permission is then
refused (R254, R317, R318). -/
def State.windowSpan (s : State) (sh : Nat) : Nat :=
  (((s.shelf sh).run.bind (·.window)).map (fun w => w.hi - w.lo)).getD 0x80000

/-- The reference in W7; none where check 4 refuses it (R257; a member beyond the group names no window, notes/assumptions/31.md). -/
def State.extOf (s : State) (c : PassCtx) (x : Folio) : Option Ext :=
  if x.xkind = 1 then some ⟨s.argWord c x.arg, none⟩
  else if x.xkind = 2 then
    (s.ctxSlip c).map (fun y => ⟨ownGlobal (y.paramAddr + x.xoffset), some (ownGlobal y.paramAddr, ownGlobal (y.paramAddr + y.paramLen))⟩)
  else if x.xkind = 3 then (c.e.map[x.member]?).map (fun sh =>
    let g := ownGlobal (storeBase + 0x80000 * sh)
    ⟨g, some (g, g + s.windowSpan sh)⟩)
  else
    (s.recipeOf c x).bind (fun r => (s.holding c.e.carrel r.2).map (fun h =>
      ⟨ownGlobal (h.addr + recipeOffset r.1 c.e.pass), some (ownGlobal h.addr, ownGlobal (h.addr + h.size))⟩))

/-- Check 4 refuses the folio's reference. -/
def State.extBad (s : State) (c : PassCtx) (x : Folio) (p : OpSpec) : Bool :=
  (x.extOpnd p).isSome && x.xkind != 1 && x.xkind != 2
    && (if x.xkind = 0 then (s.recipeOf c x).isNone else decide (c.e.map.length ≤ x.member))

/-! ## Rows -/

/-- One row of a transfer: source and destination, each by space and byte; an external byte is offset from the reference. -/
structure Row where
  src : Nat × Int
  dst : Nat × Int
  deriving DecidableEq, Repr

/-- Rows of COPY and ADD_AT, in order (R253). -/
def Folio.copyRows (x : Folio) (j : Nat) : List Row :=
  ((x.rows .a j).zip (x.rows .d j)).map (fun q => ⟨(x.space .a, (q.1 : Int)), (x.space .d, (q.2 : Int))⟩)

/-- The signed 32-bit indices of a GATHER or SCATTER, from the bytes of operand B. -/
def indicesOf (n : Nat) (bs : List Byte) : List Int := (List.range n).map (fun i => sext 32 (leVal ((bs.drop (4 * i)).take 4)))

/-- Rows of a GATHER or SCATTER (Table 9-9): the packed side in order, the other side at index × stride. -/
def Folio.indexRows (x : Folio) (j : Nat) (idx : List Int) : List Row :=
  let e0 := x.ext 0
  ((List.range idx.length).zip idx).map (fun q =>
    if x.opcode = 0x0500 then
      ⟨(x.space .a, (x.start .a j : Int) + q.2 * x.stride .a), (x.space .d, ((x.start .d j + e0 * q.1 : Nat) : Int))⟩
    else ⟨(x.space .a, ((x.start .a j + e0 * q.1 : Nat) : Int)), (x.space .d, (x.start .d j : Int) + q.2 * x.stride .d)⟩)

/-- One side of a row lies outside its bounds (check 7): local space, referenced holding or block, alignment of an add. -/
def sideBad (loan : Nat) (ext : Option Ext) (size n : Nat) (side : Nat × Int) (dst : Bool) : Bool :=
  if side.1 = 3 then
    match ext with
    | none => true
    | some e =>
      let a : Int := (e.base : Int) + side.2
      (match e.limit with
        | some (lo, hi) => decide (a < lo) || decide ((hi : Int) < a + n)
        | none => decide (a < 0)) || (dst && a % size != 0)
  else decide (side.2 < 0) || decide ((spaceSize loan side.1 : Int) < side.2 + n)

/-- Some row of a transfer of n-byte rows is out of bounds. -/
def rowsBad (loan : Nat) (ext : Option Ext) (size n : Nat) (rows : List Row) : Bool :=
  rows.any (fun r => sideBad loan ext size n r.src false || sideBad loan ext size n r.dst true)

/-- Global address of an external side. -/
def Ext.at (e : Option Ext) (a : Int) : Nat := (((e.map (·.base)).getD 0 : Nat) + a).toNat % 2 ^ 64

/-! ## Permission (check 8) -/

/-- How an external byte range is used. -/
inductive Use where
  | read
  | write
  | add
  deriving DecidableEq, Repr

/-- A local range is refused for its use (R319, R335, R358): the refusing unit records its cause. A peer judges its own. -/
def State.extDenied (s : State) (c : PassCtx) (use : Use) (g n : Nat) : State × Bool :=
  if !s.ownChip g || n = 0 then (s, false)
  else
    let a := g % 2 ^ 48
    let carrel := c.e.carrel
    if inWindows a 1 then
      let sh := (a - storeBase) / 0x80000
      let x := a % 0x80000
      if use = .write then
        match (pieces n).findSome? (fun q => s.windowCause sh (x + q.1) q.2 false carrel none) with
        | some cause => (s.windowRefused sh x carrel cause none, true)
        | none => (s, false)
      else (s.windowRefused sh x carrel ((s.windowCause sh x 0 true carrel none).getD 6) none, true)
    else if s.memAdmitted carrel a n then (s, false)
    else (s.memRefused carrel a c.e.tag, true)

/-- Rows are judged in order until one is refused. -/
def State.anyDenied (s : State) (c : PassCtx) (use : Use) (n : Nat) : List Nat → State × Bool
  | [] => (s, false)
  | g :: gs =>
    match s.extDenied c use g n with
    | (s, true) => (s, true)
    | (s, false) => State.anyDenied s c use n gs

/-! ## Accesses -/

/-- What a move of data met: nothing, an error that ends it with a status and an address, or a wait for request room. -/
inductive Met where
  | ok
  | error (code : Code) (addr : Nat)
  deriving DecidableEq, Repr

/-- A far-tier access counts in the slip's SPILL (R208). -/
def State.spill (s : State) (c : PassCtx) (a n : Nat) : State :=
  let k := s.farBytes c.e.carrel a n
  if k = 0 then s else s.modSlip c.e.slip (fun x => { x with cnt := { x.cnt with spill := x.cnt.spill + k } })

/-- An external read on this chip. -/
def State.extRead (s : State) (c : PassCtx) (g n : Nat) : State × List Byte × Met :=
  let a := g % 2 ^ 48
  match (s.spill c a n).readFor c.e.carrel a n c.e.tag with
  | (s, bs, none) => (s, bs, .ok)
  | (s, bs, some code) => (s, bs, .error code g)

/-- An external write on this chip: a window takes pieces of at most 256 bytes. -/
def State.extWrite (s : State) (c : PassCtx) (g : Nat) (bs : List Byte) : State × Met :=
  let a := g % 2 ^ 48
  if inWindows a 1 then
    (pieces bs.length).foldl (fun (r : State × Met) q =>
      if r.2 ≠ .ok then r
      else
        match r.1.windowWrite ((a - storeBase) / 0x80000) (a % 0x80000 + q.1) ((bs.drop q.1).take q.2) c.e.carrel none with
        | (s, none) => (s, .ok)
        | (s, some code) => (s, .error code (g + q.1))) (s, .ok)
  else
    match (s.spill c a bs.length).writeFor c.e.carrel a bs c.e.tag with
    | (s, none) => (s, .ok)
    | (s, some code) => (s, .error code g)

/-- An external add on this chip. -/
def State.extAdd (s : State) (c : PassCtx) (g typ : Nat) (bs : List Byte) : State × Met :=
  let a := g % 2 ^ 48
  match (s.spill c a bs.length).addFor c.e.carrel a typ bs c.e.tag with
  | (s, none) => (s, .ok)
  | (s, some code) => (s, .error code g)

/-- A local read as a meeting: a store word in error gives SHELF_STORE_ERROR at its address. -/
def State.localRead (s : State) (c : PassCtx) (j sp a n : Nat) : State × List Byte × Met :=
  match s.spRead c j sp a n with
  | (s, bs, none) => (s, bs, .ok)
  | (s, bs, some w) => (s, bs, .error 0x6003 w)

/-- A local write as a meeting. -/
def State.localWrite (s : State) (c : PassCtx) (j sp a : Nat) (bs : List Byte) : State × Met :=
  match s.spWrite c j sp a bs with
  | (s, none) => (s, .ok)
  | (s, some w) => (s, .error 0x6003 w)

/-- Rows of a local operand read in order; the first error stops (R272). -/
def State.readRows (s : State) (c : PassCtx) (j sp n : Nat) : List Nat → State × List (List Byte) × Met
  | [] => (s, [], .ok)
  | a :: as =>
    match s.localRead c j sp a n with
    | (s, bs, .ok) =>
      match State.readRows s c j sp n as with
      | (s, l, m) => (s, bs :: l, m)
    | (s, _, m) => (s, [], m)

/-- Rows written in order; the first error stops, and rows before it stay as written (R272). -/
def State.writeRows (s : State) (c : PassCtx) (j sp : Nat) : List (Nat × List Byte) → State × Met
  | [] => (s, .ok)
  | (a, bs) :: rest =>
    match s.localWrite c j sp a bs with
    | (s, .ok) => State.writeRows s c j sp rest
    | (s, m) => (s, m)

end Sys2Proof.Machine
end

