-- ==== Sys2Proof/Machine/Streams.lean ====
section
/-! DEFINITION. Streams: records of folios (R271), faults (R272) and their snapshots (R189), effects in ring order (R248, R264), passing
from folio to folio (R242, R243), bisection (R276, R277), start checks (Table 9-10), and what FOLIO_HEAD does (R268). -/

namespace Sys2Proof.Machine

/-- Engine numbers of Table 18-3. -/
def engNo (e : Engine) : Nat :=
  match e with
  | .m => 0
  | .v => 1
  | .s => 2

/-- A core's stream by engine number. -/
def CoreSt.stream (c : CoreSt) (e : Nat) : Stream := if e = 0 then c.m else if e = 1 then c.v else c.s

/-- A core's stream written. -/
def CoreSt.setStream (c : CoreSt) (e : Nat) (x : Stream) : CoreSt :=
  if e = 0 then { c with m := x } else if e = 1 then { c with v := x } else { c with s := x }

/-- A stream of the pass on shelf sh changed. -/
def State.modStream (s : State) (sh j e : Nat) (f : Stream → Stream) : State :=
  s.modCore sh j (fun c => c.setStream e (f (c.stream e)))

/-- A stream as it stands. -/
def State.streamOf (s : State) (sh j e : Nat) : Stream := (s.coreOf sh j).stream e

/-- First slot of an engine's ring. -/
def Running.first (r : Running) (e : Nat) : Nat := if e = 0 then r.firsts.1 else if e = 1 then r.firsts.2.1 else r.firsts.2.2

/-! ## Records and snapshots -/

/-- The Ledger kind of a folio record by its index in Table 16-3. -/
def folioKind (k : Nat) : Kind :=
  if k = 0 then K.folioOpcode else if k = 1 then K.folioReserved else if k = 2 then K.folioFormat else if k = 3 then K.folioOperand
  else if k = 4 then K.folioBounds else if k = 5 then K.folioDenied else if k = 6 then K.folioStream else if k = 10 then K.accWrap
  else if k = 11 then K.accRange else K.accAnchor

/-- INFO of the folio kinds (Table 16-1). -/
def folioInfo (slot core eng cores : Nat) : Nat := slot + core * 2 ^ 12 + eng * 2 ^ 20 + cores * 2 ^ 22

/-- Two kinds of event of one folio share its record: it is skipped and logged once for each slot, lap and pass, by the kind that came first
(R271, kinds 0 to 5); what R296 records stands apart. -/
def sameRecord (a b : Nat) : Bool := a == b || (decide (a < 6) && decide (b < 6))

/-- Folio events, of n cores (R271) or n elements (R296), join their record. The answer says whether they are the first. -/
def State.note (s : State) (sh j e slot lap kind n : Nat) : State × Bool :=
  match (s.shelf sh).run with
  | none => (s, false)
  | some r =>
    let same := fun (k : SkipRec) => k.slot == slot && k.lap == lap && sameRecord k.kind kind
    if r.skips.any same then
      (s.modRun sh (fun r => { r with skips := r.skips.map (fun k =>
        if same k then { k with core := min k.core j, cores := k.cores + n } else k) }), false)
    else (s.modRun sh (fun r => { r with skips := r.skips ++ [⟨slot, lap, e, kind, j, n, s.now, s.holdover⟩] }), true)

/-- The records of a pass are sent (R271, R296; notes/assumptions/32.md). -/
def State.sendNotes (s : State) (sh : Nat) : State :=
  match (s.shelf sh).run with
  | none => s
  | some r => r.skips.foldl (fun s k =>
      s.send { source := BitVec.ofNat 10 (shelfSource sh), kind := BitVec.ofNat 6 (folioKind k.kind).idx
               code := BitVec.ofNat 16 (folioKind k.kind).code, carrel := BitVec.ofNat 10 r.e.carrel, holdover := k.ho, stamp := k.stamp
               addr := 0, tag := BitVec.ofNat 32 r.e.tag
               info := BitVec.ofNat 64 (folioInfo k.slot k.core k.eng (min 511 k.cores)) }) s

/-- Engine word of a snapshot (Table 6-2). How far fetch has run ahead is not given: OUTSTANDING is a free value of at least the folios in
execution and at most 1,024 (R247; notes/assumptions/34.md). -/
def Stream.snapWord (x : Stream) (free : Word) : Word :=
  let busy := (x.execs.filter (fun e => e.phase == .started || e.phase == .performed)).length
  let out := busy + free.toNat % (1025 - busy)
  BitVec.ofNat 64 (x.ptr % 4096 + min 1024 out * 2 ^ 12 + x.reason * 2 ^ 23 + b2n (decide (0 < x.skipLeft)) * 2 ^ 26 + x.prog.toNat * 2 ^ 27)

/-- The tally words of a snapshot. -/
def CoreSt.snapTallies (c : CoreSt) : List Word :=
  (List.range 8).map (fun i => BitVec.ofNat 64
    (c.tallyAt (4 * i) + c.tallyAt (4 * i + 1) * 2 ^ 16 + c.tallyAt (4 * i + 2) * 2 ^ 32 + c.tallyAt (4 * i + 3) * 2 ^ 48))

/-- n free values are drawn. -/
def State.draw (s : State) (n : Nat) : State := { s with freeCtr := s.freeCtr + n }

/-- Where a fault on a core arose, with its engine states. -/
def State.placeOn (s : State) (sh j e slot : Nat) (w0 : Word) : SnapPlace :=
  let c := s.coreOf sh j
  let f := fun i => Config.freeValue (s.freeCtr + i)
  { pass := ((s.shelf sh).run.map (·.e.pass)).getD 0, shelf := sh, core := j, eng := e, folio := slot, w0 := w0
    engs := [c.m.snapWord (f 0), c.v.snapWord (f 1), c.s.snapWord (f 2)], tally := c.snapTallies }

/-- The folio's event adds 1 to a count of the pass's slip. -/
def State.countSlip (s : State) (sh : Nat) (f : SlipCounts → SlipCounts) : State :=
  match (s.shelf sh).run with
  | none => s
  | some r => s.modSlip r.e.slip (fun x => { x with cnt := f x.cnt })

/-! ## Effects (R264) -/

/-- The completion effects of a folio on core j. -/
def State.fireEffects (s : State) (sh j : Nat) (x : Folio) : State :=
  let s := if x.localInc = 0 then s else s.applySignal sh (some j) x.localTally x.localInc
  if x.sigScope = 1 then s.applySignal sh (some x.sigCore) x.sigTally x.sigInc
  else if x.sigScope = 2 then s.applySignal sh none x.sigTally x.sigInc
  else if x.sigScope = 3 ∨ x.sigScope = 4 then
    match (s.shelf sh).run with
    | none => s
    | some r =>
      match r.e.map[x.sigMember]? with
      | none => s
      | some dst =>
        s.deliverSignal dst
          { carrel := BitVec.ofNat 10 r.e.carrel, tag := BitVec.ofNat 32 r.e.tag, pass := BitVec.ofNat 32 (r.e.gFirst + x.sigMember)
            core := if x.sigScope = 3 then some (BitVec.ofNat 8 x.sigCore) else none
            tally := BitVec.ofNat 5 x.sigTally, inc := BitVec.ofNat 8 x.sigInc }
  else s

/-- Effects fire in ring order (R248): folios that are done leave the front of the list. -/
def State.flushN : Nat → State → Nat → Nat → Nat → State
  | 0, s, _, _, _ => s
  | n + 1, s, sh, j, e =>
    match (s.streamOf sh j e).execs with
    | [] => s
    | x :: rest =>
      match x.phase with
      | .done fires =>
        let s := s.modStream sh j e (fun st => { st with execs := rest })
        State.flushN n (if fires && !x.fired then s.fireEffects sh j ⟨x.slot, x.words⟩ else s) sh j e
      | _ => s

/-- All effects that may fire now fire. -/
def State.flush (s : State) (sh j e : Nat) : State := s.flushN (s.streamOf sh j e).execs.length sh j e

/-- A folio of the stream has been completed or skipped: the progress count (R184). -/
def State.progress (s : State) (sh j e : Nat) : State :=
  (s.modStream sh j e (fun st => { st with prog := st.prog + 1 })).modRun sh (fun r => { r with moved := true })

/-! ## Passing a folio (R242, R243) -/

/-- The lap has reached its 1,024 folios, or the program its last slot (R242). -/
def Stream.atEnd (st : Stream) : Bool := decide (1024 ≤ st.inLap) || decide (4095 ≤ st.ptr)

/-- The stream's pointer moves past folio x: to the next slot, the next lap, or the end; FOLIO_STREAM where the ring has no end. -/
def State.passFolio (s : State) (sh j e : Nat) (x : Folio) : State :=
  let s := s.modRun sh (fun r => { r with still := 0 })
  match (s.shelf sh).run with
  | none => s
  | some r =>
    let st := (r.core j).stream e
    let st := { st with passed := st.passed + 1, inLap := st.inLap + 1, ready := false }
    if x.end_ then
      if st.lap < x.again then
        s.modStream sh j e (fun _ => { st with lap := st.lap + 1, inLap := 0, ptr := r.first e })
      else s.modStream sh j e (fun _ => { st with ended := true })
    else if st.atEnd then
      ((s.note sh j e x.slot st.lap 6 1).1).modStream sh j e (fun _ => { st with ended := true })
    else s.modStream sh j e (fun _ => { st with ptr := st.ptr + 1 })

/-- A folio that is not started is passed: its effects fire in ring order where `fires`. OUTCOME: 0 completed, 1 skipped, 2 skipped and
logged (R451). -/
def State.passDone (s : State) (sh j e : Nat) (x : Folio) (fires : Bool) (outcome : Nat) : State :=
  let st := s.streamOf sh j e
  let c := ((s.shelf sh).run.map (·.e.carrel)).getD 0
  let s := s.jnlFolio 1 sh c j e x.slot st.lap outcome
  let s := s.modStream sh j e (fun st => { st with execs := st.execs ++ [⟨x.slot, st.lap, x.ws, [], .done fires, [], false, 0, 0, false⟩] })
  ((s.passFolio sh j e x).progress sh j e).flush sh j e

/-- The record, the count and the snapshot of a folio skipped and logged: one for each slot, lap and pass (R271). The snapshot's event is the first
such folio of the carrel since the snapshot was last cleared (R189; notes/assumptions/27.md). -/
def State.skipRecord (s : State) (sh j e : Nat) (x : Folio) (lap kind : Nat) : State :=
  let r := s.note sh j e x.slot lap kind 1
  if r.2 then
    let s := r.1.countSlip sh (fun c => { c with skipped := c.skipped + 1 })
    match (s.shelf sh).run.bind (fun q => s.slip q.e.slip) with
    | some y =>
      if Tab.mem s.cat.skips y.carrel then s
      else
        let s := (s.capture y 1 0 (s.placeOn sh j e x.slot (wordAt x.ws 0))).draw 3
        { s with cat := { s.cat with skips := Tab.insert s.cat.skips y.carrel true } }
    | none => s
  else r.1

/-- FOLIO_SKIP_LOGGED (R271): nothing is written, effects fire where W6 is sound. -/
def State.skipLogged (s : State) (sh j e : Nat) (x : Folio) (kind : Nat) : State :=
  (s.skipRecord sh j e x (s.streamOf sh j e).lap kind).passDone sh j e x x.w6Ok 2

/-- A started folio is skipped and logged after all (R158, R273): its entries are released, its effects fire in ring order. -/
def State.refuseStarted (s : State) (sh j e : Nat) (x : Exec) (kind : Nat) : State :=
  let f : Folio := ⟨x.slot, x.words⟩
  let s := s.skipRecord sh j e f x.lap kind
  let s := s.jnlFolio 1 sh (((s.shelf sh).run.map (·.e.carrel)).getD 0) j e x.slot x.lap 2
  let s := s.modStream sh j e (fun st => { st with execs := st.execs.map (fun y =>
    if y.slot = x.slot ∧ y.lap = x.lap then { y with phase := .done f.w6Ok, regions := [] } else y) })
  (s.progress sh j e).flush sh j e

/-! ## Faults (R272) -/

/-- The status of a fault on a core becomes a failure of the slip, with its snapshot; store and folio-memory errors are recorded. -/
def State.coreFault (s : State) (sh j e : Nat) (x : Folio) (code : Code) (addr : Nat) : State :=
  match (s.shelf sh).run with
  | none => s
  | some r =>
    let s := if code = 0x6003 then
        s.log (shelfSource sh) K.storeError r.e.carrel (globalAdr addr) r.e.tag (folioInfo x.slot j e 1)
      else if code = 0x6004 then
        s.log (shelfSource sh) K.folioMemError r.e.carrel (globalAdr addr) r.e.tag (folioInfo x.slot j e 1)
      else s
    (s.slipFault r.e.slip code (s.placeOn sh j e x.slot (wordAt x.ws 0))).draw 3

/-- A folio that has not started meets an error (a predicate word, its own slot): it is passed and its effects never fire. -/
def State.headFault (s : State) (sh j e : Nat) (x : Folio) (code : Code) (addr : Nat) : State :=
  let st := s.streamOf sh j e
  let s := s.coreFault sh j e x code addr
  let c := ((s.shelf sh).run.map (·.e.carrel)).getD 0
  let s := s.jnlFolio 1 sh c j e x.slot st.lap 3
  let s := s.modStream sh j e (fun st => { st with execs := st.execs ++ [⟨x.slot, st.lap, x.ws, [], .done false, [], false, 0, 0, false⟩] })
  (s.passFolio sh j e x).flush sh j e

/-- The phase of the executing folio at a slot and lap. -/
def State.setExec (s : State) (sh j e slot lap : Nat) (f : Exec → Exec) : State :=
  s.modStream sh j e (fun st => { st with execs := st.execs.map (fun x => if x.slot = slot ∧ x.lap = lap then f x else x) })

/-- A started folio ends by an error (R272): writes stay as written, entries are released, effects never fire. -/
def State.folioFail (s : State) (sh j e : Nat) (x : Exec) (code : Code) (addr : Nat) : State :=
  let s := s.coreFault sh j e ⟨x.slot, x.words⟩ code addr
  let c := ((s.shelf sh).run.map (·.e.carrel)).getD 0
  let s := s.jnlFolio 1 sh c j e x.slot x.lap 3
  let s := s.modIln (fun i => { i with reqs := x.reqs.foldl (fun t k => Tab.erase t k) i.reqs })
  (s.setExec sh j e x.slot x.lap (fun y => { y with phase := .done false, reqs := [], regions := [] })).flush sh j e

/-! ## Bisection (R276, R277) -/

/-- The entry that applies to a stream: its number, and its CUT word as the pass took it. -/
def State.bisectOf (s : State) (sh j e : Nat) : Option (Nat × Word) :=
  match (s.shelf sh).run with
  | none => none
  | some r =>
    let p0 := ((s.slip r.e.slip).map (fun x => x.p 0)).getD 0
    ((List.range 16).find? (fun i =>
      let m := wordAt (r.bisect.getD i []) 0
      let q := wordAt (r.bisect.getD i []) 1
      bitAt m 0 && fld m 1 10 == r.e.carrel && fld m 11 16 == fld p0 0 16 && fld m 27 16 == fld p0 16 16 && bitAt m (43 + e)
        && (bitAt q 32 || fld q 0 32 == r.e.pass) && (bitAt q 41 || fld q 33 8 == j))).map
      (fun i => (i, wordAt (r.bisect.getD i []) 2))

/-- The result of a predicate after a matching entry's FORCE. -/
def State.forced (s : State) (sh j e : Nat) (p : Bool) : Bool :=
  match s.bisectOf sh j e with
  | none => p
  | some (_, cut) => if fld cut 34 2 = 1 then true else if fld cut 34 2 = 2 then false else p

/-- BISECT_CUTOFF is due: the entry, and whether its mode is hold. -/
def State.cutoffDue (s : State) (sh j e : Nat) : Option (Nat × Bool) :=
  let st := s.streamOf sh j e
  match s.bisectOf sh j e with
  | none => none
  | some (i, cut) => if bitAt cut 32 && !st.released && !st.cut && decide (fld cut 0 32 ≤ st.passed) then some (i, bitAt cut 33) else none

/-- The cutoff acts (R277). -/
def State.cutoff (s : State) (sh j e i : Nat) (hold : Bool) : State :=
  let s := s.countSat (R.OBS_BISECT_STATUS i) 0 32 1
  if hold then (s.setRegBit (R.OBS_BISECT_STATUS i) 32 true).modStream sh j e (fun st => { st with cut := true, held := true, reason := 7 })
  else s.modStream sh j e (fun st => { st with cut := true })

/-- BISECT_RELEASE: every stream that the named entries hold goes on (R277). -/
def State.bisectRelease (s : State) (mask : Nat) : State :=
  (s.shelves.filter (fun p => p.2.run.isSome)).foldl (fun s p =>
    (((p.2.run.map (·.cores)).getD []).map (·.1)).foldl (fun s j =>
      [0, 1, 2].foldl (fun s e =>
        match s.bisectOf p.1 j e with
        | some (i, _) =>
          if mask.testBit i && (s.streamOf p.1 j e).held then
            s.modStream p.1 j e (fun st => { st with held := false, cut := false, released := true })
          else s
        | none => s) s) s) s

/-- BISECT_RELEASE (R277). -/
def execBisectRelease (v : Word) (s : State) : Out := .next (if s.alive then s.bisectRelease (fld v 0 16) else s)

/-! ## Predicates (R263, R268) -/

/-- A tally has reached a value. -/
def reached (t v : Nat) : Bool := decide ((t + (65536 - v % 65536)) % 65536 < 32768)

/-- PRED_OP on a value; `word` for a loan word. -/
def predTest (op x v : Nat) (word : Bool) : Bool :=
  if op = 1 then x % 65536 == v
  else if op = 2 then x % 65536 != v
  else if op = 3 then (if word then decide (v ≤ x % 65536) else reached (x % 65536) v)
  else if op = 4 then !(if word then decide (v ≤ x % 65536) else reached (x % 65536) v)
  else if op = 5 then x.testBit (v % 64)
  else !x.testBit (v % 64)

/-- pred of R268: its value, or a store word in error. -/
def State.predicate (s : State) (c : PassCtx) (j : Nat) (x : Folio) : State × Bool × Met :=
  if x.predOp = 0 then (s, true, .ok)
  else if x.predWord then
    match s.localRead c j 0 (8 * x.predLoc) 8 with
    | (s, bs, .ok) => (s, predTest x.predOp (leVal bs) x.predValue true, .ok)
    | (s, _, m) => (s, false, m)
  else (s, predTest x.predOp ((s.coreOf c.sh j).tallyAt (x.predLoc % 32)) x.predValue false, .ok)

/-! ## Start checks (Table 9-10, checks 6 to 8) -/

/-- What the start checks find. -/
inductive Check where
  | ok
  | refuse (kind : Nat)
  | error (code : Code) (addr : Nat)
  deriving DecidableEq, Repr

/-- Accumulators a folio names, with its ANCHOR: those that must agree with it (R259). -/
def Folio.anchored (x : Folio) (j : Nat) : List Nat :=
  let op := x.opcode
  if (op = 0x0100 ∨ op = 0x0101) ∧ !x.clear then (List.range (x.ext 1 * x.ext 2)).map (fun i => x.start .d j / 16 + i)
  else if op = 0x0105 then (List.range (x.ext 0)).map (fun i => x.start .d j / 16 + i)
  else if op = 0x0103 then (List.range (x.ext 0)).map (fun i => x.start .a j / 16 + i)
  else []

/-- Check 6: an anchor already set differs (R259). -/
def State.anchorBad (s : State) (c : PassCtx) (j : Nat) (x : Folio) : Bool :=
  (x.anchored j).any (fun i => let a := laOf ((s.coreOf c.sh j).accAt i); a.anchored && a.anchor != x.anchor)

/-- Rows of a transfer, the index list of a GATHER or SCATTER read from the loan. -/
def State.transferRows (s : State) (c : PassCtx) (j : Nat) (x : Folio) : State × List Row × Met :=
  if x.opcode = 0x0500 ∨ x.opcode = 0x0501 then
    match s.localRead c j 0 (x.start .b j) (4 * x.ext 1) with
    | (s, bs, .ok) => (s, x.indexRows j (indicesOf (x.ext 1) bs), .ok)
    | (s, _, m) => (s, [], m)
  else if x.opcode = 0x0402 then
    (s, (x.rows .d j).map (fun (d : Nat) => Row.mk (x.space .d, (d : Int)) (x.space .d, (d : Int))), .ok)
  else (s, x.copyRows j, .ok)

/-- The add type of an ADD_AT (Table 5-4 numbering). -/
def addTypeOf (code : Nat) : Nat := if code = 0x04 then 0 else if code = 0x05 then 1 else if code = 0x12 then 2 else if code = 0x11 then 3 else 4

/-- Checks 7 and 8 of a COPY, ADD_AT, GATHER or SCATTER. -/
def State.transferCheck (s : State) (c : PassCtx) (j : Nat) (x : Folio) : State × Check :=
  let ext := s.extOf c x
  let n := x.ext 0
  match s.transferRows c j x with
  | (s, _, .error code a) => (s, .error code a)
  | (s, rows, .ok) =>
    if rowsBad c.size ext (if x.opcode = 0x0401 then addSize (addTypeOf (x.fmt .a)) else 1) n rows then (s, .refuse 4)
    else
      let srcs := (rows.filter (fun r => r.src.1 = 3)).map (fun r => Ext.at ext r.src.2)
      let dsts := (rows.filter (fun r => r.dst.1 = 3)).map (fun r => Ext.at ext r.dst.2)
      match s.anyDenied c .read n srcs with
      | (s, true) => (s, .refuse 5)
      | (s, false) =>
        match s.anyDenied c (if x.opcode = 0x0401 then .add else .write) n dsts with
        | (s, true) => (s, .refuse 5)
        | (s, false) => (s, .ok)

/-- Global source address of an ENQUEUE. -/
def Folio.enqSource (x : Folio) (ext : Option Ext) (j : Nat) : Nat := Ext.at ext (x.start .a j)

/-- Checks 7 and 8 of an ENQUEUE or SLIP_WRITE (R157, R273). -/
def State.enqueueFolioCheck (s : State) (c : PassCtx) (j : Nat) (x : Folio) : State × Check :=
  let carrel := c.e.carrel
  let n := 128 * x.ext 0
  let ext := s.extOf c x
  if x.opcode = 0x0800 && sideBad c.size ext 1 n ((3 : Nat), ((x.start .a j : Nat) : Int)) false then (s, .refuse 4)
  else if !s.regBit (R.CIR_ENQ_LIMIT carrel) 32 then (s, .refuse 5)
  else
    match s.ringOf carrel false (x.param % 32) with
    | none => (s, .refuse 5)
    | some k =>
      if !s.ringDevice k || s.ringSize k < x.ext 0 then (s, .refuse 5)
      else if x.opcode = 0x0801 then (s, .ok)
      else
        let g := x.enqSource ext j
        if !s.ownChip g || 0x6000000000 < g % 2 ^ 48 + n then (s, .refuse 5)
        else if s.memAdmitted carrel (g % 2 ^ 48) n then (s, .ok)
        else (s.memRefused carrel (g % 2 ^ 48) c.e.tag, .refuse 5)

/-- The start checks of a folio that is to run on core j. -/
def State.startCheck (s : State) (c : PassCtx) (j : Nat) (x : Folio) : State × Check :=
  if s.anchorBad c j x then (s, .refuse 3)
  else
    let op := x.opcode
    if op = 0x0400 ∨ op = 0x0401 ∨ op = 0x0500 ∨ op = 0x0501 then s.transferCheck c j x
    else if op = 0x0800 ∨ op = 0x0801 then s.enqueueFolioCheck c j x
    else (s, .ok)

/-! ## FOLIO_HEAD (R268) -/

/-- Folios of a core in execution, all streams. -/
def CoreSt.busy (c : CoreSt) : List Exec :=
  (c.m.execs ++ c.v.execs ++ c.s.execs).filter (fun x => x.phase == .started || x.phase == .performed)

/-- The engine may take another folio (R248); a SELECT not yet evaluated holds its stream, and an append that waits holds the S engine
(R273). -/
def Stream.room (x : Stream) (e : Nat) : Bool :=
  let busy := x.execs.filter (fun y => y.phase == .started || y.phase == .performed)
  decide (busy.length < if e = 2 then 4 else 1)
    && !busy.any (fun y => y.phase == .started && (Folio.mk y.slot y.words).opcode == 0x0700)
    && !busy.any (fun y => y.phase == .started && decide (0x0800 ≤ (Folio.mk y.slot y.words).opcode))

/-- Address streams the clerk keeps on the shelf, one for each long folio or recipe evaluation under way, by engine, slot and lap; every core
that runs the folio uses it (R261). -/
def Running.clerk (r : Running) : List (Nat × Nat × Nat) :=
  ((r.cores.flatMap (fun p => [(0, p.2.m), (1, p.2.v), (2, p.2.s)].flatMap (fun q =>
    (q.2.execs.filter (fun y => y.phase == .started && (Folio.mk y.slot y.words).usesClerk)).map (fun y => (q.1, y.slot, y.lap)))))).eraseDups

/-- Why a folio cannot start now, as a stall reason (R261, R262, R273). -/
def State.startBlocked (s : State) (c : PassCtx) (j e : Nat) (x : Folio) (p : OpSpec) : Option Nat :=
  match (s.shelf c.sh).run with
  | none => some 5
  | some r =>
    let core := r.core j
    let held := core.busy.flatMap (·.regions)
    let claims := x.claims p c.size j
    if (x.opcode = 0x0800 ∨ x.opcode = 0x0801) ∧ !core.busy.isEmpty then some 4
    else if 16 < held.length + claims.length || claims.any (fun a => held.any (fun b => a.conflicts b)) then some 1
    else if x.usesClerk && !(r.clerk.contains (e, x.slot, (core.stream e).lap)) && decide (8 ≤ r.clerk.length) then some 2
    else none

/-- A folio starts: its entries are claimed, the stream goes on behind it. -/
def State.startFolio (s : State) (c : PassCtx) (j e : Nat) (x : Folio) (p : OpSpec) : State :=
  let lap := (s.streamOf c.sh j e).lap
  let s := s.jnlFolio 0 c.sh c.e.carrel j e x.slot lap 0
  let s := s.modStream c.sh j e (fun st => { st with
    execs := st.execs ++ [⟨x.slot, lap, x.ws, x.claims p c.size j, .started, [], false, 0, 0, false⟩] })
  s.passFolio c.sh j e x

/-- Core j runs the operation of a folio (ISSUER, Table 9-3). -/
def Folio.runsOn (x : Folio) (c : PassCtx) (j : Nat) : Bool :=
  x.issuer == 0 || (j == 0 && (x.issuer == 1 || c.e.pass == 0))

/-- A folio whose wait is met and whose predicate is true starts when nothing blocks it. -/
def State.tryStart (s : State) (c : PassCtx) (j e : Nat) (x : Folio) (p : OpSpec) : State :=
  match s.startBlocked c j e x p with
  | some why => s.modStream c.sh j e (fun st => { st with ready := true, reason := why })
  | none =>
    match s.startCheck c j x with
    | (s, .refuse k) => s.skipLogged c.sh j e x k
    | (s, .error code a) => s.headFault c.sh j e x code a
    | (s, .ok) => s.startFolio c j e x p

/-- A PRE folio stands in the S ring before the first folio without PRE (R260). -/
def State.preInPlace (s : State) (c : PassCtx) (first slot : Nat) : Bool :=
  (List.range (slot - first)).all (fun i => (Folio.mk (first + i) (s.folioSlot c.sh (first + i))).pre)

/-- The wait of a folio at the head is met (R263); consuming subtracts. none: it is not met. -/
def State.waitMet (s : State) (c : PassCtx) (j : Nat) (x : Folio) : Option State :=
  if !x.waitEn then some s
  else
    let t := (s.coreOf c.sh j).tallyAt x.waitTally
    if reached t x.waitValue then
      some (if x.consume then s.modCore c.sh j (fun y => y.bump x.waitTally (65536 - x.waitValue)) else s)
    else none

/-- A folio that passed the fetch checks, its wait and its predicate at the head. -/
def State.headRun (s : State) (c : PassCtx) (j e : Nat) (x : Folio) (p : OpSpec) : State :=
  match s.waitMet c j x with
  | none => s.modStream c.sh j e (fun st => { st with reason := 0 })
  | some s =>
    if x.opcode = 0x0700 then s.startFolio c j e x p
    else
      match s.predicate c j x with
      | (s, _, .error code a) => s.headFault c.sh j e x code a
      | (s, v, .ok) =>
        if !s.forced c.sh j e v then s.passDone c.sh j e x x.onSkip 1
        else if x.pre || !x.runsOn c j || x.noop p then s.passDone c.sh j e x true 0
        else s.tryStart c j e x p

/-- The folio at the head of a stream, from its slot (R268). -/
def State.headFolio (s : State) (c : PassCtx) (r : Running) (j e : Nat) : State :=
  let st := (r.core j).stream e
  let q := s.eccShelfRead c.sh (folioAddr c.sh (64 * st.ptr)) 64 16
  let s := q.1
  let x : Folio := ⟨st.ptr, s.folioSlot c.sh st.ptr⟩
  if st.cut then s.passDone c.sh j e x (x.onSkip && x.w6Ok) 1
  else if 0 < st.skipLeft then
    (s.modStream c.sh j e (fun st => { st with skipLeft := st.skipLeft - 1 })).passDone c.sh j e x (x.onSkip && x.w6Ok) 1
  else
    match q.2 with
    | some w => s.headFault c.sh j e x 0x6004 w
    | none =>
      match x.fetchCheck e c.size, opSpec x.opcode with
      | some k, _ =>
        -- check 4 of the reference and of PRE's place comes before the bounds of check 5
        let misplaced := x.pre && !s.preInPlace c (r.first 2) x.slot
        let k' := if k = 4 && ((opSpec x.opcode).any (fun p => s.extBad c x p) || misplaced) then 3 else k
        s.skipLogged c.sh j e x k'
      | none, none => s.skipLogged c.sh j e x 0
      | none, some p =>
        if s.extBad c x p || (x.pre && !s.preInPlace c (r.first 2) x.slot) then s.skipLogged c.sh j e x 3
        else if x.pre && st.lap == 0 then
          (match Tab.find? c.e.preBad x.slot with
            | some k => s.skipLogged c.sh j e x k
            | none => s.passDone c.sh j e x false 0)
        else if st.ready then s.tryStart c j e x p
        else s.headRun c j e x p

/-- What FOLIO_HEAD does on one stream. -/
def State.folioHead (s : State) (sh j e : Nat) : State :=
  match (s.shelf sh).run with
  | none => s
  | some r =>
    let st := (r.core j).stream e
    if st.ended || st.held || !st.room e then s
    else
      match s.cutoffDue sh j e with
      | some (i, true) => s.cutoff sh j e i true
      | some (i, false) => (s.cutoff sh j e i false).headFolio (s.ctxOf sh r.e)
          (((s.cutoff sh j e i false).shelf sh).run.getD r) j e
      | none => s.headFolio (s.ctxOf sh r.e) r j e

/-- FOLIO_HEAD (R268). -/
def execFolioHead (sh : ShelfNo) (core : BitVec 8) (e : Engine) (s : State) : Out :=
  .next (if s.running then s.folioHead sh.toNat core.toNat (engNo e) else s)

/-! ## Completion (R248, R264, R272) -/

/-- The folio that completes next in a stream: the oldest performed with no request outstanding. -/
def Stream.completing (x : Stream) : Option Exec := x.execs.find? (fun y => y.phase == .performed && y.reqs.isEmpty)

/-- A performed folio completes: entries are released, effects fire in ring order. -/
def State.completeExec (s : State) (sh j e : Nat) (x : Exec) : State :=
  let c := ((s.shelf sh).run.map (·.e.carrel)).getD 0
  let s := s.jnlFolio 1 sh c j e x.slot x.lap 0
  let s := s.setExec sh j e x.slot x.lap (fun y => { y with phase := .done true, regions := [] })
  (s.progress sh j e).flush sh j e

/-- Every byte the folio moves has been posted: no READ of it is outstanding, whose data it has yet to write (R264). -/
def State.allPosted (s : State) (x : Exec) : Bool := x.reqs.all (fun id => !(Tab.find? s.iln.reqs id).any (·.reads))

/-- Effects of a POSTED folio whose writes are posted but not acknowledged, at the front of its stream. -/
def State.firePosted (s : State) (sh j e : Nat) : State :=
  match (s.streamOf sh j e).execs with
  | x :: _ =>
    if x.phase = .performed ∧ !x.fired ∧ (Folio.mk x.slot x.words).posted ∧ s.allPosted x then
      (s.setExec sh j e x.slot x.lap (fun y => { y with fired := true })).fireEffects sh j ⟨x.slot, x.words⟩
    else s
  | [] => s

/-- What FOLIO_COMPLETE does on one stream. -/
def State.folioComplete (s : State) (sh j e : Nat) : State :=
  match (s.streamOf sh j e).completing with
  | some x => s.completeExec sh j e x
  | none => s.firePosted sh j e

/-- FOLIO_COMPLETE (R264). -/
def execFolioComplete (sh : ShelfNo) (core : BitVec 8) (e : Engine) (s : State) : Out :=
  .next (if s.running && (s.shelf sh.toNat).run.isSome then s.folioComplete sh.toNat core.toNat (engNo e) else s)

/-- A status that ends a started folio (R272): an uncorrectable memory error or one of class 0x5, as Table 5-7 has them. -/
def endsFolio (code : Code) : Bool :=
  [0x5001, 0x5002, 0x5003, 0x5004, 0x6001, 0x6002, 0x6003, 0x6004].contains code.toNat

/-- FOLIO_ERROR_END on the nth folio under execution in a stream. -/
def State.folioErrorEnd (s : State) (sh j e n : Nat) (code : Code) (addr : Nat) : State :=
  let busy := (s.streamOf sh j e).execs.filter (fun y => y.phase == .started || y.phase == .performed)
  match busy[n]?, (s.shelf sh).run with
  | some x, some r => if endsFolio code then (s.memFault r.e.carrel r.e.tag code addr).folioFail sh j e x code (addr % 2 ^ 48) else s
  | _, _ => s

/-- FOLIO_ERROR_END (R272). -/
def execFolioErrorEnd (sh : ShelfNo) (core : BitVec 8) (e : Engine) (n : Nat) (code : Code) (addr : Word) (s : State) : Out :=
  .next (if s.running then s.folioErrorEnd sh.toNat core.toNat (engNo e) n code addr.toNat else s)

/-! ## Performing an operation -/

/-- The started folio of a stream with one of these opcodes. -/
def Stream.startedOp (x : Stream) (op : Nat) : Option Exec :=
  x.execs.find? (fun y => y.phase == .started && (Folio.mk y.slot y.words).opcode == op)

/-- The row of an opcode performs the folio that FOLIO_HEAD started: `f` makes its effect; an error ends the folio (R272). -/
def State.perform (s : State) (sh j e op : Nat) (f : State → PassCtx → Exec → Folio → State × Met) : State :=
  if !s.running then s
  else
    match (s.streamOf sh j e).startedOp op, s.runCtx sh with
    | some x, some c =>
      match f s c x ⟨x.slot, x.words⟩ with
      | (s, .ok) => s.setExec sh j e x.slot x.lap (fun y => if y.phase = .started then { y with phase := .performed } else y)
      | (s, .error code a) => s.folioFail sh j e (((s.streamOf sh j e).startedOp op).getD x) code a
    | _, _ => s

/-- NOP and WAIT (R258): effects only. -/
def execNop (sh : ShelfNo) (core : BitVec 8) (e : Engine) (s : State) : Out :=
  .next (s.perform sh.toNat core.toNat (engNo e) 0x0000 (fun s _ _ _ => (s, .ok)))

/-- WAIT (R258): its wait was met at the head. -/
def execWait (sh : ShelfNo) (core : BitVec 8) (e : Engine) (s : State) : Out :=
  .next (s.perform sh.toNat core.toNat (engNo e) 0x0601 (fun s _ _ _ => (s, .ok)))

/-- SELECT (R268, R269): where its predicate, after a bisection force, is false, the next EXT0 folios of the stream are skipped. -/
def State.select (s : State) (j e : Nat) (c : PassCtx) (x : Folio) : State × Met :=
  match s.predicate c j x with
  | (s, v, .ok) =>
    (if s.forced c.sh j e v then s else s.modStream c.sh j e (fun st => { st with skipLeft := x.ext 0 }), .ok)
  | (s, _, m) => (s, m)

/-- SELECT (R269). -/
def execSelect (sh : ShelfNo) (core : BitVec 8) (e : Engine) (s : State) : Out :=
  .next (s.perform sh.toNat core.toNat (engNo e) 0x0700 (fun s c _ x => s.select core.toNat (engNo e) c x))

end Sys2Proof.Machine
end

