-- ==== Sys2Proof/Machine/EngineM.lean ====
section
/-! DEFINITION. The matrix engine (R258, R259, R285 to R292, R296, R300): MMA, MMA_SPARSE and the accumulator folios. -/

namespace Sys2Proof.Machine

/-! ## Products -/

/-- The elements of a run of k elements cut into contributions: single products, or blocks (Table 10-4). -/
def chunksOf {α : Type} (n : Nat) (l : List α) : List (List α) := (List.range (l.length / n)).map (fun i => (l.drop (n * i)).take n)

/-- Products per contribution of an operand pair: one, or the block (Table 10-4). -/
def pairBlock (code : Nat) : Nat := max 1 (fmtBlock code)

/-- Contributions of one dense row and column, ascending in k. -/
def densePairs (code : Nat) (a b : List Val) : List (List (Val × Val)) := chunksOf (pairBlock code) (a.zip b)

/-- One segment of 2:4 form (R287): sixteen stored values with the position each takes among its 32 logical elements. -/
def sparseSegment (f : Fmt) (bs : List Byte) : List (Nat × Val) :=
  let scale := if f.block = 0 then some (1, 0) else scaleOf f.hb (bs.getD 12 0).toNat
  (List.range 16).map (fun i =>
    let nib := packedAt ((bs.drop 8).take 4) 4 (i / 2)
    let pos := 4 * (i / 2) + (if i % 2 = 0 then nib % 4 else nib / 4 % 4)
    (pos, (f.elem.value (packedAt (bs.take 8) 4 i)).scaled scale))

/-- The two stored elements of a group in ascending order of the position they name. -/
def groupOrder : List (Nat × Val) → List (Nat × Val)
  | x :: y :: rest => (if y.1 < x.1 then [y, x] else [x, y]) ++ groupOrder rest
  | l => l

/-- Contributions of a dense row and a column in 2:4 form: stored element i multiplies the element of A at its position. -/
def sparsePairs (f : Fmt) (code : Nat) (a : List Val) (bs : List Byte) : List (List (Val × Val)) :=
  let seg := if f.block = 0 then 12 else 13
  (chunksOf 32 a).zip (chunksOf seg bs) |>.flatMap (fun q =>
    let ps := (groupOrder (sparseSegment f q.2)).map (fun x => (q.1.getD x.1 .zero, x.2))
    if pairBlock code = 1 then ps.map (fun x => [x]) else [ps])

/-- Contributions added to an accumulator one after another (R291). -/
def La.accumulate (x : La) (l : List (List (Val × Val))) : La := l.foldl (fun x c => x.contribute (c.map (fun q => productOf q.1 q.2))) x

/-- The accumulator an MMA adds to: cleared with the folio's ANCHOR, given it where unset, or as it is (R259). -/
def accReady (a : Acc) (clear : Bool) (anchor : Int) : La :=
  let x := laOf a
  if clear || !x.anchored then La.cleared anchor else x

/-- MMA and MMA_SPARSE on core j: accumulator D + r × NC + c gains row r of A times column c of B. -/
def State.mma (s : State) (c : PassCtx) (j : Nat) (x : Folio) : State × Met :=
  let k := x.ext 0
  let nc := x.ext 2
  let sparse := x.opcode == 0x0101
  let code := x.fmt .a
  let widthB := ((x.walk .b).map (fun w => w.2.2)).getD 0
  match s.readRows c j (x.space .a) (fmtBytes code k) (x.rows .a j) with
  | (s, _, .error e a) => (s, .error e a)
  | (s, ra, .ok) =>
    match s.readRows c j (x.space .b) widthB (x.rows .b j) with
    | (s, _, .error e a) => (s, .error e a)
    | (s, rb, .ok) =>
      let d := x.start .d j / 16
      let core := s.coreOf c.sh j
      let f := (fmtOf code).getD (.scalar (.int 4 0) 4 [])
      let out := ((List.range ra.length).zip ra).flatMap (fun r =>
        ((List.range rb.length).zip rb).map (fun col =>
          let i := d + r.1 * nc + col.1
          let va := fmtRead code k r.2
          let pairs := if sparse then sparsePairs f code va col.2 else densePairs code va (fmtRead (x.fmt .b) k col.2)
          (i, ((accReady (core.accAt i) x.clear x.anchor).accumulate pairs).toWord)))
      (s.modCore c.sh j (fun core => out.foldl (fun core q => core.setAcc q.1 q.2) core), .ok)

/-- MMA (R258, R291). -/
def execMma (sh : ShelfNo) (core : BitVec 8) (s : State) : Out :=
  .next (s.perform sh.toNat core.toNat 0 0x0100 (fun s c _ x => s.mma c core.toNat x))

/-- MMA_SPARSE (R287). -/
def execMmaSparse (sh : ShelfNo) (core : BitVec 8) (s : State) : Out :=
  .next (s.perform sh.toNat core.toNat 0 0x0101 (fun s c _ x => s.mma c core.toNat x))

/-- ACC_CLEAR (R259, R288). -/
def State.accClear (s : State) (c : PassCtx) (j : Nat) (x : Folio) : State × Met :=
  let d := x.start .d j / 16
  (s.modCore c.sh j (fun core => (List.range (x.ext 0)).foldl (fun core i => core.setAcc (d + i) (La.cleared x.anchor).toWord) core), .ok)

/-- ACC_CLEAR (R288). -/
def execAccClear (sh : ShelfNo) (core : BitVec 8) (s : State) : Out :=
  .next (s.perform sh.toNat core.toNat 0 0x0102 (fun s c _ x => s.accClear c core.toNat x))

/-! ## Leaving the accumulator -/

/-- Elements converted from LA128 words join the folio's records and the WRAPPED count (R296). -/
def State.noteConverted (s : State) (sh j e slot lap : Nat) (notes : List Nat) : State :=
  let count := fun k => (notes.filter (fun n => n == k)).length
  let s := if notes.contains 1 then (s.note sh j e slot lap 12 (count 1)).1 else s
  let s := if notes.contains 3 then (s.note sh j e slot lap 11 (count 3)).1 else s
  if notes.contains 2 then
    ((s.note sh j e slot lap 10 (count 2)).1).countSlip sh (fun k => { k with wrapped := k.wrapped + count 2 })
  else s

/-- The draws of n elements of a folio from an ordinal on (R299); zeros with ROUND 0. -/
def State.drawsOf (s : State) (c : PassCtx) (j : Nat) (x : Folio) (tensor lap first n : Nat) : List Nat :=
  let seed := s.seedOf c
  (List.range n).map (fun i => if x.stoch then drawOf seed tensor x.slot lap (c.sliver j) (first + i) else 0)

/-- ACC_DRAIN (R296, R300). -/
def State.accDrain (s : State) (c : PassCtx) (j : Nat) (e : Exec) (x : Folio) : State × Met :=
  let n := x.ext 0
  let a := x.start .a j / 16
  let core := s.coreOf c.sh j
  let outs := (List.range n).map (fun i => (laOf (core.accAt (a + i))).convert (fmtIsInt (x.fmt .d)))
  let bs := fmtWrite (x.fmt .d) (outs.map (·.res)) (outs.map (·.bad)) x.stoch (s.drawsOf c j x (x.f 7 16 16) e.lap 0 n)
  match s.localWrite c j (x.space .d) (x.start .d j) bs with
  | (s, .ok) => (s.noteConverted c.sh j 0 x.slot e.lap (outs.map (·.note)), .ok)
  | (s, m) => (s, m)

/-- ACC_DRAIN (R296). -/
def execAccDrain (sh : ShelfNo) (core : BitVec 8) (s : State) : Out :=
  .next (s.perform sh.toNat core.toNat 0 0x0103 (fun s c e x => s.accDrain c core.toNat e x))

/-- ACC_STORE: the LA128 words as they are (R288). -/
def State.accStore (s : State) (c : PassCtx) (j : Nat) (x : Folio) : State × Met :=
  s.localWrite c j (x.space .d) (x.start .d j) ((s.coreOf c.sh j).accBytes (x.start .a j) (16 * x.ext 0))

/-- ACC_STORE (R288). -/
def execAccStore (sh : ShelfNo) (core : BitVec 8) (s : State) : Out :=
  .next (s.perform sh.toNat core.toNat 0 0x0104 (fun s c _ x => s.accStore c core.toNat x))

/-- ACC_LOAD (R292): blank accumulators take the ANCHOR, then each word is added. -/
def State.accLoad (s : State) (c : PassCtx) (j : Nat) (x : Folio) : State × Met :=
  match s.localRead c j (x.space .a) (x.start .a j) (16 * x.ext 0) with
  | (s, bs, .ok) =>
    let d := x.start .d j / 16
    (s.modCore c.sh j (fun core => (List.range (x.ext 0)).foldl (fun core i =>
      let word : Acc := BitVec.ofNat 128 (leVal ((bs.drop (16 * i)).take 16))
      core.setAcc (d + i) ((accReady (core.accAt (d + i)) false x.anchor).load (laOf word)).toWord) core), .ok)
  | (s, _, m) => (s, m)

/-- ACC_LOAD (R292). -/
def execAccLoad (sh : ShelfNo) (core : BitVec 8) (s : State) : Out :=
  .next (s.perform sh.toNat core.toNat 0 0x0105 (fun s c _ x => s.accLoad c core.toNat x))

end Sys2Proof.Machine
end

