-- ==== Sys2Proof/Machine/EngineV.lean ====
section
/-! DEFINITION. The vector engine (R301 to R303): ELEMWISE, CONVERT and REDUCE. -/

namespace Sys2Proof.Machine

/-! ## Functions with no dyadic value (R302) -/

/-- Integer square root, bit by bit from bit k − 1. -/
def isqrtN : Nat → Nat → Nat → Nat
  | 0, _, r => r
  | k + 1, n, r => if (r + 2 ^ k) * (r + 2 ^ k) ≤ n then isqrtN k n (r + 2 ^ k) else isqrtN k n r

/-- floor(√n). -/
def isqrt (n : Nat) : Nat := isqrtN (n.log2 / 2 + 1) n 0

/-- Least c with m ≤ 2^c. -/
def clog2 (m : Nat) : Nat := if m ≤ 1 then 0 else (m - 1).log2 + 1

/-- 1 / (m × 2^e), m > 0. -/
def Mag.recip (m : Nat) (e : Int) : Mag :=
  { floorAt := fun k => if 0 ≤ k - e then 2 ^ (k - e).toNat / m else 0
    exactAt := fun k => if 0 ≤ k - e then 2 ^ (k - e).toNat % m == 0 else false
    log := -e - clog2 m }

/-- 1 / √(m × 2^e), m > 0. -/
def Mag.rsqrt (m : Nat) (e : Int) : Mag :=
  let q := fun k : Int => if 0 ≤ 2 * k - e then 2 ^ (2 * k - e).toNat / m else 0
  { floorAt := fun k => isqrt (q k)
    exactAt := fun k => decide (0 ≤ 2 * k - e) && 2 ^ (2 * k - e).toNat % m == 0 && isqrt (q k) * isqrt (q k) == q k
    log := (-e - clog2 m) / 2 }

/-- Fraction bits in which an exponential is computed. -/
def expBits : Nat := 1024

/-- Taylor terms of e^t for t in units of 2^−expBits, from term number n on. -/
def expSeries : Nat → Nat → Int → Int → Int
  | 0, _, _, _ => 0
  | fuel + 1, n, term, t => term + expSeries fuel (n + 1) (term * t / (2 ^ expBits : Nat) / (n + 1 : Nat)) t

/-- Squared k times, in units of 2^−expBits. -/
def squareFix : Nat → Nat → Nat
  | 0, y => y
  | k + 1, y => squareFix k (y * y / 2 ^ expBits)

/-- e^x for x = m × 2^e with 0 < |x| ≤ 1,000, from its first 1,024 fraction bits: e^(x / 2,048) by its series, squared eleven times. The
value is irrational; that no rounding boundary falls within the error is UNVERIFIED (notes/assumptions/35.md). -/
def Mag.exp (m e : Int) : Mag :=
  let t := shiftInt m (e + (expBits : Int) - 11)
  let y := squareFix 11 (expSeries 200 0 ((2 ^ expBits : Nat) : Int) t).toNat
  { floorAt := fun k => if 0 ≤ k then y * 2 ^ k.toNat / 2 ^ expBits else y / 2 ^ (expBits + (-k).toNat)
    exactAt := fun _ => false
    log := (y.log2 : Int) - expBits }

/-- EXP of a value. -/
def expOf (v : Val) : Res :=
  match v with
  | .nan => .val .nan
  | .inf neg => .val (if neg then .zero else .inf false)
  | .negZero => .val (.fin 1 0)
  | .fin m e =>
    if m = 0 then .val (.fin 1 0)
    else if dyLt 1000 0 m e then .val (.inf false)
    else if dyLt m e (-1000) 0 then .mag false (Mag.ofDyadic 1 (-2000))
    else .mag false (Mag.exp m e)

/-- RSQRT of a value. -/
def rsqrtOf (v : Val) : Res :=
  match v with
  | .nan => .val .nan
  | .inf neg => .val (if neg then .nan else .zero)
  | .negZero => .val (.inf true)
  | .fin m e => if m = 0 then .val (.inf false) else if m < 0 then .val .nan else .mag false (Mag.rsqrt m.toNat e)

/-- RECIP of a value. -/
def recipOf (v : Val) : Res :=
  match v with
  | .nan => .val .nan
  | .inf neg => .val (if neg then .negZero else .zero)
  | .negZero => .val (.inf true)
  | .fin m e => if m = 0 then .val (.inf false) else .mag (decide (m < 0)) (Mag.recip m.natAbs e)

/-! ## Element functions -/

/-- An integer element's value. -/
def Val.int : Val → Int
  | .fin m e => shiftInt m e
  | _ => 0

/-- A two-operand function, with the addend D of FMA. -/
abbrev ElemFn := Val → Val → Val → Res

def fnAdd : ElemFn := fun a b _ => .val (a.add b)
def fnSub : ElemFn := fun a b _ => .val (a.add b.neg)
def fnMul : ElemFn := fun a b _ => .val (a.mul b)
def fnFma : ElemFn := fun a b d => .val ((a.mul b).add d)
def fnMax : ElemFn := fun a b _ => .val (a.max2 b)
def fnMin : ElemFn := fun a b _ => .val (a.min2 b)

/-- Integer ADD, SUB, MUL and FMA wrap modulo 2^n of FMT_D (R302). -/
def wrapped (bits : Nat) (f : Int → Int → Int → Int) : ElemFn := fun a b d => .val (.fin (sext bits (wrapInt bits (f a.int b.int d.int))) 0)

/-- Width of a scalar format's element. -/
def fmtBits (code : Nat) : Nat := ((fmtOf code).map (fun f => f.elem.bits)).getD 32

/-- One output row of an element function: its bytes. -/
def State.rowBytes (s : State) (c : PassCtx) (j : Nat) (e : Exec) (x : Folio) (first : Nat) (res : List Res) (bads : List Bool) : List Byte :=
  fmtWrite (x.fmt .d) res bads x.stoch (s.drawsOf c j x x.param e.lap first res.length)

/-- Rows of an ELEMWISE folio of two operands, one after another: row number, addresses of D, A and B. -/
def State.elemRows (s : State) (c : PassCtx) (j : Nat) (e : Exec) (x : Folio) (fn : ElemFn) (useD : Bool) :
    List (Nat × Nat × Nat × Nat) → State × Met
  | [] => (s, .ok)
  | (i, d, a, b) :: rest =>
    let n := x.ext 0
    match s.localRead c j (x.space .a) a (fmtBytes (x.fmt .a) n) with
    | (s, _, .error k w) => (s, .error k w)
    | (s, ba, .ok) =>
      match s.localRead c j (x.space .b) b (fmtBytes (x.fmt .b) n) with
      | (s, _, .error k w) => (s, .error k w)
      | (s, bb, .ok) =>
        match (if useD then s.localRead c j (x.space .d) d (fmtBytes (x.fmt .d) n) else (s, [], .ok)) with
        | (s, _, .error k w) => (s, .error k w)
        | (s, bd, .ok) =>
          let vd := if useD then fmtRead (x.fmt .d) n bd else List.replicate n .zero
          let res := ((fmtRead (x.fmt .a) n ba).zip ((fmtRead (x.fmt .b) n bb).zip vd)).map (fun q => fn q.1 q.2.1 q.2.2)
          match s.localWrite c j (x.space .d) d (s.rowBytes c j e x (i * n) res (List.replicate n false)) with
          | (s, .ok) => State.elemRows s c j e x fn useD rest
          | (s, m) => (s, m)

/-- The rows of a folio with their numbers: D, A and B. -/
def Folio.rows3 (x : Folio) (j : Nat) : List (Nat × Nat × Nat × Nat) :=
  let ds := x.rows .d j
  (List.range ds.length).zip (ds.zip ((x.rows .a j).zip (x.rows .b j)))

/-- ELEMWISE of two operands (R302): the float function, or the integer one where every format is an integer. -/
def State.elemwise (s : State) (c : PassCtx) (j : Nat) (e : Exec) (x : Folio) (fn ifn : ElemFn) (useD : Bool) : State × Met :=
  s.elemRows c j e x (if fmtIsInt (x.fmt .d) then ifn else fn) useD (x.rows3 j)

/-- ELEMWISE_ADD (R302). -/
def execElemwiseAdd (sh : ShelfNo) (core : BitVec 8) (s : State) : Out :=
  .next (s.perform sh.toNat core.toNat 1 0x0200 (fun s c e x =>
    s.elemwise c core.toNat e x fnAdd (wrapped (fmtBits (x.fmt .d)) (fun a b _ => a + b)) false))

/-- ELEMWISE_SUB (R302). -/
def execElemwiseSub (sh : ShelfNo) (core : BitVec 8) (s : State) : Out :=
  .next (s.perform sh.toNat core.toNat 1 0x0201 (fun s c e x =>
    s.elemwise c core.toNat e x fnSub (wrapped (fmtBits (x.fmt .d)) (fun a b _ => a - b)) false))

/-- ELEMWISE_MUL (R302). -/
def execElemwiseMul (sh : ShelfNo) (core : BitVec 8) (s : State) : Out :=
  .next (s.perform sh.toNat core.toNat 1 0x0202 (fun s c e x =>
    s.elemwise c core.toNat e x fnMul (wrapped (fmtBits (x.fmt .d)) (fun a b _ => a * b)) false))

/-- ELEMWISE_FMA (R302): D is read in FMT_D. -/
def execElemwiseFma (sh : ShelfNo) (core : BitVec 8) (s : State) : Out :=
  .next (s.perform sh.toNat core.toNat 1 0x0203 (fun s c e x =>
    s.elemwise c core.toNat e x fnFma (wrapped (fmtBits (x.fmt .d)) (fun a b d => a * b + d)) true))

/-- ELEMWISE_MAX (R302). -/
def execElemwiseMax (sh : ShelfNo) (core : BitVec 8) (s : State) : Out :=
  .next (s.perform sh.toNat core.toNat 1 0x0204 (fun s c e x => s.elemwise c core.toNat e x fnMax fnMax false))

/-- ELEMWISE_MIN (R302). -/
def execElemwiseMin (sh : ShelfNo) (core : BitVec 8) (s : State) : Out :=
  .next (s.perform sh.toNat core.toNat 1 0x0205 (fun s c e x => s.elemwise c core.toNat e x fnMin fnMin false))

/-- One row of a one-operand folio: its results, which elements spoil their block, and the notes of Table 10-6. -/
abbrev RowFn := List Byte → List (Res × Bool × Nat)

/-- Rows of a one-operand ELEMWISE folio, one after another. -/
def State.unaryRows (s : State) (c : PassCtx) (j : Nat) (e : Exec) (x : Folio) (width : Nat) (fn : RowFn) :
    List (Nat × Nat × Nat) → State × Met
  | [] => (s, .ok)
  | (i, d, a) :: rest =>
    match s.localRead c j (x.space .a) a width with
    | (s, _, .error k w) => (s, .error k w)
    | (s, ba, .ok) =>
      let outs := fn ba
      match s.localWrite c j (x.space .d) d (s.rowBytes c j e x (i * x.ext 0) (outs.map (·.1)) (outs.map (·.2.1))) with
      | (s, .ok) => State.unaryRows (s.noteConverted c.sh j 1 x.slot e.lap (outs.map (·.2.2))) c j e x width fn rest
      | (s, m) => (s, m)

/-- The rows of a one-operand folio with their numbers. -/
def Folio.rows2 (x : Folio) (j : Nat) : List (Nat × Nat × Nat) :=
  let ds := x.rows .d j
  (List.range ds.length).zip (ds.zip (x.rows .a j))

/-- SCALE, EXP, RSQRT or RECIP of an integer element: a free value of FMT_D (R301; notes/assumptions/29.md). -/
def Folio.intFn (x : Folio) (v : Val) : Res :=
  .val (.fin (sext (fmtBits (x.fmt .d)) (wrapInt (fmtBits (x.fmt .d))
    (Config.intFunction x.opcode (x.f 7 0 32) (x.fmt .a) (x.fmt .d) v.int).toNat)) 0)

/-- A one-operand ELEMWISE folio of an element function, on floating-point or integer formats. -/
def State.unary (s : State) (c : PassCtx) (j : Nat) (e : Exec) (x : Folio) (fn : Val → Res) : State × Met :=
  let n := x.ext 0
  let fn := if fmtIsInt (x.fmt .d) then x.intFn else fn
  s.unaryRows c j e x (fmtBytes (x.fmt .a) n) (fun bs => (fmtRead (x.fmt .a) n bs).map (fun v => (fn v, false, 0))) (x.rows2 j)

/-- A NaN or an infinity spoils the block of an MX or HB destination (R300). -/
def Val.spoils : Val → Bool
  | .nan => true
  | .inf _ => true
  | _ => false

/-- CONVERT (R296, R300, R302). -/
def State.convert (s : State) (c : PassCtx) (j : Nat) (e : Exec) (x : Folio) : State × Met :=
  let n := x.ext 0
  if x.fmt .a = 0x40 then
    s.unaryRows c j e x (16 * n) (fun bs => (elements 16 bs).map (fun w =>
      let o := (laOf (BitVec.ofNat 128 (leVal w))).convert (fmtIsInt (x.fmt .d))
      (o.res, o.bad, o.note))) (x.rows2 j)
  else
    s.unaryRows c j e x (fmtBytes (x.fmt .a) n) (fun bs => (fmtRead (x.fmt .a) n bs).map (fun v => (.val v, v.spoils, 0))) (x.rows2 j)

/-- CONVERT (R300). -/
def execConvert (sh : ShelfNo) (core : BitVec 8) (s : State) : Out :=
  .next (s.perform sh.toNat core.toNat 1 0x0206 (fun s c e x => s.convert c core.toNat e x))

/-- SCALE (R302): W7 [31:0] as FP32. -/
def execScale (sh : ShelfNo) (core : BitVec 8) (s : State) : Out :=
  .next (s.perform sh.toNat core.toNat 1 0x0207 (fun s c e x =>
    s.unary c core.toNat e x (fun v => .val (v.mul (fp32.value (x.f 7 0 32))))))

/-- EXP (R302). -/
def execExp (sh : ShelfNo) (core : BitVec 8) (s : State) : Out :=
  .next (s.perform sh.toNat core.toNat 1 0x0208 (fun s c e x => s.unary c core.toNat e x expOf))

/-- RSQRT (R302). -/
def execRsqrt (sh : ShelfNo) (core : BitVec 8) (s : State) : Out :=
  .next (s.perform sh.toNat core.toNat 1 0x0209 (fun s c e x => s.unary c core.toNat e x rsqrtOf))

/-- RECIP (R302). -/
def execRecip (sh : ShelfNo) (core : BitVec 8) (s : State) : Out :=
  .next (s.perform sh.toNat core.toNat 1 0x020A (fun s c e x => s.unary c core.toNat e x recipOf))

/-! ## REDUCE (R303) -/

/-- An integer total is exact modulo 2^64 and then saturated to FMT_D. -/
def intTotal (l : List Int) : Res := .val (.fin (sext 64 (wrapInt 64 (l.foldl (· + ·) 0))) 0)

/-- Rows of a REDUCE folio: row i of A gives the element at row i of D. -/
def State.reduce (s : State) (c : PassCtx) (j : Nat) (e : Exec) (x : Folio) (fn ifn : List Val → Res) : State × Met :=
  let n := x.ext 0
  let f := if fmtIsInt (x.fmt .d) then ifn else fn
  (x.rows2 j).foldl (fun (r : State × Met) q =>
    if r.2 ≠ .ok then r
    else
      match r.1.localRead c j (x.space .a) q.2.2 (fmtBytes (x.fmt .a) n) with
      | (s, _, .error k w) => (s, .error k w)
      | (s, bs, .ok) => s.localWrite c j (x.space .d) q.2.1 (s.rowBytes c j e x q.1 [f (fmtRead (x.fmt .a) n bs)] [false])) (s, .ok)

/-- REDUCE_SUM (R303). -/
def execReduceSum (sh : ShelfNo) (core : BitVec 8) (s : State) : Out :=
  .next (s.perform sh.toNat core.toNat 1 0x0300 (fun s c e x =>
    s.reduce c core.toNat e x (fun l => .val (tree fp32Add (l.map Val.toFp32))) (fun l => intTotal (l.map Val.int))))

/-- REDUCE_MAX (R303). -/
def execReduceMax (sh : ShelfNo) (core : BitVec 8) (s : State) : Out :=
  .next (s.perform sh.toNat core.toNat 1 0x0301 (fun s c e x =>
    s.reduce c core.toNat e x (fun l => .val (tree Val.max2 (l.map Val.toFp32))) (fun l => .val (tree Val.max2 l))))

/-- REDUCE_MIN (R303). -/
def execReduceMin (sh : ShelfNo) (core : BitVec 8) (s : State) : Out :=
  .next (s.perform sh.toNat core.toNat 1 0x0302 (fun s c e x =>
    s.reduce c core.toNat e x (fun l => .val (tree Val.min2 (l.map Val.toFp32))) (fun l => .val (tree Val.min2 l))))

/-- REDUCE_SUMSQ (R303): each square rounded to FP32. -/
def execReduceSumsq (sh : ShelfNo) (core : BitVec 8) (s : State) : Out :=
  .next (s.perform sh.toNat core.toNat 1 0x0303 (fun s c e x =>
    s.reduce c core.toNat e x (fun l => .val (tree fp32Add (l.map (fun v => (v.mul v).toFp32)))) (fun l => intTotal (l.map (fun v => v.int * v.int)))))

end Sys2Proof.Machine
end

