-- ==== Sys2Proof/Machine/EngineS.lean ====
section
/-! DEFINITION. The stream engine (R251 to R258, Table 9-9): COPY, ADD_AT, FILL, GATHER, SCATTER, SIGNAL_REMOTE, ENQUEUE, SLIP_WRITE. -/

namespace Sys2Proof.Machine

/-- A row performs a folio that may have to wait: none leaves it started, for a later row of the same opcode to go on with. Its engine has then
stalled: on DMA for request room (R385), on APPEND for an append (R454). -/
def State.performWait (s : State) (sh j op : Nat) (f : State → PassCtx → Exec → Folio → State × Option Met) : State :=
  if !s.running then s
  else
    match (s.streamOf sh j 2).startedOp op, s.runCtx sh with
    | some x, some c =>
      match f s c x ⟨x.slot, x.words⟩ with
      | (s, none) =>
        (s.setExec sh j 2 x.slot x.lap (fun y => { y with waits := y.phase == .started })).modStream sh j 2 (fun st =>
          { st with reason := if op < 0x0800 then 4 else 6 })
      | (s, some .ok) => s.setExec sh j 2 x.slot x.lap (fun y => if y.phase = .started then { y with phase := .performed } else y)
      | (s, some (.error code a)) => s.folioFail sh j 2 (((s.streamOf sh j 2).startedOp op).getD x) code a
    | _, _ => s

/-! ## Rows -/

/-- Bytes of a row's source; none where a peer holds them. -/
def State.rowSource (s : State) (c : PassCtx) (j : Nat) (ext : Option Ext) (n : Nat) (side : Nat × Int) : State × Option (List Byte) × Met :=
  if side.1 = 3 then
    let g := Ext.at ext side.2
    if s.ownChip g then
      match s.extRead c g n with
      | (s, bs, m) => (s, some bs, m)
    else (s, none, .ok)
  else
    match s.localRead c j side.1 side.2.toNat n with
    | (s, bs, m) => (s, some bs, m)

/-- Rows read in order up to the first error. -/
def State.rowsSource (s : State) (c : PassCtx) (j : Nat) (ext : Option Ext) (n : Nat) : List Row → State × List (Row × Option (List Byte)) × Met
  | [] => (s, [], .ok)
  | r :: rs =>
    match s.rowSource c j ext n r.src with
    | (s, bs, .ok) =>
      match State.rowsSource s c j ext n rs with
      | (s, l, m) => (s, (r, bs) :: l, m)
    | (s, _, m) => (s, [], m)

/-- A row's request to a peer, in packets of at most 256 bytes, on the shelf's channel (R362): READ towards (space, byte), WRITE or ADD
from bytes. Identifiers are answered; LINK_LOST at once where the peer cannot be reached (R369, R379). -/
def State.askPeer (s : State) (c : PassCtx) (cls typ g n : Nat) (bs : List Byte) (who : Nat → ReqFor) : State × List Nat × Met :=
  let peer := g / 2 ^ 48
  match s.reachPeer peer c.e.carrel c.e.tag g with
  | (s, false) => (s, [], .error 0x5001 (g % 2 ^ 48))
  | (s, true) =>
    let r := (pieces n).foldl (fun (r : State × List Nat) q =>
      let a := r.1.ilnRequest peer (1 + c.sh % 2) cls c.e.carrel q.2 typ (g % 2 ^ 48 + q.1) ((bs.drop q.1).take q.2) (who q.1)
      (a.1, r.2 ++ [a.2])) (s, [])
    (r.1, r.2, .ok)

/-- A folio of stream 2 waits for requests: its engine waits for responses on DMA (Table 18-4). -/
def State.awaitReqs (s : State) (sh j slot lap : Nat) (ids : List Nat) : State :=
  (s.setExec sh j 2 slot lap (fun y => { y with reqs := y.reqs ++ ids })).modStream sh j 2 (fun st => { st with reason := 4 })

/-- A row lands: locally, in this chip's memory, or as requests to a peer, whose identifiers the folio waits for. -/
def State.rowLand (s : State) (c : PassCtx) (j : Nat) (ext : Option Ext) (n : Nat) (add : Option Nat) (slot lap : Nat)
    (q : Row × Option (List Byte)) : State × Met :=
  let who := fun (sp a off : Nat) => ReqFor.folio c.sh j 2 slot lap sp (a + off)
  match q.2 with
  | none =>
    match s.askPeer c 3 0 (Ext.at ext q.1.src.2) n [] (who q.1.dst.1 q.1.dst.2.toNat) with
    | (s, ids, m) => (s.awaitReqs c.sh j slot lap ids, m)
  | some bs =>
    if q.1.dst.1 = 3 then
      let g := Ext.at ext q.1.dst.2
      if !s.ownChip g then
        match s.askPeer c (if add.isSome then 4 else 1) (add.getD 0) g n bs (who 0 0) with
        | (s, ids, m) => (s.awaitReqs c.sh j slot lap ids, m)
      else
        match add with
        | some typ => s.extAdd c g typ bs
        | none => s.extWrite c g bs
    else s.localWrite c j q.1.dst.1 q.1.dst.2.toNat bs

/-- Rows land in order; the first error stops, and rows before it stay as written (R272). -/
def State.rowsLand (s : State) (c : PassCtx) (j : Nat) (ext : Option Ext) (n : Nat) (add : Option Nat) (slot lap : Nat) :
    List (Row × Option (List Byte)) → State × Met
  | [] => (s, .ok)
  | q :: qs =>
    match s.rowLand c j ext n add slot lap q with
    | (s, .ok) => State.rowsLand s c j ext n add slot lap qs
    | (s, m) => (s, m)

/-- Whether a row goes to or comes from a peer. -/
def State.rowRemote (s : State) (ext : Option Ext) (r : Row) : Bool :=
  (r.src.1 == 3 && !s.ownChip (Ext.at ext r.src.2)) || (r.dst.1 == 3 && !s.ownChip (Ext.at ext r.dst.2))

/-- Rows of a transfer that find room among the 4,096 requests (R385): all of them where none goes to a peer. -/
def State.rowsFit (s : State) (ext : Option Ext) (n : Nat) (rows : List Row) : Nat :=
  if rows.any (s.rowRemote ext) then min rows.length ((4096 - s.iln.reqs.length) / max 1 (pieces n).length) else rows.length

/-- Some row goes to a window of this chip whose shelf holds posted traffic back (R265): the engine waits. -/
def State.rowsHeld (s : State) (ext : Option Ext) (n : Nat) (rows : List Row) : Bool :=
  rows.any (fun r => r.dst.1 == 3 && s.ownChip (Ext.at ext r.dst.2) && s.heldBack (Ext.at ext r.dst.2 % 2 ^ 48) n)

/-- Some row adds to a leaf of this chip that is moving (R342): the engine waits. -/
def State.rowsMoving (s : State) (c : PassCtx) (ext : Option Ext) (n : Nat) (rows : List Row) : Bool :=
  rows.any (fun r => r.dst.1 == 3 && s.ownChip (Ext.at ext r.dst.2) && s.addHeld c.e.carrel (Ext.at ext r.dst.2 % 2 ^ 48) n)

/-- A transfer's rows, from the first not yet moved; every source is read before anything lands (notes/assumptions/36.md). -/
def State.transfer (s : State) (c : PassCtx) (j : Nat) (x : Exec) (f : Folio) (add : Option Nat) : State × Option Met :=
  let n := f.ext 0
  match s.transferRows c j f with
  | (s, _, .error code a) => (s, some (.error code a))
  | (s, all, .ok) =>
    let ext := s.extOf c f
    let rows := all.drop x.moved
    let k := s.rowsFit ext n rows
    if s.rowsHeld ext n rows || (add.isSome && s.rowsMoving c ext n rows) then (s, none)
    else
    match s.rowsSource c j ext n (rows.take k) with
    | (s, l, m) =>
      match s.rowsLand c j ext n add f.slot x.lap l with
      | (s, .ok) =>
        (match m with
          | .ok => (s.setExec c.sh j 2 x.slot x.lap (fun y => { y with moved := y.moved + k }),
              if k < rows.length then none else some .ok)
          | e => (s, some e))
      | (s, e) => (s, some e)

/-- COPY (Table 9-9). -/
def execCopy (sh : ShelfNo) (core : BitVec 8) (s : State) : Out :=
  .next (s.performWait sh.toNat core.toNat 0x0400 (fun s c x f => s.transfer c core.toNat x f none))

/-- ADD_AT (Table 9-9, R346, R374). -/
def execAddAt (sh : ShelfNo) (core : BitVec 8) (s : State) : Out :=
  .next (s.performWait sh.toNat core.toNat 0x0401 (fun s c x f => s.transfer c core.toNat x f (some (addTypeOf (f.fmt .a)))))

/-- FILL (Table 9-9): rows of D from the pattern of W7. -/
def State.fillRows (s : State) (c : PassCtx) (j : Nat) (f : Folio) : State × Met :=
  let row := (List.replicate (f.ext 0 / 8) (leBytes 8 (wordAt f.ws 7).toNat)).flatten
  s.writeRows c j (f.space .d) ((f.rows .d j).map (fun (d : Nat) => (d, row)))

/-- FILL (Table 9-9). -/
def execFill (sh : ShelfNo) (core : BitVec 8) (s : State) : Out :=
  .next (s.perform sh.toNat core.toNat 2 0x0402 (fun s c _ f => s.fillRows c core.toNat f))

/-- GATHER (Table 9-9). -/
def execGather (sh : ShelfNo) (core : BitVec 8) (s : State) : Out :=
  .next (s.performWait sh.toNat core.toNat 0x0500 (fun s c x f => s.transfer c core.toNat x f none))

/-- SCATTER (Table 9-9): rows land in index order, so the highest index of duplicates remains. -/
def execScatter (sh : ShelfNo) (core : BitVec 8) (s : State) : Out :=
  .next (s.performWait sh.toNat core.toNat 0x0501 (fun s c x f => s.transfer c core.toNat x f none))

/-! ## SIGNAL_REMOTE (R267) -/

/-- Target fields of a SIGNAL packet (Table 13-2). -/
def signalTarget (sh core t inc : Nat) : Nat := sh + core * 2 ^ 12 + t * 2 ^ 20 + inc * 2 ^ 32

/-- The increment goes to a window of this chip, or across Interloan. -/
def State.signalRemote (s : State) (c : PassCtx) (j : Nat) (x : Exec) (f : Folio) : State × Option Met :=
  let n := f.f 7 0 16
  let sh := f.f 7 16 12
  let core := f.f 7 28 8
  let t := f.f 7 36 5
  let inc := f.f 7 48 8
  if s.ownChip (n * 2 ^ 48) then
    if s.heldBack (storeBase + 0x80000 * sh) 1 then (s, none)
    else
    match s.windowSignal sh core t inc c.e.carrel none with
    | (s, none) => (s, some .ok)
    | (s, some code) => (s, some (.error code 0))
  else if !s.reqRoom 1 then (s, none)
  else
    match s.reachPeer n c.e.carrel c.e.tag (n * 2 ^ 48) with
    | (s, false) => (s, some (.error 0x5001 0))
    | (s, true) =>
      let r := s.ilnRequest n (1 + c.sh % 2) 2 c.e.carrel 0 0 (signalTarget sh core t inc) [] (.folio c.sh j 2 x.slot x.lap 0 0)
      (r.1.awaitReqs c.sh j x.slot x.lap [r.2], some .ok)

/-- SIGNAL_REMOTE (R267). -/
def execSignalRemote (sh : ShelfNo) (core : BitVec 8) (s : State) : Out :=
  .next (s.performWait sh.toNat core.toNat 0x0600 (fun s c x f => s.signalRemote c core.toNat x f))

/-! ## ENQUEUE and SLIP_WRITE (R273) -/

/-- The append a core's S engine holds for, as a started folio. -/
def State.appending (s : State) (sh j : Nat) : Option Exec :=
  (s.streamOf sh j 2).execs.find? (fun y => y.phase == .started && decide (0x0800 ≤ (Folio.mk y.slot y.words).opcode))

/-- A started append whose target ring or source is refused ends as skipped and logged, with FOLIO_DENIED (R273). -/
def State.appendRefused (s : State) (sh j : Nat) : State :=
  match s.appending sh j with
  | some x => s.refuseStarted sh j 2 x 5
  | none => s

/-- The append is handed to Circulation, once; it is done by ENQUEUE_APPEND. -/
def State.enqueueFolio (s : State) (c : PassCtx) (j : Nat) (f : Folio) (src : Nat) : State × Option Met :=
  if s.cir.waits.any (fun w => w.who == .folio c.sh j) then (s, none)
  else
    match s.ringOf c.e.carrel false (f.param % 32) with
    | none => (s.appendRefused c.sh j, none)
    | some k => ({ s with cir := { s.cir with waits := s.cir.waits ++ [⟨c.e.carrel, k, f.ext 0, src, .folio c.sh j⟩] } }, none)
/-- ENQUEUE (R273). -/
def execEnqueue (sh : ShelfNo) (core : BitVec 8) (s : State) : Out :=
  .next (s.performWait sh.toNat core.toNat 0x0800 (fun s c _ f =>
    s.enqueueFolio c core.toNat f (f.enqSource (s.extOf c f) core.toNat % 2 ^ 48)))

/-- SLIP_WRITE (R273). -/
def execSlipWrite (sh : ShelfNo) (core : BitVec 8) (s : State) : Out :=
  .next (s.performWait sh.toNat core.toNat 0x0801 (fun s c _ f =>
    s.enqueueFolio c core.toNat f (storeAddr c.sh (c.base + f.start .a core.toNat))))

end Sys2Proof.Machine
end

