-- ==== Sys2Proof/Machine/Power.lean ====
section
/-! DEFINITION. The Power unit: operating points and caps (R434, R435), lift (R436), headroom classes (R437), temperature and
emergency throttle (R438 to R440, R353), the rail (R74 to R76), and the power domains (R41 to R43, R432, R433). -/

namespace Sys2Proof.Machine

/-! ## Operating points and the rail (Tables 2-13, 7-4) -/


/-- Supply in mV of range r at an operating point (Table 2-13, or the table of the calibration section in use under R97, R434). -/
def State.supply (s : State) (r op : Nat) : Nat :=
  if s.derated then (if op = 0 then 400 else if op = 1 then 430 else if op = 2 then 460 else if op = 3 then 500 else 560)
  else Config.calSupply s.ss.calUse.bytes r op

/-- The generic boot-ROM VCORE_REQ in mV of an operating point (Table 2-13). -/
def genericRequest (op : Nat) : Nat :=
  if op = 0 then 420 else if op = 1 then 450 else if op = 2 then 480 else if op = 3 then 520 else 580

/-- VCORE_REQ in mV for range r at an operating point (Table 2-13, R74): a calibrated part may publish a lower value. -/
def State.request (s : State) (r op : Nat) : Nat :=
  if s.derated then genericRequest op else min (genericRequest op) (Config.calRequest s.ss.calUse.bytes r op)

/-- Running operating point of a range, and the point fixed for the next period (Table 17-4). -/
def State.opOf (s : State) (r : Nat) : Nat := s.field (R.PWR_RANGE_STATE r) 0 3
def State.nextOp (s : State) (r : Nat) : Nat := s.field (R.PWR_RANGE_STATE r) 3 3
def State.setOp (s : State) (r op : Nat) : State := s.setField (R.PWR_RANGE_STATE r) 0 3 op
def State.setNextOp (s : State) (r op : Nat) : State := s.setField (R.PWR_RANGE_STATE r) 3 3 op

/-- Clock of a shelf's range in MHz. -/
def State.shelfMHz (s : State) (sh : Nat) : Nat := opMHz (s.opOf (sh / 64))

/-- 16 cc of a range's clock in fc (R436). -/
def wakeFc (mhz : Nat) : Nat := ceilDiv (16 * 1280) mhz

/-- Ranges whose compute domain is on, ascending. -/
def State.rangesOn (s : State) : List Nat := (List.range 64).filter (fun r => s.domainOn r)

/-- A range under emergency throttle (R439). -/
def State.throttled (s : State) (r : Nat) : Bool := s.pwr.emThermal.getLsbD r || s.pwr.emVcore.getLsbD r

/-- The highest request among running points and points fixed (R74); with no range on, Table 2-13's lowest. -/
def State.requestAll (s : State) : Nat :=
  if s.rangesOn.isEmpty then genericRequest 0
  else listMax (s.rangesOn.map (fun r => max (s.request r (s.opOf r)) (s.request r (s.nextOp r))))

/-- VCORE_REQ raised before a higher point is granted (R75). -/
def State.raiseVcore (s : State) : State :=
  let v := s.requestAll
  if s.pwr.vcore < v then { s with pwr := { s.pwr with vcore := v } }.alert 0 else s

/-! ## Thermal and stack levels -/

/-- Thermal level of a range: the higher of its dies' (R438). -/
def State.thermLevel (s : State) (r : Nat) : Nat := max (Tab.getD s.pwr.lvlC r 0) (Tab.getD s.pwr.lvlS r 0)

/-- Temperature level of the stacks adjacent to a range: columns 0–21, 22–42 or 43–63 (R353). -/
def State.stackLevel (s : State) (r : Nat) : Nat :=
  let k := if r ≤ 21 then 0 else if r ≤ 42 then 1 else 2
  max (Tab.getD s.pwr.lvlStk k 0) (Tab.getD s.pwr.lvlStk (k + 3) 0)

/-- A threshold as applied: 5 °C lower when derated (R97), in 1/8 °C. -/
def State.threshold (s : State) (reg lo : Nat) : Int :=
  8 * ((s.field reg lo 8 : Int) - (if s.derated then 5 else 0))

/-- A level after a reading in 1/8 °C: falls at 3 °C below a threshold, rises to the highest reached (R353, R438). -/
def levelAfter (cur : Nat) (t : Int) (thr : List Int) : Nat :=
  let up := (thr.filter (fun x => decide (x ≤ t))).length
  let keep := ((thr.take cur).filter (fun x => decide (x - 24 < t))).length
  max up keep

/-- The four thresholds of a die. -/
def State.thresholds (s : State) (reg : Nat) : List Int := [s.threshold reg 0, s.threshold reg 8, s.threshold reg 16, s.threshold reg 24]

/-- SHV_HEADROOM of a range written; a change of its class is signalled to the Bell (R403). -/
def State.setHeadroom (s : State) (r : Nat) (v : Word) : State :=
  let was := s.field (R.SHV_HEADROOM r) 0 2
  let s := s.setReg (R.SHV_HEADROOM r) v
  if fld v 0 2 = was then s else s.bell (1024 + r)

/-- Headroom class of a range (R437); `capped`: a cap lowered it. -/
def State.classOf (s : State) (r : Nat) (capped : Bool) : Nat :=
  if !s.domainOn r || s.reg (R.CFG_SHELF_WITHDRAWN r) == 0xFFFFFFFFFFFFFFFF || s.obs.selftest.any (fun t => t.range == r)
      || s.throttled r || decide (2 ≤ s.thermLevel r) || s.stackLevel r == 2 then 0
  else if s.thermLevel r == 1 || s.stackLevel r == 1 || capped then 1
  else if sext 16 (s.field (R.PWR_TEMP r) 0 16) ≤ s.threshold R.PWR_THERM_LIMIT 0 - 160
      ∧ sext 16 (s.field (R.PWR_TEMP r) 16 16) ≤ s.threshold R.PWR_SRAM_LIMIT 0 - 160 then 3
  else 2

/-! ## Fixing operating points (R434) -/

/-- A non-negative fraction: the estimates of R434 are compared exactly. -/
structure Frac where
  n : Nat
  d : Nat
  deriving DecidableEq, Repr

/-- Sum of fractions. -/
def Frac.add (a b : Frac) : Frac := if a.d = b.d then ⟨a.n + b.n, a.d⟩ else ⟨a.n * b.d + b.n * a.d, a.d * b.d⟩

/-- Sum of a list of fractions. -/
def Frac.sum (l : List Frac) : Frac := l.foldl Frac.add ⟨0, 1⟩

/-- a > n. -/
def Frac.excess (a : Frac) (n : Nat) : Bool := decide (n * a.d < a.n)

/-- The points being chosen: (range, code). -/
abbrev Points := List (Nat × Nat)

/-- est[r] at a point, in 1/8 W (R434). -/
def State.estimate (s : State) (p : PowerReading) (r op : Nat) : Frac :=
  let now := s.opOf r
  ⟨p.ranges.getD r 0 * opMHz op * s.supply r op ^ 2, max 1 (opMHz now * s.supply r now ^ 2)⟩

/-- total of R434 in 1/8 W. -/
def State.totalPower (s : State) (p : PowerReading) (ops : Points) : Frac :=
  Frac.add (Frac.sum (ops.map (fun x => s.estimate p x.1 x.2))) ⟨p.other, 1⟩

/-- Shelves of carrel c in range r. -/
def State.shelvesIn (s : State) (c r : Nat) : Nat := ((s.room c).filter (fun sh => sh / 64 == r)).length

/-- share_c of R434 in 1/8 W. -/
def State.carrelPower (s : State) (p : PowerReading) (ops : Points) (c : Nat) : Frac :=
  Frac.sum (ops.map (fun x => let e := s.estimate p x.1 x.2; ⟨e.n * s.shelvesIn c x.1, e.d * 64⟩))

/-- The hotter die of a range, which breaks ties in R434. -/
def State.heat (s : State) (r : Nat) : Int := max (sext 16 (s.field (R.PWR_TEMP r) 0 16)) (sext 16 (s.field (R.PWR_TEMP r) 16 16))

/-- The range R434 lowers next among `rs`: highest point, then hottest, then highest number; above 160 MHz only. -/
def State.lowerNext (s : State) (ops : Points) (rs : List Nat) : Option Nat :=
  let cand := ops.filter (fun x => rs.contains x.1 && decide (0 < x.2))
  (cand.foldl (fun best x =>
    match best with
    | none => some x
    | some y =>
      if y.2 < x.2 || (y.2 == x.2 && (decide (s.heat y.1 < s.heat x.1) || (decide (s.heat y.1 = s.heat x.1) && decide (y.1 < x.1)))) then some x
      else some y) none).map (·.1)

/-- One point lower on range r. -/
def lowerPoint (ops : Points) (r : Nat) : Points := ops.map (fun x => if x.1 = r then (r, x.2 - 1) else x)

/-- Lower points among `rs` while a power figure is over its cap. -/
def State.lowerWhile (s : State) (excess : Points → Bool) (rs : List Nat) : Nat → Points → Points
  | 0, ops => ops
  | k + 1, ops =>
    if excess ops then
      match s.lowerNext ops rs with
      | some r => s.lowerWhile excess rs k (lowerPoint ops r)
      | none => ops
    else ops

/-- Global cap in W: the lower of PWR_CAP.MGR_W, 1 to 49 acting as 50, and POWER_CAP; 0 none (R68, R434). -/
def State.globalCap (s : State) : Nat :=
  let m := let w := s.field R.PWR_CAP 0 8; if w = 0 then 0 else max 50 w
  let b := s.smb.cap.toNat
  if m = 0 then b else if b = 0 then m else min m b

/-- Carrels with a cap, ascending, with the cap in W. -/
def State.carrelCaps (s : State) : List (Nat × Nat) :=
  ((List.range 1024).filter (fun c => c != 0 && s.field (R.PWR_CARREL_CAP c) 0 8 != 0)).map (fun c => (c, s.field (R.PWR_CARREL_CAP c) 0 8))

/-- Ceiling of a range before caps (R434). -/
def State.ceilOf (s : State) (r : Nat) : Nat :=
  let t := if 2 ≤ s.thermLevel r then 1 else 4
  let k := if s.stackLevel r = 2 then 0 else if s.stackLevel r = 1 then 2 else 4
  min (s.field (R.PWR_RANGE_CEIL r) 0 3) (min t k)

/-- Shelves lending now: not those that a tally increment reached 16 cc ago (R436). -/
def State.lendingNow (s : State) : List Nat :=
  s.pwr.lending.filter (fun sh => match Tab.find? s.pwr.wakes sh with
    | some t => decide (s.stp.total < t + wakeFc (s.shelfMHz sh))
    | none => true)

/-- The points of R434 before lift. -/
def State.cappedPoints (s : State) (p : PowerReading) : Points :=
  let ops : Points := s.rangesOn.map (fun r => (r, min 3 (s.ceilOf r)))
  let ops := s.carrelCaps.foldl (fun ops cw =>
    s.lowerWhile (fun o => (s.carrelPower p o cw.1).excess (8 * cw.2)) ((List.range 64).filter (fun r => s.shelvesIn cw.1 r != 0)) 256 ops) ops
  let cap := s.globalCap
  if cap = 0 then ops else s.lowerWhile (fun o => (s.totalPower p o).excess (8 * cap)) (List.range 64) 256 ops

/-- Shelves of range r running a pass. -/
def State.runningIn (s : State) (r : Nat) : Nat := (s.shelves.filter (fun x => x.1 / 64 == r && x.2.run.isSome)).length

/-- Candidates for lift in the order of R436. -/
def State.liftOrder (s : State) (rs : List Nat) : List Nat :=
  ((List.range 65).reverse).flatMap (fun n => rs.filter (fun r => s.runningIn r == n))

/-- Lift granted one candidate after another (R436). -/
def State.grantLift (s : State) (p : PowerReading) (ops : Points) : Points :=
  if !s.regBit R.PWR_CTL 0 || s.derated then ops
  else
    let cost := max 1 (s.field R.PWR_LEND 32 8)
    let pts := s.cappedPoints p
    let cands := (pts.filter (fun x => x.2 == 3 && decide (4 ≤ s.ceilOf x.1) && decide (2 ≤ s.classOf x.1 false)
      && min 3 (s.ceilOf x.1) == x.2)).map (·.1)
    ((s.liftOrder cands).foldl (fun (st : Nat × Points) r =>
      let up := st.2.map (fun x => if x.1 = r then (r, 4) else x)
      let okG := s.globalCap == 0 || !(s.totalPower p up).excess (8 * s.globalCap)
      let okC := s.carrelCaps.all (fun cw => s.shelvesIn cw.1 r == 0 || !(s.carrelPower p up cw.1).excess (8 * cw.2))
      if cost ≤ st.1 && okG && okC then (st.1 - cost, up) else st) (s.lendingNow.length, ops)).2

/-- Points and classes written for the next period (R198, R434). -/
def State.writePoints (s : State) (ops : Points) : State :=
  let s := (List.range 64).foldl (fun s r =>
    match ops.find? (fun x => x.1 == r) with
    | some (_, op) =>
      let capped := decide (op < min 3 (s.ceilOf r))
      (s.setNextOp r op).setHeadroom r (BitVec.ofNat 64 (s.classOf r capped + op * 4))
    | none => (s.setNextOp r 0).setHeadroom r 0) s
  let s := if ops.any (fun x => decide (x.2 < min 3 (s.ceilOf x.1))) then s.orReg R.PWR_EVENT 2 else s
  let s := if ops.any (fun x => x.2 == 4) then s.orReg R.PWR_EVENT 4 else s
  s.raiseVcore

/-- First fc of a period at which phase 0.70 has come. -/
def State.fc70 (s : State) : Nat := ceilDiv (7 * s.stp.len) 10

/-- The readings of the last 1 ms after one more: the newest before it is kept, as it tells the power since. -/
def State.keepReadings (s : State) (mw : Nat) : List (Nat × Nat) :=
  let old := s.pwr.recent
  (s.stp.total, mw) :: (old.takeWhile (fun x => decide (s.stp.total < x.1 + 1000 * fcPerUs))
    ++ (old.dropWhile (fun x => decide (s.stp.total < x.1 + 1000 * fcPerUs))).take 1)

/-- OP_FIX (R434): at phase 0.70, once a period and before its cutoff, the points of the next period are fixed from the period's measured power. -/
def execOpFix (p : PowerReading) (s : State) : Out :=
  .next (
    if !s.inService || s.pwr.fixed || s.stp.cut then s
    else
      let s := s.advance (s.fc70 - s.stp.t)
      let s := { s with pwr := { s.pwr with
        reading := p, fixed := true, recent := s.keepReadings (p.other + listSum p.ranges), power := p.other + listSum p.ranges, capUsed := s.globalCap, carrelCaps := s.carrelCaps } }
      (s.writePoints (s.grantLift p (s.cappedPoints p))).bell 1106)

/-- The rerun at a stamp when a cap in force is lower than the one used at phase 0.70 (R435): points only fall, no lift. -/
def State.capRerun (s : State) : State :=
  let lower := fun (new old : Nat) => new != 0 && (old == 0 || decide (new < old))
  if lower s.globalCap s.pwr.capUsed || s.carrelCaps.any (fun cw => lower cw.2 (Tab.getD s.pwr.carrelCaps cw.1 0)) then
    let pts := s.cappedPoints s.pwr.reading
    let s := { s with pwr := { s.pwr with capUsed := s.globalCap, carrelCaps := s.carrelCaps } }
    s.writePoints (pts.map (fun x => (x.1, min x.2 (s.nextOp x.1))))
  else s

/-- The point a range takes at a stamp with the rail at mv (R75, R113, R436). One whose emergency throttle ended (`back`) returns to its
planned point once the rail is in tolerance of that point's request (R76). -/
def State.pointAtStamp (s : State) (mv : Nat) (back : List Nat) (r : Nat) : Nat :=
  let cur := s.opOf r
  let next := s.nextOp r
  if s.throttled r then 0
  else if next ≤ cur then next
  else if s.pwr.vcore ≤ mv || (back.contains r && decide (s.request r next ≤ mv + 25)) then next
  else if next = 4 && (decide (3 ≤ cur) || decide (s.request r 3 ≤ mv)) then 3
  else cur

/-- Points applied at a stamp; VCORE_REQ falls once ranges have left the higher point (R75, R113). A first VCORE_REQ that differs from
520 mV is published in the service life only (R77). -/
def State.applyPoints (s : State) (mv : Nat) (back : List Nat) : State :=
  let s := s.rangesOn.foldl (fun s r => s.setOp r (s.pointAtStamp mv back r)) s
  let v := s.requestAll
  if s.inService && decide (v < s.pwr.vcore) then { s with pwr := { s.pwr with vcore := v } } else s

/-! ## Emergency throttle and temperature -/

/-- EMERGENCY_THROTTLE (R439): ranges of a mask switch to 160 MHz; recorded once per episode. -/
def State.throttle (s : State) (rs : List Nat) (vcore : Bool) : State :=
  let fresh := rs.filter (fun r => !s.throttled r)
  let mask : Word := rs.foldl (fun m r => m ||| (1#64 <<< r)) 0
  let s := if vcore then { s with pwr := { s.pwr with emVcore := s.pwr.emVcore ||| mask } }
    else { s with pwr := { s.pwr with emThermal := s.pwr.emThermal ||| mask } }
  let s := rs.foldl (fun s r => (s.setOp r 0).setRegBit (R.PWR_RANGE_STATE r) 9 true) s
  if fresh.isEmpty then s else fresh.foldl (fun s r => s.bell (1024 + r)) ((s.orReg R.PWR_EVENT 1).log 11 K.emergency)

/-- Emergency ends at a stamp (R76, R439): ranges calm for 100 µs, and the rail back in tolerance for 100 µs. -/
def State.endThrottle (s : State) (sense : StampSense) : State :=
  let was := (List.range 64).filter s.throttled
  let s := { s with
    pwr := { s.pwr with
      emThermal := s.pwr.emThermal &&& ~~~ sense.calm
      emVcore := if sense.railOk then 0 else s.pwr.emVcore }
    pins := { s.pins with vcoreLow := s.pins.vcoreLow && !sense.railOk } }
  was.foldl (fun s r => if s.throttled r then s else (s.setRegBit (R.PWR_RANGE_STATE r) 9 false).bell (1024 + r)) s

/-- Emergency throttle of a range that comes on at level EMERG, or while VCORE_LOW lasts (R439). -/
def State.throttleNew (s : State) (r : Nat) : State :=
  let s := if 3 ≤ s.thermLevel r then s.throttle [r] false else s
  if s.pins.vcoreLow then s.throttle [r] true else s

/-- VCORE_LOW (R76): every range to 160 MHz at once. -/
def execVcoreLow (s : State) : Out :=
  .next (
    if s.alive && !s.pins.vcoreLow then
      let s := { s with pins := { s.pins with vcoreLow := true } }
      ((s.throttle s.rangesOn true).alert 5).log 0 K.vcoreLow
    else s)

/-- THERM_TRIP (R440, R69): THERMTRIP_N asserted and every range off; in the boot or reset life that life ends. -/
def State.thermTrip (s : State) (src : Nat) : State :=
  let s := { s with pins := { s.pins with thermTrip := true } }.rangesOff
  let s := s.log src K.thermTrip
  if s.pins.life == .service then s
  else { s with pins := { s.pins with life := .failed, sbLive := true } }

/-- A die's level moves; each threshold newly reached acts (Table 17-2). -/
def State.levelTo (s : State) (r old new src : Nat) : State :=
  let s := if old < 1 && 1 ≤ new then (s.alert 1).log src K.thermWarn else s
  let s := if old < 2 && 2 ≤ new then s.log src K.thermThrottle else s
  let s := if old < 3 && 3 ≤ new && s.domainOn r then s.throttle [r] false else s
  if old < 4 && 4 ≤ new then s.thermTrip src else s

/-- Readings of a range judged against the thresholds (R438). -/
def State.relevel (s : State) (r : Nat) : State :=
  let was := s.thermLevel r
  let oc := Tab.getD s.pwr.lvlC r 0
  let os := Tab.getD s.pwr.lvlS r 0
  let nc := levelAfter oc (sext 16 (s.field (R.PWR_TEMP r) 0 16)) (s.thresholds R.PWR_THERM_LIMIT)
  let ns := levelAfter os (sext 16 (s.field (R.PWR_TEMP r) 16 16)) (s.thresholds R.PWR_SRAM_LIMIT)
  let s := { s with pwr := { s.pwr with lvlC := Tab.put s.pwr.lvlC r nc 0, lvlS := Tab.put s.pwr.lvlS r ns 0 } }
  let s := s.setField (R.PWR_RANGE_STATE r) 6 3 (max nc ns)
  let s := if was = 0 ∧ max nc ns ≠ 0 then s.bell (1024 + r) else s
  (s.levelTo r oc nc (64 + r)).levelTo r os ns (128 + r / 4)

/-- THERMAL_SAMPLE (R438): the hottest compute and SRAM sensor of a range, signed 1/8 °C. -/
def execThermalSample (r : BitVec 6) (compute sram : BitVec 16) (s : State) : Out :=
  .next (
    let rn := r.toNat
    if !s.rangeEnabled rn then s
    else if s.alive || (s.pins.life == .failed && s.pins.resetN) then (s.setReg (R.PWR_TEMP rn) (BitVec.ofNat 64 (compute.toNat + sram.toNat * 65536))).relevel rn
    else if s.pins.life == .reset then
      if s.threshold R.PWR_THERM_LIMIT 24 ≤ compute.toInt ∨ s.threshold R.PWR_SRAM_LIMIT 24 ≤ sram.toInt then
        { s with pins := { s.pins with thermTrip := true, life := .failed, sbLive := true } }
      else s
    else s)

/-- The stacks' temperature reports at a stamp, signed °C; a CRIT below WARN acts as WARN (R353, Table 12-8). -/
def State.stackTemps (s : State) (temps : List (BitVec 8)) : State :=
  ((List.range 6).filter s.stackUp).foldl (fun s k =>
    let t : Int := (temps.getD k 0).toInt
    let was := Tab.getD s.pwr.lvlStk k 0
    let warn : Int := (s.field R.HBM_TEMP_LIMIT 0 8 : Int)
    let crit : Int := max warn (s.field R.HBM_TEMP_LIMIT 8 8 : Int)
    let new := levelAfter was (8 * t) [8 * warn, 8 * crit]
    let top : Int := max t (sext 8 (s.field (R.HBM_TEMP k) 8 8))
    let s := { s with pwr := { s.pwr with lvlStk := Tab.put s.pwr.lvlStk k new 0 } }
    let s := s.setReg (R.HBM_TEMP k) (BitVec.ofNat 64 (wrapInt 8 t + wrapInt 8 top * 256 + new * 65536))
    let s := if was = 0 ∧ new ≠ 0 then (s.event R.KPR_EVENT 0x20).bell (1088 + k) else s
    if was < new then s.log (16 + k) K.hbmTemp 0 0 0 new else s) s

/-! ## Lending (R436) -/

/-- A shelf starts or ends lending; the range's count follows. -/
def State.setLending (s : State) (sh : Nat) (on : Bool) : State :=
  let rest := s.pwr.lending.filter (fun x => x != sh)
  let l := if on then rest ++ [sh] else rest
  { s with pwr := { s.pwr with lending := l, wakes := Tab.erase s.pwr.wakes sh } }.setField (R.PWR_RANGE_STATE (sh / 64)) 10 7
    (l.filter (fun x => x / 64 == sh / 64)).length

/-! ## Domains (R41 to R43, R432, R433) -/

/-- Quadrants that the column of range r crosses (Table 1-9). -/
def quadrantsOf (r : Nat) : List Nat := if r < 32 then [0, 2] else [1, 3]

/-- Edge-unit domains on quadrant q's routers (Tables 1-3 and 17-1). -/
def quadrantEdges (q : Nat) : List Nat :=
  if q = 0 then [80, 81, 86, 94] else if q = 1 then [81, 82, 88] else if q = 2 then [83, 84, 87, 94] else [84, 85, 89]

/-- STATE of a domain. -/
def State.domainState (s : State) (d : Nat) : Nat := s.field (R.PWR_DOMAIN_STATE d) 0 2

/-- The order of R42 allows op (1 ON, 2 OFF, 3 RETAIN) on domain d. -/
def State.orderOk (s : State) (d op : Nat) : Bool :=
  if d < 64 then op != 1 || (s.domainOn (64 + d / 4) && (quadrantsOf d).all (fun q => s.domainOn (90 + q)))
  else if d < 80 then op == 1 || (List.range 4).all (fun i => s.domainState (4 * (d - 64) + i) == 0)
  else op == 1 || (((List.range 64).filter (fun r => (quadrantsOf r).contains (d - 90))) ++ quadrantEdges (d - 90)).all (fun x => s.domainState x == 0)

/-- Result of a domain command: none accepted, 2 BUSY, 3 INVALID, the first row of R433's table that holds. -/
def State.domainRefusal (s : State) (d op : Nat) : Option Nat :=
  if !(d < 80 || (90 ≤ d && d < 94)) || (op == 3 && !(64 ≤ d && d < 80)) then some 3
  else if d < 64 && (!s.rangeEnabled d || (op == 1 && (s.reg (R.CFG_SHELF_WITHDRAWN d) == 0xFFFFFFFFFFFFFFFF || s.ldg.oos))) then some 3
  else if !s.orderOk d op then some 2
  else if d < 64 && op == 2 && s.shelves.any (fun p => p.1 / 64 == d && (p.2.owner != 0 || p.2.clearing)) then some 2
  else if s.pwr.switching.isSome then some 2
  else none

/-- State a domain command asks for. -/
def domainTarget (op : Nat) : Nat := if op = 1 then 1 else if op = 2 then 0 else 2

/-- A domain command (R433). -/
def State.domainCmd (s : State) (d op : Nat) : State :=
  match s.domainRefusal d op with
  | some r => s.setField R.PWR_DOMAIN_RESULT 1 2 r
  | none =>
    if s.domainState d = domainTarget op then s.setField R.PWR_DOMAIN_RESULT 1 2 1
    else
      { (s.setField (R.PWR_DOMAIN_STATE d) 0 2 3).setField R.PWR_DOMAIN_RESULT 0 1 1 with
        pwr := { s.pwr with switching := some (d, domainTarget op) } }

/-- DOMAIN_ON (R433). -/
def execDomainOn (d : BitVec 7) (s : State) : Out := .next (if s.alive then s.domainCmd d.toNat 1 else s)

/-- DOMAIN_OFF (R433). -/
def execDomainOff (d : BitVec 7) (s : State) : Out := .next (if s.alive then s.domainCmd d.toNat 2 else s)

/-- DOMAIN_RETAIN (R433). -/
def execDomainRetain (d : BitVec 7) (s : State) : Out := .next (if s.alive then s.domainCmd d.toNat 3 else s)

/-- A shelf whose owner has changed while its stacked-SRAM domain was not on is cleared before it joins a room again (R322). The domain leaves
ON only while no shelf of it has an owner (R42, R433), so one that has an owner when it returns has changed owner. -/
def State.clearReturned (s : State) (d : Nat) : State :=
  (s.shelves.filter (fun p => p.1 / 256 + 64 == d && p.2.owner != 0)).foldl (fun s p =>
    s.setShelf p.1 { s.shelf p.1 with
      owner := 0, leaving := false, clearing := true, clearRun := false, loan0 := none, loan1 := none, early := [], posted := [] }) s

/-- DOMAIN_SWITCH_DONE (R432, R433): the domain reaches its state. A stacked-SRAM domain that goes off loses its shelves' contents. -/
def State.switchDone (s : State) : State :=
  match s.pwr.switching with
  | none => s
  | some (d, target) =>
    let s := { (s.setField (R.PWR_DOMAIN_STATE d) 0 2 target).setReg R.PWR_DOMAIN_RESULT 2 with pwr := { s.pwr with switching := none } }
    let s := if d < 64 && target == 1 then (((s.setOp d 0).setNextOp d 0).setHeadroom d 0).throttleNew d else s
    if 64 ≤ d && d < 80 && target == 0 then
      { s with mem := Memory.clear (Memory.clear s.mem (storeAddr (256 * (d - 64)) 0) (256 * 0x80000))
                        (folioAddr (256 * (d - 64)) 0) (256 * 0x40000) }
    else if 64 ≤ d && d < 80 && target == 1 then s.clearReturned d
    else s

/-- DOMAIN_SWITCH_DONE. -/
def execDomainSwitchDone (s : State) : Out := .next (if s.alive then s.switchDone else s)

end Sys2Proof.Machine
end

