-- ==== Sys2Proof/Machine/Passes.lean ====
section
/-! DEFINITION. Passes on shelves: loans and their returns (R311 to R316), preload (R245, R260), start with its fit test (R133, R246),
overrun (R134), end (R249), discarding (R187), the queue formed at a stamp (R133, R135) and a shelf that leaves (R213). -/

namespace Sys2Proof.Machine

/-! ## Loans (R311 to R315) -/

/-- A shelf's loan in a frame written. -/
def Shelf.setLoan (x : Shelf) (f : Nat) (l : Option Loan) : Shelf := if f = 0 then { x with loan0 := l } else { x with loan1 := l }

/-- GEN of a frame. -/
def Shelf.genOf (x : Shelf) (f : Nat) : Nat := if f = 0 then x.gen0.toNat else x.gen1.toNat

/-- Base of a loan of fp bytes in frame f (R312). -/
def loanBase (limit f fp : Nat) : Nat := if f = 0 ∨ limit < fp then 0 else limit - fp

/-- The loan's bytes overlap the loan held in the other frame. -/
def Shelf.loanBlocked (x : Shelf) (f base fp : Nat) : Bool :=
  (x.loan (1 - f)).any (fun l => l.size != 0 && fp != 0 && overlaps base fp l.base l.size)

/-- LOAN_GRANT (R313): the frame's generation is incremented first, and the tag carries it. -/
def State.loanGrant (s : State) (sh f carrel tag base size : Nat) : State :=
  let x := s.shelf sh
  let x := if f = 0 then { x with gen0 := x.gen0 + 1 } else { x with gen1 := x.gen1 + 1 }
  s.setShelf sh (x.setLoan f (some ⟨carrel, tag, x.genOf f, base, size⟩))

/-- What a loan return finds (Table 11-2). -/
inductive ReturnCheck where
  | foreign
  | double
  | release
  deriving DecidableEq, Repr

/-- The first row of Table 11-2 that matches a return. -/
def Shelf.judgeReturn (x : Shelf) (carrel tag f gen : Nat) : ReturnCheck :=
  match x.loan f with
  | none => if x.owner ≠ carrel then .foreign else .double
  | some l => if l.carrel ≠ carrel then .foreign else if l.tag ≠ tag ∨ l.gen ≠ gen then .double else .release

/-- A refused return is counted and recorded (R315, R466). -/
def State.returnRefused (s : State) (sh carrel tag f gen who : Nat) (k : Kind) (ev : Word) : State :=
  let x := s.shelf sh
  let l := x.loan f
  ((s.countSat R.LND_REFUSALS 0 16 1).event R.LND_EVENT ev).log 6 k carrel (shelfAdr sh 0) tag
    (f + gen * 2 + b2n l.isSome * 2 ^ 9 + (l.map (·.gen)).getD 0 * 2 ^ 10 + (l.map (·.carrel)).getD x.owner * 2 ^ 18 + who * 2 ^ 28)

/-- LOAN_RETURN (R315): who is 0 the shelf, 1 the Catalogue, 2 a carrel reset, 3 the handling of SHELF_LOST. -/
def State.loanReturn (s : State) (sh carrel tag f gen who : Nat) : State :=
  let x := s.shelf sh
  match x.judgeReturn carrel tag f gen with
  | .foreign => s.returnRefused sh carrel tag f gen who K.loanForeign 2
  | .double => s.returnRefused sh carrel tag f gen who K.loanDouble 1
  | .release =>
    s.setShelf sh { x.setLoan f none with
      run := x.run.map (fun r => if r.e.frame = some f then { r with window := none } else r) }

/-- The return of a pass entry's loan, where it has been granted. -/
def State.entryReturn (s : State) (sh : Nat) (e : PassEntry) (who : Nat) : State :=
  match e.frame with
  | none => s
  | some f => if e.gen = 0 ∧ !e.loaded ∧ ((s.shelf sh).loan f).isNone then s else s.loanReturn sh e.carrel e.tag f e.gen who

/-! ## The shelf's list of passes -/

/-- The first element a test accepts, changed. -/
def modFirst {α : Type} (p : α → Bool) (f : α → α) : List α → List α
  | [] => []
  | a :: l => if p a then f a :: l else a :: modFirst p f l

/-- Passes the shelf holds in order: its queue, then its plan once delivered. -/
def Shelf.entries (x : Shelf) : List PassEntry := x.queue ++ (if x.delivered then x.plan else [])

/-- The first entry that a test accepts changed, in queue order. -/
def Shelf.modEntry (x : Shelf) (p : PassEntry → Bool) (f : PassEntry → PassEntry) : Shelf :=
  if x.queue.any p then { x with queue := modFirst p f x.queue } else { x with plan := modFirst p f x.plan }

/-- An entry whose preload has come up: it has a frame and is not loaded. -/
def PassEntry.preloading (e : PassEntry) : Bool := e.frame.isSome && !e.loaded

/-- A frame that no loan, running pass or entry has (R245). -/
def Shelf.frameFree (x : Shelf) (f : Nat) : Bool :=
  (x.loan f).isNone && !x.run.any (fun r => r.e.frame == some f) && !(x.queue ++ x.plan).any (fun e => e.frame == some f)

/-- The next pass's preload comes up when the shelf DMA and a frame are free: it takes the lower-numbered free frame and keeps it
(R312). -/
def Shelf.takeFrame (x : Shelf) : Shelf :=
  if x.clearing || x.entries.any PassEntry.preloading then x
  else
    match [0, 1].find? x.frameFree with
    | none => x
    | some f => if x.entries.any (fun e => e.frame.isNone) then x.modEntry (fun e => e.frame.isNone) (fun e => { e with frame := some f }) else x

/-- A shelf whose queue is empty and that leaves its room (R213): its owner is none and its clear is due (R322). -/
def State.tryLeave (s : State) (sh : Nat) : State :=
  let x := s.shelf sh
  if x.leaving && x.run.isNone && x.queue.isEmpty && x.plan.isEmpty then
    let s := s.setShelf sh { x with
      owner := 0, leaving := false, clearing := true, clearRun := false, loan0 := none, loan1 := none, early := [], posted := [] }
    if s.shelves.any (fun p => p.2.owner == x.owner && p.2.leaving) then s else s.orReg R.CRL_EVENT 8
  else s

/-- What a shelf does after its list changed: the next preload comes up; an idle leaving shelf leaves. -/
def State.shelfNext (s : State) (sh : Nat) : State := (s.setShelf sh (s.shelf sh).takeFrame).tryLeave sh

/-! ## Preload (R245, R260, R312) -/

/-- PRELOAD_START on a shelf: the loan is granted when its bytes overlap no loan still held. -/
def State.preloadStart (s : State) (sh : Nat) : State :=
  let s := s.setShelf sh (s.shelf sh).takeFrame
  let x := s.shelf sh
  match x.entries.find? PassEntry.preloading with
  | none => s
  | some e =>
    let f := e.frame.getD 0
    let base := loanBase s.kpr.limit f e.fp
    if (x.loan f).isSome || x.loanBlocked f base e.fp then s
    else
      let s := s.loanGrant sh f e.carrel e.tag base e.fp
      s.setShelf sh ((s.shelf sh).modEntry PassEntry.preloading (fun e => { e with gen := (s.shelf sh).genOf f }))

/-- PRELOAD_START (R312). -/
def execPreloadStart (sh : ShelfNo) (s : State) : Out := .next (if s.running then s.preloadStart sh.toNat else s)

/-- The group map as bytes: 12 bits a member, two members in three bytes (Table 9-1). -/
def groupMapBytes : List Nat → List Byte
  | [] => []
  | [a] => leBytes 3 (a % 4096)
  | a :: b :: rest => leBytes 3 (a % 4096 + b % 4096 * 4096) ++ groupMapBytes rest

/-- The launch record but for START_STAMP (Table 9-2). A group of 4,096 does not fit GROUP_WIDTH's 12 bits and reads as 0
(notes/assumptions/78.md). -/
def State.launchRecord (s : State) (c : PassCtx) (start : Nat) : List Word :=
  let x := s.ctxSlip c
  let p := fun i => (x.map (fun y => y.p i)).getD 0
  let l := x.bind (·.launch)
  [BitVec.ofNat 64 (c.e.pass + c.e.tag * 2 ^ 32),
   BitVec.ofNat 64 (c.e.carrel + fld (p 0) 0 16 * 2 ^ 10 + fld (p 0) 16 16 * 2 ^ 26),
   BitVec.ofNat 64 (c.base + c.size * 2 ^ 20),
   BitVec.ofNat 64 (c.e.gFirst + c.e.map.length % 4096 * 2 ^ 32),
   BitVec.ofNat 64 ((l.map (·.mFirst)).getD 0 + (l.map (·.vFirst)).getD 0 * 2 ^ 12 + (l.map (·.sFirst)).getD 0 * 2 ^ 24),
   p 2, BitVec.ofNat 64 start, 0]

/-- Slots of the PRE folios at the head of the S ring (R260). -/
def State.preSlots (s : State) (sh : Nat) : Nat → Nat → List Nat
  | 0, _ => []
  | n + 1, i =>
    let x : Folio := ⟨i, s.folioSlot sh i⟩
    if 4095 < i ∨ !x.pre then [] else if x.end_ then [i] else i :: State.preSlots s sh n (i + 1)

/-- An entry of a shelf that is being preloaded changed. -/
def State.modPre (s : State) (sh : Nat) (f : PassEntry → PassEntry) : State :=
  s.setShelf sh ((s.shelf sh).modEntry PassEntry.preloading f)

/-- The first failure of a preload is kept (R260). -/
def State.preFail (s : State) (sh slot : Nat) (code : Code) : State :=
  s.modPre sh (fun e => { e with err := some (e.err.getD (slot, code)) })

/-- One PRE folio at the preload: its checks, then its rows that no peer holds (R260). -/
def State.preFolio (s : State) (c : PassCtx) (slot : Nat) : State :=
  let q := s.eccShelfRead c.sh (folioAddr c.sh (64 * slot)) 64 16
  let s := q.1
  let x : Folio := ⟨slot, s.folioSlot c.sh slot⟩
  match q.2, x.fetchCheck 2 c.size, opSpec x.opcode with
  | none, none, some p =>
    if s.extBad c x p || x.noop p then s
    else
      match s.transferCheck c 0 x with
      | (s, .refuse k) => s.modPre c.sh (fun e => { e with preBad := Tab.insert e.preBad slot k })
      | (s, .error code _) => s.preFail c.sh slot code
      | (s, .ok) =>
        let ext := s.extOf c x
        let rows := (x.copyRows 0).filter (fun r => !s.rowRemote ext r)
        match s.rowsSource c 0 ext (x.ext 0) rows with
        | (s, l, m) =>
          match s.rowsLand c 0 ext (x.ext 0) none slot 0 l, m with
          | (s, .error code _), _ => s.preFail c.sh slot code
          | (s, .ok), .error code _ => s.preFail c.sh slot code
          | (s, .ok), .ok => s
  | _, _, _ => s

/-- Rows of PRE folios that peers hold: slot, reference, length and row. -/
def State.preRemote (s : State) (c : PassCtx) (bad : Tab Nat) (slot : Nat) : List (Nat × Option Ext × Nat × Row) :=
  let x : Folio := ⟨slot, s.folioSlot c.sh slot⟩
  match x.fetchCheck 2 c.size, opSpec x.opcode with
  | none, some p =>
    if s.extBad c x p || x.noop p || Tab.mem bad slot then []
    else
      let ext := s.extOf c x
      ((x.copyRows 0).filter (s.rowRemote ext)).map (fun r => (slot, ext, x.ext 0, r))
  | _, _ => []

/-- First PRE slot and the slots of an entry's PRE folios. -/
def State.preList (s : State) (c : PassCtx) : List Nat :=
  let first := (((s.ctxSlip c).bind (·.launch)).map (·.sFirst)).getD 0
  if first = 0 then [] else s.preSlots c.sh 1024 first

/-- What the preload itself loads: launch record, argument area, group map, and PRE folios from this chip (R244, R245). `fail` is an error that its
reads met in a device (R354). -/
def State.preLoad (s : State) (c : PassCtx) (fail : Option Code) : State :=
  let n := (s.ctxSlip c).map (fun x => min 1984 x.paramLen)
  let addr := ((s.ctxSlip c).map (·.paramAddr)).getD 0
  let r := if n.getD 0 = 0 then (s, [], none) else (s.spill c addr (n.getD 0)).readFor c.e.carrel addr (n.getD 0) c.e.tag
  let args : List Byte := (if r.2.2.isSome then [] else r.2.1)
  let s := match r.2.2 with
    | some code => r.1.preFail c.sh 0 code
    | none => r.1
  let s := match fail with
    | some code => if endsFolio code then s.preFail c.sh 0 code else s
    | none => s
  let pad := fun (k : Nat) (l : List Byte) => l ++ List.replicate (k - l.length) 0
  let s := s.folioWrite c.sh c.frameSlot (s.launchRecord c 0 ++ wordsOfBytes 248 (pad 1984 args)
    ++ wordsOfBytes 768 (pad 6144 (groupMapBytes c.e.map)))
  let s := s.modPre c.sh (fun e => { e with preMoved := 1 })
  (s.preList c).foldl (fun s i => s.preFolio c i) s

/-- Requests for rows that peers hold, while the endpoint has room; an unreachable peer fails the preload. -/
def State.preAsk (s : State) (c : PassCtx) : List (Nat × Option Ext × Nat × Row) → State
  | [] => s
  | (slot, ext, n, r) :: rest =>
    if !s.reqRoom (pieces n).length then s
    else
      let g := Ext.at ext r.src.2
      match s.askPeer c 3 0 g n [] (fun off => .pre c.sh c.e.slip c.e.pass slot (r.dst.2.toNat + off)) with
      | (s, ids, m) =>
        let s := s.modPre c.sh (fun e => { e with preMoved := e.preMoved + 1, preReqs := e.preReqs ++ ids })
        State.preAsk (match m with
          | .error code _ => s.preFail c.sh slot code
          | .ok => s) c rest

/-- PRELOAD_DONE on a shelf: what the preload loads lands; it has ended once no request of it is outstanding. -/
def State.preloadDone (s : State) (sh : Nat) (fail : Option Code) : State :=
  match (s.shelf sh).entries.find? PassEntry.preloading with
  | none => s
  | some e =>
    if ((s.shelf sh).loan (e.frame.getD 0)).isNone then s
    else
      let c := s.ctxOf sh e
      let s := if e.preMoved = 0 then s.preLoad c fail else s
      match (s.shelf sh).entries.find? PassEntry.preloading with
      | none => s
      | some e =>
        let rem := (s.preList c).flatMap (s.preRemote c e.preBad)
        let s := s.preAsk c (rem.drop (e.preMoved - 1))
        match (s.shelf sh).entries.find? PassEntry.preloading with
        | none => s
        | some e =>
          if rem.length + 1 ≤ e.preMoved ∧ e.preReqs.isEmpty then (s.modPre sh (fun e => { e with loaded := true })).shelfNext sh
          else s

/-- PRELOAD_DONE (R245). -/
def execPreloadDone (sh : ShelfNo) (fail : Option Code) (s : State) : Out :=
  .next (if s.running then s.preloadDone sh.toNat fail else s)

/-! ## Carry-over and overrun (R133, R134) -/

/-- Passes in a shelf's queue are carried over; their slips note it, and with `log` each is recorded once (PASS_DEFERRED). -/
def State.carryQueue (s : State) (sh : Nat) (log : Bool) : State :=
  let x := s.shelf sh
  let s := s.setShelf sh { x with queue := x.queue.map (fun e => { e with carried := true, logged := e.logged || log }) }
  x.queue.foldl (fun s e =>
    let s := s.modSlip e.slip (fun y => { y with cnt := { y.cnt with deferred := true } })
    if log && !e.logged then s.log (shelfSource sh) K.passDeferred e.carrel (shelfAdr sh 0) e.tag e.pass else s) s

/-- The rest of the period stays idle on a shelf. -/
def State.halt (s : State) (sh : Nat) : State := s.setShelf sh { s.shelf sh with halted := true }

/-- Datestamp of an fc of the period in progress, or of the stamp that ends it. -/
def State.dateAt (s : State) (total : Nat) : Word :=
  let t := s.stp.t + total - s.stp.total
  if s.stampFc ≤ t then BitVec.ofNat 64 (s.stp.nextStamp.toNat * 65536)
  else BitVec.ofNat 64 (s.stp.stamp.toNat * 65536 + min 65535 (65536 * t / s.stp.len))

/-- The running pass has overrun (R134). -/
def State.overrun (s : State) (sh : Nat) : State :=
  match (s.shelf sh).run with
  | none => s
  | some r =>
    if r.overrun then s
    else
      let s := s.modRun sh (fun r => { r with overrun := true })
      let s := s.log (shelfSource sh) K.periodOverrun r.e.carrel (shelfAdr sh 0) r.e.tag r.e.pass (some (s.dateAt r.deadline))
      let s := s.modSlip r.e.slip (fun y => { y with cnt := { y.cnt with overrun := true } })
      (s.carryQueue sh false).halt sh

/-- A pass that runs past its deadline has overrun, whether or not its event has been given. -/
def State.overrunDue (s : State) (sh : Nat) : State :=
  match (s.shelf sh).run with
  | some r => if r.deadline < s.stp.total then s.overrun sh else s
  | none => s

/-- PERIOD_OVERRUN (R134): the deadline of the running pass comes. -/
def execPeriodOverrun (sh : ShelfNo) (s : State) : Out :=
  .next (
    match (s.shelf sh.toNat).run with
    | some r => if s.running && !r.overrun then (s.advance (r.deadline - s.stp.total)).overrun sh.toNat else s
    | none => s)

/-! ## Start (R133, R246) -/

/-- Fabric cycles that n cc take at f MHz, rounded up. -/
def ccToFc (n f : Nat) : Nat := ceilDiv (n * 1280) f

/-- The fit test (R133). -/
def State.fits (s : State) (sh budget : Nat) : Bool :=
  decide (s.stp.t * s.shelfMHz sh + budget * 1280 ≤ s.stp.len * s.shelfMHz sh)

/-- The sixteen bisection entries as they stand (R276). -/
def State.bisectNow (s : State) : List (List Word) :=
  (List.range 16).map (fun i => [s.reg (R.OBS_BISECT_MATCH i), s.reg (R.OBS_BISECT_PASS i), s.reg (R.OBS_BISECT_CUT i)])

/-- Held signals for the pass that has started are applied in order, and leave the buffer (R265). -/
def State.applyEarly (s : State) (sh : Nat) (e : PassEntry) : State :=
  let mine := fun (g : TallySig) => e.isPass g.carrel.toNat g.tag.toNat g.pass.toNat
  let s := ((s.shelf sh).early.filter mine).foldl (fun s g =>
    s.applySignal sh (g.core.map (·.toNat)) g.tally.toNat g.inc.toNat) s
  s.dropEarly sh mine

/-- The slip of a pass that starts: RUNNING from its first pass, whose stamp is the launch stamp (R136). -/
def Slip.passStarted (x : Slip) (sh stamp : Nat) (ho : Bool) : Slip :=
  { x with
    st := if x.st == .planned then .running else x.st, ran := some (min sh (x.ran.getD sh))
    cnt := { x.cnt with
      launchStamp := some (x.cnt.launchStamp.getD stamp), launchHo := if x.cnt.launchStamp.isNone then ho else x.cnt.launchHo
      shelves := if x.cnt.shelves.contains sh then x.cnt.shelves else x.cnt.shelves ++ [sh] } }

/-- The pass at the front of the queue starts (R246). -/
def State.startPass (s : State) (sh : Nat) (e : PassEntry) (rest : List PassEntry) : State :=
  let c := s.ctxOf sh e
  let l := (s.ctxSlip c).bind (·.launch)
  let f := s.shelfMHz sh
  let run : Running :=
    { e := e, start := s.stp.total, deadline := s.stp.total + ccToFc e.budget f, overrun := false
      window := s.windowOf e.carrel c.base c.size, bisect := s.bisectNow, cores := [], skips := [], moved := false
      firsts := ((l.map (·.mFirst)).getD 0, (l.map (·.vFirst)).getD 0, (l.map (·.sFirst)).getD 0), cc := 0, still := 0 }
  let s := s.folioWrite sh c.frameSlot (s.launchRecord c s.stp.stamp.toNat)
  let s := s.setShelf sh { s.shelf sh with queue := rest, run := some run }
  let s := if s.pwr.lending.contains sh then s.setLending sh false else s
  let s := s.modSlip e.slip (fun x => x.passStarted sh s.stp.stamp.toNat s.holdover)
  let s := (s.applyEarly sh e).jnlPass 2 sh e.carrel e.pass
  let s := match e.err with
    | some (slot, code) => (s.slipFault e.slip code (s.placeOn sh 0 2 slot (if slot = 0 then 0 else wordAt (s.folioSlot sh slot) 0))).draw 3
    | none => s
  s.shelfNext sh

/-- PASS_START on a shelf: at the latest of previous end, preload and planned offset, after the fit test (R133). -/
def State.passStart (s : State) (sh : Nat) : State :=
  let x := s.shelf sh
  match x.queue with
  | [] => s
  | e :: rest =>
    if x.run.isSome || x.halted || x.clearing || !e.loaded then s
    else
      let s := if e.carried then s else s.advance (ccToFc e.offset (s.shelfMHz sh) - s.stp.t)
      if s.fits sh e.budget then s.startPass sh e rest
      else (s.carryQueue sh true).halt sh

/-- PASS_START (R246). -/
def execPassStart (sh : ShelfNo) (s : State) : Out := .next (if s.running then s.passStart sh.toNat else s)

/-! ## End (R249) -/

/-- A stream has ended and nothing of it is in execution. -/
def Stream.finished (x : Stream) : Bool := x.ended && x.execs.isEmpty

/-- Every stream of every core has ended, every folio has completed and every write is acknowledged (R249). -/
def Running.finished (r : Running) : Bool :=
  r.cores.all (fun p => p.2.m.finished && p.2.v.finished && p.2.s.finished)
    && (r.firsts == (0, 0, 0) || r.cores.length == 256)

/-- The shelf has no pass from now on (R436). -/
def State.quietFrom (s : State) (sh : Nat) : State := { s with pwr := { s.pwr with quiet := Tab.insert s.pwr.quiet sh s.stp.total } }

/-- A pass's cc count in its slip's SHELF_CC. -/
def State.countCc (s : State) (r : Running) : State :=
  s.modSlip r.e.slip (fun x => { x with cnt := { x.cnt with shelfCc := x.cnt.shelfCc + ceilDiv r.cc 1280 } })

/-- The slip of a pass that ended. -/
def Slip.passEnded (x : Slip) (moved : Bool) : Slip :=
  { x with advanced := x.advanced || moved, launch := x.launch.map (fun l => { l with ended := l.ended + 1 }) }

/-- The slip retires with its last pass. -/
def State.lastPass (s : State) (id : Nat) : State :=
  if ((s.slip id).bind (·.launch)).any (fun l => decide (l.q ≤ l.ended)) then s.finish id 0x0000 else s

/-- The shelf after a pass: its loan returned, its frame free, early signals still held for it discarded (R249). -/
def State.endPass (s : State) (sh : Nat) (r : Running) : State :=
  let e := r.e
  let s := (((s.sendNotes sh).entryReturn sh e 0).countCc r).jnlPass 3 sh e.carrel e.pass
  let s := (s.setShelf sh { s.shelf sh with run := none, ended := some (s.stp.total, e) }).quietFrom sh
  let s := s.dropEarly sh (fun g => e.isPass g.carrel.toNat g.tag.toNat g.pass.toNat)
  s.shelfNext sh

/-- PASS_END on a shelf. -/
def State.passEnd (s : State) (sh : Nat) : State :=
  let s := s.overrunDue sh
  match (s.shelf sh).run with
  | none => s
  | some r =>
    if r.finished then
      (((s.endPass sh r).modSlip r.e.slip (fun x => x.passEnded r.moved))).lastPass r.e.slip
    else s

/-- PASS_END (R249). -/
def execPassEnd (sh : ShelfNo) (s : State) : Out := .next (if s.running then s.passEnd sh.toNat else s)

/-! ## Discarding (R187, R214, R400) -/

/-- Requests of a pass are abandoned: their responses will find none outstanding (R376). -/
def State.dropReqs (s : State) (e : PassEntry) (r : Option Running) : State :=
  let ids := e.preReqs ++ ((r.map (fun r => r.cores.flatMap (fun p => (p.2.m.execs ++ p.2.v.execs ++ p.2.s.execs).flatMap (·.reqs)))).getD [])
  if ids.isEmpty then s else s.modIln (fun i => { i with reqs := ids.foldl (fun t k => Tab.erase t k) i.reqs })

/-- A pass of a slip that ended on the shelf in this fc: its loan has been returned by the shelf already (R315). -/
def Shelf.endedNow (x : Shelf) (id now : Nat) : Option PassEntry :=
  (x.ended.filter (fun q => q.1 == now && q.2.slip == id)).map (·.2)

/-- Passes of a slip leave one shelf: a running one is stopped where it is, loans return, frames fall free. Requests of a carrel reset's passes
(who 2) stay outstanding (R400). -/
def State.discardOn (s : State) (sh id who : Nat) : State :=
  let x := s.shelf sh
  let mine := fun (e : PassEntry) => e.slip == id
  let s := match x.run with
    | some r =>
      if mine r.e then
        let s := (s.sendNotes sh).countCc r
        let s := if who = 2 then s else s.dropReqs r.e (some r)
        let s := s.entryReturn sh r.e who
        (s.setShelf sh { s.shelf sh with run := none }).quietFrom sh
      else s
    | none => s
  let s := (x.queue ++ x.plan).foldl (fun s e => if mine e then (if who = 2 then s else s.dropReqs e none).entryReturn sh e who else s) s
  let s := match x.endedNow id s.stp.total with
    | some e => (s.entryReturn sh e who).setShelf sh { (s.entryReturn sh e who).shelf sh with ended := none }
    | none => s
  let x := s.shelf sh
  let s := s.setShelf sh { x with queue := x.queue.filter (fun e => !mine e), plan := x.plan.filter (fun e => !mine e) }
  let s := match s.slip id with
    | some y => s.dropEarly sh (fun g => g.carrel.toNat == y.carrel && g.tag.toNat == y.tag)
    | none => s
  { s with cir := { s.cir with waits := s.cir.waits.filter (fun w => match w.who with
      | .folio k _ => k != sh || (s.shelf sh).run.isSome
      | .slip _ => true) } }.shelfNext sh

/-- Passes of a slip are discarded on every shelf (R187 steps 1 to 5). -/
def State.discardSlip (s : State) (id who : Nat) : State :=
  (s.shelves.filter (fun p => p.2.run.any (fun r => r.e.slip == id) || (p.2.queue ++ p.2.plan).any (fun e => e.slip == id)
      || (p.2.endedNow id s.stp.total).isSome)).foldl
    (fun s p => s.discardOn p.1 id who) s

/-! ## The queue at a stamp (R133, R135) -/

/-- A pass that was ready to start in the period and has not begun by the stamp has failed the fit test (R133). -/
def Shelf.unfit (x : Shelf) : Bool := x.run.isNone && !x.halted && !x.clearing && (x.queue.head?.map (·.loaded)).getD false

/-- QUEUE_FORM: passes not begun are carried over, recorded where they failed the fit test; the plan for the new period follows them. -/
def State.queueForm (s : State) (sh : Nat) : State :=
  let s := s.carryQueue sh (s.shelf sh).unfit
  let x := s.shelf sh
  let s := match x.run with
    | some r => s.modSlip r.e.slip (fun y => { y with ran := some (min sh (y.ran.getD sh)), cnt := { y.cnt with crossed := y.cnt.crossed + 1 } })
    | none => s
  let x := s.shelf sh
  s.setShelf sh { x with queue := x.queue ++ x.plan, plan := [], delivered := false, halted := false }

/-- Every shelf forms its queue. -/
def State.queuesForm (s : State) : State :=
  (s.shelves.filter (fun p => p.2.run.isSome || !p.2.queue.isEmpty || !p.2.plan.isEmpty)).foldl (fun s p => s.queueForm p.1) s

end Sys2Proof.Machine
end

