-- ==== Sys2Proof/Machine/Circulation.lean ====
section
/-! DEFINITION. Circulation's desks, slip entry and the Catalogue's shares, receipts, notify writes, appends and ENABLE writes of 0
(R148 to R151, R154, R157 to R165, R168, R170 to R177, R399). -/

namespace Sys2Proof.Machine

/-! ## Arbitration between carrels (R399) -/

/-- WEIGHT of a carrel: 0 acts as 1. -/
def State.weight (s : State) (c : Nat) : Nat := max 1 (s.field (R.CRL_CARREL_CFG c) 0 8)

/-- Carrels that exist, ascending (R386). -/
def State.carrelList (s : State) : List Nat :=
  (s.rf.filter (fun p => inArray p.1 (R.CRL_CARREL_STATE 1) 8 1023 && fld p.2 0 3 != 0)).map (fun p => (p.1 - R.CRL_CARREL_STATE 0) / 8)

/-- An arbiter. -/
def State.arbiter (s : State) (a : Nat) : Arbiter := Tab.getD s.crl.arbs a ⟨[], 0⟩

/-- The first of some carrels from one after `last` on, wrapping. -/
def firstAfter (last : Nat) (cs : List Nat) : Option Nat :=
  match cs.find? (fun c => decide (last < c)) with
  | some c => some c
  | none => cs.head?

/-- One arbitration of arbiter a (0 the desks, 1 the copy engines, 2 + k the move queue of stack k) among the carrels with a request
pending, ascending. A refill gives every carrel that exists its weight: a carrel that does not exist is given credit 0 by CREATE. -/
def State.grant (s : State) (a : Nat) (cs : List Nat) : State × Option Nat :=
  let x := s.arbiter a
  let credit := (x.credit.map (fun p => (p.1, min p.2 (s.weight p.1)))).filter (fun p => p.2 != 0)
  let credit := if cs.all (fun c => Tab.getD credit c 0 == 0) then s.carrelList.map (fun c => (c, s.weight c)) else credit
  match firstAfter x.last (cs.filter (fun c => Tab.getD credit c 0 != 0)) with
  | none => (s, none)
  | some c =>
    let x' : Arbiter := ⟨Tab.put credit c (Tab.getD credit c 0 - 1) 0, c⟩
    ({ s with crl := { s.crl with arbs := Tab.insert s.crl.arbs a x' } }, some c)

/-! ## Capacity (R169 to R171) -/

/-- Records a carrel holds, and all records. -/
def State.resident (s : State) (c : Nat) : Nat := (s.slipsOf c).length

/-- MIN, MAX and EDGE_MAX of CAT_SHARE[c]; a non-zero EDGE_MAX below 1,024 acts as 1,024 (R172). -/
def State.shareMin (s : State) (c : Nat) : Nat := s.field (R.CAT_SHARE c) 0 13
def State.shareMax (s : State) (c : Nat) : Nat := s.field (R.CAT_SHARE c) 16 13
def State.edgeMax (s : State) (c : Nat) : Nat :=
  let m := s.field (R.CAT_SHARE c) 32 16
  if m = 0 then 0 else max 1024 m

/-- Carrels whose share is not the reset one, with their MIN. -/
def State.shareMins (s : State) : List (Nat × Nat) :=
  (s.rf.filter (fun p => inArray p.1 (R.CAT_SHARE 1) 8 1023)).map (fun p => ((p.1 - R.CAT_SHARE 0) / 8, fld p.2 0 13))

/-- slot_ok of R170; 4,096 records are all there are (R169). -/
def State.slotOk (s : State) (c : Nat) : Bool :=
  let n := s.resident c
  let reserved := listSum ((s.shareMins.filter (fun p => p.1 != c)).map (fun p => p.2 - s.resident p.1))
  decide (n < s.shareMax c) && decide (s.cat.slips.length < 4096) && (decide (n < s.shareMin c) || decide (s.cat.slips.length + reserved < 4096))

/-- Overflow entries a carrel holds, and all. -/
def State.edgesOf (s : State) (c : Nat) : Nat := listSum ((s.slipsOf c).map (fun p => p.2.ovf))
def State.edgesAll (s : State) : Nat := listSum (s.cat.slips.map (fun p => p.2.ovf))

/-- edge_ok of R170 for n entries; 0 where the slip has no edge block. -/
def State.edgeOk (s : State) (c n : Nat) : Bool :=
  n == 0 || (decide (s.edgesAll + n ≤ 32768) && decide (s.edgesOf c + n ≤ s.edgeMax c))

/-! ## Desks (R148) -/

/-- The slip ring is at a desk. -/
def State.atDesk (s : State) (k : Nat) : Bool := s.cir.desks.any (fun p => p.2.ring == k)

/-- Fetch point of a ring. -/
def State.fetchPoint (s : State) (k : Nat) : Nat := Tab.getD s.cir.fetch k 0

/-- A ring has work and waits for a desk (R148, R171, R386); one whose disable waits for its burst to end starts no other (R168). -/
def State.hasWork (s : State) (k : Nat) : Bool :=
  !s.ringIsReceipt k && !s.ringStopped k && !Tab.mem s.cir.disabling k && s.ringTail k != s.fetchPoint k && !s.atDesk k && s.carrelState (s.ringCarrel k) == 2
    && s.slotOk (s.ringCarrel k) && s.edgeOk (s.ringCarrel k) (Tab.getD s.cir.edgeWait k 0)

/-- A free desk takes the next waiting ring and starts its burst of at most 16 slips (R148). -/
def State.deskGrant (s : State) : State :=
  match (List.range 16).find? (fun d => !Tab.mem s.cir.desks d) with
  | none => s
  | some d =>
    let ks := s.ringsOn.filter s.hasWork
    match s.grant 0 (s.carrelList.filter (fun c => ks.any (fun k => s.ringCarrel k == c))) with
    | (s, none) => s
    | (s, some c) =>
      let mine := ks.filter (fun k => s.ringCarrel k == c)
      let k : Nat := ((match Tab.find? s.cir.lastRing c with
        | some l => firstAfter l mine
        | none => mine.head?)).getD 0
      let first := s.fetchPoint k
      let n := min 16 ((s.ringTail k + (2 ^ 32 - first)) % 2 ^ 32)
      let s := (s.setField (R.CIR_DESK_STATUS d) 0 1 1).setField (R.CIR_DESK_STATUS d) 1 13 k
      { s with cir := { s.cir with
          desks := Tab.insert s.cir.desks d ⟨k, first, n⟩, lastRing := Tab.insert s.cir.lastRing c k
          fetch := Tab.insert s.cir.fetch k ((first + n) % 2 ^ 32), edgeWait := Tab.erase s.cir.edgeWait k } }

/-- DESK_GRANT (R148). -/
def execDeskGrant (s : State) : Out := .next (if s.running then s.deskGrant else s)

/-! ## Entry checks (R149) -/

/-- Named bits of the sixteen words of a slip (Tables 5-2 to 5-4). -/
def slipMask (typ : Nat) (ext : Bool) : List Word :=
  [0xFFFFFFFF000F3FFF, 0xFFFFFFFFFFFF, 0x0FFFFFFFFFFFFFFF] ++ slipParMask typ ++ [0, 0, 0, 0, 0]
    ++ (if ext then [0xFFFFFFFFFFFF, 0x7FF, 0, 0] else List.replicate 4 0xFFFFFFFFFFFFFFFF)

/-- WAIT[0] to WAIT[7]. -/
def inlineWaits (ws : List Word) : List Nat :=
  (List.range 8).map (fun i => fld (wordAt ws (12 + i / 2)) (32 * (i % 2)) 32)

/-- Check 4: the waits have a valid form (R154). A non-zero entry at NWAITS and above breaks it too (notes/assumptions/76.md). -/
def waitsBad (ws : List Word) (ext : Bool) : Bool :=
  if ext then fld (wordAt ws 12) 0 6 != 0 || fld (wordAt ws 13) 0 11 == 0 || decide (1024 < fld (wordAt ws 13) 0 11)
  else
    let n := fld (wordAt ws 0) 16 4
    decide (8 < n) || ((inlineWaits ws).take n).any (fun t => t == 0) || ((inlineWaits ws).drop n).any (fun t => t != 0)

/-- Check 5: parameter block and INDIRECT (R154, R155, Table 5-4). -/
def paramBad (ws : List Word) (typ : Nat) : Bool :=
  let len := fld (wordAt ws 2) 48 12
  (len != 0 && fld (wordAt ws 2) 0 6 != 0) || ((typ == 1 || typ == 4) && len != 0)
    || (bitAt (wordAt ws 0) 13
      && ((typ != 3 && typ != 5 && typ != 6) || len == 0 || ((ws.drop 3).take 4).any (fun w => w != 0)))

/-- Checks 1 to 5 of R149: the status of the first that fails. -/
def entryCheck (ws : List Word) : Option Code :=
  let typ := fld (wordAt ws 0) 0 8
  let ext := bitAt (wordAt ws 0) 10
  if typ = 0 ∨ 6 < typ then some 0x3001
  else if fld (wordAt ws 0) 32 32 = 0 then some 0x3009
  else if reservedSet ws (slipMask typ ext) then some 0x3002
  else if waitsBad ws ext then some 0x3003
  else if paramBad ws typ then some 0x3004
  else none

/-- Tags of an edge block. -/
def tagsOfBytes (n : Nat) (bs : List Byte) : List Nat := (List.range n).map (fun i => leVal ((bs.drop (4 * i)).take 4))

/-- The waits-on tags, read from the edge block where the slip has one (checks 6, R154), or the status that refuses them. -/
def State.waitTags (s : State) (c : Nat) (ws : List Word) : State × List Nat × Option Code :=
  if bitAt (wordAt ws 0) 10 then
    let a := fld (wordAt ws 12) 0 48
    let n := fld (wordAt ws 13) 0 11
    if !s.inExtents c a (4 * n) then (s.memRefused c a (fld (wordAt ws 0) 32 32), [], some 0x2000)
    else
      match s.readFor c a (4 * n) (fld (wordAt ws 0) 32 32) with
      | (s, bs, none) => (s, tagsOfBytes n bs, if (tagsOfBytes n bs).contains 0 then some 0x3003 else none)
      | (s, _, some code) => (s, [], some code)
  else (s, (inlineWaits ws).take (fld (wordAt ws 0) 16 4), none)

/-- The status that refuses a slip at entry (R149), with its tags where none does. -/
def State.entryRefusal (s : State) (c : Nat) (ws : List Word) : State × List Nat × Option Code :=
  match entryCheck ws with
  | some code => (s, [], some code)
  | none =>
    match s.waitTags c ws with
    | (s, tags, some code) => (s, tags, some code)
    | (s, tags, none) =>
      let tag := fld (wordAt ws 0) 32 32
      if tags.contains tag then (s, tags, some 0x3003)
      else if (s.slipByTag c tag).isSome then (s, tags, some 0x2002)
      else (s, tags, none)

/-! ## Entry (R170, R173 to R176) -/

/-- A FENCE's SCOPE. -/
def Slip.scopeAll (x : Slip) : Bool := bitAt (x.w 3) 0

/-- Fences not retired that cover a later slip of context k: the latest of each scope (R176). -/
def State.coveringFences (s : State) (c k : Nat) : List Nat :=
  let fs := (s.slipsOf c).filter (fun p => p.2.typ == 4 && p.2.st != .retired)
  let latest := fun (l : List (Nat × Slip)) => (l.getLast?.map (·.1)).toList
  latest (fs.filter (fun p => p.2.scopeAll)) ++ latest (fs.filter (fun p => !p.2.scopeAll && p.2.ctx == k))

/-- Records that a slip gets an edge to without naming them: a fence's whole scope, and the fences that cover it (R176). -/
def State.fenceEdges (s : State) (c k : Nat) (ws : List Word) : List Nat :=
  (if fld (wordAt ws 0) 0 8 = 4 then ((s.slipsOf c).filter (fun p => bitAt (wordAt ws 3) 0 || p.2.ctx == k)).map (·.1) else [])
    ++ s.coveringFences c k

/-- Records a slip gets an edge to at its entry (R173, R176). -/
def State.edgeRecords (s : State) (c k : Nat) (ws : List Word) (tags : List Nat) : List Nat :=
  (tags.filterMap (fun t => (s.slipByTag c t).map (·.1)) ++ s.fenceEdges c k ws).eraseDups

/-- What a waits-on tag names, and how it is resolved at entry (R173). -/
def State.edgeOf (s : State) (c tag : Nat) : Edge :=
  match s.slipByTag c tag with
  | none => ⟨none, 1⟩
  | some (i, x) => ⟨some i, if x.st ≠ .retired then 0 else if isSuccess x.status then 1 else 2⟩

/-- A record retired with a failure. -/
def State.failedRecord (s : State) (id : Nat) : Bool := (s.slip id).any (fun x => x.st == .retired && !isSuccess x.status)

/-- The record of a slip that enters (SLIP_ENTRY, R170). -/
def State.newRecord (s : State) (c k head : Nat) (ws : List Word) (tags : List Nat) : Slip :=
  let edges := s.edgeRecords c k ws tags
  { words := ws, carrel := c, ctx := k, head := head, rring := s.ringReceipt k, st := .entered, readyAt := 0
    waits := edges.filter (fun i => (s.slip i).any (fun x => x.st != .retired))
    predFail := edges.any s.failedRecord, edges := tags.map (s.edgeOf c)
    ovf := if bitAt (wordAt ws 0) 10 then fld (wordAt ws 13) 0 11 else 0
    par := (ws.drop 3).take 4, fail := none, failAt := 0, status := 0, reading := false, launch := none, progress := 0, stall := 0
    advanced := false, ran := none, due := 0, stallOn := none, noprog := false, cnt := .zero }

/-- HEAD passes a slip, which is counted (R149). -/
def State.passSlip (s : State) (k : Nat) : State :=
  (s.setReg R.CIR_SLIP_COUNT (s.reg R.CIR_SLIP_COUNT + 1)).setRingCount k false (s.ringHead k + 1)

/-- One slip of a burst: entered, or refused with a KIND 2 receipt (R150); false where the burst ends at it (R171, R400). -/
def State.enterSlip (s : State) (k : Nat) (ws : List Word) : State × Bool :=
  let c := s.ringCarrel k
  if !s.carrelLive c then (s, false)
  else
    match s.entryRefusal c ws with
    | (s, _, some code) =>
      let typ := fld (wordAt ws 0) 0 8
      let s := s.ringRecord k (fld (wordAt ws 0) 32 32) code (if typ ≤ 6 then typ else 0) (s.ringHead k) (bitAt (wordAt ws 0) 8)
      (s.passSlip k, true)
    | (s, tags, none) =>
      let x := s.newRecord c k (s.ringHead k) ws tags
      if !s.slotOk c then (s, false)
      else if !s.edgeOk c x.ovf then ({ s with cir := { s.cir with edgeWait := Tab.insert s.cir.edgeWait k x.ovf } }, false)
      else
        let s := { s with cat := { s.cat with slips := Tab.insert s.cat.slips s.cat.nextId x, nextId := s.cat.nextId + 1 } }
        (s.passSlip k, true)

/-- The slips of a burst in ring order. -/
def State.enterSlips (s : State) (k : Nat) : List (List Word) → State
  | [] => s
  | ws :: rest =>
    match s.enterSlip k ws with
    | (s, true) => State.enterSlips s k rest
    | (s, false) => s

/-! ## Ring memory -/

/-- The status of a host access that port 0 fails: LINK_LOST, REMOTE_TIMEOUT, and HOST_ERROR for every other error (R167, R384). -/
def hostCode (c : Code) : Code := if c == 0x5001 || c == 0x5002 then c else 0x6005

/-- What an access of the ring's memory in host memory ends with: the result of port 0, LINK_LOST where it is down. -/
def State.hostFail (s : State) (fail : Option Code) : Option Code :=
  match fail with
  | some c => some (hostCode c)
  | none => if s.portUp 0 then none else some 0x5001

/-- Slips [first, first + n) of a near-tier ring: the words of each, or the status and address of the first read that failed. -/
def State.nearSlips (s : State) (k first : Nat) (fail : Option Code) : Nat → State × List (List Word) × Option (Code × Nat)
  | 0 => (s, [], none)
  | n + 1 =>
    match s.readMay (s.ringCarrel k) (s.ringAddr k first) 128 fail with
    | (s, _, some code) => (s, [], some (code, s.ringAddr k first))
    | (s, bs, none) =>
      match State.nearSlips s k (first + 1) fail n with
      | (s, l, r) => (s, wordsOfBytes 16 bs :: l, r)

/-- What a burst reads: of a ring in host memory, the bytes port 0 returned. -/
def State.burstRead (s : State) (x : Desk) (host : List Byte) (fail : Option Code) : State × List (List Word) × Option (Code × Nat) :=
  if s.ringHost x.ring then
    match s.hostFail fail with
    | some code => (s, [], some (code, s.ringAddr x.ring x.first))
    | none => (s, (List.range x.n).map (fun i => wordsOfBytes 16 (host.drop (128 * i))), none)
  else s.nearSlips x.ring x.first fail x.n

/-- BURST_END at desk d: the slips read are entered; a failed read stops the ring (R149, R152), and then none of the burst is entered
(notes/assumptions/76.md). A ring that has stopped meanwhile keeps its counts. The desk releases the ring. -/
def State.burstEnd (s : State) (d : Nat) (host : List Byte) (fail : Option Code) : State :=
  match Tab.find? s.cir.desks d with
  | none => s
  | some x =>
    let s := if s.ringStopped x.ring then s
      else match s.burstRead x host fail with
        | (s, _, some (code, a)) => s.ringStop x.ring code a
        | (s, l, none) => s.enterSlips x.ring l
    let s := (s.setField (R.CIR_DESK_STATUS d) 0 1 0).countWrap (R.CIR_DESK_STATUS d) 32 32 1
    { s with cir := { s.cir with
        desks := Tab.erase s.cir.desks d, fetch := Tab.insert s.cir.fetch x.ring (s.ringHead x.ring) } }.settle

/-- BURST_END (R149). -/
def execBurstEnd (d : BitVec 4) (host : List Byte) (fail : Option Code) (s : State) : Out :=
  .next (if s.running then s.burstEnd d.toNat host fail else s)

/-! ## Receipts (R160 to R165) -/

/-- W0 with LAP, for TAIL count n (Table 5-5). -/
def State.receiptWord (s : State) (k : Nat) (d : DueReceipt) : Word :=
  setBitAt d.w0 63 ((s.ringTail k / s.ringSize k + 1) % 2 == 1)

/-- The two writes of a receipt, W1 to W3 and then W0 (R162), or the status and address of the one that failed. -/
def State.receiptBytes (s : State) (k : Nat) (d : DueReceipt) (fail : Option Code) : State × Option (Code × Nat) :=
  let a := s.ringAddr k (s.ringTail k)
  let w0 := bytesOfWords [s.receiptWord k d]
  let rest := bytesOfWords [d.w1, d.w2, d.w3]
  if s.ringHost k then
    match s.hostFail fail with
    | some code => (s, some (code, a))
    | none => ((s.hostWrite (s.ringCarrel k) (a + 8) rest (.ring k (a + 8))).hostWrite (s.ringCarrel k) a w0 (.ring k a), none)
  else
    match s.writeMay (s.ringCarrel k) (a + 8) rest fail with
    | (s, some code) => (s, some (code, a + 8))
    | (s, none) =>
      match s.writeFor (s.ringCarrel k) a w0 with
      | (s, some code) => (s, some (code, a))
      | (s, none) => (s, none)

/-- The first receipt due to receipt ring k. -/
def State.dueFor (s : State) (k : Nat) : Option DueReceipt :=
  s.cir.due.find? (fun d => s.ringIsReceipt k && d.carrel == s.ringCarrel k && d.rring == s.ringLocal k)

/-- A receipt written: TAIL advances, the record leaves, a notify write may follow (R160, R162, R165). -/
def State.receiptWritten (s : State) (k : Nat) (d : DueReceipt) : State :=
  let s := { s with
    cir := { s.cir with due := s.cir.due.erase d }
    cat := { s.cat with slips := match d.record with
      | some id => Tab.erase s.cat.slips id
      | none => s.cat.slips } }
  let s := (s.setReg R.CIR_RECEIPT_COUNT (s.reg R.CIR_RECEIPT_COUNT + 1)).setRingCount k true (s.ringTail k + 1)
  if (d.notify && s.regBit (R.CIR_RING_NOTIFY_CTL k) 32) || (d.fail && s.regBit (R.CIR_RING_NOTIFY_CTL k) 34) then s.notify k else s

/-- Receipt ring k can take a receipt: enabled, not stopped, with room (R163). -/
def State.receiptRoom (s : State) (k : Nat) : Bool :=
  s.ringOn k && s.ringIsReceipt k && !s.ringStopped k && decide (s.ringLevel k < s.ringSize k)

/-- RECEIPT_WRITE into context k (R162); a write that fails stops the ring (R152). -/
def State.receiptWrite (s : State) (k : Nat) (fail : Option Code) : State :=
  match s.dueFor k with
  | none => s
  | some d =>
    if !s.receiptRoom k then s
    else
      match s.receiptBytes k d fail with
      | (s, some (code, a)) => s.ringStop k code a
      | (s, none) => s.receiptWritten k d

/-- RECEIPT_WRITE (R162). -/
def execReceiptWrite (k : BitVec 13) (fail : Option Code) (s : State) : Out :=
  .next (if s.running then s.receiptWrite k.toNat fail else s)

/-- NOTIFY_HOLDOFF_END (R165): a merged notify write leaves, and starts another interval. -/
def State.holdoffEnd (s : State) (k : Nat) : State :=
  match Tab.find? s.cir.holdoff k with
  | none => s
  | some due =>
    let s := { s with cir := { s.cir with holdoff := Tab.erase s.cir.holdoff k } }
    if due then s.notify k else s

/-- NOTIFY_HOLDOFF_END. -/
def execNotifyHoldoffEnd (k : BitVec 13) (s : State) : Out := .next (if s.running then s.holdoffEnd k.toNat else s)

/-! ## Appends (R157 to R159) -/

/-- Enqueue credit of a carrel. -/
def State.enqCredit (s : State) (c : Nat) : Nat := Tab.getD s.cir.credit c 4096

/-- Enqueue credit written. -/
def State.setCredit (s : State) (c n : Nat) : State := { s with cir := { s.cir with credit := Tab.put s.cir.credit c n 4096 } }

/-- The source block, from near-tier or far-tier memory or, for SLIP_WRITE, from a shelf's store. -/
def State.enqRead (s : State) (w : WaitEnq) (fail : Option Code) : State × List Byte × Option (Code × Nat) :=
  let n := 128 * w.count
  let tag := match w.who with
    | .slip id => ((s.slip id).map (·.tag)).getD 0
    | .folio sh _ => ((s.shelf sh).run.map (·.e.tag)).getD 0
  if w.src < storeBase then
    match s.readMay w.carrel w.src n fail tag with
    | (s, bs, r) => (s, bs, r.map (fun c => (c, w.src)))
  else
    let off := w.src - storeBase
    match s.storeRead (off / 0x80000) (off % 0x80000) n with
    | (s, bs, r) => (s, bs, r.map (fun a => (0x6003, a)))

/-- Slips written into consecutive slots, or the status and address of the write that failed. -/
def State.slotsWrite (s : State) (k first : Nat) (fail : Option Code) : List (List Byte) → State × Option (Code × Nat)
  | [] => (s, none)
  | bs :: rest =>
    let a := s.ringAddr k first
    if s.ringHost k then
      match s.hostFail fail with
      | some code => (s, some (code, a))
      | none => State.slotsWrite (s.hostWrite (s.ringCarrel k) a bs (.ring k a)) k (first + 1) fail rest
    else
      match s.writeMay (s.ringCarrel k) a bs fail with
      | (s, some code) => (s, some (code, a))
      | (s, none) => State.slotsWrite s k (first + 1) fail rest

/-- The enqueue is done, or refused, at whoever waits for it: an ENQUEUE slip retires; a folio has been performed, or ends with the
error of its source. -/
def State.enqDone (s : State) (w : WaitEnq) (fail : Option (Code × Nat)) : State :=
  let s := { s with cir := { s.cir with waits := s.cir.waits.erase w } }
  match w.who, fail with
  | .slip id, none => (s.modSlip id (fun x => { x with advanced := true })).finish id 0x0000
  | .slip id, some (code, _) => s.finish id code
  | .folio sh j, none =>
    match s.appending sh j with
    | some x => s.setExec sh j 2 x.slot x.lap (fun y => { y with phase := .performed })
    | none => s
  | .folio sh j, some (code, a) =>
    match s.appending sh j with
    | some x => s.folioFail sh j 2 x code a
    | none => s

/-- Room and credit are there for a waiting enqueue at once (R158). -/
def State.enqReady (s : State) (w : WaitEnq) : Bool :=
  s.ringOn w.ctx && !s.ringStopped w.ctx && decide (s.ringLevel w.ctx + w.count ≤ s.ringSize w.ctx) && decide (w.count ≤ s.enqCredit w.carrel)

/-- ENQUEUE_APPEND of the nth enqueue that waits (R158): its slips become visible together. An error that the command brings meets the
source, or the ring where the source cannot meet it. -/
def State.enqueueAppend (s : State) (n : Nat) (fail : Option Code) : State :=
  match s.cir.waits[n]? with
  | none => s
  | some w =>
    if !s.enqReady w then s
    else
      match s.enqRead w fail with
      | (s, _, some f) => s.enqDone w (some f)
      | (s, bs, none) =>
        match s.slotsWrite w.ctx (s.ringTail w.ctx) fail ((List.range w.count).map (fun i => (bs.drop (128 * i)).take 128)) with
        | (s, some (code, a)) => s.ringStop w.ctx code a
        | (s, none) => ((s.setCredit w.carrel (s.enqCredit w.carrel - w.count)).setRingCount w.ctx true (s.ringTail w.ctx + w.count)).enqDone w none

/-- ENQUEUE_APPEND (R158). -/
def execEnqueueAppend (n : AppendOp) (s : State) : Out := .next (if s.running then s.enqueueAppend n.n n.fail else s)

/-- A write of CIR_ENQ_LIMIT[c] (R159): a BURST below the credit held lowers the credit. The entry of a carrel that does not exist takes
none (Table 14-1); entry 0, which is no carrel's, does. -/
def State.enqLimit (s : State) (c : Nat) (v : Word) : State :=
  if c != 0 && !s.carrelExists c then s
  else
    let s := s.setReg (R.CIR_ENQ_LIMIT c) (v &&& 0x1FFFFFFFF)
    s.setCredit c (min (s.enqCredit c) (fld v 16 16))

/-- ENQ_LIMIT_WRITE. -/
def execEnqLimitWrite (c : Func) (v : Word) (s : State) : Out := .next (if s.alive then s.enqLimit c.toNat v else s)

/-- ENQ_CREDIT_ADD at a stamp (R159); a carrel whose credit and limit stand at their reset values keeps its 4,096. -/
def State.addCredits (s : State) : State :=
  let limits := (s.rf.filter (fun p => inArray p.1 (R.CIR_ENQ_LIMIT 0) 8 1024)).map (fun p => (p.1 - R.CIR_ENQ_LIMIT 0) / 8)
  (Tab.keys s.cir.credit ++ limits).eraseDups.foldl (fun s c =>
    s.setCredit c (min (s.field (R.CIR_ENQ_LIMIT c) 16 16) (s.enqCredit c + s.field (R.CIR_ENQ_LIMIT c) 0 16))) s

/-! ## ENABLE writes of 0 (R168) -/

/-- The disable of context k takes effect: waiting enqueues on it are refused (R158), receipts due to it discarded (R160), and its memory is no
longer outside the carrel's extents (R345). -/
def State.ringOff (s : State) (k : Nat) : State :=
  let waits := s.cir.waits.filter (fun w => w.ctx == k)
  let due := if s.ringIsReceipt k then s.cir.due.filter (fun d => d.carrel == s.ringCarrel k && d.rring == s.ringLocal k) else []
  let s := s.setRegBit (R.CIR_RING_CTL k) 0 false
  let s := { s with cir := { s.cir with
    disabling := Tab.erase s.cir.disabling k, edgeWait := Tab.erase s.cir.edgeWait k
    waits := s.cir.waits.filter (fun w => w.ctx != k), due := s.cir.due.filter (fun d => !due.contains d) } }
  let s := (due.foldl (fun s d => s.receiptDrop d) s).overSettle
  waits.foldl (fun s w =>
    match w.who with
    | .slip id => s.finish id 0x3005
    | .folio sh j => s.appendRefused sh j) s

/-- Some enabled slip ring names receipt ring k. -/
def State.receiptNamed (s : State) (k : Nat) : Bool :=
  s.ringIsReceipt k &&
    s.ringsOn.any (fun j => !s.ringIsReceipt j && s.ringCarrel j == s.ringCarrel k && s.ringReceipt j == s.ringLocal k)

/-- A write of CIR_RING_CTL[k] with ENABLE 0 (R168): while disabled it sets the other fields. -/
def State.ringDisable (s : State) (k : Nat) (ctl : Word) : State :=
  if !s.ringOn k then s.setReg (R.CIR_RING_CTL k) (ctl &&& ringCtlMask)
  else if s.receiptNamed k then s.setRegBit (R.CIR_RING_STATUS k) 27 true
  else if s.atDesk k then { s with cir := { s.cir with disabling := Tab.insert s.cir.disabling k true } }
  else s.ringOff k

/-- RING_DISABLE (R168). -/
def execRingDisable (k : BitVec 13) (ctl : Word) (s : State) : Out := .next (if s.alive then s.ringDisable k.toNat ctl else s)

/-- RING_DISABLE_EFFECT (R168): the burst in progress has ended. -/
def execRingDisableEffect (k : BitVec 13) (s : State) : Out :=
  .next (if s.running && Tab.mem s.cir.disabling k.toNat && !s.atDesk k.toNat then s.ringOff k.toNat else s)

end Sys2Proof.Machine
end

