-- ==== Sys2Proof/Machine/Keeper.lean ====
section
/-! DEFINITION. The Keeper's leaf moves, eviction and the locality map (R196, R207, R208, R336, R337, R342, R343, R354, R355). -/

namespace Sys2Proof.Machine

/-! ## Moves that are asked for -/

/-- A move joins the queue. -/
def State.queueMove (s : State) (h : Holding) (i : Nat) (dst : Option Nat) (why : MoveWhy) : State :=
  s.modKpr (fun k => { k with moves := k.moves ++ [⟨h.carrel, h.call, i, dst, why, false, []⟩] })

/-- A backed leaf goes home: a clean one is dropped from its frame, a dirty one is written home (R342). -/
def State.sendHome (s : State) (h : Holding) (i : Nat) (why : MoveWhy) : State :=
  if (h.leaf i).dirty then s.queueMove h i none why
  else (s.modLeaf (callKey h.carrel h.call) i (fun l => { l with frame := none })).overSettle

/-- Eviction order of R343: without KEEP_NEAR, earliest naming, lowest home address. -/
def evictBefore (a b : Holding × Nat × Nat) : Bool :=
  let ka := a.1.flags / 2 % 2
  let kb := b.1.flags / 2 % 2
  let na := (a.1.leaf a.2.1).named
  let nb := (b.1.leaf b.2.1).named
  decide (ka < kb) || (ka == kb && (decide (na < nb) || (na == nb && decide (a.1.home a.2.1 < b.1.home b.2.1))))

/-- First of a list in eviction order. -/
def firstVictim (l : List (Holding × Nat × Nat)) : Option (Holding × Nat × Nat) :=
  l.foldl (fun best x =>
    match best with
    | none => some x
    | some y => if evictBefore x y then some x else some y) none

/-- A near leaf that may be evicted: backed, not held, not moving (R343). -/
def State.evictable (s : State) (x : Holding × Nat × Nat) : Bool :=
  s.backed x.1 x.2.1 && !s.heldLeaf (callKey x.1.carrel x.1.call) x.2.1 && !s.movingLeaf (callKey x.1.carrel x.1.call) x.2.1

/-- Frame f touches a pinned region or an enabled ring of carrel c (R336). -/
def State.frameRaw (s : State) (c f : Nat) : Bool := (s.rawRanges c).any (fun r => overlaps (leafBytes * f) leafBytes r.1 r.2)

/-- The victim on stack k of carrel c (R343): its frame is one the Keeper may take again (R336). -/
def State.victim (s : State) (c k : Nat) : Option (Holding × Nat × Nat) :=
  firstVictim ((s.nearLeaves c).filter (fun x =>
    leafBytes * x.2.2 / 0x1000000000 == k && s.frameInExtents c x.2.2 && !s.frameRaw c x.2.2 && s.evictable x))

/-- A leaf at home takes the frame of the victim on stack k, which goes home first; false where there is none (R343). -/
def State.bringVictim (s : State) (h : Holding) (i k : Nat) (why : MoveWhy) : State × Bool :=
  match s.victim h.carrel k with
  | some x =>
    let s := s.sendHome x.1 x.2.1 .victim
    (s.queueMove ((s.callAt (callKey h.carrel h.call)).getD h) i (some x.2.2) why, true)
  | none => (s, false)

/-- A leaf at home is to be brought near on stack k: a free frame, else the victim's; false where neither is to be had (R343). -/
def State.bringNear (s : State) (h : Holding) (i k : Nat) (why : MoveWhy) : State × Bool :=
  match (s.freeFrames h.carrel k).head? with
  | some f => (s.queueMove h i (some f) why, true)
  | none => s.bringVictim h i k why

/-! ## The plans' leaves (R196, R207) -/

/-- What a frozen or draft plan names of a leaf: call key, leaf, and the shelf planned. -/
structure LeafUse where
  key   : Nat
  leaf  : Nat
  shelf : Nat
  deriving DecidableEq, Repr

/-- The stack nearest the most shelves that use a leaf, the lowest on a tie (R207). -/
def planStack (uses : List LeafUse) (key i : Nat) : Nat :=
  let shelves := ((uses.filter (fun u => u.key == key && u.leaf == i)).map (·.shelf)).eraseDups
  let n := fun k => (shelves.filter (fun sh => nearestStack sh == k)).length
  (List.range 6).foldl (fun best k => if n best < n k then k else best) 0

/-- PLAN_PREFETCH (R207): every far-tier leaf a delivery names starts towards its stack. -/
def State.prefetchPlans (s : State) (uses : List LeafUse) : State :=
  ((uses.map (fun u => (u.key, u.leaf))).eraseDups).foldl (fun s q =>
    match s.callAt q.1 with
    | none => s
    | some h =>
      if h.pin || h.gone || (h.leaf q.2).frame.isSome || s.movingLeaf q.1 q.2 then s
      else (s.bringNear h q.2 (planStack uses q.1 q.2) .plan).1) s

/-! ## Moves (R342) -/

/-- Where a leaf lies now. -/
def Holding.placeOf (h : Holding) (i : Nat) : Nat :=
  match (h.leaf i).frame with
  | some f => leafBytes * f
  | none => h.home i

/-- Stack ports a move reads or writes. -/
def State.movePorts (s : State) (m : Move) : List Nat :=
  let src := ((s.callAt (callKey m.carrel m.call)).bind (fun h => (h.leaf m.leaf).frame)).toList
  ((src ++ m.dst.toList).map (fun f => leafBytes * f / 0x1000000000)).eraseDups

/-- Moves that hold a place on stack port k (at most eight). -/
def State.placesOn (s : State) (k : Nat) : Nat := (s.kpr.moves.filter (fun m => m.started && (s.movePorts m).contains k)).length

/-- A writeback waits while the link of its home is down (R333). -/
def State.moveHeld (s : State) (m : Move) : Bool :=
  match s.callAt (callKey m.carrel m.call) with
  | none => false
  | some h => m.dst.isNone && (s.farPort (h.home m.leaf)).any (fun p => s.kpr.farDown.getLsbD p)

/-- The leaf of a move is near and held for plan: it does not leave its frame (R208). -/
def State.movePlanned (s : State) (m : Move) : Bool :=
  let key := callKey m.carrel m.call
  s.heldLeaf key m.leaf && (s.callAt key).any (fun h => (h.leaf m.leaf).frame.isSome)

/-- A waiting move can start: its frame is empty, every port it uses has a place, and nothing holds its leaf where it lies. -/
def State.moveReady (s : State) (m : Move) : Bool :=
  !m.started && !(m.dst.any (fun f => s.leafFrames.contains f)) && (s.movePorts m).all (fun k => decide (s.placesOn k < 8)) && !s.moveHeld m
    && !s.movePlanned m

/-- A waiting move's frame has come to lie in a pinned region or a ring (R336), or out of the extents (R345): it can no longer be taken. -/
def State.moveLost (s : State) (m : Move) : Bool :=
  !m.started && m.dst.any (fun f => s.frameRaw m.carrel f || !s.frameInExtents m.carrel f)

/-- A move that lost its frame is asked for again: towards the same stack for a leaf at home, anywhere for one in a frame. Where there is no
frame, a slip that asked gives the leaf up (QUOTA, R339) if it is at home; the units ask again for one in a frame. -/
def State.moveAgain (s : State) (n : Nat) (m : Move) : State :=
  let s := s.modKpr (fun k => { k with moves := k.moves.eraseIdx n })
  match s.callAt (callKey m.carrel m.call) with
  | none => s
  | some h =>
    if (h.leaf m.leaf).frame.isSome then
      match (s.freeFrames m.carrel (s.roomiestStack m.carrel)).head? with
      | some f => s.queueMove h m.leaf (some f) m.why
      | none => s
    else
      match s.bringNear h m.leaf ((m.dst.map (fun f => stackOf (leafBytes * f))).getD 0) m.why, m.why with
      | (s, true), _ => s
      | (s, false), .slip id => (s.slipFault id 0x4002 SnapPlace.none).modKpr (fun k => { k with given := k.given ++ [(id, m.leaf)] })
      | (s, false), _ => s

/-- Carrels with a move at stack port k for which `f` holds, ascending. -/
def State.portCarrels (s : State) (k : Nat) (f : Move → Bool) : List Nat :=
  s.carrelList.filter (fun c => s.kpr.moves.any (fun x => x.carrel == c && f x && (s.movePorts x).contains k))

/-- The move queues of some ports each grant carrel c its first chunk, among the carrels whose moves can start there (R399); none where one
of them grants another. -/
def State.startGrants (s : State) (c : Nat) : List Nat → Option State
  | [] => some s
  | k :: ks =>
    match s.grant (2 + k) (s.portCarrels k s.moveReady) with
    | (s', some g) => if g = c then State.startGrants s' c ks else none
    | (_, none) => none

/-- LEAF_MOVE_START of the nth move: it takes a place on every port it uses, with its first chunk (R342, R399). -/
def State.moveStart (s : State) (n : Nat) : State :=
  match s.kpr.moves[n]? with
  | none => s
  | some m =>
    if s.moveLost m then s.moveAgain n m
    else if !s.moveReady m then s
    else
      match s.startGrants m.carrel (s.movePorts m) with
      | none => s
      | some s' => s'.modKpr (fun k => { k with
          moves := k.moves.set n { m with started := true, chunks := (s.movePorts m).map (fun p => (p, 1)) } })

/-- Chunks of a leaf. -/
def leafChunks : Nat := 512

/-- A started move has chunks left on port k. -/
def Move.pending (m : Move) (k : Nat) : Bool := m.started && decide (Tab.getD m.chunks k 0 < leafChunks)

/-- The first of a carrel's moves with a chunk left on port k gets it. -/
def takeChunk (c k : Nat) : List Move → List Move
  | [] => []
  | m :: ms =>
    if m.carrel = c ∧ Tab.mem m.chunks k ∧ m.pending k then { m with chunks := Tab.insert m.chunks k (Tab.getD m.chunks k 0 + 1) } :: ms
    else m :: takeChunk c k ms

/-- The move queue of port k arbitrates chunk by chunk until the nth move has its last chunk there (R399), by fuel. -/
def State.portRun (s : State) (n k : Nat) : Nat → State
  | 0 => s
  | fuel + 1 =>
    if !(s.kpr.moves[n]?).any (fun m => m.pending k) then s
    else
      match s.grant (2 + k) (s.portCarrels k (fun x => x.pending k)) with
      | (s, none) => s
      | (s, some c) => State.portRun (s.modKpr (fun x => { x with moves := takeChunk c k x.moves })) n k fuel

/-- LEAF_MOVE_START (R342). -/
def execLeafMoveStart (n : Nat) (s : State) : Out := .next (if s.running then s.moveStart n else s)

/-- 256-byte units of a leaf at place a that a move cannot read: poisoned, on a fenced channel, or behind a link that is down. -/
def State.badUnits (s : State) (a : Nat) : List Nat :=
  if a < 0x6000000000 then
    if s.field (R.HBM_CHAN_STATE (stackOf a)) 0 32 = 0 then
      ((s.kpr.poison.map (·.1)).filter (fun k => decide (a / 256 ≤ k) && decide (k < a / 256 + 8192))).map (fun k => k - a / 256)
    else (List.range 8192).filter (fun i => (s.byteStatus (a + 256 * i)).isSome)
  else if (s.farPort a).any (fun p => s.kpr.farDown.getLsbD p) then List.range 8192
  else
    (((s.kpr.poison.map (·.1)).filter (fun k => decide (2 ^ 50 + a / 64 ≤ k) && decide (k < 2 ^ 50 + a / 64 + 32768))).map
      (fun k => (k - 2 ^ 50 - a / 64) / 4)).eraseDups

/-- Poison keys of a 256-byte unit at a place. -/
def unitKeys (a : Nat) : List Nat := if a < 0x6000000000 then [a / 256] else (List.range 4).map (fun i => 2 ^ 50 + a / 64 + i)

/-- n bytes copied within memory. -/
def Memory.copy (m : Memory) (src dst n : Nat) : Memory :=
  let moved := (m.filter (fun p => decide (src ≤ p.1) && decide (p.1 < src + n))).map (fun p => (p.1 - src + dst, p.2))
  moved.foldl (fun m p => Memory.write m p.1 p.2) (Memory.clear m dst n)

/-- The 256-byte unit of the leaf at place a whose poison a key says. -/
def leafUnit (a k : Nat) : Option Nat :=
  if a < 0x6000000000 then (if a / 256 ≤ k ∧ k < a / 256 + 8192 then some (k - a / 256) else none)
  else if 2 ^ 50 + a / 64 ≤ k ∧ k < 2 ^ 50 + a / 64 + 32768 then some ((k - 2 ^ 50 - a / 64) / 4)
  else none

/-- Poison and wrong check bits of [a, a + 2 MiB) gone, but for the units `bad`: the rest has been written whole. -/
def State.freshen (s : State) (a : Nat) (bad : List Nat := []) : State :=
  let s := { s with ecc := s.ecc.filter (fun p => decide (p.1 < a) || decide (a + leafBytes ≤ p.1) || bad.contains ((p.1 - a) / 256)) }
  s.modKpr (fun k => { k with poison := k.poison.filter (fun p => (leafUnit a p.1).all (fun u => bad.contains u)) })

/-- The bytes of a leaf copied from one place to another, errors carried as poison (R354, R355). -/
def State.copyLeaf (s : State) (c src dst : Nat) : State :=
  let s := s.eccRead ((s.ecc.map (·.1)).filter (fun g => decide (src ≤ g) && decide (g < src + leafBytes)))
  let bad := s.badUnits src
  let s := { s with mem := Memory.copy s.mem src dst leafBytes }.freshen dst
  let s := bad.foldl (fun s i => (unitKeys (dst + 256 * i)).foldl (fun s k =>
    s.modKpr (fun x => { x with poison := Tab.insert x.poison k true })) s) s
  if bad.isEmpty then s else (s.event R.KPR_EVENT 4).log 5 K.moveFail c (globalAdr src)

/-- A writeback fails: the leaf stays near and dirty, and a move that waits for its frame is given up (R354). -/
def State.moveFails (s : State) (m : Move) (src : Nat) : State :=
  let s := s.log 5 K.moveFail m.carrel (globalAdr src)
  let s := match m.why with
    | .slip id => s.modKpr (fun k => { k with given := k.given ++ [(id, m.leaf)] })
    | _ => s
  let waiting := s.kpr.moves.filter (fun x => x.dst == some (src / leafBytes))
  let s := waiting.foldl (fun s x =>
    match x.why with
    | .slip id => (s.slipFault id 0x4002 SnapPlace.none).modKpr (fun k => { k with given := k.given ++ [(id, x.leaf)] })
    | _ => s) s
  s.modKpr (fun k => { k with moves := k.moves.filter (fun x => x.dst != some (src / leafBytes)) })

/-- A move has ended: the map switches to the destination (R342). -/
def State.moveEnds (s : State) (m : Move) (h : Holding) : State :=
  let key := callKey m.carrel m.call
  let src := h.placeOf m.leaf
  let s := s.copyLeaf m.carrel src (match m.dst with
    | some f => leafBytes * f
    | none => h.home m.leaf)
  let s := s.modLeaf key m.leaf (fun l => { l with
    frame := m.dst, dirty := if (h.leaf m.leaf).frame.isSome && m.dst.isSome then l.dirty else false })
  match m.why with
  | .slip id => s.modSlip id (fun x => { x with advanced := true, progress := x.progress + 1 })
  | _ => s

/-- LEAF_MOVE_DONE of the nth move, which has started and whose stacks are not in a retraining slot. -/
def State.moveDone (s : State) (n : Nat) (writeFails : Bool) : State :=
  match s.kpr.moves[n]? with
  | none => s
  | some m =>
    match s.callAt (callKey m.carrel m.call) with
    | none => s.modKpr (fun k => { k with moves := k.moves.eraseIdx n })
    | some h =>
      if !m.started || (s.movePorts m).any (fun k => s.kpr.slots.contains k) || s.moveHeld m then s
      else
        let s := (s.movePorts m).foldl (fun s k => s.portRun n k (8 * leafChunks)) s
        let s := s.modKpr (fun k => { k with moves := k.moves.eraseIdx n })
        if writeFails && m.dst.isNone then s.moveFails m (h.placeOf m.leaf) else s.moveEnds m h

/-! ## Quotas (R345) -/

/-- One leaf in removed bytes moves out: home where it is backed, else to a free frame of the carrel's extents. -/
def State.quotaMove (s : State) (x : Holding × Nat × Nat) : State :=
  if s.backed x.1 x.2.1 then s.sendHome x.1 x.2.1 .quota
  else
    match (s.freeFrames x.1.carrel (s.roomiestStack x.1.carrel)).head? with
    | some f => s.queueMove x.1 x.2.1 (some f) .quota
    | none => s

/-- Leaves in eviction order, by fuel. -/
def orderVictims : Nat → List (Holding × Nat × Nat) → List (Holding × Nat × Nat)
  | 0, _ => []
  | n + 1, l =>
    match firstVictim l with
    | none => []
    | some v => v :: orderVictims n (l.erase v)

/-- A leaf in removed bytes has somewhere to go: its home, or a free frame; one that has none stays where it is (R345). -/
def State.quotaMovable (s : State) (x : Holding × Nat × Nat) : Bool :=
  s.backed x.1 x.2.1 || !(s.freeFrames x.1.carrel (s.roomiestStack x.1.carrel)).isEmpty

/-- Up to n leaves of some, in order, move out. -/
def State.quotaMoves (s : State) (n : Nat) : List (Holding × Nat × Nat) → State
  | [] => s
  | x :: xs =>
    if n = 0 then s
    else if s.quotaMovable x then State.quotaMoves (s.quotaMove x) (n - 1) xs
    else State.quotaMoves s n xs

/-- Leaves in removed bytes on stack k that are neither held nor moving. -/
def State.quotaLeaves (s : State) (k : Nat) : List (Holding × Nat × Nat) :=
  (Tab.keys s.kpr.excess).flatMap (fun c => (s.nearLeaves c).filter (fun x =>
    leafBytes * x.2.2 / 0x1000000000 == k && !s.frameInExtents c x.2.2
      && !s.heldLeaf (callKey c x.1.call) x.2.1 && !s.movingLeaf (callKey c x.1.call) x.2.1))

/-- QUOTA_EVICTION at a stamp (R345): up to EVICT_RATE leaves per stack. -/
def State.quotaEviction (s : State) : State :=
  let s := s.overSettle
  if s.kpr.excess.isEmpty then s
  else
    let rate := max 1 (s.field R.KPR_POLICY 0 8)
    ((List.range 6).foldl (fun s k => s.quotaMoves rate (orderVictims (s.quotaLeaves k).length (s.quotaLeaves k))) s).overSettle

end Sys2Proof.Machine
end

