-- ==== Sys2Proof/Machine/Shelver.lean ====
section
/-! DEFINITION. The Shelver: distance and budgets (R196, R197), carry-over and reserved cycles (R202), the packing rule (R200, R201, R203),
work that does not fit (R210), the cutoff and the delivery of plans (R130, R131, R205), and draft plans (R207). -/

namespace Sys2Proof.Machine

/-! ## Passes of a launch (R206, R232) -/

/-- The run that describes pass p. -/
def Launch.runOf (l : Launch) (p : Nat) : Option PassRun := l.runs.find? (fun r => decide (r.first ≤ p) && decide (p < r.first + r.count))

/-- Offset of the principal region of pass p in its holding (R232). -/
def PassRun.offset (r : PassRun) (p : Nat) : Nat :=
  let i := p - r.first
  r.pbase + i % max 1 r.inner * r.sIn + i / max 1 r.inner % max 1 r.outer * r.sOut

/-- HINT fields (Table 7-1). -/
def Slip.hintLocality (x : Slip) : Nat := fld (x.p 1) 0 2
def Slip.hintSpread (x : Slip) : Bool := bitAt (x.p 1) 2
def Slip.hintOrder (x : Slip) : Nat := fld (x.p 1) 3 3
def Slip.hintPrincipal (x : Slip) : Nat := fld (x.p 1) 8 8

/-- Key and offset of the principal region of pass p; none where the kernel declares no such holding (R196, R206). -/
def State.principal (s : State) (x : Slip) (l : Launch) (r : PassRun) (p : Nat) : Option (Holding × Nat) :=
  let n := x.hintPrincipal
  let i := if n = 0 ∨ l.holds.length < n then r.principal else n - 1
  (l.holds[i]?).bind (fun call => (s.callAt (callKey x.carrel call)).map (fun h => (h, r.offset p)))

/-- Distance of a principal region from shelves whose nearest stack is k (R196). -/
def Holding.distance (h : Holding) (off k : Nat) : Nat :=
  if h.pin then (if stackOf (h.addr + off) = k then 0 else 1)
  else
    match (h.leaf (off / leafBytes)).frame with
    | some f => if stackOf (leafBytes * f) = k then 0 else 1
    | none => 2

/-- k of R197 by distance; a factor below 16 acts as 16. -/
def State.distFactor (s : State) (d : Nat) : Nat :=
  if d = 0 then 16 else if d = 1 then max 16 (s.field R.SHV_POLICY 16 8) else max 16 (s.field R.SHV_POLICY 24 8)

/-- budget(p, s) of R197. -/
def budgetCc (c m k f : Nat) : Nat := c + ceilDiv (m * k * f) 16000

/-- gap(p, s) of R199. -/
def gapCc (fp f : Nat) : Nat := ceilDiv (ceilDiv fp 64 * f) 1280

/-! ## Shelves of a room (R202) -/

/-- Operating point in MHz and headroom class of a shelf's range for the period planned (R198). -/
def State.planMHz (s : State) (sh : Nat) : Nat := opMHz (s.field (R.SHV_HEADROOM (sh / 64)) 2 3)
def State.planClass (s : State) (sh : Nat) : Nat := s.field (R.SHV_HEADROOM (sh / 64)) 0 2

/-- An entry's budget at f MHz, by R197 with the distance factor it was planned with. -/
def State.budgetAt (s : State) (e : PassEntry) (f : Nat) : Nat :=
  match ((s.slip e.slip).bind (·.launch)).bind (fun l => l.runOf e.pass) with
  | none => e.budget
  | some r => budgetCc r.c r.m e.k f

/-- Queued passes that will not begin in this period, were the running pass to end at time t (R133, R202). -/
def State.notFitting (s : State) (sh : Nat) : Nat → List PassEntry → List PassEntry
  | _, [] => []
  | t, e :: rest =>
    let start := if e.carried then t else max t (ccToFc e.offset (s.shelfMHz sh))
    let fin := start + ccToFc e.budget (s.shelfMHz sh)
    if fin ≤ s.stp.len then State.notFitting s sh fin rest else e :: rest

/-- carry[s] in cc at f MHz (R202). -/
def State.carryCc (s : State) (sh f : Nat) : Nat :=
  let x := s.shelf sh
  let dl := x.run.map (fun r => s.stp.t + (r.deadline - s.stp.total))
  let late := ceilDiv ((dl.getD 0 - s.stp.len) * f) 1280
  let q := if x.halted then x.queue else s.notFitting sh (max s.stp.t (dl.getD 0)) x.queue
  late + listSum (q.map (fun e => s.budgetAt e f))

/-- reserved[s]: cc of the retraining slot of the shelf's nearest stack in period m (R350). -/
def State.slotUs (s : State) (m : Nat) : Nat :=
  let u := max 1 (fld s.kpr.retrain 16 6)
  let p := s.periodOf m
  if p ≤ 2 * u then (p - 1) / 2 else u

/-- Stack k retrains in period m. -/
def State.retrainsIn (s : State) (k m : Nat) : Bool :=
  let i := max 64 (fld s.kpr.retrain 0 16)
  s.stackUp k && m % i == k * i / 6

/-- reserved[s] of R202. -/
def State.reservedCc (s : State) (sh m f : Nat) : Nat := if s.retrainsIn (nearestStack sh) m then s.slotUs m * f else 0

/-- A shelf while a room is packed. -/
structure Cand where
  sh    : Nat
  near  : Nat
  cls   : Nat
  f     : Nat
  full  : Nat
  cap   : Int
  used  : Nat
  prev  : Nat
  taken : Bool
  deriving DecidableEq, Repr

/-- FILL in sixteenths (R218). -/
def State.fill (s : State) : Nat := min 16 (max 8 (s.field R.SHV_POLICY 0 5))

/-- Footprint of the last pass queued on a shelf, or 0 (R201). -/
def State.lastFp (s : State) (sh : Nat) : Nat :=
  match (s.shelf sh).queue.getLast? with
  | some e => e.fp
  | none => ((s.shelf sh).run.map (fun r => r.e.fp)).getD 0

/-- A change of the room in this very fc counts from the next cutoff (R195). -/
def State.justMoved (s : State) (sh : Nat) : Bool := (s.shelf sh).since == s.stp.total + 1

/-- A shelf that the Shelver sees leaving (R213). -/
def State.seenLeaving (s : State) (sh : Nat) : Bool := (s.shelf sh).leaving && !s.justMoved sh

/-- A shelf of the room as period m finds it; one that leaves takes no pass. -/
def State.candOf (s : State) (m sh : Nat) : Cand :=
  let f := s.planMHz sh
  let full := s.periodOf m * f * s.fill / 16
  let cap : Int := (full : Int) - (s.reservedCc sh m f : Int) - (s.carryCc sh f : Int)
  { sh := sh, near := nearestStack sh, cls := s.planClass sh, f := f, full := full
    cap := if s.planClass sh = 0 ∨ s.seenLeaving sh then 0 else cap, used := 0, prev := s.lastFp sh, taken := false }

/-- Shelves of carrel c's room as the Shelver sees it at a cutoff: leaving ones included (R213), one that joins in this fc not (R195). -/
def State.seenRoom (s : State) (c : Nat) : List Nat :=
  (s.roomInUse c).filter (fun sh => (s.shelf sh).leaving || !s.justMoved sh)

/-- Those shelves as a cutoff packs them. -/
def State.cands (s : State) (c m : Nat) : List Cand := (s.seenRoom c).map (s.candOf m)

/-! ## The packing rule (R201) -/

/-- One pass put on a shelf in a trial. -/
structure Pick where
  pass   : Nat
  sh     : Nat
  offset : Nat
  budget : Nat
  f      : Nat
  k      : Nat
  fp     : Nat
  leaf   : Option (Nat × Nat)
  deriving DecidableEq, Repr

/-- Keys compared element by element, lowest first. -/
def keyLt : List Nat → List Nat → Bool
  | a :: as, b :: bs => decide (a < b) || (a == b && keyLt as bs)
  | _, _ => false

/-- How a launch is placed: LOCALITY and SPREAD in force (R206), and its ranges so far in the period. -/
structure PlaceHow where
  locality : Nat
  spread   : Bool
  deriving DecidableEq, Repr

/-- Hints as SHV_CARREL[c] modifies them. -/
def State.placeHow (s : State) (x : Slip) : PlaceHow :=
  { locality := if s.regBit (R.SHV_CARREL x.carrel) 0 then 2 else x.hintLocality % 3
    spread := x.hintSpread || s.regBit (R.SHV_CARREL x.carrel) 1 }

/-- k of R197 for a principal region on a shelf whose nearest stack is `near`. -/
def State.kAt (s : State) (pr : Option (Holding × Nat)) (near : Nat) : Nat :=
  s.distFactor (match pr with
    | some (h, off) => h.distance off near
    | none => 0)

/-- A pass on one shelf: its offset, budget and key, where it fits (R201). -/
def State.tryCand (s : State) (how : PlaceHow) (r : PassRun) (pr : Option (Holding × Nat)) (ranges : List Nat) (x : Cand) :
    Option (Nat × Nat × List Nat) :=
  let d := match pr with
    | some (h, off) => h.distance off x.near
    | none => 0
  let o := x.used + (if s.kpr.limit < x.prev + r.fp then gapCc r.fp x.f else 0)
  let b := budgetCc r.c r.m (s.distFactor d) x.f
  if x.taken || s.seenLeaving x.sh || (how.locality == 1 && decide (0 < d)) || decide (x.cap < ((o + b : Nat) : Int)) then none
  else
    let n := if how.spread then (ranges.filter (fun q => q == x.sh / 64)).length else 0
    some (o, b, [if how.locality = 2 then 0 else d, 3 - x.cls, n, x.used, x.sh])

/-- The best shelf for a pass. -/
def State.bestCand (s : State) (how : PlaceHow) (r : PassRun) (pr : Option (Holding × Nat)) (ranges : List Nat) (cs : List Cand) :
    Option (Cand × Nat × Nat × List Nat) :=
  cs.foldl (fun best x =>
    match s.tryCand how r pr ranges x with
    | none => best
    | some (o, b, key) =>
      match best with
      | none => some (x, o, b, key)
      | some (_, _, _, k) => if keyLt key k then some (x, o, b, key) else best) none

/-- The leaf of a principal region that lies in a holding. -/
def leafNamed (pr : Option (Holding × Nat)) : Option (Nat × Nat) :=
  match pr with
  | some (h, off) => if h.pin then none else some (callKey h.carrel h.call, off / leafBytes)
  | none => none

/-- place_group over the passes of a group: the shelves after it, the ranges used and the picks, or none where one pass finds no shelf. -/
def State.placeGroup (s : State) (x : Slip) (l : Launch) (how : PlaceHow) :
    List Nat → List Cand → List Nat → List Pick → Option (List Cand × List Nat × List Pick)
  | [], cs, rs, ps => some (cs.map (fun c => { c with taken := false }), rs, ps)
  | p :: rest, cs, rs, ps =>
    match l.runOf p with
    | none => none
    | some r =>
      let pr := s.principal x l r p
      match s.bestCand how r pr rs cs with
      | none => none
      | some (c, o, b, _) =>
        let cs := cs.map (fun y => if y.sh = c.sh then { y with used := o + b, prev := r.fp, taken := true } else y)
        State.placeGroup s x l how rest cs (c.sh / 64 :: rs) (ps ++ [⟨p, c.sh, o, b, c.f, s.kAt pr c.near, r.fp, leafNamed pr⟩])

/-- The unplaced group with the lowest pass index: first pass and width (R232, R214). -/
def Launch.nextGroup (l : Launch) : Option (Nat × Nat) :=
  let p := match l.redo with
    | [] => l.placed
    | a :: as => as.foldl min a
  if l.redo.isEmpty && decide (l.q ≤ l.placed) then none
  else
    match l.runOf p with
    | none => none
    | some r =>
      let g := max 1 r.group
      let first := r.first + (p - r.first) / g * g
      some (first, min g (r.first + r.count - first))

/-- A group placed. -/
def Launch.place (l : Launch) (first w : Nat) : Launch :=
  { l with placed := max l.placed (first + w), redo := l.redo.filter (fun p => decide (p < first) || decide (first + w ≤ p)) }

/-- Why a launch stopped at a cutoff (R201, R210). -/
inductive PackStop where
  | allPlaced
  | noRoom
  | wide (pass : Nat)
  | long (pass : Nat)
  deriving DecidableEq, Repr

/-- Pass p's budget exceeds the capacity of every shelf of the room at its point (R210). -/
def State.tooLong (s : State) (x : Slip) (l : Launch) (cs : List Cand) (p : Nat) : Bool :=
  match l.runOf p with
  | none => false
  | some r =>
    let pr := s.principal x l r p
    cs.all (fun c =>
      let d := match pr with
        | some (h, off) => h.distance off c.near
        | none => 0
      decide (c.full < budgetCc r.c r.m (s.distFactor d) c.f))

/-- What packing a launch gives. -/
structure Packed where
  launch : Launch
  cands  : List Cand
  picks  : List (List Pick)
  planned : Nat
  stop   : PackStop
  deriving DecidableEq, Repr

/-- Groups of a launch placed in order until one does not fit, by fuel (R201). -/
def State.packGroups (s : State) (x : Slip) (how : PlaceHow) : Nat → Packed → List Nat → Packed
  | 0, k, _ => k
  | n + 1, k, ranges =>
    match k.launch.nextGroup with
    | none => { k with stop := .allPlaced }
    | some (first, w) =>
      let limit := s.field (R.SHV_CARREL x.carrel) 16 16
      if k.cands.length < w then { k with stop := .wide first }
      else if limit ≠ 0 ∧ limit < k.planned + w then { k with stop := .noRoom }
      else
        let ps := (List.range w).map (fun i => first + i)
        match s.placeGroup x k.launch how ps k.cands ranges [] with
        | some (cs, rs, picks) =>
          s.packGroups x how n { k with launch := k.launch.place first w, cands := cs, picks := k.picks ++ [picks], planned := k.planned + w } rs
        | none =>
          match ps.find? (fun p => s.tooLong x k.launch k.cands p) with
          | some p => { k with stop := .long p }
          | none => { k with stop := .noRoom }

/-- A launch packed after `planned` passes of its carrel. -/
def State.packLaunch (s : State) (x : Slip) (l : Launch) (cs : List Cand) (planned : Nat) : Packed :=
  s.packGroups x (s.placeHow x) (l.q + l.redo.length + 1) ⟨l, cs, [], planned, .noRoom⟩ []

/-! ## Launches of a room (R200, R211, R392) -/

/-- Launch order (R200). -/
def launchBefore (a b : Nat × Slip) : Bool :=
  let bl := fun (x : Slip) => x.launch.bind (·.blocking)
  let key := fun (x : Slip) => [(match bl x with | some _ => 0 | none => 1), (bl x).getD 0, 7 - x.hintOrder, x.readyAt, x.ctx, x.head]
  keyLt (key a.2) (key b.2)

/-- Insertion into a list kept in launch order. -/
def insertLaunch (a : Nat × Slip) : List (Nat × Slip) → List (Nat × Slip)
  | [] => [a]
  | b :: l => if launchBefore a b then a :: b :: l else b :: insertLaunch a l

/-- A slip that became ready in this period did so at a PHASE below 0xC000 (R131). -/
def State.readyInTime (s : State) (x : Slip) : Bool :=
  x.readyAt / 65536 != s.stp.stamp.toNat || decide (x.readyAt % 65536 < 0xC000)

/-- Launches of carrel c with groups to place, in launch order: READY ones of an ACTIVE carrel, and those started. -/
def State.launchesOf (s : State) (c : Nat) : List (Nat × Slip) :=
  let st := s.carrelState c
  ((s.slipsOf c).filter (fun p => p.2.launch.any (fun l => l.nextGroup.isSome || l.q == 0) &&
    ((p.2.st == .ready && st == 2 && s.readyInTime p.2 && decide (!p.2.nbValid ∨ p.2.notBefore ≤ s.stp.stamp.toNat + 1))
      || ((p.2.st == .planned || p.2.st == .running) && (st == 2 || st == 3))))).foldl (fun l a => insertLaunch a l) []

/-- The plan entries of a group's picks (R129, R194). -/
def entriesOf (id : Nat) (x : Slip) (picks : List Pick) : List (Nat × PassEntry) :=
  let map := picks.map (·.sh)
  let first := (picks.head?.map (·.pass)).getD 0
  picks.map (fun p => (p.sh,
    { slip := id, carrel := x.carrel, tag := x.tag, pass := p.pass, budget := p.budget, f := p.f, k := p.k, offset := p.offset, fp := p.fp
      gFirst := first, map := map, carried := false, logged := false, leaf := p.leaf, frame := none, gen := 0, loaded := false
      err := none, preBad := [], preMoved := 0, preReqs := [] }))

/-- Leaves the picks of a delivery name (R207). -/
def usesOf (picks : List Pick) : List LeafUse := picks.filterMap (fun p => p.leaf.map (fun q => ⟨q.1, q.2, p.sh⟩))

/-! ## The cutoff (R201, R203, R210) -/

/-- Passes of a launch that are in plans, in queues or running. -/
def Launch.out (l : Launch) : Nat := l.placed - l.redo.length - l.ended

/-- The status with which a launch that cannot be placed at all retires at a cutoff (R210). -/
def State.cutoffFail (s : State) (x : Slip) (l : Launch) : Option Code :=
  if (s.room x.carrel).isEmpty then some 0x4004
  else if l.runs.any (fun r => decide (s.kpr.limit < r.fp) && (decide (l.placed < r.first + r.count) || l.redo.any (fun p => decide (r.first ≤ p) && decide (p < r.first + r.count)))) then some 0x4001
  else none

/-- Draft plans of a room: the leaves they name. They follow the rule of the cutoff (R201): a launch that R210 ends is passed over, and one
behind a launch that was blocking and has placed nothing is skipped. The blocking launches still without a group come last. -/
def State.draftUses (s : State) (c : Nat) : List LeafUse :=
  let m := s.stp.stamp.toNat + 1
  let ls := s.launchesOf c
  let ahead := (ls.filter (fun p => p.2.launch.any (fun l => l.blocking.isSome))).map (·.1)
  (ls.foldl (fun (r : List Cand × Nat × List LeafUse × List Nat) p =>
    match p.2.launch with
    | none => r
    | some l =>
      if (s.cutoffFail p.2 l).isSome then (r.1, r.2.1, r.2.2.1, r.2.2.2.filter (fun i => i != p.1))
      else if !r.2.2.2.isEmpty && !r.2.2.2.contains p.1 then r
      else
        let k := s.packLaunch p.2 l r.1 r.2.1
        (k.cands, k.planned, r.2.2.1 ++ usesOf k.picks.flatten,
          if k.picks.isEmpty then r.2.2.2 else r.2.2.2.filter (fun i => i != p.1))) (s.cands c m, 0, [], ahead)).2.2.1

/-- Draft plans drive prefetch when a launch becomes ready before the cutoff (R201, R207). -/
def State.draftPrefetch (s : State) (c : Nat) : State :=
  if s.regBit R.SHV_POLICY 32 && s.launchable && !s.stp.cut then s.prefetchPlans (s.draftUses c) else s

/-- A launch that R210 ends with passes still out places no more: its failure is noted, and it retires when the last of them ends. -/
def State.endPlacing (s : State) (id : Nat) (code : Code) : State :=
  (s.slipFault id code SnapPlace.none).modSlip id (fun x => { x with launch := x.launch.map (fun l =>
    { l with placed := l.placed - l.redo.length, redo := [], q := l.placed - l.redo.length }) })

/-- A room while it is planned: shelves, passes planned, picks so far, and launches that were blocking before this cutoff and still are. -/
structure RoomPlan where
  cands   : List Cand
  planned : Nat
  entries : List (Nat × PassEntry)
  uses    : List LeafUse
  ahead   : List Nat
  deriving DecidableEq, Repr

/-- GROUP_TOO_WIDE and PASS_TOO_LONG, recorded once per launch (R210); ADDR 0 and INFO the pass index (R466). -/
def State.tellHeld (s : State) (id : Nat) (x : Slip) (stop : PackStop) : State :=
  match x.launch, stop with
  | some l, .wide p =>
    if l.wideLogged then s
    else ((s.event R.SHV_EVENT 4).log 4 K.groupTooWide x.carrel 0 x.tag p).modSlip id (fun y => { y with launch := y.launch.map (fun l => { l with wideLogged := true }) })
  | some l, .long p =>
    if l.longLogged then s
    else ((s.event R.SHV_EVENT 8).log 4 K.passTooLong x.carrel 0 x.tag p).modSlip id (fun y => { y with launch := y.launch.map (fun l => { l with longLogged := true }) })
  | _, _ => s

/-- update_starvation (R203). -/
def State.starve (s : State) (id : Nat) (x : Slip) (l : Launch) : State :=
  let l := { l with misses := l.misses + 1 }
  if l.blocking.isNone && decide (max 1 (s.field R.SHV_POLICY 8 4) ≤ l.misses) then
    let s := { s with cat := { s.cat with blockings := s.cat.blockings + 1 } }
    let s := s.setSlip id { x with launch := some { l with blocking := some s.cat.blockings } }
    (((s.event R.SHV_EVENT 2).countSat (R.SHV_CARREL_STATS x.carrel) 40 16 1).log 4 K.launchBlocking x.carrel 0 x.tag)
  else s.setSlip id { x with launch := some l }

/-- One launch at the cutoff, in launch order. -/
def State.cutoffLaunch (s : State) (k : RoomPlan) (id : Nat) : State × RoomPlan :=
  match s.slip id with
  | none => (s, k)
  | some x =>
    match x.launch with
    | none => (s, k)
    | some l =>
      match s.cutoffFail x l with
      | some code => (if l.out = 0 then s.retire id code else s.endPlacing id code, { k with ahead := k.ahead.filter (fun i => i != id) })
      | none =>
        if l.q = 0 then (s.retire id 0x0000, k)
        else if !k.ahead.isEmpty && !(l.blocking.isSome && k.ahead.contains id) then (s, k)
        else
          let r := s.packLaunch x l k.cands k.planned
          let picks := r.picks.flatten
          let k' : RoomPlan := { k with cands := r.cands, planned := r.planned, uses := k.uses ++ usesOf picks
                                        entries := k.entries ++ r.picks.flatMap (entriesOf id x) }
          let s := s.tellHeld id x r.stop
          let x := (s.slip id).getD x
          let l' : Launch := { r.launch with
            wideLogged := (x.launch.map (·.wideLogged)).getD false, longLogged := (x.launch.map (·.longLogged)).getD false }
          if picks.isEmpty then
            (match r.stop with
              | .noRoom => s.starve id x l'
              | _ => s.setSlip id { x with launch := some l' }, k')
          else
            (s.setSlip id { x with st := if x.st == .ready then .planned else x.st, launch := some { l' with misses := 0, blocking := none } },
              { k' with ahead := k'.ahead.filter (fun i => i != id) })

/-- Launches of a room taken in order. -/
def State.cutoffLaunches (s : State) (k : RoomPlan) : List Nat → State × RoomPlan
  | [] => (s, k)
  | id :: rest =>
    match s.cutoffLaunch k id with
    | (s, k) => State.cutoffLaunches s k rest

/-- PLAN_OVERFULL for each shelf whose carry-over exceeds its capacity (R210, R466). -/
def State.tellOverfull (s : State) (c : Nat) (cs : List Cand) : State :=
  (cs.filter (fun x => decide (x.cap < 0))).foldl (fun s x =>
    (s.event R.SHV_EVENT 1).log 4 K.planOverfull c 0 0 (x.sh + min (-x.cap).toNat 0xFFFFF * 2 ^ 12)) s

/-- Groups of ready launches left unplaced, in passes. -/
def State.waitingPasses (s : State) (c : Nat) : Nat :=
  listSum ((s.launchesOf c).map (fun p => match p.2.launch with
    | some l => l.q - l.placed + l.redo.length
    | none => 0))

/-- The frozen plans of one room (R201). -/
def State.cutoffRoom (s : State) (c : Nat) : State × List (Nat × PassEntry) × List LeafUse :=
  let m := s.stp.stamp.toNat + 1
  let cs := s.cands c m
  let s := s.tellOverfull c cs
  let ls := s.launchesOf c
  let ahead := (ls.filter (fun p => p.2.launch.any (fun l => l.blocking.isSome))).map (·.1)
  match s.cutoffLaunches ⟨cs, 0, [], [], ahead⟩ (ls.map (·.1)) with
  | (s, k) =>
    let s := (s.setField (R.SHV_CARREL_STATS c) 0 20 k.planned).setField (R.SHV_CARREL_STATS c) 20 20 (min 0xFFFFF (s.waitingPasses c))
    (s, k.entries, k.uses)

/-- Every room in ascending order of its carrel. -/
def State.cutoffRooms (s : State) : List Nat → State × List (Nat × PassEntry) × List LeafUse
  | [] => (s, [], [])
  | c :: rest =>
    match s.cutoffRoom c with
    | (s, es, us) =>
      match State.cutoffRooms s rest with
      | (s, es', us') => (s, es ++ es', us ++ us')

/-- Leaves a frozen plan names are named at this stamp (R343). -/
def State.nameLeaves (s : State) (us : List LeafUse) : State :=
  us.foldl (fun s u => s.modLeaf u.key u.leaf (fun l => { l with named := s.stp.stamp.toNat })) s

/-- The plans frozen: each shelf's list, the status registers, the leaves handed to the Keeper. -/
def State.freeze (s : State) (es : List (Nat × PassEntry)) (us : List LeafUse) : State :=
  let shs := (es.map (·.1)).eraseDups
  let s := shs.foldl (fun s sh =>
    s.setShelf sh { s.shelf sh with plan := (es.filter (fun e => e.1 == sh)).map (·.2), delivered := false }) s
  let s := s.setReg R.SHV_STATUS (BitVec.ofNat 64 (min 0xFFFFF es.length + shs.length * 2 ^ 32))
  let s := s.setReg R.SHV_PLAN_STAMP (BitVec.ofNat 64 ((s.stp.stamp.toNat + 1) % 2 ^ 48))
  (s.nameLeaves us).prefetchPlans us

/-- PLAN_CUTOFF: phase 0.75 has come (R131, R201). A pass past its deadline has overrun, and what is behind it is carried over (R134, R202). HBM_RETRAIN and the loan limit written since take effect (R316, R350). -/
def State.planCutoff (s : State) : State :=
  let s := s.advance (s.cutFc - s.stp.t)
  let s := { s with stp := { s.stp with cut := true } }
  let s := (s.shelves.filter (fun p => p.2.run.isSome)).foldl (fun s p => s.overrunDue p.1) s
  let s := s.modKpr (fun k => { k with retrain := s.reg R.HBM_RETRAIN, limit := s.field R.LND_LOAN_LIMIT 0 20 })
  if !s.launchable then s.settle
  else
    match s.cutoffRooms s.carrelList with
    | (s, es, us) => (s.freeze es us).settle

/-- PLAN_CUTOFF (R201). -/
def execPlanCutoff (s : State) : Out := .next (if s.running && !s.stp.cut && !s.obs.resuming then s.planCutoff else s)

/-- PLAN_DELIVERY: 0.5 µs after the cutoff the shelves have their plans, and preloads may come up (R130, R205). -/
def State.planDelivery (s : State) : State :=
  let s := s.advance (s.cutFc + 640 - s.stp.t)
  (s.shelves.filter (fun p => !p.2.plan.isEmpty && !p.2.delivered)).foldl (fun s p =>
    (s.setShelf p.1 { s.shelf p.1 with delivered := true }).shelfNext p.1) s

/-- PLAN_DELIVERY. -/
def execPlanDelivery (s : State) : Out := .next (if s.running && s.stp.cut then s.planDelivery else s)

end Sys2Proof.Machine
end

