-- ==== Sys2Proof/Machine/Catalogue.lean ====
section
/-! DEFINITION. The Catalogue's commands: the pass-table read (R222, R231 to R233), progress and abandonment (R184 to R188), cancels
(R182, R183), snapshots (R189) and shares (R172). -/

namespace Sys2Proof.Machine

/-! ## The pass-table read (R231 to R233) -/

/-- Words of image slot i of a volume: from the folio memory of shelf sh, or from the Bindery's copy where the room has no shelf. A word
in error is answered with its address. -/
def State.imageSlot (s : State) (v : Volume) (sh : Option Nat) (i : Nat) : State × List Word × Option Nat :=
  match sh with
  | some sh =>
    match s.eccShelfRead sh (folioAddr sh (64 * i)) 64 16 with
    | (s, e) => (s, s.folioSlot sh i, e)
  | none => (s, (v.image.drop (8 * (i - 256 - 64 * v.first))).take 8, none)

/-- Slots i, i + 1, … of an image, n of them. -/
def State.imageSlots (s : State) (v : Volume) (sh : Option Nat) (i : Nat) : Nat → State × List (List Word) × Option Nat
  | 0 => (s, [], none)
  | n + 1 =>
    match s.imageSlot v sh i with
    | (s, ws, e) =>
      match State.imageSlots s v sh (i + 1) n with
      | (s, l, e') => (s, ws :: l, e.or e')

/-- A pass run from its slot (Table 8-7). -/
def passRunOf (ws : List Word) : PassRun :=
  { first := fld (wordAt ws 0) 0 32, count := fld (wordAt ws 0) 32 32, c := fld (wordAt ws 1) 0 24, m := fld (wordAt ws 1) 24 24
    fp := fld (wordAt ws 2) 0 20, group := fld (wordAt ws 2) 20 13, principal := fld (wordAt ws 3) 0 8, inner := fld (wordAt ws 3) 32 32
    pbase := fld (wordAt ws 4) 0 48, sIn := fld (wordAt ws 5) 0 48, sOut := fld (wordAt ws 6) 0 48, outer := fld (wordAt ws 7) 0 32 }

/-- The slot of a kernel's entry: entries follow the header slot and end where the first kernel's runs begin (R231). -/
def kernelSlot (entries : List (List Word)) (kernel lo : Nat) : Option (Nat × List Word) :=
  match (entries.zip (List.range entries.length)).find? (fun p => fld (wordAt p.1 0) 0 16 == kernel) with
  | some (ws, i) => some (lo + 1 + i, ws)
  | none => none

/-- Call numbers of a kernel's holdings: each from its entry, or from the argument word it names (R222); layout of an entry: [31:0] SOURCE,
[32] FROM_ARG (DESIGN CHOICE, notes/assumptions/37.md). -/
def State.resolveCalls (s : State) (x : Slip) : List Word → State × List Nat × Option Code
  | [] => (s, [], none)
  | w :: rest =>
    let src := fld w 0 32
    let r := if bitAt w 32 then
        (match s.readFor x.carrel (x.paramAddr + 8 * src) 8 x.tag with
          | (s, bs, st) => (s, leVal (bs.take 4), st))
      else (s, src, none)
    match r with
    | (s, _, some code) => (s, [], some code)
    | (s, call, none) =>
      if (s.holding x.carrel call).isNone then (s, [], some 0x2006)
      else
        match State.resolveCalls s x rest with
        | (s, l, st) => (s, call :: l, st)

/-- A word of folio memory that the read of a pass table meets in error: recorded, and the LAUNCH's status (R180, R305). -/
def State.tableError (s : State) (x : Slip) (sh : Option Nat) (a : Nat) : State × Except Code Launch :=
  (s.log (shelfSource (sh.getD 0)) K.folioMemError x.carrel a x.tag, .error 0x6004)

/-- What the Shelver reads of a LAUNCH's kernel, or the status that refuses the LAUNCH (Table 5-7, R180, R222). -/
def State.readKernel (s : State) (x : Slip) : State × Except Code Launch :=
  if !s.paramOk x then (s.memRefused x.carrel x.paramAddr x.tag, .error 0x2000)
  else
    match (Tab.find? s.bind.vols (volKey x.carrel (fld (x.p 0) 0 16))).filter (·.usable) with
    | none => (s, .error 0x2003)
    | some v =>
      let sh := ((s.roomInUse x.carrel).filter (fun k => !(s.shelf k).leaving)).head?
      let lo := 256 + 64 * v.first
      match s.imageSlot v sh (lo + 1) with
      | (s, ws0, _) =>
        match s.imageSlots v sh (lo + 1) (fld (wordAt ws0 2) 0 12 - (lo + 1)) with
        | (s, entries, e) =>
          match e, kernelSlot entries (fld (x.p 0) 16 16) lo with
          | some a, _ => s.tableError x sh a
          | none, none => (s, .error 0x2003)
          | none, some (_, ws) =>
            if x.paramLen < 64 * fld (wordAt ws 0) 16 16 then (s, .error 0x3004)
            else
              match s.imageSlots v sh (fld (wordAt ws 2) 0 12) (fld (wordAt ws 0) 32 8) with
              | (s, _, some a) => s.tableError x sh a
              | (s, runs, none) =>
                match s.imageSlots v sh (fld (wordAt ws 2) 12 12) (ceilDiv (fld (wordAt ws 2) 24 8) 8) with
                | (s, _, some a) => s.tableError x sh a
                | (s, hs, none) =>
                  match s.resolveCalls x (hs.flatten.take (fld (wordAt ws 2) 24 8)) with
                  | (s, _, some code) => (s, .error code)
                  | (s, calls, none) =>
                    (s, .ok
                      { q := fld (wordAt ws 1) 0 32, runs := runs.map passRunOf, holds := calls, mFirst := fld (wordAt ws 3) 0 12
                        vFirst := fld (wordAt ws 3) 12 12, sFirst := fld (wordAt ws 3) 24 12, placed := 0, redo := [], ended := 0, misses := 0
                        blocking := none, wideLogged := false, longLogged := false })

/-- The Shelver has a LAUNCH's kernel to read: the read is in progress, or a RESTORE could not read it (R394). -/
def Slip.tableDue (x : Slip) : Bool := x.reading || (x.typ == 2 && x.st == .ready && x.launch.isNone)

/-- PASS_TABLE_READ: the read of a LAUNCH ends and it becomes READY, or retires with the status of the check that fails (R180, R233). -/
def State.passTableRead (s : State) (c tag : Nat) : State :=
  match s.slipByTag c tag with
  | none => s
  | some (id, x) =>
    if !x.tableDue then s
    else
      let at_ := if x.reading then s.now.toNat else x.readyAt
      match s.readKernel x with
      | (s, .error code) => (s.setSlip id { x with st := .ready, readyAt := at_, reading := false }).finish id code
      | (s, .ok l) =>
        let s := s.setSlip id { x with st := .ready, readyAt := at_, reading := false, launch := some l }
        let s := if l.holds.length < x.hintPrincipal then s.event R.SHV_EVENT 0x10 else s
        s.draftPrefetch c

/-- PASS_TABLE_READ (R233). -/
def execPassTableRead (c : Func) (tag : BitVec 32) (s : State) : Out :=
  .next (if s.running then s.passTableRead c.toNat tag.toNat else s)

/-! ## Progress (R184 to R188) -/

/-- Interloan requests outstanding for a slip. -/
def State.slipReqs (s : State) (id : Nat) : List Nat :=
  (s.iln.reqs.filter (fun p => match p.2.who with
    | .slip j _ => j == id
    | _ => false)).map (·.1)

/-- The chunk of a COPY under way has something outstanding: requests to a peer, writes to host memory (R384), or adds that wait for a move
(R342). -/
def State.slipBusy (s : State) (id : Nat) : Bool :=
  !(s.slipReqs id).isEmpty || s.iln.host.any (fun p => p.2.who == .slip id) || s.kpr.adds.any (fun x => x.who == .slip id)

/-- LENGTH, OP, ADD_TYPE, and the spaces of a COPY (Table 5-4). -/
def Slip.copyLen (x : Slip) : Nat := fld (x.p 2) 0 48
def Slip.copyAdds (x : Slip) : Bool := fld (x.p 3) 0 4 == 1
def Slip.copyType (x : Slip) : Nat := fld (x.p 3) 4 4
def Slip.srcHost (x : Slip) : Bool := fld (x.p 3) 8 2 == 1
def Slip.dstHost (x : Slip) : Bool := fld (x.p 3) 10 2 == 1

/-- A LAUNCH has a pass on a shelf that ran in the period just ended, and whether a stream count of it changed. -/
def State.passesRan (s : State) (id : Nat) : Bool × Bool :=
  let rs := (s.shelves.filterMap (fun p => p.2.run)).filter (fun r => r.e.slip == id)
  (!rs.isEmpty, rs.any (·.moved))

/-- The lowest shelf that ran a pass of a slip in the period just ended (R189). -/
def State.lowestRan (s : State) (id : Nat) (x : Slip) : Option Nat :=
  ((s.shelves.filter (fun p => p.2.run.any (fun r => r.e.slip == id))).map (·.1)).foldl (fun m sh => some (min sh (m.getD sh))) x.ran

/-- The stall count of one RUNNING slip at a stamp, and the test of THRESH and ABANDON that follows it there (R186, R187). -/
def State.stallOne (s : State) (id : Nat) (x : Slip) : Slip :=
  let r := s.passesRan id
  let adv := x.advanced || r.2
  let stall := if adv then 0 else if x.typ = 2 && x.ran.isNone && !r.1 then x.stall else x.stall + 1
  let t := s.field (R.CAT_NOPROG x.carrel) 0 32
  let due := if t != 0 && decide (t ≤ stall) then 1 + b2n (s.regBit (R.CAT_NOPROG x.carrel) 32) else 0
  { x with stall := stall, advanced := false, ran := none, noprog := x.noprog && stall != 0, due := due, stallOn := s.lowestRan id x }

/-- STALL_UPDATE at a stamp (R184, R186). -/
def State.stallUpdate (s : State) : State :=
  let slips := s.cat.slips.map (fun p => if p.2.st == .running && p.2.typ != 1 && p.2.typ != 4 then (p.1, s.stallOne p.1 p.2) else p)
  { s with
    cat := { s.cat with slips := slips }
    shelves := s.shelves.map (fun p => (p.1, { p.2 with run := p.2.run.map (fun r => { r with moved := false }) })) }

/-- The last stamp found the slip's count at its carrel's threshold (R186), and its carrel has not been reset since (R188). -/
def State.stalled (s : State) (x : Slip) : Bool := x.st == .running && x.due != 0 && s.carrelLive x.carrel

/-- Where an abandonment of a LAUNCH is captured: core 0 of the lowest shelf that ran a pass of it in the period just ended (R189). Which of
the core's engines, or none, ENGINE names is not said: a free value (notes/assumptions/27.md). -/
def State.stallPlace (s : State) (x : Slip) : SnapPlace :=
  if x.typ ≠ 2 then SnapPlace.none
  else
    match x.stallOn with
    | none => SnapPlace.none
    | some sh =>
      let e := (Config.freeValue (s.freeCtr + 3)).toNat % 4
      let slot := if e = 3 then 0 else (s.streamOf sh 0 e).ptr
      s.placeOn sh 0 e slot (if slot = 0 then 0 else wordAt (s.folioSlot sh slot) 0)

/-- What stops with an abandoned slip: its passes (R187 steps 1 to 5), its copies, moves and requests. -/
def State.stopSlip (s : State) (id who : Nat) : State :=
  let s := s.discardSlip id who
  let ids := (s.iln.reqs.filter (fun p => match p.2.who with
    | .slip j _ => j == id
    | _ => false)).map (·.1)
  let s := if ids.isEmpty then s else s.modIln (fun i => { i with reqs := ids.foldl (fun t k => Tab.erase t k) i.reqs })
  s.modKpr (fun k => { k with
    zeroing := k.zeroing.filter (fun i => i != id), given := k.given.filter (fun p => p.1 != id)
    moves := k.moves.filter (fun m => m.started || m.why != .slip id) })

/-- An unregistered call number whose RELEASE was stopped before its end leaves the table, with its frames, once no move of it runs
(R187 step 6, R340, R342). -/
def State.goneSettle (s : State) : State :=
  let busy := fun (h : Holding) =>
    s.kpr.moves.any (fun m => m.started && m.carrel == h.carrel && m.call == h.call)
      || s.cat.slips.any (fun p => p.2.typ == 6 && p.2.st == .running && p.2.carrel == h.carrel && fld (p.2.p 0) 0 8 == 2 && fld (p.2.p 0) 32 32 == h.call)
  let dead := s.kpr.calls.filter (fun p => p.2.gone && !busy p.2)
  if dead.isEmpty then s
  else s.modKpr (fun k => { k with
    calls := k.calls.filter (fun p => !(p.2.gone && !busy p.2))
    moves := k.moves.filter (fun m => !dead.any (fun p => p.2.carrel == m.carrel && p.2.call == m.call)) })

/-- A no-progress event captured (cause 2, R189). -/
def State.captureStall (s : State) (x : Slip) : State :=
  let s' := s.capture x 2 0x8001 (s.stallPlace x)
  if x.typ = 2 then s'.draw 4 else s'

/-- A slip is abandoned (R187): its work stops, and it retires. A COPY whose chunk is under way at a peer ends it first (step 6): NO_PROGRESS
is its failure from now on, no other chunk follows, and it retires when the chunk has completed. -/
def State.abandon (s : State) (id : Nat) (x : Slip) : State :=
  if x.typ = 3 && s.slipBusy id then
    if x.fail == some 0x8001 then s
    else (s.captureStall x).modSlip id (fun y => { y with fail := y.fail.or (some 0x8001), progress := y.copyLen })
  else (((s.captureStall x).stopSlip id 1).finish id 0x8001).goneSettle

/-- NO_PROGRESS of a slip (R187): recorded once until its count returns to zero, and abandoned where ABANDON was set at the stamp. -/
def State.noProgress (s : State) (id : Nat) (x : Slip) : State :=
  let s := s.modSlip id (fun y => { y with due := 0 })
  let s := if x.noprog then s else
    let s := if s.belLevelOf 1100 then s else s.bell 1100
    ((s.setRegBit (R.CAT_CARREL_STATE x.carrel) 26 true).log 3 K.noProgress x.carrel 0 x.tag).modSlip id (fun y => { y with noprog := true })
  if x.due = 2 then s.abandon id x else s

/-- NO_PROGRESS (R187). -/
def execNoProgress (c : Func) (tag : BitVec 32) (s : State) : Out :=
  .next (
    match s.slipByTag c.toNat tag.toNat with
    | some (id, x) => if s.running && s.stalled x then s.noProgress id x else s
    | none => s)

/-- Slips whose count reached the threshold at the last stamp, their event not given: it comes before the next update. -/
def State.noProgressDue (s : State) : State :=
  (s.cat.slips.filter (fun p => s.stalled p.2)).foldl (fun s p =>
    match s.slip p.1 with
    | some x => s.noProgress p.1 x
    | none => s) s

/-! ## Cancels (R182, R183) -/

/-- Named slips in ENTERED or READY retire with CANCELLED; CAT_CANCEL_STATUS reports (R183). -/
def State.cancel (s : State) (named : List (Nat × Slip)) : State :=
  let can := named.filter (fun p => p.2.st == .entered || p.2.st == .ready)
  let late := named.filter (fun p => p.2.st == .planned || p.2.st == .running || p.2.st == .retired)
  let result := if named.isEmpty then 1 else if can.isEmpty then 2 else if late.isEmpty then 0 else 3
  let s := can.foldl (fun s p => s.retire p.1 0x2004) s
  (s.setReg R.CAT_CANCEL_STATUS (BitVec.ofNat 64 (2 * result + can.length * 2 ^ 16))).settle

/-- Slips a mode names: 0 one tag, 1 a carrel, 2 a slip-ring context. -/
def State.cancelTag (s : State) (c tag : Nat) : State := s.cancel (s.slipByTag c tag).toList
def State.cancelCarrel (s : State) (c : Nat) : State := s.cancel (s.slipsOf c)
def State.cancelRing (s : State) (k : Nat) : State := s.cancel (s.cat.slips.filter (fun p => p.2.ctx == k))

/-- CAT_CANCEL, MODE 0 (R182). -/
def execCatCancelSlip (c : Func) (tag : BitVec 32) (s : State) : Out := .next (if s.alive then s.cancelTag c.toNat tag.toNat else s)

/-- CAT_CANCEL, MODE 1. -/
def execCatCancelCarrel (c : Func) (s : State) : Out := .next (if s.alive then s.cancelCarrel c.toNat else s)

/-- CAT_CANCEL, MODE 2. -/
def execCatCancelRing (k : BitVec 13) (s : State) : Out := .next (if s.alive then s.cancelRing k.toNat else s)

/-! ## Snapshots and shares (R172, R189) -/

/-- SNAP_VALID and SNAP_MISSED of a carrel cleared. -/
def State.snapClear (s : State) (c : Nat) : State :=
  if c = 0 then s
  else { s.setField (R.CAT_CARREL_STATE c) 27 9 0 with cat := { s.cat with snaps := Tab.erase s.cat.snaps c, skips := Tab.erase s.cat.skips c } }

/-- CAT_SNAP_CLEAR (R189). -/
def execCatSnapClear (c : Func) (s : State) : Out := .next (if s.alive then s.snapClear c.toNat else s)

/-- Word w of the snapshot CAT_SNAP_SEL names (R190). -/
def State.snapWordOf (s : State) (w : Nat) : Word :=
  let c := s.field R.CAT_SNAP_SEL 0 10
  if s.regBit (R.CAT_CARREL_STATE c) 27 then wordAt (Tab.getD s.cat.snaps c []) w else 0

/-- A write of CAT_SHARE[c] (R172). -/
def State.shareWrite (s : State) (c : Nat) (v : Word) : State :=
  let v := v &&& 0xFFFF1FFF1FFF
  let others := listSum ((s.shareMins.filter (fun p => p.1 != c)).map (·.2))
  if !s.carrelExists c then s
  else if 4096 < others + fld v 0 13 ∨ fld v 16 13 < fld v 0 13 then s.setRegBit R.CAT_STATUS 32 true
  else s.setReg (R.CAT_SHARE c) v

/-- CAT_SHARE_WRITE (R172). -/
def execCatShareWrite (c : Func) (v : Word) (s : State) : Out := .next (if s.alive then s.shareWrite c.toNat v else s)

end Sys2Proof.Machine
end

