-- ==== Sys2Proof/Machine/Volume.lean ====
section
/-! DEFINITION. The Bindery's reading of a volume: its checks (R219 to R224, R278), the size table (R225), the passes it derives (R226,
R227), members (R228) and anchors (R229). -/

namespace Sys2Proof.Machine

/-! ## The volume as read -/

/-- A volume's bytes, and its words. -/
structure Vol where
  bytes : List Byte
  ws    : List Word
  deriving DecidableEq, Repr

/-- Word i of a volume, and a field of it. -/
def Vol.w (v : Vol) (i : Nat) : Word := wordAt v.ws i
def Vol.f (v : Vol) (i lo width : Nat) : Nat := fld (v.w i) lo width

/-- VOLUME_FORMAT and VOLUME_VERSION. -/
def volFormat : Code := 0x3007
def volVersion : Code := 0x3008

/-- Bits of the header that are named (Table 8-1). -/
def headerMasks : List Word := [0xFFFFFFFFFFFF, 0xFFFFFFFFFFFF, 0xFFFFFFFF, 0xFFFF, 0, 0, 0, 0xFFFFFFFF]

/-- The header's checks in the order of Table 8-1; n is VOLUME_LEN (R219). -/
def Vol.headerCheck (v : Vol) (n : Nat) : Option Code :=
  if n < 64 ∨ v.f 0 0 32 ≠ 0x58594E4C then some volFormat
  else if v.f 0 32 8 ≠ 0 ∨ v.f 0 40 8 ≠ 1 then some volVersion
  else if v.f 1 0 32 ≠ n ∨ v.f 1 32 16 < 5 ∨ 16 < v.f 1 32 16 then some volFormat
  else if crc32c (v.bytes.drop 64) ≠ v.f 2 0 32 then some volFormat
  else if v.f 3 0 16 < 1 ∨ 1024 < v.f 3 0 16 then some volFormat
  else if crc32c (v.bytes.take 56) ≠ v.f 7 0 32 then some volFormat
  else if reservedSet (v.ws.take 8) headerMasks then some volFormat
  else none

/-- A section directory entry (R220). -/
structure Sect where
  kind : Nat
  off  : Nat
  len  : Nat
  deriving DecidableEq, Repr

/-- The section directory. -/
def Vol.sects (v : Vol) : List Sect :=
  (List.range (v.f 1 32 16)).map (fun i => ⟨v.f (8 + 2 * i) 0 8, v.f (8 + 2 * i) 32 32, v.f (9 + 2 * i) 0 32⟩)

/-- Bytes of an entry of a section kind (Table 8-2); NAMES is free text. -/
def sectEntry (kind : Nat) : Nat := if kind = 1 then 64 else if kind = 6 then 1 else 32

/-- The sections keep R220. -/
def Vol.sectsOk (v : Vol) (n : Nat) : Bool :=
  let l := v.sects
  let dirEnd := 64 + 16 * v.f 1 32 16
  decide (dirEnd ≤ n)
    && (List.range (v.f 1 32 16)).all (fun i => v.f (8 + 2 * i) 8 24 == 0 && v.f (9 + 2 * i) 32 32 == 0)
    && l.all (fun x => decide (1 ≤ x.kind) && decide (x.kind ≤ 6) && x.off % 64 == 0 && decide (dirEnd ≤ x.off)
        && decide (x.off + x.len ≤ n) && x.len % sectEntry x.kind == 0)
    && [1, 2, 3, 4, 5].all (fun k => (l.filter (fun x => x.kind == k)).length == 1)
    && decide ((l.filter (fun x => x.kind == 6)).length ≤ 1)
    && ((List.range l.length).zip l).all (fun p => (l.drop (p.1 + 1)).all (fun y => !overlaps p.2.off p.2.len y.off y.len))

/-- The entries of a section: their words. -/
def Vol.entries (v : Vol) (kind : Nat) : List (List Word) :=
  match v.sects.find? (fun x => x.kind == kind) with
  | none => []
  | some x =>
    let n := sectEntry kind / 8
    (List.range (x.len / (8 * n))).map (fun i => (v.ws.drop (x.off / 8 + n * i)).take n)

/-! ## Declarations (Tables 8-3 to 8-5) -/

/-- Field of word i of a declaration. -/
def dfld (d : List Word) (i lo width : Nat) : Nat := fld (wordAt d i) lo width

/-- The five tables of a volume. -/
structure VolTabs where
  kernels : List (List Word)
  tensors : List (List Word)
  stmts   : List (List Word)
  rules   : List (List Word)
  costs   : List (List Word)
  deriving DecidableEq, Repr

/-- The tables; kernel declarations beyond NKERNELS are none of the volume's (DEDUCED, notes/assumptions/38.md). -/
def Vol.tabs (v : Vol) : VolTabs :=
  { kernels := (v.entries 1).take (v.f 3 0 16), tensors := v.entries 2, stmts := v.entries 3, rules := v.entries 4, costs := v.entries 5 }

/-- FORMAT, DIM[i] and flags of a tensor (Table 8-4). -/
def tFormat (t : List Word) : Nat := dfld t 0 0 8
def tHolding (t : List Word) : Bool := bitAt (wordAt t 0) 8
def tFromArg (t : List Word) : Bool := bitAt (wordAt t 0) 9
def tAccum (t : List Word) : Bool := bitAt (wordAt t 0) 10
def tSource (t : List Word) : Nat := dfld t 0 32 32
def tDim (t : List Word) (i : Nat) : Nat := dfld t 1 (16 * i) 16

/-- CLASS and VARIANT of a statement as an opcode, and its tensor indices (R224). -/
def sOp (x : List Word) : Nat := dfld x 0 0 8 * 256 + dfld x 0 8 8
def sDst (x : List Word) : Nat := dfld x 0 16 16
def sSrcA (x : List Word) : Nat := dfld x 0 32 16
def sSrcB (x : List Word) : Nat := dfld x 0 48 16

/-- A MATMUL statement: MMA or MMA_SPARSE (R229 sets ACC_LOAD apart). -/
def sMatmul (x : List Word) : Bool := sOp x == 0x100 || sOp x == 0x101

/-- Fields of a kernel declaration (Table 8-3). -/
def kArgLen (k : List Word) : Nat := dfld k 0 16 16
def kFirstTensor (k : List Word) : Nat := dfld k 2 0 32
def kNTensor (k : List Word) : Nat := dfld k 2 32 16

/-- A kernel's statements, its tensor i, and its tensors in declaration order. -/
def VolTabs.stmtsOf (v : VolTabs) (k : List Word) : List (List Word) := (v.stmts.drop (dfld k 1 0 32)).take (dfld k 1 32 32)
def VolTabs.tensor (v : VolTabs) (k : List Word) (i : Nat) : List Word := v.tensors.getD (kFirstTensor k + i) []
def VolTabs.tensorsOf (v : VolTabs) (k : List Word) : List (List Word) := (v.tensors.drop (kFirstTensor k)).take (kNTensor k)
def VolTabs.rule (v : VolTabs) (k : List Word) : List Word := v.rules.getD (dfld k 3 0 16) []
def VolTabs.cost (v : VolTabs) (k : List Word) : List Word := v.costs.getD (dfld k 3 16 16) []

/-- Named bits of each declaration. -/
def kernelMasks : List Word := [0xFFFFFFFF, 0xFFFFFFFFFFFFFFFF, 0xFFFFFFFFFFFF, 0xFFFFFFFF, 0, 0, 0, 0]
def tensorMasks : List Word := [0xFFFFFFFF00FF07FF, 0xFFFFFFFFFFFFFFFF, 0x1FF, 0]
def ruleMasks : List Word := [0x3FFFFFFFFFFFF, 0, 0, 0]
def costMasks : List Word := [0xFFFFFF, 0xFFFFFFFFFFFF, 0, 0]

/-- A tensor declaration is well formed (R222, R278). -/
def tensorOk (t : List Word) : Bool :=
  !reservedSet t tensorMasks && (fmtOf (tFormat t)).isSome && decide (1 ≤ dfld t 0 16 8) && decide (dfld t 0 16 8 ≤ 4)
    && (List.range 4).all (fun i => decide (i < dfld t 0 16 8) || tDim t i == 1)

/-- Variants of a class (R224, Table 9-9): CLASS 0x00 occurs in folios only. -/
def classVariants (c : Nat) : Nat :=
  if c = 1 then 6 else if c = 2 then 11 else if c = 3 then 4 else if c = 4 then 3 else if c = 5 then 2 else if c = 6 then 2
  else if c = 7 then 1 else if c = 8 then 2 else 0

/-- Format code of the tensor a statement names as an operand. -/
def VolTabs.stmtFmt (v : VolTabs) (k x : List Word) (o : Opnd) : Nat :=
  tFormat (v.tensor k (match o with | .d => sDst x | .a => sSrcA x | .b => sSrcB x))

/-- CLASS, VARIANT and the format fields of a statement's folio (R224, R278). -/
def VolTabs.stmtW0 (v : VolTabs) (k x : List Word) (p : OpSpec) : Word :=
  BitVec.ofNat 64 (p.fmts.foldl (fun n o => n + v.stmtFmt k x o * 2 ^ (32 + 8 * o.ix)) (dfld x 0 0 16))

/-- The formats a statement's tensors give its folio pass the Use column and Table 10-4 (R278). -/
def VolTabs.stmtFormatsOk (v : VolTabs) (k x : List Word) : Bool :=
  match opSpec (sOp x) with
  | none => false
  | some p => !(Folio.formatBad ⟨0, [v.stmtW0 k x p, 0, 0, 0, 0, 0, 0, 0]⟩ p)

/-! ## The size table (R225) -/

/-- The size table as an accession resolves it (Table 8-6). -/
def sizeTable (job : BindJob) : List Nat :=
  [1, 256, 16, 64, 32, 16, 256, 524288, job.limit, 64, 3840, 1024, job.s, job.periodCc, 96, 32]

/-- A 16-bit operand field of a statement: a constant, or with bit 15 set the size-table entry of bits [3:0] shifted right by bits [7:4]
(R224). The manual does not say what a result beyond 16 bits gives: a free value (notes/assumptions/77.md). -/
def resolveField (job : BindJob) (n : Nat) : Nat :=
  if n < 0x8000 then n
  else
    let x := (sizeTable job).getD (n % 16) 0 >>> (n / 16 % 16)
    if x < 0x10000 then x else (Config.wideSize n x).toNat

/-- A field that is a size-table reference has its unnamed bits [14:8] zero (R12). -/
def fieldOk (n : Nat) : Bool := decide (n < 0x8000) || n / 256 % 128 == 0

/-- The operand fields of word w (1 to 3) of a statement: W3 [63:48] holds the coordinates and CORE_SPLIT, no 16-bit field. -/
def stmtFields (x : List Word) (w : Nat) : List Nat := (List.range (if w = 3 then 3 else 4)).map (fun i => dfld x w (16 * i) 16)

/-- Word w (1 to 3) of a statement's folio (R224). -/
def stmtWord (job : BindJob) (x : List Word) (w : Nat) : Word :=
  let l := stmtFields x w
  let n := listSum (((List.range l.length).zip l).map (fun p => resolveField job p.2 * 2 ^ (16 * p.1)))
  BitVec.ofNat 64 (n + (if w = 3 then dfld x 3 48 16 * 2 ^ 48 else 0))

/-- W1 to W3 of a statement are well formed: no field its opcode does not use, no reserved bit (R12, R224, R250). -/
def stmtOk (job : BindJob) (x : List Word) : Bool :=
  match opSpec (sOp x) with
  | none => false
  | some p => [1, 2, 3].all (fun w => (stmtFields x w).all fieldOk
      && stmtWord job x w &&& ~~~ (wordAt (Folio.masks ⟨0, []⟩ p) w) == 0)

/-- Block sizes of the block formats among the SRC_A and SRC_B tensors of a kernel's MATMUL statements. -/
def VolTabs.blockSizes (v : VolTabs) (k : List Word) : List Nat :=
  (((v.stmtsOf k).filter sMatmul).flatMap (fun x => [fmtBlock (tFormat (v.tensor k (sSrcA x))), fmtBlock (tFormat (v.tensor k (sSrcB x)))])).filter
    (fun b => b != 0)

/-- R223: K_GRAIN and DIM[1] of block-format operands are multiples of every block size. -/
def VolTabs.grainOk (v : VolTabs) (k : List Word) : Bool :=
  let bs := v.blockSizes k
  let dims := ((v.stmtsOf k).filter sMatmul).flatMap (fun x =>
    ([v.tensor k (sSrcA x), v.tensor k (sSrcB x)].filter (fun t => fmtBlock (tFormat t) != 0)).map (fun t => tDim t 1))
  bs.all (fun b => dfld (v.rule k) 0 32 16 % b == 0 && dims.all (fun d => d % b == 0))

/-- A kernel's declaration and statements are well formed (R221, R222, R224). -/
def VolTabs.kernelOk (v : VolTabs) (k : List Word) : Bool :=
  !reservedSet k kernelMasks && decide (1 ≤ dfld k 1 32 32) && decide (dfld k 1 0 32 + dfld k 1 32 32 ≤ v.stmts.length)
    && decide (1 ≤ kNTensor k) && decide (kNTensor k ≤ 4096) && decide (kFirstTensor k + kNTensor k ≤ v.tensors.length)
    && decide (dfld k 3 0 16 < v.rules.length) && decide (dfld k 3 16 16 < v.costs.length)
    && (v.stmtsOf k).all (fun x =>
        [sDst x, sSrcA x, sSrcB x].all (fun i => decide (kFirstTensor k + i < v.tensors.length)) && v.stmtFormatsOk k x)
    && v.grainOk k
    && (v.tensorsOf k).all (fun t => !(tHolding t && tFromArg t) || decide (tSource t < 8 * kArgLen k))

/-- Everything of check 5 of Table 8-8 beyond the header, but for R228 and R229. -/
def VolTabs.ok (v : VolTabs) : Bool :=
  v.tensors.all tensorOk
    && v.stmts.all (fun x => decide (dfld x 0 8 8 < classVariants (dfld x 0 0 8)))
    && v.rules.all (fun r => !reservedSet r ruleMasks && decide (dfld r 0 48 2 ≤ 1))
    && v.costs.all (fun c => !reservedSet c costMasks)
    && decide ((v.kernels.map (fun k => dfld k 0 0 16)).eraseDups.length = v.kernels.length)
    && v.kernels.all v.kernelOk

/-! ## Passes (R225 to R227) -/

/-- What R227 derives for a kernel. -/
structure Derived where
  q     : Nat
  c     : Nat
  m     : Nat
  fp    : Nat
  group : Nat
  deriving DecidableEq, Repr

/-- Bytes of a row of n elements (R227): whole blocks, or bits rounded up to a byte. -/
def rowBytes (code n : Nat) : Nat := if fmtBlock code = 0 then fmtBytes code n else fmtBytes code (alignUp n (fmtBlock code))

/-- An edge of a tile: 0 takes the size-table edge 128 (R229). -/
def tileEdge (n : Nat) : Nat := if n = 0 then 128 else n

/-- Ops per pass over 256 cores, in cc × 8192 (R38): 16 cells per core, w cells per product, twice as fast with 2:4 sparsity. -/
def VolTabs.matCc (v : VolTabs) (k : List Word) (tm tn kc : Nat) : Nat :=
  listSum (((v.stmtsOf k).filter sMatmul).map (fun x =>
    let w := cellsOf (tFormat (v.tensor k (sSrcA x))) (tFormat (v.tensor k (sSrcB x)))
    tm * tn * kc * w * (if sOp x = 0x101 then 1 else 2)))

/-- The statement's tensor of an operand lives in a holding, so its folio's operand is external. -/
def VolTabs.stmtExt (v : VolTabs) (k x : List Word) (o : Opnd) : Bool :=
  tHolding (v.tensor k (match o with | .d => sDst x | .a => sSrcA x | .b => sSrcB x))

/-- Folio time of Table 9-9 of one tile of a statement on 256 cores, external transfers at the shelf DMA's 128 bytes per cc and row
addresses at the clerk's four per cc (R227, R261; DEDUCED, notes/assumptions/38.md). -/
def VolTabs.stmtCc (v : VolTabs) (k : List Word) (job : BindJob) (tm tn : Nat) (x : List Word) : Nat :=
  let op := sOp x
  let e := fun i => resolveField job (dfld x 1 (16 * i) 16)
  let fmts := ((opSpec op).map (fun p => p.fmts.map (v.stmtFmt k x))).getD []
  let lanes := if !fmts.isEmpty && fmts.all (fun f => f == 0x10 || f == 0x11) then 4 else 2
  let n := ceilDiv (tm * tn) (lanes * 256)
  let bytes := tm * rowBytes (v.stmtFmt k x (if op = 0x402 then .d else .a)) tn
  let far := v.stmtExt k x .d || v.stmtExt k x .a
  if op = 0x102 then ceilDiv (e 0) 16
  else if 0x103 ≤ op ∧ op ≤ 0x105 then ceilDiv (e 0) 4
  else if op / 256 = 2 then (if 0x208 ≤ op then 4 * n else n)
  else if op / 256 = 3 then n + 8 * ceilDiv tm 256
  else if op = 0x401 ∨ (op = 0x400 ∧ far = true) then ceilDiv bytes 128
  else if op / 256 = 4 then ceilDiv bytes (64 * 256)
  else if op / 256 = 5 then ceilDiv (e 1) 16 + max (ceilDiv (256 * e 1) 4) (if far then ceilDiv (256 * (e 0 * e 1)) 128 else 0)
  else 1

/-- Tensors a statement names as SRC_A or SRC_B: those whose operand its opcode has. -/
def sSources (x : List Word) : List Nat :=
  match opSpec (sOp x) with
  | none => []
  | some p => (if (p.spaces .a).isEmpty then [] else [sSrcA x]) ++ (if (p.spaces .b).isEmpty then [] else [sSrcB x])

/-- FP and arithmetic cc of a pass at a chunk length kc. -/
def VolTabs.passCost (v : VolTabs) (k : List Word) (job : BindJob) (tm tn kc : Nat) : Nat × Nat :=
  match (v.stmtsOf k).find? sMatmul with
  | some x => (tm * rowBytes (tFormat (v.tensor k (sSrcA x))) kc + tn * rowBytes (tFormat (v.tensor k (sSrcB x))) kc,
      ceilDiv (v.matCc k tm tn kc) 8192)
  | none =>
    let ts := ((v.stmtsOf k).flatMap sSources).eraseDups
    (listSum (ts.map (fun i => tm * rowBytes (tFormat (v.tensor k i)) tn)), listSum ((v.stmtsOf k).map (v.stmtCc k job tm tn)))

/-- The loop of R227 from a split on, by fuel. -/
def VolTabs.splitFrom (v : VolTabs) (k : List Word) (job : BindJob) (cap kk grain tiles : Nat) : Nat → Nat → Derived
  | fuel, split =>
    let r := v.rule k
    let exch := dfld r 0 48 2
    let kc := if grain = 0 then kk else grain * ceilDiv kk (split * grain)
    let p := v.passCost k job (tileEdge (dfld r 0 0 16)) (tileEdge (dfld r 0 16 16)) kc
    let fp := alignUp p.1 64
    let c := p.2 + dfld (v.cost k) 0 0 24
    let m := dfld (v.cost k) 1 0 24 + dfld (v.cost k) 1 24 24 * ceilDiv fp 1024
    let fits := decide (fp ≤ job.limit) && decide (c + ceilDiv (m * 16 * 640) 16000 ≤ cap)
    let d : Derived := ⟨tiles * split, c, m, fp, if exch = 1 then split else 1⟩
    if (fits && decide (job.s ≤ tiles * split)) || grain == 0 || decide (kc ≤ grain) || (exch == 1 && split == job.s) then d
    else
      match fuel with
      | 0 => d
      | n + 1 => VolTabs.splitFrom v k job cap kk grain tiles n (split + 1)

/-- The passes of a kernel (R227); cap is in cc. -/
def VolTabs.derive (v : VolTabs) (k : List Word) (job : BindJob) (cap : Nat) : Derived :=
  let ss := v.stmtsOf k
  let x := ((ss.find? sMatmul).or ss.head?).getD []
  let dst := v.tensor k (sDst x)
  let mat := ss.any sMatmul
  let kk := if mat then tDim (v.tensor k (sSrcA x)) 1 else 0
  let r := v.rule k
  let tiles := ceilDiv (tDim dst 0) (tileEdge (dfld r 0 0 16)) * ceilDiv (tDim dst 1) (tileEdge (dfld r 0 16 16))
  v.splitFrom k job cap kk (if mat then dfld r 0 32 16 else 0) tiles 65536 1

/-! ## Anchors (R229) and members (R228) -/

/-- Largest finite exponent of a format (Table 10-1). -/
def fmtEmax (code : Nat) : Int := match fmtOf code with
  | some f => f.emax
  | none => 0

/-- The anchor of a kernel's ACCUM tensor i; none where it declares no BOUND and no MATMUL reduces into it. -/
def VolTabs.anchorOf (v : VolTabs) (k : List Word) (i : Nat) : Option Int :=
  let t := v.tensor k i
  if bitAt (wordAt t 2) 8 then some (sext 8 (dfld t 2 0 8) - 95)
  else
    ((v.stmtsOf k).find? (fun x => sMatmul x && sDst x == i)).map (fun x =>
      let a := v.tensor k (sSrcA x)
      fmtEmax (tFormat a) + fmtEmax (tFormat (v.tensor k (sSrcB x))) + (clog2 (max 1 (tDim a 1)) : Int) + 1 - 95)

/-- Every ACCUM tensor of a kernel has its anchor. -/
def VolTabs.anchorsOk (v : VolTabs) (k : List Word) : Bool :=
  ((List.range (kNTensor k)).filter (fun i => tAccum (v.tensor k i))).all (fun i => (v.anchorOf k i).isSome)

/-- The ACCUM tensor a folio translated from statement x works on, where it carries an ANCHOR. -/
def VolTabs.accumOf (v : VolTabs) (k x : List Word) (op : Nat) : Option Nat :=
  if !([0x100, 0x101, 0x102, 0x103, 0x105].contains op) then none
  else if tAccum (v.tensor k (sDst x)) then some (sDst x)
  else if op = 0x103 ∧ tAccum (v.tensor k (sSrcA x)) then some (sSrcA x)
  else none

/-- A folio names a group member at or above the group width: by a member signal, or by a member window (R228). -/
def memberBad (ws : List Word) (width : Nat) : Bool :=
  let x : Folio := ⟨0, ws⟩
  ((x.sigScope == 3 || x.sigScope == 4) && decide (width ≤ x.sigMember))
    || (match opSpec x.opcode with
      | some p => (x.extOpnd p).isSome && x.xkind == 3 && decide (width ≤ x.member)
      | none => false)

end Sys2Proof.Machine
end

