-- ==== Sys2Proof/Machine/Translate.lean ====
section
/-! DEFINITION. Statements translated into folios (R224, R225, R229, R278), the folios that combine sliver partials (R304), and what makes
a translation one of its kernel. Which statement gives which folios of which ring, and the fields W4 to W7, are the released Bindery's
(notes/assumptions/38.md). -/

namespace Sys2Proof.Machine

/-! ## One statement, one folio -/

/-- A word from (lowest bit, value) pairs. -/
def packWord (fs : List (Nat × Nat)) : Word := BitVec.ofNat 64 (listSum (fs.map (fun p => p.2 * 2 ^ p.1)))

/-- Eight words of a slot. -/
def slotWords (ws : List Word) : List Word := (List.range 8).map (fun i => wordAt ws i)

/-- Bits of W0 that are the Bindery's to choose: END, ISSUER, PRE, AGAIN and ROUND. -/
def w0Free : Word := 0x01000000FFFF0000

/-- END and AGAIN of W0. -/
def w0End : Word := 0x00000000FFF10000

/-- The folio of a statement: CLASS, VARIANT and formats from the statement and its tensors, W1 to W3 its resolved operand fields, the rest
from the translation (R224, R225). -/
def VolTabs.stmtFolio (v : VolTabs) (k : List Word) (job : BindJob) (x ws : List Word) : List Word :=
  match opSpec (sOp x) with
  | none => slotWords ws
  | some p =>
    [v.stmtW0 k x p ||| (wordAt ws 0 &&& w0Free), stmtWord job x 1, stmtWord job x 2, stmtWord job x 3]
      ++ [4, 5, 6, 7].map (wordAt ws)

/-! ## Reductions over several slivers (R304) -/

/-- Values a core coordinate takes on the 256 cores of a shelf (R252). -/
def coordCount (sel split : Nat) : Nat :=
  if sel = 0 then 1 else if sel = 1 then 256 else if sel = 2 then 256 / 2 ^ split else 2 ^ split

/-- A floating-point REDUCE whose partials the Bindery combines: `n` cores of a shelf hold partials of one result (1: each core's is its
own), `g` passes of a group do, `sel` is the coordinate by which the partials of a shelf stand apart, and `rows` is EXT1. -/
structure Spanning where
  n    : Nat
  g    : Nat
  sel  : Nat
  rows : Nat
  deriving DecidableEq, Repr

/-- How a statement's reduction spans slivers; f is its folio and d what R227 derived. Cores of a shelf share a result where A steps with a
core coordinate and D with none. The passes of a group share it where its source is a chunked operand of the kernel's first MATMUL and
chunks combine by exchange; under EXCHANGE 0 chunks combine by LA128 adds and need no tree (DEDUCED, notes/assumptions/77.md). -/
def VolTabs.spanning (v : VolTabs) (k : List Word) (d : Derived) (x : List Word) (f : Folio) : Option Spanning :=
  if f.opcode / 256 ≠ 3 ∨ fmtIsInt (f.fmt .a) = true ∨ f.ext 0 = 0 ∨ f.ext 1 = 0 then none
  else
    let cores := if f.sel .d = 0 then coordCount (f.sel .a) f.split else 1
    let chunked := ((v.stmtsOf k).find? sMatmul).any (fun y => sSrcA x == sSrcA y || sSrcA x == sSrcB y)
    let g := if chunked then d.group else 1
    if cores ≤ 1 ∧ g ≤ 1 then none
    else some ⟨cores, g, if 1 < cores then f.sel .a else f.sel .d, f.ext 1⟩

/-- Elements of the partials that one pass of a group holds once its cores have combined theirs. -/
def Spanning.elems (p : Spanning) (f : Folio) : Nat := p.rows * (if 1 < p.n then 1 else coordCount p.sel f.split)

/-- W5: wait for n of a tally and take it. -/
def waitFor (tally n : Nat) : Word := packWord [(0, tally), (5, 1), (6, 1), (8, n)]

/-- W6: one increment of a tally on every core of this shelf, of core 0, and of every core of group member m's shelf. -/
def tellShelf (tally : Nat) : Word := packWord [(16, tally), (21, 2), (48, 1)]
def tellCore0 (tally : Nat) : Word := packWord [(16, tally), (21, 1), (48, 1)]
def tellMember (tally m : Nat) : Word := packWord [(16, tally), (21, 4), (32, m), (48, 1)]

/-- A folio's W5 and W6 written. -/
def withEffects (w5 w6 : Word) (ws : List Word) : List Word := listSet (listSet ws 5 w5) 6 w6

/-- Folios in a strict order over all cores: each tells every core on a tally, and the next waits for all 256. -/
def inOrder (tally : Nat) (first last : Word) : List (List Word) → List (List Word)
  | [] => []
  | [f] => [withEffects first last f]
  | f :: fs => withEffects first (tellShelf tally) f :: inOrder tally (waitFor tally 256) last fs

/-- NOP with a wait and effects. -/
def nopFolio (w5 w6 : Word) : List Word := [0, 0, 0, 0, 0, w5, w6, 0]

/-- The FP32 operation that joins two partials of a REDUCE (R303). -/
def joinOp (op : Nat) : Nat := if op = 0x301 then 4 else if op = 0x302 then 5 else 0

/-- One folio of a level on core 0: `rows` vectors of n elements at a, stride apart, joined with those `off` bytes after them. -/
def joinFolio (op n rows stride a off : Nat) : List Word :=
  [ packWord [(0, 2), (8, op), (17, 1), (32, 0x12), (40, 0x12), (48, 0x12)], packWord [(0, n), (16, rows), (32, 1), (48, 1)]
  , packWord [(0, stride), (16, stride), (32, stride)], 0, packWord [(0, a), (21, a), (42, a + off)], 0, 0, 0 ]

/-- Level l of the canonical tree over `leaves` vectors of n FP32 elements at base: the block of 2^l leaves from every multiple of 2^(l+1)
takes in the block after it. One folio where its stride fits 16 bits. -/
def treeLevel (op n base leaves l : Nat) : List (List Word) :=
  let off := 2 ^ l * (4 * n)
  let pairs := ceilDiv (leaves - 2 ^ l) (2 ^ (l + 1))
  if 2 * off < 0x10000 then [joinFolio op n pairs (2 * off) base off]
  else (List.range pairs).map (fun i => joinFolio op n 1 0 (base + i * (2 * off)) off)

/-- The canonical tree of R303 over `leaves` partials, level by level. -/
def treeFolios (op n base leaves : Nat) : List (List Word) := (List.range (clog2 leaves)).flatMap (treeLevel op n base leaves)

/-- The V folios of a spanning REDUCE: each core's FP32 partials, the tree over the shelf's cores, then (their exchange done by the S ring)
the tree over the group's passes, the conversion to FMT_D, and a NOP with the effects of the translation. -/
def Spanning.vFolios (p : Spanning) (x : Folio) (t : TreeTr) : List (List Word) :=
  let tl := fun i => t.tallies.getD i 0
  let op := joinOp x.opcode
  let w3 := wordAt x.ws 3
  let leaf := listSet (listSet (listSet (listSet (slotWords x.ws) 0 (setFld (setFld (wordAt x.ws 0 &&& ~~~ w0End) 32 8 0x12) 56 1 0))
    2 (setFld (setFld (wordAt x.ws 2) 0 16 4) 48 16 0)) 3 (setFld (setFld w3 0 16 (4 * p.rows)) 48 2 p.sel))
    4 (setFld (wordAt x.ws 4) 0 21 t.base)
  let alone := 1 < p.n
  let conv :=
    [ packWord [(0, 2), (8, 6), (17, if alone then 1 else 0), (32, x.fmt .d), (40, 0x12), (56, b2n x.stoch)]
    , packWord [(0, 1), (16, p.rows), (32, 1), (48, 1)], packWord [(0, x.stride .d), (16, 4), (48, x.param)]
    , packWord (if alone then [] else [(0, x.coreStep .d), (16, 4 * p.rows), (48, p.sel), (50, p.sel), (60, x.split)])
    , packWord [(0, x.f 4 0 21), (21, t.base)], 0, 0, 0 ]
  let cores := inOrder (tl 0) (wordAt x.ws 5) (tellShelf (tl (if 1 < p.g then 1 else 0))) (leaf :: treeFolios op p.rows t.base p.n)
  let passes := inOrder (tl 0) (waitFor (tl 2) 256) (tellShelf (tl 0)) (treeFolios op (p.elems x) t.base p.g)
  cores ++ passes ++ [withEffects (waitFor (tl 0) 256) (tellShelf (tl 0)) conv, nopFolio (waitFor (tl 0) 256) (wordAt x.ws 6)]

/-- A COPY of the exchange: rows of n bytes between the loan at base and the holding of a recipe. -/
def exchangeCopy (out : Bool) (w3 : Word) (issuer n rows base recipe : Nat) : List Word :=
  [ packWord [(0, 4), (17, issuer)], packWord [(0, n), (16, rows), (32, 1), (48, 1)], packWord [(0, n), (16, n)], w3
  , packWord (if out then [(19, 3), (21, base)] else [(0, base), (40, 3)]), 0, 0, packWord [(2, recipe)] ]

/-- NOPs of core 0 that tell every member of the group, the first after a wait: core 0 alone has tally `mark` other than 0. -/
def tellGroup (w5 : Word) (mark tally g : Nat) : List (List Word) :=
  (List.range g).map (fun m =>
    nopFolio ((if m = 0 then w5 else 0) ||| packWord [(24, 2), (48, mark)]) (tellMember tally m))

/-- The S folios of a REDUCE that spans passes: a pass writes its partials to the group's place in a holding, tells every member, reads all
of them back once every member has written, and goes on once every member has read. -/
def Spanning.sFolios (p : Spanning) (x : Folio) (t : TreeTr) : List (List Word) :=
  let tl := fun i => t.tallies.getD i 0
  let n := 4 * p.elems x
  let row := 4 * p.rows
  let w3 := if 1 < p.n then 0 else packWord [(0, row), (16, row), (48, p.sel), (50, p.sel), (60, x.split)]
  [withEffects (waitFor (tl 1) 256) (tellShelf (tl 3)) (exchangeCopy true w3 (if 1 < p.n then 1 else 0) row 1 t.base t.wr)
  , nopFolio (waitFor (tl 3) 256) (tellCore0 (tl 4)), nopFolio 0 (tellShelf (tl 3))]
    ++ tellGroup (waitFor (tl 3) 256) (tl 4) (tl 5) p.g
    ++ [withEffects (waitFor (tl 5) p.g) (tellShelf (tl 3)) (exchangeCopy false 0 1 n p.g t.base t.rd)
       , nopFolio (waitFor (tl 3) 256) (tellShelf (tl 2))]
    ++ tellGroup 0 (tl 4) (tl 5) p.g ++ [nopFolio (waitFor (tl 5) p.g) (wordAt x.ws 6)]

/-- END and AGAIN of a translated folio stand on the last of the folios it gives. -/
def endOnLast (w0 : Word) (fs : List (List Word)) : List (List Word) :=
  ((List.range fs.length).zip fs).map (fun q => if q.1 + 1 = fs.length then listSet q.2 0 (wordAt q.2 0 ||| (w0 &&& w0End)) else q.2)

/-- The folios an item of ring e (0 M, 1 V, 2 S) gives. -/
def VolTabs.emitItem (v : VolTabs) (k : List Word) (job : BindJob) (d : Derived) (e : Nat) (f : FolioTr) : List FolioTr :=
  match f.stmt.bind (fun i => (v.stmtsOf k)[i]?) with
  | none => [{ f with words := slotWords f.words }]
  | some st =>
    let ws := v.stmtFolio k job st f.words
    match v.spanning k d st ⟨0, ws⟩, f.tree with
    | some p, some t =>
      (endOnLast (wordAt ws 0) (if e = 2 then p.sFolios ⟨0, ws⟩ t else p.vFolios ⟨0, ws⟩ t)).map (fun w => { f with words := w })
    | _, _ => [{ f with words := ws }]

/-- A kernel's translation with every statement's fields in place and every tree spelt out. -/
def VolTabs.emit (v : VolTabs) (k : List Word) (job : BindJob) (d : Derived) (t : KernelTr) : KernelTr :=
  { t with ringM := t.ringM.flatMap (v.emitItem k job d 0), ringV := t.ringV.flatMap (v.emitItem k job d 1)
           ringS := t.ringS.flatMap (v.emitItem k job d 2) }

/-! ## What a translation keeps -/

/-- A folio of ring e that no fetch check on opcode, reserved bits or format refuses (Table 9-10, R278). -/
def folioFits (e : Nat) (ws : List Word) : Bool :=
  let x : Folio := ⟨0, ws⟩
  match opSpec x.opcode with
  | none => false
  | some p => p.eng.all (fun k => k == e) && !x.reservedBad p && !x.formatBad p

/-- A ring of folios: END on its last folio alone, at most 1,024 of them (R242). -/
def ringFits (e : Nat) (fs : List FolioTr) : Bool :=
  decide (fs.length ≤ 1024) && fs.all (fun f => folioFits e f.words)
    && fs.dropLast.all (fun f => !Folio.end_ ⟨0, f.words⟩) && fs.getLast?.all (fun f => Folio.end_ ⟨0, f.words⟩)

/-- A pass's recipe of an exchange: a term for DIV passes of n bytes each, and no other. -/
def recipeIs (ws : List Word) (div n : Nat) : Bool :=
  wordAt ws 1 == packWord [(0, div), (32, n)] && wordAt ws 2 == 0 && wordAt ws 3 == 0 && decide (n < 2 ^ 32)

/-- What a translated item of a spanning REDUCE brings: a place for the partials, six tallies of a core, no predicate, every core, rows
whose strides fit; for several passes, recipes of one holding place, and few enough laps that core 0's mark never wraps to 0. -/
def VolTabs.treeFits (v : VolTabs) (k : List Word) (job : BindJob) (d : Derived) (t : KernelTr) (f : FolioTr) : Bool :=
  match f.stmt.bind (fun i => (v.stmtsOf k)[i]?) with
  | none => f.stmt.isNone
  | some st =>
    let x : Folio := ⟨0, v.stmtFolio k job st f.words⟩
    match v.spanning k d st x, f.tree with
    | none, _ => true
    | some _, none => false
    | some p, some tr =>
      let n := 4 * p.elems x
      let rw := t.recipes.getD tr.wr []
      let rr := t.recipes.getD tr.rd []
      tr.tallies.length == 6 && tr.tallies.all (fun i => decide (i < 32)) && tr.tallies.eraseDups.length == 6
        && decide (tr.base + 4 * p.rows * max p.n (coordCount p.sel x.split) ≤ 0x80000) && decide (tr.base + n * p.g ≤ 0x80000)
        && x.predOp == 0 && x.issuer == 0 && decide (4 * p.rows < 0x10000)
        && (p.g == 1 || (decide (n < 0x10000) && recipeIs rw 1 n && recipeIs rr p.g (p.g * n) && wordAt rw 0 == wordAt rr 0
            && decide (tr.wr < t.recipes.length) && decide (tr.rd < t.recipes.length)
            && (t.ringS ++ t.ringV).all (fun y => decide ((wordAt y.words 0).toNat / 2 ^ 20 % 4096 < 255))))

/-- Items of a ring that stand for statement i. -/
def stmtItems (fs : List FolioTr) (i : Nat) : Nat := (fs.filter (fun f => f.stmt == some i)).length

/-- Statement i of a kernel is translated: a REDUCE that spans passes once in the V and once in the S ring, any other at least once. -/
def VolTabs.stmtTranslated (v : VolTabs) (k : List Word) (job : BindJob) (d : Derived) (t : KernelTr) (i : Nat) (st : List Word) : Bool :=
  match v.spanning k d st ⟨0, v.stmtFolio k job st []⟩ with
  | some p => stmtItems t.ringV i == 1 && stmtItems t.ringM i == 0 && stmtItems t.ringS i == (if 1 < p.g then 1 else 0)
  | none => decide (1 ≤ stmtItems (t.ringM ++ t.ringV ++ t.ringS) i)

/-- The pass runs cover passes 0 to Q − 1 in order, in whole groups, with at most 16 runs (R232). -/
def runsFit (d : Derived) (rs : List RunPrincipal) : Bool :=
  decide (1 ≤ rs.length) && decide (rs.length ≤ 16)
    && rs.all (fun r => decide (0 < r.count.toNat) && r.count.toNat % d.group == 0 && decide (1 ≤ r.inner.toNat) && decide (1 ≤ r.outer.toNat))
    && listSum (rs.map (fun r => r.count.toNat)) == min d.q (2 ^ 32 - 1)

/-- t is a translation of kernel k: of every statement, with every reduction over several slivers combined by the canonical tree. -/
def VolTabs.translates (v : VolTabs) (k : List Word) (job : BindJob) (d : Derived) (t : KernelTr) : Bool :=
  let e := v.emit k job d t
  runsFit d t.runs && ringFits 0 e.ringM && ringFits 1 e.ringV && ringFits 2 e.ringS
    && (t.ringM ++ t.ringV ++ t.ringS).all (v.treeFits k job d t)
    && ((List.range (v.stmtsOf k).length).zip (v.stmtsOf k)).all (fun q => v.stmtTranslated k job d t q.1 q.2)

end Sys2Proof.Machine
end

