-- ==== Sys2Proof/Machine/Bindery.lean ====
section
/-! DEFINITION. The Bindery: a volume's image (R230 to R232) and its load (R234 to R240). -/

namespace Sys2Proof.Machine

/-! ## The image (R231, R232) -/

/-- A kernel ready to be laid out. -/
structure KernelPlan where
  decl  : List Word
  d     : Derived
  /-- its translation as `VolTabs.emit` spells it out -/
  tr    : KernelTr
  holds : List Word
  deriving DecidableEq, Repr

/-- A number clipped to a field: a pass whose C or M is beyond the field can run in no period (notes/assumptions/38.md). -/
def clip (bits n : Nat) : Nat := min n (2 ^ bits - 1)

/-- Entries of a kernel's holding list, at most 255. -/
def VolTabs.holdList (v : VolTabs) (k : List Word) : List Word :=
  (((v.tensorsOf k).filter tHolding).take 255).map (fun t => BitVec.ofNat 64 (tSource t + b2n (tFromArg t) * 2 ^ 32))

/-- A run from pass `first` on (Table 8-7). -/
def KernelPlan.run (p : KernelPlan) (first : Nat) (r : RunPrincipal) : List Word :=
  [ BitVec.ofNat 64 (first % 2 ^ 32 + r.count.toNat * 2 ^ 32), BitVec.ofNat 64 (clip 24 p.d.c + clip 24 p.d.m * 2 ^ 24)
  , BitVec.ofNat 64 (p.d.fp + p.d.group * 2 ^ 20), BitVec.ofNat 64 (r.principal.toNat + r.inner.toNat * 2 ^ 32)
  , BitVec.ofNat 64 r.pbase.toNat, BitVec.ofNat 64 r.sIn.toNat, BitVec.ofNat 64 r.sOut.toNat, BitVec.ofNat 64 r.outer.toNat ]

/-- The runs, each from the pass after the one before it. -/
def KernelPlan.runsFrom (p : KernelPlan) (first : Nat) : List RunPrincipal → List Word
  | [] => []
  | r :: rs => p.run first r ++ p.runsFrom (first + r.count.toNat) rs

/-- The pass table of a kernel (R232). -/
def KernelPlan.passTable (p : KernelPlan) : List Word := p.runsFrom 0 p.tr.runs

/-- Slots of a kernel's recipes and folios. -/
def KernelPlan.folios (p : KernelPlan) : Nat := p.tr.recipes.length + p.tr.ringM.length + p.tr.ringV.length + p.tr.ringS.length

/-- Slots of its holding list. -/
def KernelPlan.holdSlots (p : KernelPlan) : Nat := ceilDiv p.holds.length 8

/-- First slots of a kernel's parts: run, holding list, recipes. -/
structure KernelPlace where
  run  : Nat
  hold : Nat
  rec_ : Nat
  deriving DecidableEq, Repr

/-- The rings' first slots from the recipes' first; 0 for a ring with no folio. -/
def KernelPlan.rings (p : KernelPlan) (lo : Nat) : Nat × Nat × Nat :=
  let m := lo + p.tr.recipes.length
  let v := m + p.tr.ringM.length
  let x := v + p.tr.ringV.length
  (if p.tr.ringM.isEmpty then 0 else m, if p.tr.ringV.isEmpty then 0 else v, if p.tr.ringS.isEmpty then 0 else x)

/-- Places of the kernels' parts: the run slots of each, then the holding lists, then the folios of each kernel. -/
def placesFrom (run hold fol : Nat) : List KernelPlan → List KernelPlace
  | [] => []
  | p :: ps => ⟨run, hold, fol⟩ :: placesFrom (run + p.tr.runs.length) (hold + p.holdSlots) (fol + p.folios) ps

/-- Slots of an image. -/
def imageLen (ps : List KernelPlan) : Nat :=
  1 + ps.length + listSum (ps.map (fun p => p.tr.runs.length)) + listSum (ps.map (fun p => p.holdSlots)) + listSum (ps.map (fun p => p.folios))

/-- A kernel's entry (R231). -/
def KernelPlan.entry (p : KernelPlan) (at_ : KernelPlace) : List Word :=
  let r := p.rings at_.rec_
  [ BitVec.ofNat 64 (dfld p.decl 0 0 16 + kArgLen p.decl * 2 ^ 16 + p.tr.runs.length * 2 ^ 32), BitVec.ofNat 64 (clip 32 p.d.q)
  , BitVec.ofNat 64 (at_.run + at_.hold * 2 ^ 12 + p.holds.length * 2 ^ 24), BitVec.ofNat 64 (r.1 + r.2.1 * 2 ^ 12 + r.2.2 * 2 ^ 24)
  , 0, 0, 0, 0 ]

/-- A translated folio as it is loaded: its ANCHOR written (R229), its recipe's slot in place of the recipe's number in the kernel. -/
def VolTabs.linkFolio (v : VolTabs) (p : KernelPlan) (lo : Nat) (f : FolioTr) : List Word :=
  let ws := slotWords f.words
  let x : Folio := ⟨0, ws⟩
  let ws := match f.stmt.bind (fun i => (v.stmtsOf p.decl)[i]?) with
    | none => ws
    | some st =>
      match (v.accumOf p.decl st x.opcode).bind (v.anchorOf p.decl) with
      | some a => listSet ws 7 (setFld (wordAt ws 7) 0 16 (wrapInt 16 a))
      | none => ws
  match opSpec x.opcode with
  | some sp =>
    if (x.extOpnd sp).isSome && x.xkind == 0 then listSet ws 7 (setFld (wordAt ws 7) 2 12 (lo + x.recipe)) else ws
  | none => ws

/-- The folio slots of a kernel. -/
def VolTabs.kernelFolios (v : VolTabs) (p : KernelPlan) (lo : Nat) : List Word :=
  p.tr.recipes.flatMap slotWords ++ (p.tr.ringM ++ p.tr.ringV ++ p.tr.ringS).flatMap (fun f => v.linkFolio p lo f)

/-- The holding list padded to whole slots. -/
def KernelPlan.holdWords (p : KernelPlan) : List Word := (List.range (8 * p.holdSlots)).map (fun i => wordAt p.holds i)

/-- The image, eight words a slot, of a volume whose first slot is lo. -/
def VolTabs.image (v : VolTabs) (vid s lo : Nat) (ps : List KernelPlan) : List Word :=
  let n := ps.length
  let hold := lo + 1 + n + listSum (ps.map (fun p => p.tr.runs.length))
  let pl := placesFrom (lo + 1 + n) hold (hold + listSum (ps.map (fun p => p.holdSlots))) ps
  slotWords [BitVec.ofNat 64 vid, BitVec.ofNat 64 s]
    ++ (ps.zip pl).flatMap (fun q => q.1.entry q.2) ++ ps.flatMap (fun p => p.passTable) ++ ps.flatMap (fun p => p.holdWords)
    ++ (ps.zip pl).flatMap (fun q => v.kernelFolios q.1 q.2.rec_)

/-! ## Blocks (R230) -/

/-- Blocks of carrel c's volume area that images hold. -/
def State.blocksUsed (s : State) (c : Nat) : List (Nat × Nat) :=
  ((s.bind.vols.filter (fun p => p.1 / 65536 == c)).map (·.2) ++ (s.bind.jobs.filter (fun j => j.carrel == c)).filterMap (·.placed)).map
    (fun v => (v.first, v.blocks))

/-- The lowest run of n free blocks. -/
def firstFit (used : List (Nat × Nat)) (n : Nat) : Option Nat :=
  (List.range 60).find? (fun b => decide (b + n ≤ 60) && !used.any (fun u => overlaps b n u.1 u.2))

/-! ## Accession (R235, R239) -/

/-- The job in a Bindery slot. -/
def Bindery.job (b : Bindery) (slot : Bool) : Option BindJob := if slot then b.slot1 else b.slot0

/-- A Bindery slot written. -/
def State.setJob (s : State) (slot : Bool) (j : Option BindJob) : State :=
  { s with bind := if slot then { s.bind with slot1 := j } else { s.bind with slot0 := j } }

/-- An accession ends without its volume: its blocks and a replaced image are freed (R235, R239). -/
def State.bindFail (s : State) (slot : Bool) (j : BindJob) (code : Code) : State :=
  let s := s.setJob slot none
  ({ s with bind := { s.bind with vols := Tab.erase s.bind.vols (volKey j.carrel j.volId) } }).finish j.slip code

/-- Checks 5 and 6 of Table 8-8, and the kernels ready to be laid out; none where tr does not translate the volume. -/
def VolTabs.plan (v : VolTabs) (job : BindJob) (cap : Nat) (tr : List KernelTr) : Except Code (Option (List KernelPlan)) :=
  if !v.ok || !v.stmts.all (stmtOk job) || !v.kernels.all v.anchorsOk then .error volFormat
  else
    let qs := (v.kernels.zip tr).map (fun q => (q.1, v.derive q.1 job cap, q.2))
    if tr.length ≠ v.kernels.length ∨ qs.any (fun q => !v.translates q.1 job q.2.1 q.2.2) = true then .ok none
    else
      let ps : List KernelPlan := qs.map (fun q => { decl := q.1, d := q.2.1, tr := v.emit q.1 job q.2.1 q.2.2, holds := v.holdList q.1 })
      if ps.any (fun p => (p.tr.ringM ++ p.tr.ringV ++ p.tr.ringS).any (fun f => memberBad f.words p.d.group)) then .error volFormat
      else if ps.any (fun p => decide (job.limit < p.d.fp)) then .error 0x4001
      else .ok (some ps)

/-- Where the Bindery's copy of an image lies on each stack (R234, Table 3-13): firmware data of the main part, or the stack reserve;
the place within them is the model's (notes/assumptions/38.md). -/
def State.imageAt (s : State) (slot : Bool) (k : Nat) : Nat :=
  stackBase k + (if s.mainStack = some k then 0x4000000 else 0) + b2n slot * 0x40000

/-- Stack k holds a copy of an image: it is up and not in the test state (R234, R351). -/
def State.holdsCopy (s : State) (k : Nat) : Bool := s.stackUp k && !s.regBit (R.HBM_STACK_STATE k) 28

/-- The copies of an image (R234). -/
def State.imageCopies (s : State) (slot : Bool) : List Nat := ((List.range 6).filter s.holdsCopy).map (s.imageAt slot)

/-- The copy from which a shelf loads: its nearest stack's, else the main part's (R234). -/
def State.copyFor (s : State) (slot : Bool) (sh : Nat) : Nat :=
  let k := nearestStack sh
  s.imageAt slot (if s.holdsCopy k then k else s.mainStack.getD k)

/-- The volume's slip, its check of the room, header, sections and passes, its blocks and its image (checks 4 to 7 of Table 8-8). -/
def State.bindPlace (s : State) (slot : Bool) (j : BindJob) (v : VolTabs) (ps : List KernelPlan) : State :=
  let blocks := ceilDiv (imageLen ps) 64
  match firstFit (s.blocksUsed j.carrel) blocks with
  | none => s.bindFail slot j 0x4003
  | some b =>
    let img := v.image j.volId j.s (256 + 64 * b) ps
    let s := s.setJob slot (some { j with placed := some ⟨b, blocks, j.s, true, img⟩ })
    (s.imageCopies slot).foldl (fun s a => (s.writeMem 0 a (bytesOfWords img)).1) s

/-- cap of R227 in cc. -/
def State.bindCap (s : State) (j : BindJob) : Nat := j.periodCc * s.fill / 16

/-- ACCESSION of a Bindery slot. -/
def State.accession (s : State) (slot : Bool) (tr : List KernelTr) : State :=
  match s.bind.job slot with
  | none => s
  | some j =>
    match j.placed, s.slip j.slip with
    | none, some x =>
      let n := fld (x.p 1) 0 32
      if j.s = 0 then s.bindFail slot j 0x4004
      else
        (match s.readFor j.carrel (fld (x.p 0) 0 48) n x.tag with
          | (s, _, some code) => s.bindFail slot j code
          | (s, bytes, none) =>
            let v : Vol := ⟨bytes, wordsOfBytes (n / 8) bytes⟩
            match v.headerCheck n with
            | some code => s.bindFail slot j code
            | none =>
              if !v.sectsOk n || (v.entries 1).length < v.f 3 0 16 then s.bindFail slot j volFormat
              else
                match v.tabs.plan j (s.bindCap j) tr with
                | .error code => s.bindFail slot j code
                | .ok none => s
                | .ok (some ps) => s.bindPlace slot j v.tabs ps)
    | _, _ => s

/-- ACCESSION (R235). -/
def execAccession (slot : Bool) (tr : List KernelTr) (s : State) : Out := .next (if s.running then s.accession slot tr else s)

/-- A volume's image written to a shelf's folio memory, at its own slots (R230, R240). -/
def State.loadVolume (s : State) (sh : Nat) (v : Volume) : State := s.folioWrite sh (256 + 64 * v.first) v.image

/-- One shelf loads an image from the copy meant for it: the status of a copy that cannot be read, and whether every word of it was read
whole (R234). -/
def State.loadFromCopy (s : State) (slot : Bool) (v : Volume) (sh : Nat) : State × Option Code :=
  match s.readMem 0 (s.copyFor slot sh) (8 * v.image.length) with
  | (s, _, some _) => (s, some 0x6001)
  | (s, bs, none) => (s.folioWrite sh (256 + 64 * v.first) (wordsOfBytes v.image.length bs), none)

/-- The header slot of a shelf read back: FOLIO_MEMORY_ERROR where it is in error or not the image's (R234). -/
def State.headerBack (s : State) (v : Volume) (sh : Nat) : State × Option Code :=
  match s.eccShelfRead sh (folioAddr sh (64 * (256 + 64 * v.first))) 64 16 with
  | (s, e) => (s, if e.isSome || s.folioSlot sh (256 + 64 * v.first) != v.image.take 8 then some 0x6004 else none)

/-- One step of the load on each shelf of a list; the first failure is the answer. -/
def State.onShelves (step : State → Nat → State × Option Code) (s : State) (shs : List Nat) : State × Option Code :=
  shs.foldl (fun r sh =>
    match step r.1 sh with
    | (s, e) => (s, r.2.or e)) (s, none)

/-- ACCESSION_DONE of a slot: the load and its read-back end (R234, R236), or fail as the operand says. Every shelf of the room that is not
withdrawn is loaded. -/
def State.accessionDone (s : State) (slot : Bool) (fail : Option Code) : State :=
  match s.bind.job slot with
  | none => s
  | some j =>
    match j.placed, fail with
    | none, _ => s
    | some _, some code => s.bindFail slot j (if code = 0x6001 then 0x6001 else 0x6004)
    | some v, none =>
      match s.onShelves (fun s sh => s.loadFromCopy slot v sh) (s.roomInUse j.carrel) with
      | (s, some code) => s.bindFail slot j code
      | (s, none) =>
        match s.onShelves (fun s sh => s.headerBack v sh) (s.roomInUse j.carrel) with
        | (s, some code) => s.bindFail slot j code
        | (s, none) =>
          let s := s.setJob slot none
          ({ s with bind := { s.bind with vols := Tab.insert s.bind.vols (volKey j.carrel j.volId) v } }).finish j.slip 0x0000

/-- ACCESSION_DONE (R236). -/
def execAccessionDone (slot : Bool) (fail : Option Code) (s : State) : Out :=
  .next (if s.running then s.accessionDone slot fail else s)

end Sys2Proof.Machine
end

