-- ==== Sys2Proof/Machine/Copies.lean ====
section
/-! DEFINITION. COPY slips in chunks of 4 KiB (R156, R185, R399): sources on this chip, in host memory and at peers, destinations in
memory, windows, host memory and at peers. -/

namespace Sys2Proof.Machine

/-- Requests to a peer for a COPY, on the control complex's channel (R362): LINK_LOST where it cannot be reached. -/
def State.copyAsk (s : State) (id : Nat) (x : Slip) (cls g n : Nat) (bs : List Byte) (dst : Nat → Option Nat) : State × Option Code :=
  match s.reachPeer (g / 2 ^ 48) x.carrel x.tag g with
  | (s, false) => (s, some 0x5001)
  | (s, true) =>
    ((pieces n).foldl (fun (s : State) q =>
      (s.ilnRequest (g / 2 ^ 48) 0 cls x.carrel q.2 (if cls = 4 then x.copyType else 0) (g % 2 ^ 48 + q.1) ((bs.drop q.1).take q.2)
        (.slip id (dst q.1))).1) s, none)

/-- Bytes that a peer sends for a COPY join what the shelf holds back (R265; notes/assumptions/78.md). -/
def State.holdWrites (s : State) (a : Nat) (bs : List Byte) (carrel : Nat) : State :=
  (pieces bs.length).foldl (fun s q =>
    let w := windowAt (a + q.1)
    s.holdBack w.1 (.write ⟨BitVec.ofNat 10 carrel, BitVec.ofNat 12 w.1, w.2, (bs.drop q.1).take q.2⟩)) s

/-- Adds of a COPY on this chip; the chunk waits for the move of a leaf it names (R342). -/
def State.copyAdd (s : State) (id : Nat) (x : Slip) (a : Nat) (bs : List Byte) (fail : Option Code) : State × Option Code :=
  let hold := s.addHeld x.carrel a bs.length
  match s.addMay x.carrel a x.copyType bs fail x.tag with
  | (s, none) => (if hold then s.holdAdd ⟨x.carrel, a, bs.length, true, .slip id, none, 0⟩ else s, none)
  | r => r

/-- Bytes of a COPY land at offset off of its destination. -/
def State.copyLand (s : State) (id : Nat) (x : Slip) (off : Nat) (bs : List Byte) (fail : Option Code) : State × Option Code :=
  let g := (x.p 1).toNat + off
  if x.dstHost then (s.hostWrite x.carrel (g % 2 ^ 64) bs (.slip id), none)
  else if !s.ownChip g then s.copyAsk id x (if x.copyAdds then 4 else 1) g bs.length bs (fun _ => none)
  else
    let a := g % 2 ^ 48
    if inWindows a bs.length then
      (if s.heldBack a bs.length then (s.holdWrites a bs x.carrel, none) else s.windowRange a bs x.carrel none)
    else if x.copyAdds then s.copyAdd id x a bs fail
    else s.writeMay x.carrel a bs fail x.tag

/-- What an error reported with a chunk says of port 0: nothing where it is one of this chip's memory or its far devices. -/
def hostPart (fail : Option Code) : Option Code := fail.filter (fun c => c != 0x6001 && c != 0x6002)

/-- A chunk's source is read, and lands or is asked of a peer. An error that does not meet the source meets the destination. -/
def State.copyChunkRun (s : State) (id : Nat) (x : Slip) (off n : Nat) (host : List Byte) (fail : Option Code) : State × Option Code :=
  let g := (x.p 0).toNat + off
  match if x.srcHost || x.dstHost then s.hostFail (hostPart fail) else none with
  | some code => (s, some code)
  | none =>
    if x.srcHost then s.copyLand id x off ((List.range n).map (fun i => host.getD i 0)) fail
    else if !s.ownChip g then s.copyAsk id x 3 g n [] (fun i => some (off + i))
    else
      match s.readMay x.carrel (g % 2 ^ 48) n fail x.tag with
      | (s, _, some code) => (s, some code)
      | (s, bs, none) => s.copyLand id x off bs fail

/-- A chunk that has nothing outstanding has completed (R185); with the last one the slip retires, with the failure it has met if any, unless its
carrel is in reset. -/
def State.copySettle (s : State) (id : Nat) : State :=
  match s.slip id with
  | none => s
  | some x =>
    if x.typ ≠ 3 ∨ x.st ≠ .running ∨ s.slipBusy id then s
    else
      let s := s.setSlip id { x with advanced := true }
      if x.progress < x.copyLen || !s.carrelLive x.carrel then s else s.finish id 0x0000

/-- A chunk fails: the COPY ends with the status; chunks before it stay as written (R156). In a carrel reset it waits for the reset. -/
def State.copyFail (s : State) (id : Nat) (x : Slip) (code : Code) : State :=
  let s := s.stopSlip id 1
  if s.carrelLive x.carrel then (s.slipFault id code SnapPlace.none).finish id code
  else s.modSlip id (fun y => { y with progress := x.copyLen })

/-- A COPY whose next chunk asks for a copy engine. -/
def State.copyWaits (s : State) (p : Nat × Slip) : Bool :=
  p.2.typ == 3 && p.2.st == .running && decide (p.2.progress < p.2.copyLen) && !s.slipBusy p.1
    && (s.carrelState p.2.carrel == 2 || s.carrelState p.2.carrel == 3)

/-- Copy engines held by chunks that wait for a peer, the host or a move (at most eight, R399). -/
def State.enginesHeld (s : State) : Nat := (s.cat.slips.filter (fun p => p.2.typ == 3 && s.slipBusy p.1)).length

/-- The next chunk goes to a window of this chip whose shelf holds posted traffic back (R265). -/
def State.copyHeld (s : State) (x : Slip) : Bool :=
  let g := (x.p 1).toNat + x.progress
  !x.dstHost && s.ownChip g && s.heldBack (g % 2 ^ 48) (min 4096 (x.copyLen - x.progress))

/-- COPY_CHUNK of a carrel's slip: a free engine, the arbiter's grant, then the chunk. -/
def State.copyChunk (s : State) (c tag : Nat) (host : List Byte) (fail : Option Code) : State :=
  match s.slipByTag c tag with
  | none => s
  | some (id, x) =>
    if !s.copyWaits (id, x) || decide (8 ≤ s.enginesHeld) || !s.reqRoom 32 || s.copyHeld x then s
    else
      let cs := s.carrelList.filter (fun k => s.cat.slips.any (fun p => p.2.carrel == k && s.copyWaits p))
      match s.grant 1 cs with
      | (_, none) => s
      | (s', some k) =>
        if k ≠ c then s
        else
          let n := min 4096 (x.copyLen - x.progress)
          match (s'.setSlip id { x with progress := x.progress + n }).copyChunkRun id x x.progress n host fail with
          | (s, some code) => s.copyFail id x code
          | (s, none) => s.copySettle id

/-- COPY_CHUNK (R399). -/
def execCopyChunk (c : Func) (tag : BitVec 32) (host : List Byte) (fail : Option Code) (s : State) : Out :=
  .next (if s.running then s.copyChunk c.toNat tag.toNat host fail else s)

end Sys2Proof.Machine
end

