-- ==== Sys2Proof/Machine/Holdings.lean ====
section
/-! DEFINITION. HOLDING slips (R339 to R342): REGISTER, RELEASE, PIN, UNPIN, PREFETCH, EVICT, and what ends them: a leaf move, the zero
writes of REGISTER. -/

namespace Sys2Proof.Machine

/-! ## What the slips do -/

/-- An unbacked leaf takes a frame at REGISTER, on its stack or on the roomiest (R339). -/
def State.assignFrame (s : State) (x : Slip) (i : Nat) : State :=
  let k := (s.flagStack x.carrel x.hFlags).getD (s.roomiestStack x.carrel)
  match (s.freeFrames x.carrel k).head? with
  | some f => s.modLeaf x.hKey i (fun l => { l with frame := some f })
  | none => s

/-- REGISTER takes effect: the holding, its frames, and with ZERO its zero writes begin (R342). -/
def State.registerRun (s : State) (id : Nat) (x : Slip) : State :=
  let h := x.newHolding
  let s := (s.unbackedOf h).foldl (fun s i => s.assignFrame x i) (s.setHolding h)
  if x.hFlags % 2 = 1 then s.modKpr (fun k => { k with zeroing := k.zeroing ++ [id] }) else s

/-- A move of a leaf was given up for a slip (R354, R343). -/
def State.gaveUp (s : State) (id i : Nat) : Bool := s.kpr.given.contains (id, i)

/-- One near leaf of a holding being released: dropped, or written home (R342). -/
def State.releaseLeaf (s : State) (id : Nat) (x : Slip) (h : Holding) (i : Nat) : State :=
  if s.movingLeaf x.hKey i then s
  else if x.hFlags / 4 % 2 = 0 && (h.leaf i).dirty && s.backed h i && !s.gaveUp id i then s.queueMove h i none (.slip id)
  else s.modLeaf x.hKey i (fun l => { l with frame := none, dirty := false })

/-- RELEASE: moves of the holding that have not started are dropped, and its near leaves leave their frames. -/
def State.releaseRun (s : State) (id : Nat) (x : Slip) : State :=
  match s.callAt x.hKey with
  | none => s
  | some h =>
    let s := (s.setHolding { h with gone := true }).modKpr (fun k => { k with
      moves := k.moves.filter (fun m => m.started || callKey m.carrel m.call != x.hKey || m.why == .slip id) })
    (h.leaves.filter (fun p => p.2.frame.isSome)).foldl (fun s p => s.releaseLeaf id x h p.1) s

/-- RELEASE has ended: no frame holds a leaf and no move is under way. -/
def State.releaseDone (s : State) (x : Slip) : Bool :=
  (s.callAt x.hKey).all (fun h => h.leaves.all (fun p => p.2.frame.isNone)) && !s.kpr.moves.any (fun m => callKey m.carrel m.call == x.hKey)

/-- PIN: every leaf in the region that is neither held nor moving leaves it (R339). -/
def State.pinRun (s : State) (id : Nat) (x : Slip) : State :=
  (s.leavesIn x.carrel x.hAddr x.hSize).foldl (fun s y =>
    let key := callKey x.carrel y.1.call
    if s.heldLeaf key y.2.1 || s.movingLeaf key y.2.1 || s.gaveUp id y.2.1 then s
    else if s.backed y.1 y.2.1 then s.sendHome y.1 y.2.1 (.slip id)
    else
      match (s.freeFrames x.carrel (s.roomiestStack x.carrel)).head? with
      | some f => s.queueMove y.1 y.2.1 (some f) (.slip id)
      | none => s) s

/-- A move under way ends in a frame that touches a region: its leaf still has to move out of it. -/
def State.movesInto (s : State) (a n : Nat) : Bool :=
  s.kpr.moves.any (fun m => m.started && m.dst.any (fun f => overlaps (leafBytes * f) leafBytes a n))

/-- Stack a leaf is brought near on by a PREFETCH (R339): STACK, the plans' stack, or the roomiest. -/
def State.prefetchStack (s : State) (x : Slip) (uses : List LeafUse) (i : Nat) : Nat :=
  match s.flagStack x.carrel x.hFlags with
  | some k => k
  | none => if uses.any (fun u => u.key == x.hKey && u.leaf == i) then planStack uses x.hKey i else s.roomiestStack x.carrel

/-- Leaves that the frozen and draft plans name (R196, R339). -/
def State.plannedUses (s : State) : List LeafUse :=
  s.shelves.flatMap (fun p => (p.2.queue ++ p.2.plan).filterMap (fun e => e.leaf.map (fun q => ⟨q.1, q.2, p.1⟩)))

/-- PREFETCH: every named far leaf that is not moving starts towards its stack, or is given up (QUOTA). -/
def State.prefetchRun (s : State) (id : Nat) (x : Slip) : State :=
  let uses := s.plannedUses ++ s.draftUses x.carrel
  x.namedLeaves.foldl (fun s i =>
    match s.callAt x.hKey with
    | none => s
    | some h =>
      if (h.leaf i).frame.isSome || s.movingLeaf x.hKey i || s.gaveUp id i then s
      else
        match s.bringNear h i (s.prefetchStack x uses i) (.slip id) with
        | (s, true) => s
        | (_, false) => (s.slipFault id 0x4002 SnapPlace.none).modKpr (fun k => { k with given := k.given ++ [(id, i)] })) s

/-- PREFETCH has ended. -/
def State.prefetchDone (s : State) (id : Nat) (x : Slip) : Bool :=
  x.namedLeaves.all (fun i => s.gaveUp id i || (s.callAt x.hKey).all (fun h => (h.leaf i).frame.isSome))

/-- EVICT: every named backed leaf that is near, not held and not moving goes home. -/
def State.evictRun (s : State) (id : Nat) (x : Slip) : State :=
  x.namedLeaves.foldl (fun s i =>
    match s.callAt x.hKey with
    | none => s
    | some h =>
      if (h.leaf i).frame.isNone || !s.backed h i || s.heldLeaf x.hKey i || s.movingLeaf x.hKey i || s.gaveUp id i then s
      else s.sendHome h i (.slip id)) s

/-- EVICT has ended. -/
def State.evictDone (s : State) (id : Nat) (x : Slip) : Bool :=
  x.namedLeaves.all (fun i => s.gaveUp id i ||
    (s.callAt x.hKey).all (fun h => !s.backed h i || ((h.leaf i).frame.isNone && !s.movingLeaf x.hKey i)))

/-- Other READY HOLDING slips of the same call retire with BUSY while an EVICT runs (R341). -/
def State.evictBusy (s : State) (id : Nat) (x : Slip) : State :=
  (s.cat.slips.filter (fun p => p.1 != id && p.2.typ == 6 && p.2.st == .ready && p.2.hKey == x.hKey)).foldl (fun s p => s.retire p.1 0x2001) s

/-- A HOLDING slip is over: what it kept of given-up leaves goes. -/
def State.holdFinish (s : State) (id : Nat) : State :=
  (s.modKpr (fun k => { k with given := k.given.filter (fun p => p.1 != id) })).finish id 0x0000

/-- A RUNNING HOLDING slip goes on, and retires when its condition of Table 12-2 holds. -/
def State.holdGo (s : State) (id : Nat) (x : Slip) : State :=
  if x.hop = 1 then (if s.kpr.zeroing.contains id then s else s.holdFinish id)
  else if x.hop = 2 then
    let s := s.releaseRun id x
    if s.releaseDone x then (s.modKpr (fun k => { k with calls := Tab.erase k.calls x.hKey })).overSettle.holdFinish id else s
  else if x.hop = 3 then
    let s := s.pinRun id x
    if s.touchesFrame x.hAddr x.hSize || s.movesInto x.hAddr x.hSize then s else s.holdFinish id
  else if x.hop = 4 then (s.modKpr (fun k => { k with calls := Tab.erase k.calls x.hKey })).overSettle.holdFinish id
  else if x.hop = 5 then
    let s := s.prefetchRun id x
    if s.prefetchDone id x then s.holdFinish id else s
  else
    let s := (s.evictBusy id x).evictRun id x
    if s.evictDone id x then s.holdFinish id else s

/-- The effect of a HOLDING slip's start. -/
def State.holdBegin (s : State) (id : Nat) (x : Slip) : State :=
  if x.hop = 1 then s.registerRun id x
  else if x.hop = 3 then
    s.setHolding { carrel := x.carrel, call := x.call, pin := true, addr := x.hAddr, size := x.hSize, flags := 0, leaves := [], gone := false }
  else s

/-- A READY HOLDING slip starts: its refusals but for QUOTA, then its operation. For want of frames it is not refused any more, but waits
(R215). -/
def State.holdStart (s : State) (id : Nat) (x : Slip) : State :=
  match s.holdRefusal x true false with
  | some code => s.finish id code
  | none =>
    let x' : Slip := { x with st := .running }
    if s.holdRoom x then ((s.setSlip id x').holdBegin id x').holdGo id x' else s

/-- A command for a HOLDING slip of one HOP: it starts in its turn, is turned away by a running EVICT, or goes on (R341). -/
def State.holdCmd (s : State) (hop c tag : Nat) : State :=
  match s.slipByTag c tag with
  | none => s
  | some (id, x) =>
    if x.typ ≠ 6 ∨ x.hop ≠ hop then s
    else if x.st = .running then (if s.carrelLive c then s.holdGo id x else s)
    else if x.st ≠ .ready ∨ s.carrelState c ≠ 2 then s
    else
      let others := s.sameCall id x
      if others.any (fun p => p.2.st == .running && p.2.hop == 6) then s.finish id 0x2001
      else if others.any (fun p => p.2.st == .running || (p.2.st == .ready && readyBefore p (id, x))) then s
      else s.holdStart id x

/-- REGISTER (R339). -/
def execRegister (c : Func) (tag : BitVec 32) (s : State) : Out := .next (if s.running then s.holdCmd 1 c.toNat tag.toNat else s)

/-- RELEASE (R339, R340). -/
def execRelease (c : Func) (tag : BitVec 32) (s : State) : Out := .next (if s.running then s.holdCmd 2 c.toNat tag.toNat else s)

/-- PIN (R339). -/
def execPin (c : Func) (tag : BitVec 32) (s : State) : Out := .next (if s.running then s.holdCmd 3 c.toNat tag.toNat else s)

/-- UNPIN (R339, R340). -/
def execUnpin (c : Func) (tag : BitVec 32) (s : State) : Out := .next (if s.running then s.holdCmd 4 c.toNat tag.toNat else s)

/-- PREFETCH (R339). -/
def execPrefetch (c : Func) (tag : BitVec 32) (s : State) : Out := .next (if s.running then s.holdCmd 5 c.toNat tag.toNat else s)

/-- EVICT (R339). -/
def execEvict (c : Func) (tag : BitVec 32) (s : State) : Out := .next (if s.running then s.holdCmd 6 c.toNat tag.toNat else s)

/-- Every RUNNING HOLDING slip is looked at again, in order of readiness of its record. -/
def State.holdsGo (s : State) : State :=
  (s.cat.slips.filter (fun p => p.2.typ == 6 && p.2.st == .running && s.carrelLive p.2.carrel)).foldl (fun s p =>
    match s.slip p.1 with
    | some x => if x.st = .running then s.holdGo p.1 x else s
    | none => s) s

/-- A held answer goes out: the operation's leaves count it from now (R342, R343), and whoever waits hears. -/
def State.releaseAdd (s : State) (x : HeldAdd) : State :=
  let s := (s.modKpr (fun k => { k with adds := k.adds.erase x })).touchLeaves x.carrel x.addr x.n x.writes
  match x.who with
  | .adder => s.adderAnswer x.status x.old
  | .peer p => s.respond p (x.status.getD 0) []
  | .slip id => s.copySettle id

/-- Held answers whose leaves no longer move go out, in order. -/
def State.releaseAdds (s : State) : State :=
  (s.kpr.adds.filter (fun x => !s.addWaits x.carrel x.addr x.n)).foldl (fun s x => s.releaseAdd x) s

/-- LEAF_MOVE_DONE (R342). -/
def execLeafMoveDone (n : Nat) (writeFails : Bool) (s : State) : Out :=
  .next (if s.running then ((s.moveDone n writeFails).releaseAdds.overSettle.goneSettle).holdsGo else s)

/-! ## Zero writes -/

/-- 256-byte units of a leaf at place a that a zero write cannot reach: a fenced channel, a far link that is down. -/
def State.unwritable (s : State) (a : Nat) : List Nat :=
  if a < 0x6000000000 then
    (if s.field (R.HBM_CHAN_STATE (stackOf a)) 0 32 = 0 then []
     else (List.range 8192).filter (fun i => s.regBit (R.HBM_CHAN_STATE (stackOf a)) (s.channelOf (a + 256 * i))))
  else if (s.farPort a).any (fun p => s.kpr.farDown.getLsbD p) then List.range 8192
  else []

/-- One leaf written with zeros where it lies (R342, R354); a unit that cannot be written, or whose far device answers with an error (`dev`),
keeps its bytes and its poison, and fails the slip. -/
def State.zeroLeaf (s : State) (id : Nat) (x : Slip) (dev : Option Nat) (i : Nat) : State :=
  match s.callAt x.hKey with
  | none => s
  | some h =>
    let a := h.placeOf i
    let errs := (dev.filter (fun u => u / 8192 == i && decide (0x6000000000 ≤ a))).toList.map (fun u => u % 8192)
    let bad := s.unwritable a ++ errs
    let s := (if bad.isEmpty then { s with mem := Memory.clear s.mem a leafBytes }
      else ((List.range 8192).filter (fun u => !bad.contains u)).foldl (fun s u => { s with mem := Memory.clear s.mem (a + 256 * u) 256 }) s).freshen a bad
    let s := s.modLeaf x.hKey i (fun l => { l with dirty := l.frame.isSome })
    let code : Code := if a < 0x6000000000 then 0x6001 else 0x6002
    match s.unwritable a, errs with
    | u :: _, _ => (s.logBad x.carrel (a + 256 * u) code x.tag).slipFault id code SnapPlace.none
    | [], u :: _ => (s.memFault x.carrel x.tag code (a + 256 * u)).slipFault id code SnapPlace.none
    | [], [] => s

/-- ZERO_WRITE_DONE: the last leaf of a REGISTER with ZERO has been written; a far device may have failed the unit `fail` of the holding. -/
def State.zeroWriteDone (s : State) (c tag : Nat) (fail : Option Nat) : State :=
  match s.slipByTag c tag with
  | none => s
  | some (id, x) =>
    if !s.kpr.zeroing.contains id then s
    else
      let n := ((s.callAt x.hKey).map (fun h => h.nLeaves)).getD 0
      let s := (List.range n).foldl (fun s i => s.zeroLeaf id x fail i) s
      let s := s.modKpr (fun k => { k with zeroing := k.zeroing.filter (fun i => i != id) })
      if s.carrelLive c then s.holdFinish id else s

/-- ZERO_WRITE_DONE (R342). -/
def execZeroWriteDone (c : Func) (tag : ZeroDone) (s : State) : Out :=
  .next (if s.running then s.zeroWriteDone c.toNat tag.tag.toNat tag.fail else s)

end Sys2Proof.Machine
end

