-- ==== Sys2Proof/Machine/Shelves.lean ====
section
/-! DEFINITION. Shelves between rooms: withdrawal in service (R93, R214), lending (R436), clears (R322 to R324), and how a carrel command
completes (R387). -/

namespace Sys2Proof.Machine

/-! ## Completion of a carrel command (R387) -/

/-- The manager's notify write (R387, R396, R417). -/
def State.mgrNotify (s : State) : State :=
  s.hostWrite 0 (s.field R.CRL_MGR_NOTIFY_ADDR 2 62 * 4) (leBytes 4 (s.field R.CRL_MGR_NOTIFY_CTL 0 32))

/-- A carrel command completes with a RESULT. -/
def State.cmdDone (s : State) (result : Nat) : State :=
  let s := (s.setField R.CRL_CMD_STATUS 0 5 (2 * result)).orReg R.CRL_EVENT 1
  let s := { s with crl := { s.crl with cmd := none } }
  if s.regBit R.CRL_MGR_NOTIFY_CTL 33 then s.mgrNotify else s

/-- A carrel command that goes on. -/
def State.cmdBusy (s : State) (k : CrlCommand) : State :=
  { s.setField R.CRL_CMD_STATUS 0 5 1 with crl := { s.crl with cmd := some k } }

/-- The command in progress completes, if it is this operation on this carrel. -/
def State.cmdEnds (s : State) (op c : Nat) : State :=
  if s.crl.cmd.any (fun k => k.op == op && k.carrel == c) then s.cmdDone 1 else s

/-- STATE of a carrel set (Table 14-1). -/
def State.setCarrelState (s : State) (c st : Nat) : State := s.setField (R.CRL_CARREL_STATE c) 0 3 st

/-- Per-carrel registers but CRL_CARREL_STATE and the bits of CIR_DB_ENABLE and CRL_MBOX_SUMMARY. -/
def carrelRegs (c : Nat) : List Nat :=
  [R.CAT_SHARE c, R.CAT_NOPROG c, R.CAT_CARREL_STATE c, R.SHV_CARREL c, R.SHV_CARREL_STATS c, R.LND_WINDOW c, R.LND_WINDOW_SRC c,
   R.KPR_FAR_EXTENT c, R.KPR_REG_SHARE c, R.CIR_ENQ_LIMIT c, R.ILN_REMOTE_MEM c, R.PWR_CARREL_CAP c, R.CRL_CARREL_CFG c,
   R.CRL_MBOX_DB c, R.CRL_MBOX_NOTIFY_ADDR c, R.CRL_MBOX_NOTIFY_CTL c]
    ++ (List.range 8).map (R.KPR_EXTENT c) ++ (List.range 16).map (R.CRL_MBOX_MSG c)

/-- Every per-carrel register at its reset value, the carrel's credit 0 at every arbiter (R388, R389, R399). -/
def State.resetCarrelRegs (s : State) (c : Nat) : State :=
  let s := (carrelRegs c).foldl (fun s off => s.setReg off (regReset off)) s
  let s := (s.setRegBit (R.CIR_DB_ENABLE (c / 64)) (c % 64) false).setRegBit (R.CRL_MBOX_SUMMARY (c / 64)) (c % 64) false
  { s with
    cir := { s.cir with credit := Tab.erase s.cir.credit c, lastRing := Tab.erase s.cir.lastRing c }
    cat := { s.cat with snaps := Tab.erase s.cat.snaps c, skips := Tab.erase s.cat.skips c }
    kpr := { s.kpr with excess := Tab.erase s.kpr.excess c }
    crl := { s.crl with arbs := s.crl.arbs.map (fun p => (p.1, { p.2 with credit := Tab.erase p.2.credit c })) } }

/-- A carrel being destroyed whose last shelf has been cleared is ABSENT (R389), every per-carrel register at its reset value (Table 14-1). -/
def State.destroyEnds (s : State) (c : Nat) : State :=
  if s.carrelState c = 6 && !s.shelves.any (fun p => p.2.clearing && p.2.joining == c) then
    ((s.resetCarrelRegs c).setReg (R.CRL_CARREL_STATE c) 0).cmdEnds 8 c
  else s

/-! ## Withdrawal (R93, R214) -/

/-- The pass of a group's member i waits on its shelf. -/
def State.memberWaits (s : State) (e : PassEntry) (i : Nat) : Bool :=
  let x := s.shelf (e.map.getD i 0)
  (x.queue ++ x.plan).any (fun y => y.slip == e.slip && y.pass == e.gFirst + i)

/-- No pass of the group of a waiting pass has started. -/
def State.groupWaits (s : State) (e : PassEntry) : Bool := (List.range e.map.length).all (s.memberWaits e)

/-- A waiting pass leaves its shelf: loan returned, requests of its preload abandoned, early signals for it dropped. -/
def State.takePass (s : State) (sh id pass : Nat) : State :=
  let mine := fun (y : PassEntry) => y.slip == id && y.pass == pass
  let x := s.shelf sh
  let es := (x.queue ++ x.plan).filter mine
  let s := es.foldl (fun s e => (s.dropReqs e none).entryReturn sh e 3) s
  let x := s.shelf sh
  let s := s.setShelf sh { x with queue := x.queue.filter (fun e => !mine e), plan := x.plan.filter (fun e => !mine e) }
  (es.foldl (fun s e => s.dropEarly sh (fun g => e.isPass g.carrel.toNat g.tag.toNat g.pass.toNat)) s).shelfNext sh

/-- The passes of a group that has not started go back to the Shelver, which places them again at the next cutoff. -/
def State.returnGroup (s : State) (e : PassEntry) : State :=
  let s := (List.range e.map.length).foldl (fun s i => s.takePass (e.map.getD i 0) e.slip (e.gFirst + i)) s
  s.modSlip e.slip (fun y => { y with launch := y.launch.map (fun l => { l with
    redo := l.redo ++ (List.range e.map.length).map (fun i => e.gFirst + i) }) })

/-- A slip is lost with a shelf. -/
def State.shelfLost (s : State) (id : Nat) : State := (s.stopSlip id 3).finish id 0x8002

/-- A waiting pass of a withdrawn shelf. -/
def State.lostEntry (s : State) (sh : Nat) (e : PassEntry) : State :=
  let x := s.shelf sh
  if !(x.queue ++ x.plan).any (fun y => y.slip == e.slip && y.pass == e.pass) then s
  else if s.groupWaits e then s.returnGroup e
  else s.shelfLost e.slip

/-- A withdrawn shelf appears in no room until the next boot (R93): it leaves its room, or the joining or clearing it was in, uncleared.
With the last leaving shelf of a room, with the last joining one, and with the last one of a carrel being destroyed, that ends too. -/
def State.leaveWithdrawn (s : State) (sh : Nat) : State :=
  let x := s.shelf sh
  let s := s.setShelf sh { Shelf.idle with gen0 := x.gen0, gen1 := x.gen1 }
  let s := if x.leaving && !s.shelves.any (fun p => p.2.owner == x.owner && p.2.leaving) then s.orReg R.CRL_EVENT 8 else s
  if x.joining = 0 then s
  else if x.clearing then s.destroyEnds x.joining
  else if s.shelves.any (fun p => p.2.joining == x.joining) then s
  else s.cmdEnds 9 x.joining

/-- One shelf withdrawn: its bit, its record, and what becomes of its passes (R214). -/
def State.withdrawOne (s : State) (sh : Nat) : State :=
  if s.withdrawn sh then s
  else
    let s := s.setRegBit (R.CFG_SHELF_WITHDRAWN (sh / 64)) (sh % 64) true
    let s := s.log (64 + sh / 64) K.shelfWithdrawn (s.shelf sh).owner 0 0 sh
    let s := match (s.shelf sh).run with
      | some r => s.shelfLost r.e.slip
      | none => s
    let x := s.shelf sh
    let s := (x.queue ++ x.plan).foldl (fun s e => s.lostEntry sh e) s
    (if s.pwr.lending.contains sh then s.setLending sh false else s).leaveWithdrawn sh

/-- Shelves withdrawn; a range with more than eight is withdrawn whole and its compute domain held off (R93). -/
def State.withdraw (s : State) (shs : List Nat) : State :=
  let s := shs.foldl (fun s sh => s.withdrawOne sh) s
  ((shs.map (fun sh => sh / 64)).eraseDups).foldl (fun s r =>
    let w := s.reg (R.CFG_SHELF_WITHDRAWN r)
    if popCount 64 w.toNat ≤ 8 || w == 0xFFFFFFFFFFFFFFFF && s.domainState r == 0 then s
    else
      let s := (List.range 64).foldl (fun s i => s.withdrawOne (64 * r + i)) s
      let s := s.setField (R.PWR_DOMAIN_STATE r) 0 2 0
      if s.pwr.switching.any (fun q => q.1 == r) then { s with pwr := { s.pwr with switching := some (r, 0) } } else s) s

/-- SHELF_WITHDRAWN: a shelf is withdrawn in service (R214). -/
def execShelfWithdrawn (sh : ShelfNo) (s : State) : Out :=
  .next (if s.running && s.rangeEnabled (sh.toNat / 64) then s.withdraw [sh.toNat] else s)

/-! ## Lending (R436) -/

/-- A stream is held at a wait: it has met no more than the wait of the folio at its head (R268). -/
def State.streamWaits (s : State) (sh j e : Nat) : Bool :=
  let st := s.streamOf sh j e
  let x : Folio := ⟨st.ptr, s.folioSlot sh st.ptr⟩
  !st.ended && st.execs.isEmpty && !st.ready && !st.cut && !st.held && st.skipLeft == 0 && x.waitEn
    && !reached ((s.coreOf sh j).tallyAt x.waitTally) x.waitValue

/-- No pass runs on the shelf, or every stream of its pass is held at a wait. -/
def State.canLend (s : State) (sh : Nat) : Bool :=
  (s.shelf sh).run.isNone
    || (List.range 256).all (fun j => (List.range 3).all (fun e => (s.streamOf sh j e).finished || s.streamWaits sh j e))

/-- Time for which the shelf has stood so, in cc / 1280; none: no pass has run on it since the last block reset. -/
def State.stoodFor (s : State) (sh : Nat) : Option Nat :=
  match (s.shelf sh).run with
  | some r => some r.still
  | none => (Tab.find? s.pwr.quiet sh).map (fun t => (s.stp.total - t) * s.shelfMHz sh)

/-- The clock moves to the fc in which the shelf has stood for WAIT_CC cc. -/
def State.reachLend (s : State) (sh : Nat) : State :=
  match s.stoodFor sh with
  | some w => s.advance (ceilDiv (s.field R.PWR_LEND 0 32 * 1280 - w) (s.shelfMHz sh))
  | none => s

/-- LEND_START: the shelf has stood so for WAIT_CC cc. -/
def execLendStart (sh : ShelfNo) (s : State) : Out :=
  .next (
    let k := sh.toNat
    if s.running && s.field R.PWR_LEND 0 32 != 0 && s.domainOn (k / 64) && !s.withdrawn k && !s.pwr.lending.contains k && s.canLend k then
      (s.reachLend k).setLending k true
    else s)

/-- A lending shelf returns to the full clock 16 cc after a tally increment reached it. -/
def State.lendEnd (s : State) (sh : Nat) : State :=
  match Tab.find? s.pwr.wakes sh with
  | some t => (s.advance (t + wakeFc (s.shelfMHz sh) - s.stp.total)).setLending sh false
  | none => s

/-- LEND_END. -/
def execLendEnd (sh : ShelfNo) (s : State) : Out :=
  .next (if s.running && s.pwr.lending.contains sh.toNat then s.lendEnd sh.toNat else s)

/-! ## Clears (R322 to R324) -/

/-- CLEAR_START: both domains of a shelf that must be cleared are on. -/
def execClearStart (sh : ShelfNo) (s : State) : Out :=
  .next (
    let k := sh.toNat
    let x := s.shelf k
    if s.running && x.clearing && !x.clearRun && s.domainOn (k / 64) && s.domainOn (64 + k / 256) then
      s.setShelf k { x with clearRun := true }
    else s)

/-- Store and folio memory of a shelf zero, with right check bits (R323). -/
def State.zeroShelf (s : State) (sh : Nat) : State :=
  let out := fun (a lo n : Nat) => decide (a < lo) || decide (lo + n ≤ a)
  { s with
    mem := Memory.clear (Memory.clear s.mem (storeAddr sh 0) 0x80000) (folioAddr sh 0) 0x40000
    ecc := s.ecc.filter (fun p => out p.1 (storeAddr sh 0) 0x80000 && out p.1 (folioAddr sh 0) 0x40000) }

/-- CLEAR_DONE: the shelf is empty and in the pool, or withdrawn where its read-back failed; the generations of its loans stay. -/
def State.clearDone (s : State) (sh : Nat) (verified : Bool) : State :=
  let x := s.shelf sh
  if !x.clearing || !x.clearRun then s
  else
    let s := (s.zeroShelf sh).setShelf sh { Shelf.idle with gen0 := x.gen0, gen1 := x.gen1 }
    let s := if verified then s
      else ((s.event R.LND_EVENT 8).log 6 K.clearFailed 0 (shelfAdr sh 0)).withdraw [sh]
    if x.joining = 0 then s else s.destroyEnds x.joining

/-- CLEAR_DONE (R323). -/
def execClearDone (sh : ShelfNo) (verified : Bool) (s : State) : Out :=
  .next (if s.running then s.clearDone sh.toNat verified else s)

end Sys2Proof.Machine
end

