-- ==== Sys2Proof/Machine/Carrels.lean ====
section
/-! DEFINITION. Carrels: states and commands (R386 to R392), rooms (R390, R391), carrel reset (R400, R401) and what DESTROY returns (R389). -/

namespace Sys2Proof.Machine

/-! ## Commands (R387, Table 14-2) -/

/-- A carrel command for carrel c in the states it is allowed in; any other answers BAD_CARREL or BAD_STATE and changes nothing. A write
while one runs has no effect. -/
def State.crlCmd (s : State) (c : Nat) (states : List Nat) (act : State → State) : State :=
  if !s.alive || s.crl.cmd.isSome then s
  else
    let s := s.bell 1103
    if c = 0 then s.cmdDone 9 else if states.contains (s.carrelState c) then act s else s.cmdDone 2

/-- The mailbox of a carrel cleared: words, doorbells and summary bit. -/
def State.clearMailbox (s : State) (c : Nat) : State :=
  ((List.range 16).foldl (fun s w => s.setReg (R.CRL_MBOX_MSG c w) 0) (s.setReg (R.CRL_MBOX_DB c) 0)).setRegBit (R.CRL_MBOX_SUMMARY (c / 64)) (c % 64) false

/-- Existing elastic carrels. -/
def State.elastics (s : State) : Nat := (s.carrelList.filter (fun c => s.regBit (R.CRL_CARREL_STATE c) 3)).length

/-- CREATE (R388). -/
def State.create (s : State) (c : Nat) (elastic : Bool) : State :=
  if elastic && decide (8 ≤ s.elastics) then s.cmdDone 5
  else ((s.resetCarrelRegs c).setReg (R.CRL_CARREL_STATE c) (BitVec.ofNat 64 (1 + 8 * b2n elastic))).cmdDone 1

/-- CREATE. -/
def execCreate (c : Func) (elastic : Bool) (s : State) : Out := .next (s.crlCmd c.toNat [0] (fun s => s.create c.toNat elastic))

/-- OPEN. -/
def execOpenCarrel (c : Func) (s : State) : Out :=
  .next (s.crlCmd c.toNat [1] (fun s => (s.setCarrelState c.toNat 2).settle.cmdDone 1))

/-- FREEZE (R392). -/
def execFreeze (c : Func) (s : State) : Out :=
  .next (s.crlCmd c.toNat [2, 3, 4] (fun s => (if s.carrelState c.toNat = 2 then s.setCarrelState c.toNat 3 else s).cmdDone 1))

/-- THAW: every READY slip is released like any other ready slip (R392). -/
def execThaw (c : Func) (s : State) : Out :=
  .next (s.crlCmd c.toNat [2, 3, 4] (fun s => ((s.setCarrelState c.toNat 2).settle).cmdDone 1))

/-- A FREEZING carrel has no slip in PLANNED or RUNNING, and its notify writes have been sent (R392). -/
def State.canFreeze (s : State) (c : Nat) : Bool :=
  s.carrelState c == 3 && !(s.slipsOf c).any (fun p => p.2.st == .planned || p.2.st == .running)
    && !s.cir.holdoff.any (fun p => p.2 && s.ringCarrel p.1 == c)

/-- CARREL_FROZEN (R392). -/
def execCarrelFrozen (c : Func) (s : State) : Out :=
  .next (if s.running && s.canFreeze c.toNat then (s.setCarrelState c.toNat 4).orReg R.CRL_EVENT 4 else s)

/-! ## Rooms (R390, R391) -/

/-- Shelves named by a range and CRL_ROOM_MASK. -/
def State.namedShelves (s : State) (r : Nat) : List Nat := (bitList 64 (s.reg R.CRL_ROOM_MASK).toNat).map (fun i => 64 * r + i)

/-- A shelf cannot join a room (R390, R429). -/
def State.unavailable (s : State) (sh : Nat) : Bool :=
  let x := s.shelf sh
  x.owner != 0 || x.clearing || x.joining != 0 || s.withdrawn sh || !s.rangeEnabled (sh / 64) || !s.domainOn (sh / 64)
    || s.obs.selftest.any (fun t => t.range == sh / 64) || s.ldg.oos

/-- A room command in a state of the carrel that allows it (Table 14-2). -/
def State.roomCmd (s : State) (c : Nat) (act : State → State) : State :=
  s.crlCmd c [1, 2, 3, 4] (fun s =>
    if (s.carrelState c = 2 ∨ s.carrelState c = 3) ∧ s.regBit (R.CRL_CARREL_STATE c) 3 = false then s.cmdDone 3 else act s)

/-- ROOM_ADD: every named shelf starts to join, or none. -/
def State.roomAdd (s : State) (c r : Nat) : State :=
  let shs := s.namedShelves r
  if shs.any s.unavailable then s.cmdDone 4
  else if shs.isEmpty then s.cmdDone 1
  else (shs.foldl (fun s sh => s.setShelf sh { s.shelf sh with joining := c }) s).cmdBusy ⟨9, c, r, s.reg R.CRL_ROOM_MASK⟩

/-- ROOM_ADD. -/
def execRoomAdd (c : Func) (r : BitVec 6) (s : State) : Out := .next (s.roomCmd c.toNat (fun s => s.roomAdd c.toNat r.toNat))

/-- ROOM_REMOVE: every named shelf starts to leave, or none; one whose queue is empty leaves at once (R213). -/
def State.roomRemove (s : State) (c r : Nat) : State :=
  let shs := s.namedShelves r
  if shs.any (fun sh => (s.shelf sh).owner != c || (s.shelf sh).clearing) then s.cmdDone 4
  else
    let s := shs.foldl (fun s sh => s.setShelf sh { s.shelf sh with leaving := true, since := s.stp.total + 1 }) s
    (shs.foldl (fun s sh => s.tryLeave sh) s).cmdDone 1

/-- ROOM_REMOVE. -/
def execRoomRemove (c : Func) (r : BitVec 6) (s : State) : Out := .next (s.roomCmd c.toNat (fun s => s.roomRemove c.toNat r.toNat))

/-- Volumes of a carrel that have a place. -/
def State.volumesOf (s : State) (c : Nat) : List (Nat × Volume) := s.bind.vols.filter (fun p => p.1 / 65536 == c)

/-- SHELF_JOIN: a joining shelf has every volume of the carrel, each at its own slots (R240), and is in its room. -/
def State.shelfJoin (s : State) (sh : Nat) : State :=
  let x := s.shelf sh
  let c := x.joining
  if c = 0 || x.clearing || !s.domainOn (sh / 64) || !s.domainOn (64 + sh / 256) then s
  else
    let s := (s.volumesOf c).foldl (fun s p => s.loadVolume sh p.2) s
    let s := s.setShelf sh { s.shelf sh with owner := c, joining := 0, since := s.stp.total + 1 }
    if s.shelves.any (fun p => p.2.joining == c && !p.2.clearing) then s else s.cmdEnds 9 c

/-- SHELF_JOIN (R390). -/
def execShelfJoin (sh : ShelfNo) (s : State) : Out := .next (if s.running then s.shelfJoin sh.toNat else s)

/-! ## DESTROY (R389) -/

/-- Contexts whose CARREL field names a carrel. -/
def State.contextsOf (s : State) (c : Nat) : List Nat :=
  (s.rf.filter (fun p => inArray p.1 (R.CIR_RING_CTL 0) 0x40 8192 && fld p.2 12 10 == c)).map (fun p => (p.1 - R.CIR_RING_CTL 0) / 0x40)

/-- A shelf leaves the room of a carrel being destroyed. -/
def Shelf.toDestroy (x : Shelf) (c : Nat) : Shelf :=
  { x with owner := 0, leaving := false, clearing := true, clearRun := false, joining := c, loan0 := none, loan1 := none, early := [], posted := [] }

/-- What DESTROY returns at once: shelves, contexts, holdings, extents, registers. -/
def State.destroy (s : State) (c : Nat) : State :=
  let s := (s.room c).foldl (fun s sh => s.setShelf sh ((s.shelf sh).toDestroy c)) s
  let s := (s.contextsOf c).foldl (fun s k =>
    let s := s.ringOff k
    s.setReg (R.CIR_RING_CTL k) (setFld (s.reg (R.CIR_RING_CTL k)) 12 10 0)) s
  let s := s.modKpr (fun k => { k with
    calls := k.calls.filter (fun p => p.2.carrel != c), moves := k.moves.filter (fun m => m.started || m.carrel != c) })
  let s := { s with bind := { s.bind with vols := s.bind.vols.filter (fun p => p.1 / 65536 != c) } }
  let s := (s.resetCarrelRegs c).setReg (R.CRL_CARREL_STATE c) 6
  (s.cmdBusy ⟨8, c, 0, 0⟩).destroyEnds c

/-- DESTROY. -/
def execDestroy (c : Func) (s : State) : Out := .next (s.crlCmd c.toNat [1] (fun s => s.destroy c.toNat))

/-! ## Carrel reset (R400) -/

/-- A ring of the carrel leaves its desk: fetch stops. -/
def State.stopFetch (s : State) (c : Nat) : State :=
  (s.cir.desks.filter (fun p => s.ringCarrel p.2.ring == c)).foldl (fun s p =>
    let s := s.setField (R.CIR_DESK_STATUS p.1) 0 1 0
    { s with cir := { s.cir with
        desks := Tab.erase s.cir.desks p.1, fetch := Tab.insert s.cir.fetch p.2.ring (s.ringHead p.2.ring) } }) s

/-- Steps 1 to 3 of R400: fetch stops, passes leave the shelves, waiting enqueues, accessions and moves not begun are withdrawn. -/
def State.resetWork (s : State) (c : Nat) : State :=
  let s := s.stopFetch c
  let ids := (s.slipsOf c).map (·.1)
  let s := ids.foldl (fun s id => s.discardSlip id 2) s
  let drop := fun (j : Option BindJob) => j.filter (fun j => j.carrel != c)
  { s with
    cir := { s.cir with waits := s.cir.waits.filter (fun w => w.carrel != c) }
    bind := { s.bind with slot0 := drop s.bind.slot0, slot1 := drop s.bind.slot1 }
    kpr := { s.kpr with moves := s.kpr.moves.filter (fun m => m.started || (match m.why with
      | .slip id => !ids.contains id
      | _ => true)) } }

/-- A slip of the carrel waits for an adder operation. -/
def HeldAdd.ofSlips (x : HeldAdd) (ids : List Nat) : Bool :=
  match x.who with
  | .slip id => ids.contains id
  | _ => false

/-- Requests of a carrel are abandoned, and chunks in progress stop (R400 step 4, squash). -/
def State.squash (s : State) (c : Nat) : State :=
  let ids := (s.slipsOf c).map (·.1)
  { s with
    iln := { s.iln with reqs := s.iln.reqs.filter (fun p => p.2.carrel != c), host := s.iln.host.filter (fun p => p.2.func != c) }
    kpr := { s.kpr with
      zeroing := s.kpr.zeroing.filter (fun i => !ids.contains i), adds := s.kpr.adds.filter (fun x => !x.ofSlips ids) }
    crl := { s.crl with resets := s.crl.resets.map (fun p => if p.1 = c then (c, { p.2 with squash := true }) else p) } }

/-- A carrel reset begins; one under way absorbs it, and a carrel that does not exist has none. -/
def State.carrelReset (s : State) (c : Nat) (squash : Bool) : State :=
  if !s.carrelLive c then s
  else
    let s := s.setCarrelState c 5
    let s := { s with crl := { s.crl with resets := Tab.insert s.crl.resets c ⟨false, s.stp.total⟩ } }
    let s := s.resetWork c
    if squash then s.squash c else s

/-- RESET (R387, R400). -/
def execReset (c : Func) (squash : Bool) (s : State) : Out :=
  .next (s.crlCmd c.toNat [1, 2, 3, 4] (fun s => (s.cmdBusy ⟨7, c.toNat, 0, 0⟩).carrelReset c.toNat squash))

/-- Always-on time at which the drain of a reset ends. -/
def State.drainEnd (s : State) (r : CarrelReset) : Nat := r.since + fcPerUs * s.field R.CRL_CTL 0 10

/-- DRAIN_LIMIT: DRAIN_LIMIT_US have passed since the reset began, and the drain becomes a squash (R400). -/
def State.drainLimit (s : State) (c : Nat) : State :=
  match Tab.find? s.crl.resets c with
  | none => s
  | some r => if r.squash then s else (s.advance (s.drainEnd r - s.stp.total)).squash c

/-- Drains whose limit has passed by now have become squashes (R401). -/
def State.drainLimits (s : State) : State :=
  (s.crl.resets.filter (fun p => !p.2.squash && decide (s.drainEnd p.2 < s.stp.total))).foldl (fun s p => s.squash p.1) s

/-- DRAIN_LIMIT. -/
def execDrainLimit (c : Func) (s : State) : Out := .next (if s.running then s.drainLimit c.toNat else s)

/-- Nothing of a carrel in reset is under way any more. -/
def State.drained (s : State) (c : Nat) : Bool :=
  !s.iln.reqs.any (fun p => p.2.carrel == c) && !s.iln.host.any (fun p => p.2.func == c)
    && !(s.slipsOf c).any (fun p => s.kpr.zeroing.contains p.1) && !s.kpr.adds.any (fun x => x.ofSlips ((s.slipsOf c).map (·.1)))

/-- A due receipt taken off the list and discarded. -/
def State.dropDue (s : State) (d : DueReceipt) : State := { s with cir := { s.cir with due := s.cir.due.erase d } }.receiptDrop d

/-- Receipts of a carrel are written where their rings have room, or discarded and counted (R400 step 5). -/
def State.flushDue (s : State) (c : Nat) : State :=
  (s.cir.due.filter (fun d => d.carrel == c)).foldl (fun s d =>
    match s.ringOf c true d.rring with
    | none => s.dropDue d
    | some k =>
      if !s.receiptRoom k then s.dropDue d
      else
        match s.receiptBytes k d none with
        | (s, some (code, a)) => (s.ringStop k code a).dropDue d
        | (s, none) => s.receiptWritten k d) s

/-- Every resident slip of a carrel in reset retires with the reset's status; QUIET holds no receipt back of a failure. -/
def State.resetSlips (s : State) (c : Nat) (code : Code) : State :=
  ((s.slipsOf c).map (·.1)).foldl (fun s id => s.retire id code true) s

/-- A ring context of a carrel in reset is disabled: its counts stay, its stop is cleared (R400 step 6). -/
def State.resetRing (s : State) (k : Nat) : State := (s.ringOff k).setRegBit (R.CIR_RING_STATUS k) 17 false

/-- Steps 5 and 6 of R400. -/
def State.resetEnds (s : State) (c : Nat) (squash : Bool) : State :=
  let s := (s.resetSlips c (if squash then 0x7002 else 0x7001)).flushDue c
  let s := { s with
    bind := { s.bind with vols := s.bind.vols.filter (fun p => p.1 / 65536 != c) }
    crl := { s.crl with resets := Tab.erase s.crl.resets c } }
  let s := ((s.contextsOf c).foldl (fun s k => s.resetRing k) s).clearMailbox c
  let s := (s.countSat (R.CRL_CARREL_STATE c) 31 16 1).setCarrelState c 1
  (((s.log 8 K.carrelReset c).goneSettle).cmdEnds 7 c).settle

/-- DRAIN_COMPLETE (R400, R401): the transfers of a carrel in reset have ended, by themselves or by the limit that has passed. -/
def State.drainComplete (s : State) (c : Nat) : State :=
  let s := s.drainLimits
  match Tab.find? s.crl.resets c with
  | none => s
  | some r => if s.drained c then s.resetEnds c r.squash else s

/-- DRAIN_COMPLETE. -/
def execDrainComplete (c : Func) (s : State) : Out := .next (if s.running then s.drainComplete c.toNat else s)

end Sys2Proof.Machine
end

