-- ==== Sys2Proof/Machine/Image.lean ====
section
/-! DEFINITION. The carrel image: SAVE (R393) and RESTORE (R394). The fields that Table 14-3 names without places have the places given here
(DESIGN CHOICE, notes/assumptions/39.md). -/

namespace Sys2Proof.Machine

/-! ## SAVE (R393, Table 14-3) -/

/-- The eight settings registers of a carrel, in the order of Table 14-3. -/
def settingRegs (c : Nat) : List Nat :=
  [R.CRL_CARREL_CFG c, R.CAT_SHARE c, R.CAT_NOPROG c, R.SHV_CARREL c, R.LND_WINDOW c, R.LND_WINDOW_SRC c, R.CIR_ENQ_LIMIT c, R.ILN_REMOTE_MEM c]

/-- The eight registers of a ring context, in offset order. -/
def ringRegs (k : Nat) : List Nat :=
  [R.CIR_RING_BASE k, R.CIR_RING_CTL k, R.CIR_RING_HEAD k, R.CIR_RING_TAIL k, R.CIR_RING_NOTIFY_ADDR k, R.CIR_RING_NOTIFY_CTL k,
   R.CIR_RING_WMARK k, R.CIR_RING_STATUS k]

/-- States as the image numbers them, in the order of Table 6-1. -/
def SlipState.code : SlipState → Nat
  | .entered => 0
  | .ready => 1
  | .planned => 2
  | .running => 3
  | .retired => 4

/-- Place of a record among the saved ones. -/
def indexIn (ids : List Nat) (id : Nat) : Nat := (ids.takeWhile (fun i => i != id)).length

/-- An edge as the image numbers it: the place of its record among the saved ones, all ones where it named none or one that is gone, and its
resolution in [31:30]. -/
def edgeCode (ids : List Nat) (e : Edge) : Nat :=
  (match e.pred.filter ids.contains with
    | some id => indexIn ids id
    | none => 0x3FFFFFFF) + e.res * 2 ^ 30

/-- An edge of the image; `base` is the first record's key. -/
def edgeOfCode (base n : Nat) : Edge := ⟨if n % 2 ^ 30 = 0x3FFFFFFF then none else some (base + n % 2 ^ 30), n / 2 ^ 30⟩

/-- The slip's tags stand in an edge block, and its edges in the overflow store. -/
def Slip.extEdges (x : Slip) : Bool := bitAt (x.w 0) 10

/-- Four-byte values, two a word. -/
def pairWords (l : List Nat) (n : Nat) : List Word :=
  (List.range n).map (fun i => BitVec.ofNat 64 (l.getD (2 * i) 0 + l.getD (2 * i + 1) 0 * 2 ^ 32))

/-- The receipt due for a record. -/
def State.receiptOf (s : State) (id : Nat) : Option DueReceipt := s.cir.due.find? (fun d => d.record == some id)

/-- W20 to W23: the parameters in effect, or of a RETIRED slip its receipt. -/
def State.imageTail (s : State) (id : Nat) (x : Slip) : List Word :=
  match s.receiptOf id with
  | some d => [d.w0, d.w1, d.w2, d.w3]
  | none => (List.range 4).map x.p

/-- W24: what the Shelver holds of a READY LAUNCH, and what follows a receipt. -/
def State.imageLaunch (s : State) (id : Nat) (x : Slip) : Word :=
  let d := s.receiptOf id
  let l := x.launch
  BitVec.ofNat 64 ((l.map (·.misses)).getD 0 % 2 ^ 32 + b2n (l.any (·.wideLogged)) * 2 ^ 32 + b2n (l.any (·.longLogged)) * 2 ^ 33
    + b2n (l.any (fun l => l.blocking.isSome)) * 2 ^ 34 + b2n (d.any (·.notify)) * 2 ^ 35 + b2n (d.any (·.fail)) * 2 ^ 36
    + (l.bind (·.blocking)).getD 0 % 2 ^ 24 * 2 ^ 40)

/-- A record of 256 bytes. -/
def State.imageRecord (s : State) (ids : List Nat) (id : Nat) (x : Slip) : List Word :=
  let es := if x.extEdges then [] else x.edges.map (edgeCode ids)
  (List.range 16).map x.w
    ++ [BitVec.ofNat 64 (x.st.code + b2n x.predFail * 8 + b2n x.fail.isSome * 16 + b2n x.reading * 32 + x.status.toNat * 2 ^ 8
          + (x.fail.getD 0).toNat * 2 ^ 24),
        BitVec.ofNat 64 x.readyAt,
        BitVec.ofNat 64 (x.head + s.ringLocal x.ctx * 2 ^ 32 + x.rring * 2 ^ 37),
        BitVec.ofNat 64 (x.ovf + x.edges.length * 2 ^ 16)]
    ++ s.imageTail id x ++ [s.imageLaunch id x] ++ pairWords es 4 ++ [0, 0, 0]

/-- A volume of the image. -/
def imageVolume (vid : Nat) (v : Volume) : List Word :=
  [BitVec.ofNat 64 (vid + v.blocks * 2 ^ 16 + v.first * 2 ^ 32 + b2n v.usable * 2 ^ 48), BitVec.ofNat 64 v.s,
   BitVec.ofNat 64 v.image.length, 0, 0, 0, 0, 0] ++ v.image

/-- A holding or pin of the image. -/
def imageHolding (h : Holding) : List Word :=
  [BitVec.ofNat 64 (h.call + b2n h.pin * 2 ^ 32), BitVec.ofNat 64 h.addr, BitVec.ofNat 64 h.size, BitVec.ofNat 64 h.flags]

/-- Header words but for the CRC. -/
def imageHeader (len recs rings vols holds : Nat) (elastic : Bool) (crc : Nat) : List Word :=
  [BitVec.ofNat 64 (0x4C525243 + 2 ^ 32), BitVec.ofNat 64 (len + b2n elastic * 2 ^ 32), BitVec.ofNat 64 (recs + rings * 2 ^ 16 + vols * 2 ^ 32),
   BitVec.ofNat 64 holds, 0, 0, 0, BitVec.ofNat 64 crc]

/-- The registers of a ring context as they read, LEVEL included. -/
def State.imageRing (s : State) (k : Nat) : List Word :=
  (ringRegs k).map (fun off => if off = R.CIR_RING_STATUS k then setFld (s.reg off) 0 17 (s.ringLevel k) else s.reg off)

/-- Enabled contexts of a carrel. -/
def State.ringsOf (s : State) (c : Nat) : List Nat := s.ringsOn.filter (fun k => s.ringCarrel k == c)

/-- The parts after the header, as bytes. -/
def State.imageBody (s : State) (c : Nat) : List Byte :=
  let slips := s.slipsOf c
  let ids := slips.map (·.1)
  let edges := slips.flatMap (fun p => if p.2.extEdges then p.2.edges.map (edgeCode ids) else [])
  bytesOfWords ((settingRegs c).map s.reg ++ List.replicate 8 0)
    ++ bytesOfWords ((s.ringsOf c).flatMap s.imageRing)
    ++ bytesOfWords (slips.flatMap (fun p => s.imageRecord ids p.1 p.2))
    ++ edges.flatMap (leBytes 4)
    ++ bytesOfWords ((s.volumesOf c).flatMap (fun p => imageVolume (p.1 % 65536) p.2))
    ++ bytesOfWords ((s.holdings c).flatMap imageHolding)

/-- The carrel image. -/
def State.image (s : State) (c : Nat) : List Byte :=
  let body := s.imageBody c
  let head := fun crc => bytesOfWords (imageHeader (64 + body.length) (s.slipsOf c).length (s.ringsOf c).length (s.volumesOf c).length
    (s.holdings c).length (s.regBit (R.CRL_CARREL_STATE c) 3) crc)
  head (crc32c (head 0 ++ body)) ++ body

/-- CRL_IMAGE_ADDR. -/
def State.imageAddr (s : State) : Nat := s.field R.CRL_IMAGE_ADDR 6 42 * 64

/-- SAVE (R393): written without any check against extents; bytes that lie in no memory are not written. -/
def State.save (s : State) (c : Nat) : State :=
  let bs := s.image c
  let s := (s.writeFor 0 s.imageAddr bs).1
  (s.setField R.CRL_CMD_STATUS 32 16 (ceilDiv bs.length 64)).cmdDone 1

/-- SAVE. -/
def execSave (c : Func) (s : State) : Out := .next (s.crlCmd c.toNat [4] (fun s => s.save c.toNat))

/-! ## RESTORE (R394) -/

/-- A carrel image taken apart. -/
structure CarrelImage where
  settings : List Word
  rings    : List (List Word)
  records  : List (List Word)
  edges    : List Nat
  volumes  : List (Nat × Volume)
  holdings : List Holding
  deriving DecidableEq, Repr

/-- n structures of w words from the front of a byte list, and the rest. -/
def takeWords (w : Nat) : Nat → List Byte → List (List Word) × List Byte
  | 0, bs => ([], bs)
  | n + 1, bs =>
    match takeWords w n (bs.drop (8 * w)) with
    | (l, r) => (wordsOfBytes w bs :: l, r)

/-- n volumes from the front of a byte list, and the rest. -/
def takeVolumes : Nat → List Byte → List (Nat × Volume) × List Byte
  | 0, bs => ([], bs)
  | n + 1, bs =>
    let h := wordsOfBytes 8 bs
    let len := min (fld (wordAt h 2) 0 32) bs.length
    let v : Volume :=
      { first := fld (wordAt h 0) 32 16, blocks := fld (wordAt h 0) 16 16, s := fld (wordAt h 1) 0 32, usable := bitAt (wordAt h 0) 48
        image := wordsOfBytes len (bs.drop 64) }
    match takeVolumes n (bs.drop (64 + 8 * len)) with
    | (l, r) => ((fld (wordAt h 0) 0 16, v) :: l, r)

/-- Overflow entries of a record. -/
def extraEdges (ws : List Word) : Nat := if bitAt (wordAt ws 0) 10 then fld (wordAt ws 19) 16 16 else 0

/-- A holding of the image, for carrel c. -/
def holdingOf (c : Nat) (ws : List Word) : Holding :=
  { carrel := c, call := fld (wordAt ws 0) 0 32, pin := bitAt (wordAt ws 0) 32, addr := (wordAt ws 1).toNat, size := (wordAt ws 2).toNat
    flags := (wordAt ws 3).toNat, leaves := [], gone := false }

/-- The image's bytes taken apart; none where MAGIC, version, length or CRC is wrong. -/
def parseImage (c : Nat) (bs : List Byte) : Option CarrelImage :=
  let h := wordsOfBytes 8 bs
  let zeroed := bs.take 56 ++ leBytes 4 0 ++ bs.drop 60
  if fld (wordAt h 0) 0 48 ≠ 0x00014C525243 ∨ fld (wordAt h 1) 0 32 ≠ bs.length ∨ fld (wordAt h 7) 0 32 ≠ crc32c zeroed then none
  else
    let (settings, r) := takeWords 16 1 (bs.drop 64)
    let (rings, r) := takeWords 8 (fld (wordAt h 2) 16 16) r
    let (records, r) := takeWords 32 (fld (wordAt h 2) 0 16) r
    let ne := listSum (records.map extraEdges)
    let edges := tagsOfBytes ne r
    let (volumes, r) := takeVolumes (fld (wordAt h 2) 32 16) (r.drop (4 * ne))
    let (holds, _) := takeWords 4 (fld (wordAt h 3) 0 32) r
    if bs.length ≠ 192 + 64 * rings.length + 256 * records.length + 4 * ne
        + listSum (volumes.map (fun p => 64 + 8 * p.2.image.length)) + 32 * holds.length then none
    else some ⟨settings.flatten, rings, records, edges, volumes, holds.map (holdingOf c)⟩

/-- Largest image that CRL_CMD_STATUS.LENGTH can name, in bytes. -/
def imageMax : Nat := 0x400000

/-- The image at CRL_IMAGE_ADDR. -/
def State.readImage (s : State) (c : Nat) : State × Option CarrelImage :=
  match s.readFor 0 s.imageAddr 64 with
  | (s, _, some _) => (s, none)
  | (s, h, none) =>
    let n := fld (wordAt (wordsOfBytes 8 h) 1) 0 32
    if n < 64 ∨ imageMax < n then (s, none)
    else
      match s.readFor 0 s.imageAddr n with
      | (s, _, some _) => (s, none)
      | (s, bs, none) => (s, parseImage c bs)

/-- A near-tier ring of the image: base and bytes. -/
def ringBytes (ws : List Word) : Option (Nat × Nat) :=
  if bitAt (wordAt ws 0) 0 then none
  else some (fld (wordAt ws 0) 12 52 * 4096, 2 ^ fld (wordAt ws 1) 8 4 * (if bitAt (wordAt ws 1) 1 then 32 else 128))

/-- IMAGE_MISMATCH: a home outside the far extent, a pin or a near-tier ring outside the extents. -/
def State.imageMismatch (s : State) (c : Nat) (m : CarrelImage) : Bool :=
  m.holdings.any (fun h => if h.pin then !s.inExtents c h.addr h.size else !s.inFarExtent c h.addr (leafBytes * h.nLeaves))
    || m.rings.any (fun ws => (ringBytes ws).any (fun r => !s.inExtents c r.1 r.2))

/-- A context of the pool that can take a ring in a place: disabled, of no carrel, its RING_LOC not committed or the same (R143). -/
def State.poolContext (s : State) (host : Bool) (taken : List Nat) (k : Nat) : Bool :=
  !s.ringOn k && s.ringCarrel k == 0 && !taken.contains k && (!Tab.getD s.cir.committed k false || s.ringHost k == host)

/-- Contexts for the rings of an image, the lowest-numbered first; none where too few are free. -/
def State.pickContexts (s : State) : List (List Word) → List Nat → Option (List Nat)
  | [], _ => some []
  | ws :: rest, taken =>
    match (List.range 8192).find? (s.poolContext (bitAt (wordAt ws 0) 0) taken) with
    | none => none
    | some k => (State.pickContexts s rest (k :: taken)).map (fun l => k :: l)

/-- Blocks of the volume area (R230). -/
def volumeBlocks : Nat := 60

/-- SPACE: the volumes do not fit the volume area, or the records, overflow entries, call numbers or frames are not to be had. -/
def State.imageNoSpace (s : State) (c : Nat) (m : CarrelImage) : Bool :=
  m.volumes.any (fun p => decide (volumeBlocks < p.2.first + p.2.blocks) || decide (512 * p.2.blocks < p.2.image.length))
    || decide (4096 < s.cat.slips.length + m.records.length)
    || decide (32768 < s.edgesAll + listSum (m.records.map (fun ws => fld (wordAt ws 19) 0 16))) || decide (65536 < s.kpr.calls.length + m.holdings.length)
    || decide (s.freeAll c < listSum (m.holdings.map (fun h => if h.pin then 0 else (s.unbackedOf h).length)))

/-- A setting of the image applied by its unit's rules (R159, R172). -/
def State.applySetting (s : State) (c i : Nat) (v : Word) : State :=
  if i = 1 then s.shareWrite c v
  else if i = 6 then s.enqLimit c v
  else s.setReg ((settingRegs c).getD i 0) v

/-- A ring of the image in context k, enabled for carrel c. -/
def State.restoreRing (s : State) (c k : Nat) (ws : List Word) : State :=
  let ws := listSet ws 1 (setFld (wordAt ws 1) 12 10 c)
  let ws := listSet ws 7 (setFld (wordAt ws 7) 0 17 0)
  let s := ((ringRegs k).zip ws).foldl (fun s p => s.setReg p.1 p.2) s
  { s with cir := { s.cir with
      committed := Tab.insert s.cir.committed k true, fetch := Tab.insert s.cir.fetch k (s.ringHead k) } }

/-- A holding of the image registered without moving data; its unbacked leaves take free frames of the roomiest stack (R337, R339). -/
def State.restoreHolding (s : State) (h : Holding) : State :=
  let s := s.setHolding h
  if h.pin then s
  else (s.unbackedOf h).foldl (fun s i =>
    match (s.freeFrames h.carrel ((s.flagStack h.carrel h.flags).getD (s.roomiestStack h.carrel))).head?.or
        (s.freeFrames h.carrel (s.roomiestStack h.carrel)).head? with
    | some f => s.modLeaf (callKey h.carrel h.call) i (fun l => { l with frame := some f })
    | none => s) s

/-- A volume of the image in every shelf of the room. -/
def State.restoreVolume (s : State) (c vid : Nat) (v : Volume) : State :=
  let s := { s with bind := { s.bind with vols := Tab.insert s.bind.vols (volKey c vid) v } }
  (s.room c).foldl (fun s sh => s.loadVolume sh v) s

/-- A state by its number. -/
def stateOfCode (n : Nat) : SlipState := if n = 1 then .ready else if n = 4 then .retired else .entered

/-- A record of the image; `base` is the first record's key, `es` its overflow entries. The edges of fences, which no entry holds, are those its
place among the records entered before it gives (R176). -/
def State.recordOf (s : State) (c base : Nat) (es : List Nat) (ws : List Word) : Slip :=
  let w16 := wordAt ws 16
  let w18 := wordAt ws 18
  let inl := (List.range (min 8 (fld (wordAt ws 19) 16 16))).map (fun i => fld (wordAt ws (25 + i / 2)) (32 * (i % 2)) 32)
  let edges := (if bitAt (wordAt ws 0) 10 then es else inl).map (edgeOfCode base)
  let k := (s.ringOf c false (fld w18 32 5)).getD 0
  let st := stateOfCode (fld w16 0 3)
  let fences := (s.fenceEdges c k ws).filter (fun i => (s.slip i).any (fun y => y.st != .retired))
  { words := ws.take 16, carrel := c, ctx := k, head := fld w18 0 32, rring := fld w18 37 5
    st := st, readyAt := (wordAt ws 17).toNat
    waits := if st = .entered then ((edges.filter (fun e => e.res == 0)).filterMap (·.pred) ++ fences).eraseDups else []
    predFail := bitAt w16 3, edges := edges, ovf := fld (wordAt ws 19) 0 16, par := (ws.drop 20).take 4
    fail := if bitAt w16 4 then some (BitVec.ofNat 16 (fld w16 24 16)) else none, status := BitVec.ofNat 16 (fld w16 8 16)
    failAt := 0, reading := bitAt w16 5, launch := none, progress := 0, stall := 0, advanced := false, ran := none, due := 0, stallOn := none
    noprog := false, cnt := .zero }

/-- The receipt of a RETIRED record. -/
def imageReceipt (c id rring : Nat) (ws : List Word) : DueReceipt :=
  { carrel := c, rring := rring, w0 := wordAt ws 20, w1 := wordAt ws 21, w2 := wordAt ws 22, w3 := wordAt ws 23
    record := some id, notify := bitAt (wordAt ws 24) 35, fail := bitAt (wordAt ws 24) 36 }

/-- A READY LAUNCH of the image: its kernel is read again from the volume, and its place among blocking launches kept. Where the read meets an
error the record is entered as saved all the same, and PASS_TABLE_READ reads again (notes/assumptions/39.md). -/
def State.restoreLaunch (s : State) (id : Nat) (x : Slip) (w : Word) : State :=
  match s.readKernel x with
  | (_, .error _) => s
  | (s, .ok l) =>
    let l := { l with
      misses := fld w 0 32, wideLogged := bitAt w 32, longLogged := bitAt w 33
      blocking := if bitAt w 34 then some (fld w 40 24) else none }
    { s.setSlip id { x with launch := some l } with
      cat := { (s.setSlip id { x with launch := some l }).cat with blockings := max s.cat.blockings (fld w 40 24) } }

/-- Records entered in their saved order. -/
def State.restoreRecords (s : State) (c base : Nat) : List Nat → List (List Word) → State
  | _, [] => s
  | es, ws :: rest =>
    let id := s.cat.nextId
    let x := s.recordOf c base (es.take (extraEdges ws)) ws
    let s := { s.setSlip id x with cat := { (s.setSlip id x).cat with nextId := id + 1 } }
    let s := if x.st = .retired then { s with cir := { s.cir with due := s.cir.due ++ [imageReceipt c id x.rring ws] } } else s
    State.restoreRecords s c base (es.drop (extraEdges ws)) rest

/-- READY LAUNCHes of the image get their kernels. -/
def State.restoreLaunches (s : State) (base : Nat) (records : List (List Word)) : State :=
  ((List.range records.length).zip records).foldl (fun s p =>
    match s.slip (base + p.1) with
    | some x => if x.typ = 2 ∧ x.st = .ready then s.restoreLaunch (base + p.1) x (wordAt p.2 24) else s
    | none => s) s

/-- An accepted RESTORE. -/
def State.restoreRun (s : State) (c : Nat) (m : CarrelImage) (ks : List Nat) : State :=
  let s := ((List.range 8).zip m.settings).foldl (fun s p => s.applySetting c p.1 p.2) s
  let s := m.holdings.foldl (fun s h => s.restoreHolding h) s
  let s := (ks.zip m.rings).foldl (fun s p => s.restoreRing c p.1 p.2) s
  let s := m.volumes.foldl (fun s p => s.restoreVolume c p.1 p.2) s
  let base := s.cat.nextId
  let s := (s.restoreRecords c base m.edges m.records).restoreLaunches base m.records
  ((s.setCarrelState c 4).orReg R.CRL_EVENT 4).cmdDone 1

/-- RESTORE: refused as R394 gives, and then nothing changes. -/
def State.restore (s : State) (c : Nat) : State :=
  match s.readImage c with
  | (s, none) => s.cmdDone 6
  | (s, some m) =>
    if s.imageMismatch c m then s.cmdDone 7
    else if s.imageNoSpace c m then s.cmdDone 8
    else
      match s.pickContexts m.rings [] with
      | none => s.cmdDone 8
      | some ks => s.restoreRun c m ks

/-- RESTORE. -/
def execRestore (c : Func) (s : State) : Out := .next (s.crlCmd c.toNat [1] (fun s => s.restore c.toNat))

end Sys2Proof.Machine
end

