-- ==== Sys2Proof/Machine/Mailbox.lean ====
section
/-! DEFINITION. Mailboxes (R395, R396) and the requests firmware serves (R397); the per-carrel status words they report. -/

namespace Sys2Proof.Machine

/-! ## Per-carrel status words -/

/-- CRL_CARREL_STATE[c] (Table 14-8): the room's counts with what the register holds. -/
def State.carrelStateWord (s : State) (c : Nat) : Word :=
  let room := s.room c
  let leaving := (room.filter (fun sh => (s.shelf sh).leaving)).length
  setFld (setFld (setFld (s.reg (R.CRL_CARREL_STATE c)) 4 1 (b2n (decide (0 < leaving)))) 5 13 room.length) 18 13 leaving

/-- CAT_CARREL_STATE[c] (Table 6-4). -/
def State.catCarrelWord (s : State) (c : Nat) : Word :=
  let l := s.slipsOf c
  setFld (setFld (s.reg (R.CAT_CARREL_STATE c)) 0 13 l.length) 13 13 (l.filter (fun p => p.2.st == .ready)).length

/-- KPR_USE[c] (Table 12-8): frames with leaves, raw bytes in 2 MiB units rounded up, leaves held for plan, OVER. -/
def State.kprUseWord (s : State) (c : Nat) : Word :=
  if c = 0 then 0
  else
    let near := s.nearLeaves c
    let held := ((s.holdings c).flatMap (fun h => (List.range h.nLeaves).filter (s.heldLeaf (callKey c h.call)))).length
    BitVec.ofNat 64 (near.length + ceilDiv (listSum ((s.rawRanges c).map (·.2))) leafBytes * 2 ^ 18 + held * 2 ^ 36 + b2n (s.overQuota c) * 2 ^ 54)

/-! ## Words and doorbells (R395, R396) -/

/-- The mailbox of a carrel takes writes: its carrel exists (Table 14-1) and is not in reset (R400 step 1). -/
def State.mailboxOpen (s : State) (c : Nat) : Bool := s.alive && s.carrelExists c && s.carrelState c != 5

/-- UP and DOWN. -/
def State.mboxUp (s : State) (c : Nat) : Bool := s.regBit (R.CRL_MBOX_DB c) 0
def State.mboxDown (s : State) (c : Nat) : Bool := s.regBit (R.CRL_MBOX_DB c) 1

/-- A mailbox write that meets its own side's bit is dropped and counted. -/
def State.mboxDrop (s : State) (c : Nat) (manager : Bool) : State := s.countSat (R.CRL_MBOX_DB c) (if manager then 16 else 8) 8 1

/-- A write of a mailbox word by its own side; a write to the other side's words has no effect (R395). -/
def State.mboxWrite (s : State) (manager : Bool) (c w : Nat) (v : Word) : State :=
  if !s.mailboxOpen c || manager != decide (8 ≤ w) then s
  else if (if manager then s.mboxDown c else s.mboxUp c) then s.mboxDrop c manager
  else s.setReg (R.CRL_MBOX_MSG c w) v

/-- MBOX_WRITE. -/
def execMboxWrite (manager : Bool) (c : Func) (w : BitVec 4) (v : Word) (s : State) : Out :=
  .next (s.mboxWrite manager c.toNat w.toNat v)

/-- The request code of an up message. -/
def State.mboxCode (s : State) (c : Nat) : Nat := s.field (R.CRL_MBOX_MSG c 0) 0 16

/-- An up message set now is left for the manager (R396). -/
def State.forManager (s : State) (c : Nat) : Bool :=
  !s.regBit R.CRL_CTL 10 || s.mboxCode c == 0 || decide (0x100 ≤ s.mboxCode c)

/-- DOWN set: the carrel's notify write follows (R396). -/
def State.setDown (s : State) (c : Nat) : State :=
  let s := s.setRegBit (R.CRL_MBOX_DB c) 1 true
  if s.regBit (R.CRL_MBOX_NOTIFY_CTL c) 32 then
    s.hostWrite c (s.field (R.CRL_MBOX_NOTIFY_ADDR c) 2 62 * 4) (leBytes 4 (s.field (R.CRL_MBOX_NOTIFY_CTL c) 0 32))
  else s

/-- UP cleared, and the summary bit with it. -/
def State.clearUp (s : State) (c : Nat) : State :=
  (s.setRegBit (R.CRL_MBOX_DB c) 0 false).setRegBit (R.CRL_MBOX_SUMMARY (c / 64)) (c % 64) false

/-- Firmware's reply to a served message: words 8 to 15, DOWN, and UP cleared (R397). -/
def State.mboxReply (s : State) (c : Nat) (ws : List Word) : State :=
  ((((List.range 8).foldl (fun s i => s.setReg (R.CRL_MBOX_MSG c (8 + i)) (wordAt ws i)) s).setDown c).setRegBit (R.CRL_MBOX_DB c) 0 false)

/-- An up message waits for firmware, with this code, and firmware may write its reply (R395, R397): it was not left for the manager when UP was
set, as the summary bit says. -/
def State.served (s : State) (c code : Nat) : Bool :=
  s.mailboxOpen c && s.mboxUp c && !s.mboxDown c && !s.regBit (R.CRL_MBOX_SUMMARY (c / 64)) (c % 64) && s.mboxCode c == code

/-- A served message with a code that Table 14-4 does not list is answered BAD_TYPE. -/
def State.badRequest (s : State) (c : Nat) : State :=
  if s.served c (s.mboxCode c) && decide (4 < s.mboxCode c) then s.mboxReply c [0x3001] else s

/-- UP set by the carrel (R395, R396). -/
def State.upSet (s : State) (c : Nat) : State :=
  if !s.mailboxOpen c then s
  else if s.mboxUp c then s.mboxDrop c false
  else
    let s := (s.setRegBit (R.CRL_MBOX_DB c) 0 true).bell c
    if s.forManager c then
      let s := s.setRegBit (R.CRL_MBOX_SUMMARY (c / 64)) (c % 64) true
      if s.regBit R.CRL_MGR_NOTIFY_CTL 32 then s.mgrNotify else s
    else s.badRequest c

/-- UP_SET. -/
def execUpSet (c : Func) (s : State) : Out := .next (s.upSet c.toNat)

/-- UP_CLEAR, by the manager. -/
def execUpClear (c : Func) (s : State) : Out := .next (if s.mailboxOpen c.toNat then s.clearUp c.toNat else s)

/-- DOWN set by the manager. -/
def State.downSet (s : State) (c : Nat) : State :=
  if !s.mailboxOpen c then s else if s.mboxDown c then s.mboxDrop c true else s.setDown c

/-- DOWN_SET. -/
def execDownSet (c : Func) (s : State) : Out := .next (s.downSet c.toNat)

/-- DOWN cleared by the carrel: a served message that waited for it may be answered. -/
def State.downClear (s : State) (c : Nat) : State :=
  if s.mailboxOpen c then (s.setRegBit (R.CRL_MBOX_DB c) 1 false).badRequest c else s

/-- DOWN_CLEAR. -/
def execDownClear (c : Func) (s : State) : Out := .next (s.downClear c.toNat)

/-! ## Served requests (R397, Table 14-4) -/

/-- A cancel's reply: DONE, and CAT_CANCEL_STATUS. -/
def State.cancelReply (s : State) (c : Nat) : State := s.mboxReply c [0, s.reg R.CAT_CANCEL_STATUS]

/-- CANCEL_SLIP. -/
def execCancelSlip (c : Func) (s : State) : Out :=
  .next (if s.served c.toNat 1 then (s.cancelTag c.toNat (s.field (R.CRL_MBOX_MSG c.toNat 1) 0 32)).cancelReply c.toNat else s)

/-- CANCEL_RING. -/
def execCancelRing (c : Func) (s : State) : Out :=
  .next (
    if s.served c.toNat 2 then
      match s.ringOf c.toNat false (s.field (R.CRL_MBOX_MSG c.toNat 1) 0 5) with
      | none => s.mboxReply c.toNat [0x3005]
      | some k => (s.cancelRing k).cancelReply c.toNat
    else s)

/-- CANCEL_ALL. -/
def execCancelAll (c : Func) (s : State) : Out :=
  .next (if s.served c.toNat 3 then (s.cancelCarrel c.toNat).cancelReply c.toNat else s)

/-- A payload page of 4 KiB lies wholly within a pinned region of the carrel. -/
def State.pageOk (s : State) (c a : Nat) : Bool := (s.holdings c).any (fun h => h.pin && decide (h.addr ≤ a) && decide (a + 4096 ≤ h.addr + h.size))

/-- Shelf numbers of a room, two bytes each, as many as a page holds. -/
def State.roomBytes (s : State) (c : Nat) : List Byte := ((s.room c).take 2048).flatMap (leBytes 2)

/-- QUERY. -/
def State.query (s : State) (c : Nat) : State :=
  let a := s.field (R.CRL_MBOX_MSG c 1) 0 48
  let words := [0, s.carrelStateWord c, s.kprUseWord c, s.catCarrelWord c]
  if a = 0 then s.mboxReply c words
  else if !s.pageOk c a then s.mboxReply c [0x2000]
  else
    match s.writeFor c a (s.roomBytes c) with
    | (s, none) => s.mboxReply c words
    | (s, some code) => s.mboxReply c [code.setWidth 64]

/-- QUERY. -/
def execQuery (c : Func) (s : State) : Out := .next (if s.served c.toNat 4 then s.query c.toNat else s)

end Sys2Proof.Machine
end

