-- ==== Sys2Proof/Machine/Stacks.lean ====
section
/-! DEFINITION. Stack training and map-out (R326, R328, R330), retraining slots (R350), the test state and its wrapper shifts (R50,
R351, R352), quota writes (R334, R345), the look-up (R338) and operations commanded at the memory-side adders (R346, R347). -/

namespace Sys2Proof.Machine

/-! ## Training (R48, R49, R91, R328) -/

/-- Dies of a stack, and its capacity in 2 MiB units per working channel: height × density / 8 over 32 channels. -/
def stackDies (t : StackTrain) : Nat := 4 * (t.height.toNat + 1)
def unitsPerChannel (t : StackTrain) : Nat := stackDies t * (if t.density then 4 else 3) * 512 / 32

/-- Power domain of stack port k (Table 1-3). -/
def stackDomain (k : Nat) : Nat := 80 + k

/-- A stack switched off: its range is absent (R49). -/
def State.stackOff (s : State) (k : Nat) : State :=
  ((s.setReg (R.HBM_STACK_STATE k) 0).setReg (R.HBM_CHAN_STATE k) 0).setField (R.PWR_DOMAIN_STATE (stackDomain k)) 0 2 0

/-- A stack port trains its stack (R91, R328): channels that fail and those forced are mapped out; with more than eight the stack is
switched off whole. The data rate is the highest that trains within the settings store's limit. -/
def State.trainStack (s : State) (k : Nat) (t : StackTrain) : State :=
  let out := t.failed ||| (s.reg (R.HBM_MAPOUT_FORCE k)).setWidth 32
  let lost := popCount 32 out.toNat
  let s := s.modKpr (fun x => { x with chanErrs := Tab.eraseRange x.chanErrs (k * 32) 32 })
  if !t.present then s.stackOff k
  else if 8 < lost then (s.stackOff k).log (16 + k) K.hbmTrainFail
  else
    let s := s.setReg (R.HBM_STACK_STATE k) (BitVec.ofNat 64 (1 + t.height.toNat * 2 + b2n t.density * 8
      + min t.rate.toNat (s.item 0x7 1) * 16 + (32 - lost) * 64 + (32 - lost) * unitsPerChannel t * 4096))
    let s := (s.setReg (R.HBM_CHAN_STATE k) (BitVec.ofNat 64 (out.toNat * 2 ^ 32))).setField (R.PWR_DOMAIN_STATE (stackDomain k)) 0 2 1
    (bitList 32 out.toNat).foldl (fun s _ => s.log (16 + k) K.hbmMapout) s

/-- The contents of a stack's range are gone (R330, R351): bytes, wrong check bits, poison. -/
def State.dropRange (s : State) (k : Nat) : State :=
  let lo := stackBase k
  let n := 0x1000000000
  let out := fun (a lo n : Nat) => decide (a < lo) || decide (lo + n ≤ a)
  { s with mem := Memory.clear s.mem lo n, ecc := s.ecc.filter (fun p => out p.1 lo n) }.modKpr (fun x => { x with
    poison := x.poison.filter (fun p => out p.1 (lo / 256) (n / 256)) })

/-- Bytes that two ranges share. -/
def shared (a n b m : Nat) : Nat := min (a + n) (b + m) - max a b

/-- Stack k of carrel c has trained anew: its extent is clipped to the new range, and every leaf, pinned region and ring in the bytes that no
longer exist is lost, in the extent or not (R330). A ring that is lost stops as one whose memory refuses an access (R152). -/
def State.clipExtent (s : State) (c k : Nat) : State :=
  let e := s.extent c k
  let lo := stackBase k + s.stackSize k
  let n := stackBase (k + 1) - lo
  let leaves := (s.nearLeaves c).filter (fun x => overlaps (leafBytes * x.2.2) leafBytes lo n)
  let pins := (s.holdings c).filter (fun h => h.pin && overlaps h.addr h.size lo n)
  let rings := s.ringsOn.filter (fun r =>
    s.ringCarrel r == c && !s.ringHost r && overlaps (s.ringBase r) (s.ringSize r * s.ringEntry r) lo n)
  let cut := shared e.1 e.2 lo n
  if cut = 0 ∧ leaves = [] ∧ pins = [] ∧ rings = [] then s
  else
    let inside := fun (a m : Nat) => shared a m lo n - shared a m (max e.1 lo) (e.1 + e.2 - max e.1 lo)
    let lost := cut + listSum (leaves.map (fun x => inside (leafBytes * x.2.2) leafBytes)) + listSum (pins.map (fun h => inside h.addr h.size))
      + listSum (rings.map (fun r => inside (s.ringBase r) (s.ringSize r * s.ringEntry r)))
    let s := if cut = 0 then s else s.setField (R.KPR_EXTENT c k) 32 16 ((lo - e.1) / leafBytes)
    let s := leaves.foldl (fun s x => s.modLeaf (callKey c x.1.call) x.2.1 (fun _ => Leaf.home)) s
    let s := s.modKpr (fun x => { x with calls := x.calls.filter (fun p => !(p.2.carrel == c && p.2.pin && overlaps p.2.addr p.2.size lo n)) })
    let s := rings.foldl (fun s r => s.ringStop r 0x2000 (max lo (s.ringBase r))) s
    s.log 5 K.capacityShrunk c 0 0 lost

/-- Stack k trains in service: its range is undefined afterwards, and extents are clipped (R330, R351). -/
def State.retrainStack (s : State) (k : Nat) (t : StackTrain) : State :=
  let s := (s.dropRange k).trainStack k t
  (s.carrelList.foldl (fun s c => s.clipExtent c k) s).overSettle

/-! ## Retraining slots (R350) -/

/-- Stacks whose retraining slot begins at the stamp just fallen. -/
def State.slotsBegin (s : State) : State :=
  s.modKpr (fun x => { x with slots := (List.range 6).filter (fun k => s.retrainsIn k s.stp.stamp.toNat) })

/-- RETRAIN_SLOT_END: SLOT_US after the stamp; channels that lost their calibration are fenced (R329). -/
def execRetrainSlotEnd (stk : Fin 6) (lost : BitVec 32) (s : State) : Out :=
  .next (
    let k := stk.val
    if !s.inService || !s.kpr.slots.contains k then s
    else
      let s := s.advance (s.slotUs s.stp.stamp.toNat * fcPerUs - s.stp.t)
      let s := s.modKpr (fun x => { x with slots := x.slots.filter (fun i => i != k) })
      ((s.channels k).filter (fun c => lost.getLsbD c)).foldl (fun s c => s.fence k c 0 0) s)

/-! ## Test state (R351) -/

/-- The request for stack k's test state is refused with BUSY. -/
def State.testBusy (s : State) (k : Nat) : Bool :=
  (List.range 1024).any (fun c => (s.extent c k).2 != 0)
    || s.framesInUse.any (fun f => stackOf (leafBytes * f) == k)
    || s.kpr.moves.any (fun m => (s.movePorts m).contains k)
    || (s.inService && s.mainStack == some k)

/-- HBM_TEST_CTL[k].REQ written 1; a register of an absent stack ignores it (R356). -/
def State.testRequest (s : State) (k : Nat) : State :=
  if !s.stackUp k || s.regBit (R.HBM_TEST_CTL k) 1 then s
  else s.setReg (R.HBM_TEST_CTL k) (if s.testBusy k then 5 else 1)

/-- TEST_STATE_REQUEST (R351). -/
def execTestStateRequest (stk : Fin 6) (s : State) : Out := .next (if s.alive then s.testRequest stk.val else s)

/-- TEST_STATE_ENTER: the stack port of an accepted request stops serving accesses. -/
def execTestStateEnter (stk : Fin 6) (s : State) : Out :=
  .next (
    let k := stk.val
    if s.alive && s.stackUp k && fld (s.reg (R.HBM_TEST_CTL k)) 0 3 == 1 then
      (s.setRegBit (R.HBM_TEST_CTL k) 1 true).setRegBit (R.HBM_STACK_STATE k) 28 true
    else s)

/-- REQ written 0: a request not yet acted on is withdrawn; a stack in its test state will leave it. -/
def State.testWithdraw (s : State) (k : Nat) : State := if s.stackUp k then s.setRegBit (R.HBM_TEST_CTL k) 0 false else s

/-- TEST_STATE_LEAVE: the stack trains as at boot. -/
def execTestStateLeave (stk : Fin 6) (t : StackTrain) (s : State) : Out :=
  .next (
    let k := stk.val
    if s.alive && s.regBit (R.HBM_TEST_CTL k) 1 then
      ((s.setReg (R.HBM_TEST_CTL k) 0).retrainStack k t)
    else (if s.alive then s.testWithdraw k else s))

/-! ## Wrapper shifts (R50, R352) -/

/-- Instruction codes of the TAP that select a stack's wrapper (Table 2-4). -/
def irStackWsp : BitVec 8 := 0x20

/-- A curator's wrapper access to stack k is refused with BUSY: the port is not in its test state, or JTAG has the stack selected. -/
def State.wspRefused (s : State) (k : Nat) : Bool :=
  !s.regBit (R.HBM_TEST_CTL k) 1 || (s.tap.ir == irStackWsp && s.tap.stk.toNat == k)

/-- A shift of the wrapper's instruction (op 1) or data register (op 2): the bits shifted out replace the data register. -/
def State.wspShift (s : State) (k op len : Nat) (reply : Word) : State :=
  if !s.stackUp k then s
  else if s.wspRefused k then s.setReg (R.HBM_WSP_CMD k) (BitVec.ofNat 64 (op + len * 2 ^ 8 + 2 ^ 33))
  else
    (s.setReg (R.HBM_WSP_CMD k) (BitVec.ofNat 64 (op + len * 2 ^ 8))).setReg (R.HBM_WSP_DATA k)
      (BitVec.ofNat 64 (reply.toNat % 2 ^ min 64 len))

/-- SHIFT_INSTRUCTION (R352). -/
def execShiftInstruction (stk : Fin 6) (len : BitVec 7) (reply : Word) (s : State) : Out :=
  .next (if s.alive then s.wspShift stk.val 1 len.toNat reply else s)

/-- SHIFT_DATA (R352). -/
def execShiftData (stk : Fin 6) (len : BitVec 7) (reply : Word) (s : State) : Out :=
  .next (if s.alive then s.wspShift stk.val 2 len.toNat reply else s)

/-! ## Quotas (R334, R345, R356) -/

/-- Another carrel's extent on stack k shares a byte with [a, a + n). -/
def State.extentTaken (s : State) (c k a n : Nat) : Bool :=
  (List.range 1024).any (fun i => i != c && (s.extent i k).2 != 0 && overlaps a n (s.extent i k).1 (s.extent i k).2)

/-- Base and bytes of the log in the near tier. -/
def State.logRange (s : State) : Nat × Nat := (4096 * s.field R.LDG_LOG_BASE 12 52, 32 * 2 ^ s.field R.LDG_LOG_CTL 0 4)

/-- R334 refuses [a, a + n) as carrel c's extent on stack k. -/
def State.extentRefused (s : State) (c k a n : Nat) : Bool :=
  n != 0 && (!(decide (stackBase k ≤ a) && decide (a + n ≤ stackBase k + s.stackSize k)) || s.extentTaken c k a n || s.touchesFw a n
    || (s.logNear && overlaps a n s.logRange.1 s.logRange.2))

/-- Something of carrel c in [a, a + n) lies outside its extents: a leaf, a pin or a near-tier ring (R345). -/
def State.cutUse (s : State) (c a n : Nat) : Bool :=
  (s.nearLeaves c).any (fun x => overlaps (leafBytes * x.2.2) leafBytes a n && !s.frameInExtents c x.2.2)
    || (s.rawRanges c).any (fun r => overlaps r.1 r.2 a n && !s.inExtents c r.1 r.2)

/-- A write of KPR_EXTENT[8c + k] (R334, R345). -/
def State.nearExtent (s : State) (c k : Nat) (v : Word) : State :=
  let v := v &&& 0xFFFF0003FFFF
  if !s.carrelExists c then s
  else if s.extentRefused c k (leafBytes * fld v 0 18) (leafBytes * fld v 32 16) then s.event R.KPR_EVENT 1
  else
    let old := s.extent c k
    let s := s.setReg (R.KPR_EXTENT c k) v
    if s.cutUse c old.1 old.2 then
      ((s.modKpr (fun x => { x with excess := Tab.insert x.excess c true })).event R.KPR_EVENT 2).log 5 K.overQuota c
    else s.overSettle

/-- NEAR_EXTENT_WRITE (R345). -/
def execNearExtentWrite (c : Func) (stk : Fin 6) (v : Word) (s : State) : Out :=
  .next (if s.alive then s.nearExtent c.toNat stk.val v else s)

/-- A write of KPR_FAR_EXTENT[c] (R334): refused where a registered holding's home would be left out. -/
def State.farExtent (s : State) (c : Nat) (v : Word) : State :=
  let v := v &&& 0x3FFFFF001FFFFF
  let lo := farBase + leafBytes * fld v 0 21
  let hi := lo + leafBytes * fld v 32 22
  if !s.carrelExists c then s
  else if (s.holdings c).any (fun h => !h.pin && !(decide (lo ≤ h.addr) && decide (h.addr + leafBytes * h.nLeaves ≤ hi))) then
    s.event R.KPR_EVENT 1
  else s.setReg (R.KPR_FAR_EXTENT c) v

/-- FAR_EXTENT_WRITE (R334). -/
def execFarExtentWrite (c : Func) (v : Word) (s : State) : Out := .next (if s.alive then s.farExtent c.toNat v else s)

/-- A write of KPR_REG_SHARE[c]: a carrel that is ACTIVE or FREEZING and not elastic is fixed (R348, R391). -/
def State.regShare (s : State) (c : Nat) (v : Word) : State :=
  if !s.carrelExists c then s
  else if (s.carrelState c == 2 || s.carrelState c == 3) && !s.regBit (R.CRL_CARREL_STATE c) 3 then s.orReg R.CRL_EVENT 2
  else s.setReg (R.KPR_REG_SHARE c) (v &&& 0x1FFFFFFFFFFFF)

/-- REG_SHARE_WRITE (R348). -/
def execRegShareWrite (c : Func) (v : Word) (s : State) : Out := .next (if s.alive then s.regShare c.toNat v else s)

/-! ## The locality map (R338) -/

/-- KPR_QUERY_RESULT for a far-tier address (Table 12-8). -/
def State.queryResult (s : State) (a : Nat) : Word :=
  match (Tab.vals s.kpr.calls).find? (fun h => !h.pin && !h.gone && decide (h.addr ≤ a) && decide (a < h.addr + leafBytes * h.nLeaves)) with
  | none => 0
  | some h =>
    let i := (a - h.addr) / leafBytes
    let l := h.leaf i
    let key := callKey h.carrel h.call
    let moving := s.kpr.moves.any (fun m => m.started && callKey m.carrel m.call == key && m.leaf == i)
    BitVec.ofNat 64 (1 + b2n l.frame.isNone * 2 + stackOf (leafBytes * l.frame.getD 0) * 4 + b2n (s.heldLeaf key i) * 2 ^ 5 + b2n moving * 2 ^ 6
      + b2n l.dirty * 2 ^ 7 + b2n (s.backed h i) * 2 ^ 8 + h.carrel * 2 ^ 9 + l.frame.getD 0 * 2 ^ 19)

/-- A write of KPR_QUERY. -/
def State.kprQuery (s : State) (v : Word) : State :=
  let v := v &&& 0xFFFFFFFFFFFF
  (s.setReg R.KPR_QUERY v).setReg R.KPR_QUERY_RESULT (s.queryResult v.toNat)

/-- KPR_QUERY. -/
def execKprQuery (v : Word) (s : State) : Out := .next (if s.alive then s.kprQuery v else s)

/-! ## Memory-side adders (R346, R347, Table 12-4) -/

/-- STACK_ADD: an ADD of elements, aligned to its type's size (R346). -/
def State.stackAdd (s : State) (op : AdderOp) : State :=
  let n := addSize op.typ.toNat
  let c := op.carrel.toNat
  let a := op.addr.toNat
  if 4 < op.typ.toNat ∨ a % n ≠ 0 ∨ op.data.length % n ≠ 0 ∨ op.data = [] then s.adderAnswer (some 0x3004) 0
  else
    let hold := s.addHeld c a op.data.length
    match s.addMay c a op.typ.toNat op.data op.fail with
    | (s, st) => s.adderDone hold c a op.data.length true st 0

/-- STACK_ADD (R346). -/
def execStackAdd (op : AdderOp) (s : State) : Out := .next (if s.running then s.stackAdd op else s)

/-- One admitted operation on n bytes at a: its status, its old value, and whether `f old` was written (R346, R467). -/
def State.fetchMem (s : State) (c a n : Nat) (f : Nat → Option Nat) : State × MemStatus × Nat × Bool :=
  let s := s.watch c 2 a n
  let ps := s.places c a n
  let s := s.eccRead ps
  match failures s.byteStatus none ps with
  | (p, code) :: _ => (s.logBad c p code, some code, 0, false)
  | [] =>
    let p := s.place c a
    let old := Memory.readLe s.mem p n
    let s := s.touchLeaves c a n (f old).isSome
    match f old with
    | some v => ({ s with mem := Memory.writeLe s.mem p n v }, none, old, true)
    | none => (s, none, old, false)

/-- An operation that returns the old value, judged whole by R335. -/
def State.fetchOp (s : State) (op : AdderOp) (n : Nat) (f : Nat → Option Nat) : State :=
  let c := op.carrel.toNat
  let a := op.addr.toNat
  if !s.memAdmitted c a n then (s.memRefused c a).adderAnswer (some 0x2000) 0
  else
    let hold := s.addHeld c a n
    match s.withError (s.deviceHit c a n op.fail) (fun s => s.fetchMem c a n f) with
    | (s, st, old, wrote) => s.adderDone hold c a n wrote st (BitVec.ofNat 64 old)

/-- FETCH_ADD of INT32, INT64 or FP32. -/
def State.fetchAdd (s : State) (op : AdderOp) : State :=
  let n := addSize op.typ.toNat
  if 2 < op.typ.toNat ∨ op.addr.toNat % n ≠ 0 then s.adderAnswer (some 0x3004) 0
  else s.fetchOp op n (fun old => some (adderSum op.typ.toNat old (leVal (op.data.take n))))

/-- FETCH_ADD (R346). -/
def execFetchAdd (op : AdderOp) (s : State) : Out := .next (if s.running then s.fetchAdd op else s)

/-- COMPARE_SWAP of INT64: written only if the old value equals the compare value. -/
def State.compareSwap (s : State) (op : AdderOp) (compare : Word) : State :=
  if op.typ.toNat ≠ 1 ∨ op.addr.toNat % 8 ≠ 0 then s.adderAnswer (some 0x3004) 0
  else s.fetchOp op 8 (fun old => if old = compare.toNat then some (leVal (op.data.take 8)) else none)

/-- COMPARE_SWAP (R346). -/
def execCompareSwap (op : AdderOp) (compare : Word) (s : State) : Out := .next (if s.running then s.compareSwap op compare else s)

end Sys2Proof.Machine
end

