-- ==== Sys2Proof/Machine/IlnRecv.lean ====
section
/-! DEFINITION. The receiving side of the Interloan endpoint: discards, sequencing, the receiver's checks, responses and link packets
(R358, R361 to R374, R380, R381, R384, R401, Tables 13-1 to 13-4). -/

namespace Sys2Proof.Machine

/-! ## Discards and forwarding (R361, R380) -/

/-- A received packet discarded and counted. -/
def State.ilnDiscard (s : State) : State := s.countSat R.ILN_COUNT 32 16 1

/-- Classes of Table 13-3. -/
def classReserved (cls : Nat) : Bool := cls == 0 || cls == 7 || decide (10 ≤ cls)

/-- Bits of TARGET that a class's layout names (Table 13-2). -/
def targetMask (cls : Nat) : Word :=
  if cls = 2 then 0xFF01FFFFFF else if cls = 5 then 0xFFFF else if cls = 6 then 0xFFFF0003 else if 8 ≤ cls then 0xFFFFFFFFFFFFFFFF else 0xFFFFFFFFFFFF

/-- LEN and payload are outside a class's limits (Table 13-3). -/
def lenBad (p : Packet) (cls : Nat) : Bool :=
  let n := p.len.toNat
  if cls = 1 then n == 0 || decide (256 < n) || p.payload.length != n
  else if cls = 3 then n == 0 || decide (256 < n) || !p.payload.isEmpty
  else if cls = 4 then decide (n < 4) || decide (256 < n) || p.payload.length != n || decide (4 < p.typ.toNat) || n % addSize p.typ.toNat != 0
  else if cls = 5 ∨ cls = 9 then decide (256 < n) || p.payload.length != n
  else n != 0 || !p.payload.isEmpty

/-- A packet with a good CRC that is malformed (R361). -/
def malformed (p : Packet) (cls : Nat) : Bool :=
  classReserved p.cls.toNat || !Packet.resZero p || lenBad p cls || p.target &&& ~~~ targetMask cls != 0

/-- A packet for another chip: forwarded unchanged by this chip's routes, or discarded as misrouted (R371 check 1, R380). -/
def State.misroute (s : State) (port : Nat) (p : Packet) (cls : Nat) : State :=
  let out := (s.routeFor p.dst.toNat).map s.routePort
  if s.regBit R.ILN_CTL 0 && out.isSome && out != some port then s.leave (out.getD 0) p
  else (s.event R.ILN_EVENT 0x10).log 7 K.misrouted p.carrel.toNat (packetAdr p cls)

/-- Traffic of a peer in the table: its time, its epoch, its holdover mark (R369, R381). -/
def State.heard (s : State) (p : Packet) : State :=
  match s.peer p.src.toNat with
  | none => s
  | some x =>
    let s := s.setPeer p.src.toNat { x with seen := s.stp.total, holdover := p.holdover, epoch := p.epoch }
    if p.holdover && !x.holdover then (s.event R.ILN_EVENT 8).log 7 K.peerHoldover p.carrel.toNat else s

/-- What every packet that arrives at a port meets first; `act` goes on with one for this chip that is well formed. A port that carries
no Interloan brings none. While the die is hushed the endpoint is stopped: sequenced packets are discarded (Table 18-1). -/
def State.arrive (s : State) (port : Nat) (p : Packet) (cls : Nat) (act : State → State) : State :=
  if !s.inService || !s.portStreams port then s
  else if s.hushed then (if cls ≤ 5 then s.ilnDiscard else s)
  else if !Packet.crcRight p then s.ilnDiscard
  else if malformed p cls then s.log 7 K.ilnMalformed p.carrel.toNat (packetAdr p cls)
  else if p.dst.toNat ≠ s.chip then s.misroute port p cls
  else act (s.heard p)

/-! ## Sequencing (R366, R367) -/

/-- RETRY_US in fc; 0 acts as 1 µs. -/
def State.retryFc (s : State) : Nat := max 1 (s.field R.ILN_CTL 8 8) * fcPerUs

/-- An ACK naming the highest accepted SEQ. -/
def State.ackNow (s : State) (peer ch : Nat) : State :=
  match s.peer peer with
  | none => s
  | some x =>
    let c := x.chan ch
    (s.setPeer peer (x.setChan ch { c with accepted := 0 })).link peer ch 0 (c.expected.toNat + 65535)

/-- A RESEND for the expected sequence, at most once per RETRY_US. -/
def State.askResend (s : State) (peer ch : Nat) : State :=
  match s.peer peer with
  | none => s
  | some x =>
    let c := x.chan ch
    if c.resentAt.any (fun t => decide (s.stp.total < t + s.retryFc)) then s
    else (s.setPeer peer (x.setChan ch { c with resentAt := some s.stp.total })).link peer ch 1 c.expected.toNat

/-- A sequenced packet of a synced direction is accepted, discarded as a duplicate, or discarded as out of order (R366). -/
def State.sequence (s : State) (p : Packet) : State × Bool :=
  let peer := p.src.toNat
  let ch := p.channel.toNat
  match s.peer peer with
  | none => (s, false)
  | some x =>
    if !x.inSync then (s, false)
    else
      let c := x.chan ch
      let d := (p.seq - c.expected).toNat
      if d = 0 then
        let s := (s.setPeer peer (x.setChan ch { c with
          expected := c.expected + 1, accepted := c.accepted + 1, since := if c.accepted = 0 then s.stp.total else c.since })).modIln
          (fun i => { i with committed := true })
        (if 32 ≤ c.accepted + 1 then s.ackNow peer ch else s, true)
      else if 32768 ≤ d then (s.ackNow peer ch, false)
      else (s.ilnDiscard.askResend peer ch, false)

/-! ## The receiver's checks (R371 to R374) -/

/-- EPOCH matches (R373). -/
def State.epochMatches (s : State) (e : BitVec 16) : Bool :=
  e.toNat == s.epoch
    || (e.toNat == s.field R.ILN_EPOCH 16 16 && s.iln.firedAt.any (fun t => decide (s.stp.total ≤ t + fcPerUs * s.field R.ILN_CTL 16 10)))

/-- Every byte of [a, a + n) lies in a region of Table 13-1 that permits READ and ADD, clear of holes (R358). -/
def State.remoteRange (s : State) (a n : Nat) : Bool :=
  if a < farBase then decide (a + n ≤ 0x6000000000) && (unitStarts a n).all (fun u => s.nearBacked u (min (a + n) (0x200000 * (u / 0x200000 + 1)) - u))
  else decide (a + n ≤ 0x140000000000)

/-- ILN_REMOTE_MEM[c] admits a peer's READ (bit 0) or ADD (bit 1). -/
def State.remoteMem (s : State) (c bit peer : Nat) : Bool :=
  let r := R.ILN_REMOTE_MEM c
  s.regBit r bit && decide (s.field r 16 16 ≤ peer) && decide (peer ≤ s.field r 32 16)

/-- Checks 2 to 4 of Table 13-4: the status of the first that fails. -/
def State.receiverCheck (s : State) (p : Packet) (cls : Nat) : State × Option Code :=
  let c := p.carrel.toNat
  if !s.epochMatches p.epoch then ((s.event R.ILN_EVENT 2).log 7 K.epochMismatch c (packetAdr p cls), some 0x5003)
  else if (p.holdover && s.regBit R.ILN_CTL 1) || !s.carrelExists c then (s.log 7 K.ilnRefused c (packetAdr p cls), some 0x5004)
  else (s, none)

/-- A request is answered: with a refusal, or with what `act` gives. -/
def State.serve (s : State) (p : Packet) (cls : Nat) (act : State → State × MemStatus × List Byte) : State :=
  match s.receiverCheck p cls with
  | (s, some code) => s.respond p code []
  | (s, none) =>
    match act s with
    | (s, some code, _) => s.respond p code []
    | (s, none, data) => s.respond p 0 data

/-- A request arrives: sequenced, then judged once accepted. -/
def State.request_ (s : State) (port : Nat) (p : Packet) (cls : Nat) (act : State → State) : State :=
  s.arrive port p cls (fun s =>
    match s.sequence p with
    | (s, true) => act s
    | (s, false) => s)

/-- A refusal of R335 is seen by the peer as REMOTE_REFUSED (R372). -/
def remoteStatus (st : MemStatus) : MemStatus := st.map (fun c => if c = 0x2000 then 0x5004 else c)

/-- A READ of near-tier or far-tier memory, which may meet an error there. -/
def State.remoteRead (s : State) (p : Packet) (fail : Option Code) : State × MemStatus × List Byte :=
  let a := p.target.toNat
  let c := p.carrel.toNat
  if !s.remoteRange a p.len.toNat then s.regionRefused p 3
  else if !s.remoteMem c 0 p.src.toNat then (s.memRefused c a, some 0x5004, [])
  else
    match s.readMay c a p.len.toNat fail with
    | (s, bs, st) => (s, remoteStatus st, bs)

/-- An ADD to near-tier or far-tier memory, aligned to its type (R374). -/
def State.remoteAdd (s : State) (p : Packet) (fail : Option Code) : State × MemStatus × List Byte :=
  let a := p.target.toNat
  let c := p.carrel.toNat
  if !s.remoteRange a p.len.toNat || a % addSize p.typ.toNat != 0 then s.regionRefused p 4
  else if !s.remoteMem c 1 p.src.toNat then (s.memRefused c a, some 0x5004, [])
  else
    match s.addMay c a p.typ.toNat p.payload fail with
    | (s, st) => (s, remoteStatus st, [])

/-- An ADD is answered once every element has been applied (R374): its answer waits for the move of a leaf it names (R342). -/
def State.serveAdd (s : State) (p : Packet) (fail : Option Code) : State :=
  match s.receiverCheck p 4 with
  | (s, some code) => s.respond p code []
  | (s, none) =>
    let hold := s.addHeld p.carrel.toNat p.target.toNat p.len.toNat
    match s.remoteAdd p fail with
    | (s, st, _) =>
      if hold && st != some 0x5004 then s.holdAdd ⟨p.carrel.toNat, p.target.toNat, p.len.toNat, true, .peer p, st, 0⟩
      else s.respond p (st.getD 0) []

/-- A WRITE or SIGNAL arrives: once accepted and not refused it goes to its shelf as posted traffic (R265). -/
def State.windowRequest (s : State) (port : Nat) (p : Packet) (cls sh : Nat) : State :=
  s.arrive port p cls (fun s =>
    match s.sequence p with
    | (s, false) => s
    | (s, true) =>
      match s.receiverCheck p cls with
      | (s, some code) => s.respond p code []
      | (s, none) => s.deliverHeld sh (.remote p cls))

/-- WRITE (R371). -/
def execIlnWrite (port : BitVec 2) (p : Packet) (s : State) : Out :=
  .next (s.windowRequest port.toNat p 1 (if inWindows p.target.toNat p.len.toNat then (windowAt p.target.toNat).1 else 4096))

/-- SIGNAL (R363). -/
def execIlnSignal (port : BitVec 2) (p : Packet) (s : State) : Out := .next (s.windowRequest port.toNat p 2 (fld p.target 0 12))

/-- READ (R371). -/
def execIlnRead (port : BitVec 2) (p : Arriving) (s : State) : Out :=
  .next (s.request_ port.toNat p.packet 3 (fun s => s.serve p.packet 3 (fun s => s.remoteRead p.packet p.fail)))

/-- ADD (R374). -/
def execIlnAdd (port : BitVec 2) (p : Arriving) (s : State) : Out :=
  .next (s.request_ port.toNat p.packet 4 (fun s => s.serveAdd p.packet p.fail))

/-! ## Completion of requests (R376, R377) -/

/-- The folio that waits for a request. -/
def State.waitingFolio (s : State) (sh j e id : Nat) : Option Exec := (s.streamOf sh j e).execs.find? (fun y => y.reqs.contains id)

/-- A folio's request completes: READ data lands; a status other than success ends the folio (R272). -/
def State.folioReply (s : State) (sh j e id space addr : Nat) (status : Code) (data : List Byte) : State :=
  match s.waitingFolio sh j e id, s.runCtx sh with
  | some x, some c =>
    let s := s.setExec sh j e x.slot x.lap (fun y => { y with reqs := y.reqs.filter (fun i => i != id) })
    let x := { x with reqs := x.reqs.filter (fun i => i != id) }
    if !isSuccess status then s.folioFail sh j e x status 0
    else if data.isEmpty then s
    else
      match s.localWrite c j space addr data with
      | (s, .ok) => s
      | (s, .error code a) => s.folioFail sh j e x code a
  | _, _ => s

/-- A preload's request completes (R260). -/
def State.preReply (s : State) (sh slip pass slot dst id : Nat) (status : Code) (data : List Byte) : State :=
  match (s.shelf sh).entries.find? (fun e => e.slip == slip && e.pass == pass && e.preReqs.contains id) with
  | none => s
  | some e =>
    let s := s.modPre sh (fun y => { y with preReqs := y.preReqs.filter (fun i => i != id) })
    if !isSuccess status then s.preFail sh slot status
    else
      match s.localWrite (s.ctxOf sh e) 0 0 dst data with
      | (s, .ok) => s
      | (s, .error code _) => s.preFail sh slot code

/-- A COPY's request completes: READ data goes to the destination (R156). -/
def State.slipReply (s : State) (id : Nat) (dst : Option Nat) (status : Code) (data : List Byte) : State :=
  match s.slip id with
  | none => s
  | some x =>
    if x.typ ≠ 3 ∨ x.st ≠ .running then s
    else if !isSuccess status then s.copyFail id x status
    else
      match dst with
      | none => s.copySettle id
      | some off =>
        match s.copyLand id x off data none with
        | (s, some code) => s.copyFail id x code
        | (s, none) => s.copySettle id

/-- A request is no longer outstanding, with its status and data. -/
def State.reqDone (s : State) (id : Nat) (r : Req) (status : Code) (data : List Byte) : State :=
  let s := s.modIln (fun i => { i with reqs := Tab.erase i.reqs id })
  match r.who with
  | .folio sh core eng _ _ space addr => s.folioReply sh core eng id space addr status data
  | .pre sh slip pass slot dst => s.preReply sh slip pass slot dst id status data
  | .slip i dst => s.slipReply i dst status data

/-- A RESPONSE completes its request, or is late (R376). -/
def State.response (s : State) (p : Packet) : State :=
  match Tab.find? s.iln.reqs p.reqId.toNat with
  | some r =>
    if r.peer = p.src.toNat then s.reqDone p.reqId.toNat r (BitVec.ofNat 16 (fld p.target 0 16)) p.payload else s.countSat R.ILN_COUNT 48 16 1
  | none => s.countSat R.ILN_COUNT 48 16 1

/-- RESPONSE (R376). -/
def execIlnResponse (port : BitVec 2) (p : Packet) (s : State) : Out :=
  .next (s.arrive port.toNat p 5 (fun s =>
    match s.sequence p with
    | (s, true) => s.response p
    | (s, false) => s))

/-! ## Link packets (R365, R367, R368) -/

/-- KIND and ACK_SEQ of a LINK packet. -/
def ackSeq (p : Packet) : Nat := fld p.target 16 16

/-- A cumulative ACK releases packets up to the one it names; their requests are acknowledged, and waiting packets may leave. -/
def State.acked (s : State) (peer ch seq : Nat) : State :=
  match s.peer peer with
  | none => s
  | some x =>
    let c := x.chan ch
    let done := fun (y : SentPacket) => decide ((seq + (65536 - y.packet.seq.toNat)) % 65536 < 32768)
    let ids := ((c.unacked.filter done).filter (fun y => y.packet.cls != 5)).map (fun y => y.packet.reqId.toNat)
    let s := s.setPeer peer (x.setChan ch { c with unacked := c.unacked.filter (fun y => !done y), ackedAt := s.stp.total })
    (s.modIln (fun i => { i with reqs := i.reqs.map (fun q => if ids.contains q.1 then (q.1, { q.2 with acked := true }) else q) })).pump peer ch

/-- ACK (R365). -/
def execIlnAck (port : BitVec 2) (p : Packet) (s : State) : Out :=
  .next (s.arrive port.toNat p 6 (fun s => s.acked p.src.toNat p.channel.toNat (ackSeq p)))

/-- Every unacknowledged packet of a channel that `which` picks is sent again, unchanged and in order; on a route switch the time-out
restarts (R365, R379). -/
def State.sendAgain (s : State) (peer ch : Nat) (which : SentPacket → Bool) (restart : Bool) : State :=
  match s.peer peer with
  | none => s
  | some x =>
    let c := x.chan ch
    let t := s.stp.total
    let s := s.setPeer peer (x.setChan ch { c with unacked := c.unacked.map (fun y =>
      if which y then { y with last := t, first := if restart then t else y.first } else y) })
    (c.unacked.filter which).foldl (fun s y => (s.countSat R.ILN_COUNT 0 32 1).transmit peer y.packet) s

/-- RESEND (R365). -/
def execIlnResend (port : BitVec 2) (p : Packet) (s : State) : Out :=
  .next (s.arrive port.toNat p 6 (fun s =>
    s.sendAgain p.src.toNat p.channel.toNat (fun y => decide ((y.packet.seq.toNat + (65536 - ackSeq p)) % 65536 < 32768)) false))

/-- SYNC: the direction from its sender starts at sequence zero on all four channels (R368). A sender that finds no place in the peer table
is not answered. -/
def State.synced (s : State) (peer : Nat) (p : Packet) : State :=
  let known := (s.peer peer).isSome
  if !known && decide (1024 ≤ s.iln.peers.length) then s
  else
    let x := (s.peer peer).getD (Peer.fresh s.stp.total)
    let chans := x.chans.map (fun c => { c with expected := 0, accepted := 0, resentAt := none })
    (((s.setPeer peer { x with inSync := true, chans := chans }).heard p)).link peer 0 3 0

/-- SYNC (R368). -/
def execIlnSync (port : BitVec 2) (p : Packet) (s : State) : Out :=
  .next (s.arrive port.toNat p 6 (fun s => s.synced p.src.toNat p))

/-- SYNC_ACK: this chip's direction is synced, and waiting packets leave from sequence zero (R368). -/
def State.syncAcked (s : State) (peer : Nat) : State :=
  match s.peer peer with
  | none => s
  | some x =>
    if x.out ≠ 1 then s
    else
      let s := s.setPeer peer { x with out := 2, chans := x.chans.map (fun c => { c with next := 0 }) }
      (List.range 4).foldl (fun s ch => s.pump peer ch) s

/-- SYNC_ACK (R368). -/
def execIlnSyncAck (port : BitVec 2) (p : Packet) (s : State) : Out :=
  .next (s.arrive port.toNat p 6 (fun s => s.syncAcked p.src.toNat))

end Sys2Proof.Machine
end

