-- ==== Sys2Proof/Machine/IlnLinks.lean ====
section
/-! DEFINITION. Interloan's time-outs, ports, routes and configuration epochs (R45 to R47, R333, R365 to R369, R375 to R384). A command
that reports a time-out says that its time has come: the clock has moved at least so far. -/

namespace Sys2Proof.Machine

/-- The always-on clock has reached t. -/
def State.reach (s : State) (t : Nat) : State := s.advance (t - s.stp.total)

/-- ILN_TIMEOUT in fc. -/
def State.ilnTimeout (s : State) : Nat := fcPerUs * s.field R.ILN_TIMEOUT 0 20

/-! ## Retransmission, acknowledgement and synchronisation (R365, R367, R368) -/

/-- The oldest unacknowledged packet has gone RETRY_US since it was last sent, and since the last acknowledgement (R365). -/
def State.retryDue (s : State) (peer ch : Nat) : State :=
  match s.peer peer with
  | none => s
  | some x =>
    match (x.chan ch).unacked with
    | [] => s
    | y :: _ => if x.out = 2 then (s.reach (max y.last (x.chan ch).ackedAt + s.retryFc)).sendAgain peer ch (fun _ => true) false else s

/-- RETRY_TIMEOUT (R365). -/
def execRetryTimeout (peer : BitVec 16) (channel : BitVec 2) (s : State) : Out :=
  .next (if s.running then s.retryDue peer.toNat channel.toNat else s)

/-- 1 µs has passed after the oldest packet accepted since the last ACK (R367). -/
def State.ackDue (s : State) (peer ch : Nat) : State :=
  match s.peer peer with
  | none => s
  | some x => if (x.chan ch).accepted = 0 then s else (s.reach ((x.chan ch).since + fcPerUs)).ackNow peer ch

/-- ACK_TIMER (R367). -/
def execAckTimer (peer : BitVec 16) (channel : BitVec 2) (s : State) : Out :=
  .next (if s.running then s.ackDue peer.toNat channel.toNat else s)

/-- 1 ms has passed since the last SYNC, and no SYNC_ACK has come (R368). -/
def State.syncDue (s : State) (peer : Nat) : State :=
  match s.peer peer with
  | none => s
  | some x => if x.out = 1 then (s.reach (x.syncAt + 1000 * fcPerUs)).sendSync peer x else s

/-- SYNC_RETRY (R368). -/
def execSyncRetry (peer : BitVec 16) (s : State) : Out := .next (if s.running then s.syncDue peer.toNat else s)

/-! ## Alternative routes and giving up (R376, R379) -/

/-- Peers in the table that route entry i routes. -/
def State.peersOf (s : State) (i : Nat) : List Nat := (Tab.keys s.iln.peers).filter (fun n => s.routeFor n == some i)

/-- Route entry i switches to its alternative port, once: what is unacknowledged is sent again through it. -/
def State.switchRoute (s : State) (i : Nat) : State :=
  if !s.regBit (R.ILN_ROUTE i) 36 || s.regBit (R.ILN_ROUTE i) 38 then s
  else
    let s := ((s.setRegBit (R.ILN_ROUTE i) 38 true).event R.ILN_EVENT 4).log 7 K.altRoute
    (s.peersOf i).foldl (fun s n =>
      if (s.peer n).any (fun x => x.out == 2) then (List.range 4).foldl (fun s ch => s.sendAgain n ch (fun _ => true) true) s else s) s

/-- Requests outstanding to a peer. -/
def State.reqsTo (s : State) (peer : Nat) : Tab Req := s.iln.reqs.filter (fun q => q.2.peer == peer)

/-- Outstanding requests complete with LINK_LOST. -/
def State.loseRequests (s : State) (l : Tab Req) : State :=
  l.foldl (fun s q =>
    match Tab.find? s.iln.reqs q.1 with
    | some r => s.reqDone q.1 r 0x5001 []
    | none => s) s

/-- The packets of some requests that wait for the direction to sync are discarded. -/
def Peer.dropWaiting (x : Peer) (ids : List Nat) : Peer :=
  { x with chans := x.chans.map (fun c => { c with waiting := c.waiting.filter (fun p => p.cls == 5 || !ids.contains p.reqId.toNat) }) }

/-- Every packet kept for a peer is discarded. -/
def Peer.dropPackets (x : Peer) : Peer := { x with chans := x.chans.map (fun c => { c with unacked := [], waiting := [] }) }

/-- The endpoint gives up on a peer. -/
def State.giveUp (s : State) (peer : Nat) (x : Peer) : State :=
  let s := s.setPeer peer { x.dropPackets with out := 3 }
  ((s.loseRequests (s.reqsTo peer)).log 7 K.linkLost 0 0 0).event R.ILN_EVENT 1

/-- The first sending of the oldest unacknowledged packet to a peer, on any channel. -/
def Peer.oldest (x : Peer) : Option Nat :=
  (x.chans.flatMap (fun c => c.unacked.map (·.first))).foldl (fun (m : Option Nat) t => some (m.elim t (min t))) none

/-- Requests made while the direction was unsynced, that no SYNC_ACK answered within ILN_TIMEOUT, end with LINK_LOST; the oldest is at its time.
SYNC goes on (R368, R376). -/
def State.syncTimeout (s : State) (peer : Nat) (x : Peer) : State :=
  match ((s.reqsTo peer).map (fun q => q.2.made)).min? with
  | none => s
  | some t =>
    let s := s.reach (t + s.ilnTimeout)
    let lost := (s.reqsTo peer).filter (fun q => decide (q.2.made + s.ilnTimeout ≤ s.stp.total))
    (s.setPeer peer (x.dropWaiting (lost.map (·.1)))).loseRequests lost

/-- A route entry for a peer has an alternative that it has not switched to yet (R379). -/
def State.altLeft (s : State) (peer : Nat) : Option Nat :=
  (s.routeFor peer).filter (fun i => s.regBit (R.ILN_ROUTE i) 36 && !s.regBit (R.ILN_ROUTE i) 38)

/-- ILN_TIMEOUT has passed on a peer: its route's alternative is tried once, and otherwise the endpoint gives up (R376, R379). -/
def State.linkTimeout (s : State) (peer : Nat) : State :=
  match s.peer peer with
  | none => s
  | some x =>
    if x.out = 1 then s.syncTimeout peer x
    else
      match x.oldest with
      | none => s
      | some t =>
        let s := s.reach (t + s.ilnTimeout)
        match s.altLeft peer with
        | some i => s.switchRoute i
        | none => s.giveUp peer x

/-- The endpoint gives up on a peer by now: its oldest unacknowledged packet has gone ILN_TIMEOUT, and no alternative is left (R376). -/
def State.givesUp (s : State) (peer : Nat) : Bool :=
  (s.peer peer).any (fun x => x.out != 1 && x.oldest.any (fun t => decide (t + s.ilnTimeout ≤ s.stp.total))) && (s.altLeft peer).isNone

/-- ILN_LINK_LOST (R376). -/
def execIlnLinkLost (peer : BitVec 16) (s : State) : Out := .next (if s.running then s.linkTimeout peer.toNat else s)

/-- ILN_REMOTE_TIMEOUT of an acknowledged request (R377): a peer that the endpoint gives up on in the same fc completes it with LINK_LOST. -/
def State.remoteTimeout (s : State) (id : Nat) : State :=
  match Tab.find? s.iln.reqs id with
  | some r =>
    if r.acked then
      let s := s.reach (r.sent.getD s.stp.total + s.ilnTimeout)
      if s.givesUp r.peer then s.linkTimeout r.peer else (s.log 7 K.remoteTimeout r.carrel).reqDone id r 0x5002 []
    else s
  | none => s

/-- ILN_REMOTE_TIMEOUT. -/
def execIlnRemoteTimeout (reqId : BitVec 16) (s : State) : Out := .next (if s.running then s.remoteTimeout reqId.toNat else s)

/-- PEER_IDLE (R369): nothing outstanding and no traffic for 1 s. -/
def State.peerIdle (s : State) (peer : Nat) : State :=
  match s.peer peer with
  | none => s
  | some x =>
    if x.chans.any (fun c => !c.unacked.isEmpty || !c.waiting.isEmpty) || !(s.reqsTo peer).isEmpty then s
    else (s.reach (x.seen + 1000000 * fcPerUs)).modIln (fun i => { i with peers := Tab.erase i.peers peer })

/-- PEER_IDLE. -/
def execPeerIdle (peer : BitVec 16) (s : State) : Out := .next (if s.running then s.peerIdle peer.toNat else s)

/-! ## Host accesses (R384) -/

/-- A host access of the chiplet's has completed with a status: a COPY goes on or fails with it, a ring whose memory was not reached stops
(R152, R156). -/
def State.hostDone (s : State) (id : Nat) (r : HostReq) (status : Code) : State :=
  let s := s.modIln (fun i => { i with host := Tab.erase i.host id, hostLast := some (id, status) })
  match r.who with
  | .slip i => s.slipReply i none status []
  | .ring k a => if isSuccess status || !s.ringOn k then s else s.ringStop k status a
  | .nobody => s

/-- A host class on ports 1 to 3 is refused and logged (R80, R384). -/
def State.hostRefused (s : State) (func addr : Nat) : State := s.log 13 K.hostTag func addr

/-- HOST_RSP (R384). -/
def execHostRsp (port : BitVec 2) (p : Packet) (s : State) : Out :=
  .next (
    if !s.alive || !s.portUp port.toNat then s
    else if port ≠ 0 then s.hostRefused p.carrel.toNat p.target.toNat
    else if !Packet.crcRight p then s.ilnDiscard
    else if malformed p 9 then s.log 7 K.ilnMalformed p.carrel.toNat p.target.toNat
    else
      match Tab.find? s.iln.host p.reqId.toNat with
      | some r => s.hostDone p.reqId.toNat r 0
      | none => s)

/-- A host access has gone ILN_TIMEOUT without a HOST_RSP. -/
def State.hostTimeout (s : State) (id : Nat) : State :=
  match Tab.find? s.iln.host id with
  | some r => (s.reach (r.since + s.ilnTimeout)).hostDone id r 0x5002
  | none => s

/-- HOST_TIMEOUT (R384). -/
def execHostTimeout (reqId : BitVec 16) (s : State) : Out := .next (if s.alive then s.hostTimeout reqId.toNat else s)

/-! ## Ports (R45 to R47, R333, R382, R383) -/

/-- Power domain of port p. -/
def portDomain (p : Nat) : Nat := 86 + p

/-- Mode a port is set to: 0 automatic, 1 streaming, 2 CXL (R47, R63); in a port 0 boot port 0 trains in streaming mode (R88). -/
def State.portSetting (s : State) (p : Nat) : Nat :=
  if p = 0 then (if s.port0Boot then 1 else s.field R.CFG_STRAP 2 2) else s.item 0x8 1 / 4 ^ (p - 1) % 4

/-- Port 0 may train for boot: a port 0 boot waits for its header (R88). -/
def State.bootTrains (s : State) (p : Nat) : Bool := s.pins.life == .boot && p == 0 && s.port0Boot && s.bootPhase == 2

/-- The partner's rate and operational modules are options of Table 2-2; others the port declines (R45). -/
def portSupported (t : PortTrain) : Bool :=
  decide (t.rate.toNat ≤ 5) && (t.modules == 1 || t.modules == 2 || t.modules == 4)

/-- Mode a port trains in: none where it stays down. -/
def State.portMode (s : State) (p : Nat) (t : PortTrain) : Option Nat :=
  let m := s.portSetting p
  if !t.trains || !portSupported t then none
  else if m ≠ 2 && t.streaming then some 1
  else if m ≠ 1 && t.cxl then some 2
  else none

/-- A port below full rate, width or modules (R46). -/
def portDegraded (t : PortTrain) : Bool := t.rate != 5 || t.half || t.modules != 4

/-- A port off: down, its domain switched off. -/
def State.portOff (s : State) (p : Nat) : State := (s.setReg (R.ILN_PORT_STATE p) 0).setField (R.PWR_DOMAIN_STATE (portDomain p)) 0 2 0

/-- A port has trained, or failed to (R46, R91). -/
def State.trainPort (s : State) (p : Nat) (t : PortTrain) : State :=
  match s.portMode p t with
  | none => s.portOff p
  | some m =>
    let s := (s.setReg (R.ILN_PORT_STATE p) (BitVec.ofNat 64 (m + 4 + t.rate.toNat * 8 + b2n t.half * 64 + t.modules.toNat * 128 + t.repairs.toNat * 1024))).setField
      (R.PWR_DOMAIN_STATE (portDomain p)) 0 2 1
    if portDegraded t then s.log (22 + p) K.portDegraded else s

/-- MODE of a port. -/
def State.modeOf (s : State) (p : Nat) : Nat := s.field (R.ILN_PORT_STATE p) 0 2

/-- UP falls: the port's Bell level rises. -/
def State.upFalls (s : State) (p : Nat) : State :=
  if s.portUp p then (s.setRegBit (R.ILN_PORT_STATE p) 2 false).bell (1094 + p) else s

/-- A port is in retraining (R383): its link is not up, and not lost. -/
def State.retraining (s : State) (p : Nat) : Bool := s.iln.retrain.getLsbD p

/-- Retraining has ended. -/
def State.retrained (s : State) (p : Nat) : State := s.modIln (fun i => { i with retrain := i.retrain &&& ~~~ (1#4 <<< p) })

/-- A link is lost, trained or in retraining: a streaming port's entries switch to their alternatives, a CXL port's window fails (R333, R379). -/
def State.linkDown (s : State) (p : Nat) : State :=
  let mode := s.modeOf p
  let s := if s.portUp p || s.retraining p then
      let s := ((s.upFalls p).retrained p).log (22 + p) K.portDown
      if mode = 1 then s.event R.ILN_EVENT 0x80 else s
    else s
  if mode = 1 then
    ((List.range 16).filter (fun i => s.regBit (R.ILN_ROUTE i) 37 && s.field (R.ILN_ROUTE i) 32 2 == p)).foldl (fun s i => s.switchRoute i) s
  else if mode = 2 && !s.kpr.farDown.getLsbD p then
    ((s.modKpr (fun k => { k with farDown := k.farDown ||| (1#4 <<< p) })).event R.KPR_EVENT 8).log 5 K.farLinkDown
  else s

/-- A CXL link is back: its window is served again, and what waited for it goes on (R333). -/
def State.farUp (s : State) (p : Nat) : State :=
  (s.modKpr (fun k => { k with farDown := k.farDown &&& ~~~ (1#4 <<< p) })).holdsGo

/-- PORT_DOWN (R379). -/
def execPortDown (p : BitVec 2) (s : State) : Out := .next (if s.inService && (s.portUp p.toNat || s.retraining p.toNat) then s.linkDown p.toNat else s)

/-- FAR_LINK_DOWN (R333). -/
def execFarLinkDown (p : BitVec 2) (s : State) : Out :=
  .next (if s.inService && (s.portUp p.toNat || s.retraining p.toNat) && s.modeOf p.toNat == 2 then s.linkDown p.toNat else s)

/-- FAR_LINK_UP (R333). -/
def execFarLinkUp (p : BitVec 2) (s : State) : Out :=
  .next (
    if s.inService && s.modeOf p.toNat == 2 && s.kpr.farDown.getLsbD p.toNat then (s.setRegBit (R.ILN_PORT_STATE p.toNat) 2 true).farUp p.toNat
    else s)

/-- PORT_TRAINED: a port that is down or in retraining, and not disabled, has trained; one that fails to while in retraining has lost its
link. -/
def State.portTrained (s : State) (p : Nat) (t : PortTrain) : State :=
  if s.portUp p || s.regBit (R.ILN_PORT_CTL p) 0 then s
  else
    let s := if s.retraining p && (s.portMode p t).isNone then s.linkDown p else s.retrained p
    let s := s.trainPort p t
    if s.modeOf p = 2 && s.portUp p then s.farUp p else s

/-- PORT_TRAINED (R46). -/
def execPortTrained (p : BitVec 2) (t : PortTrain) (s : State) : Out :=
  .next (if s.inService || s.bootTrains p.toNat then s.portTrained p.toNat t else s)

/-- A write the endpoint refuses sets ILN_EVENT.CFG_ERR. -/
def State.ilnCfgErr (s : State) : State := s.event R.ILN_EVENT 0x40

/-- ILN_PORT_CTL[p].DISABLE written 1 (R383). -/
def State.portDisable (s : State) (p : Nat) : State :=
  if p = 0 then s.ilnCfgErr
  else
    let s := s.setRegBit (R.ILN_PORT_CTL p) 0 true
    if s.modeOf p = 0 then s else (s.linkDown p).portOff p

/-- DISABLE (R383). -/
def execDisable (p : BitVec 2) (s : State) : Out := .next (if s.alive then s.portDisable p.toNat else s)

/-- ILN_PORT_CTL[p].RETRAIN written 1: the port is in retraining until it has trained. -/
def State.portRetrain (s : State) (p : Nat) : State :=
  if p = 0 then s.ilnCfgErr
  else if s.portUp p then (s.upFalls p).modIln (fun i => { i with retrain := i.retrain ||| (1#4 <<< p) })
  else s

/-- RETRAIN (R383). -/
def execRetrain (p : BitVec 2) (s : State) : Out := .next (if s.alive then s.portRetrain p.toNat else s)

/-- A write of ILN_ROUTE[i] (R379, R382): ON_ALT clears; an entry that names a CXL port is refused. -/
def State.routeWrite (s : State) (i : Nat) (v : Word) : State :=
  if s.modeOf (fld v 32 2) = 2 ∨ s.modeOf (fld v 34 2) = 2 then s.ilnCfgErr else s.setReg (R.ILN_ROUTE i) (v &&& 0x3FFFFFFFFF)

/-- ROUTE_WRITE (R382). -/
def execRouteWrite (i : BitVec 4) (v : Word) (s : State) : Out := .next (if s.alive then s.routeWrite i.toNat v else s)

/-! ## Configuration epochs (R375) -/

/-- ARM: LATE is the only refusal. -/
def State.epochArm (s : State) : State :=
  let at_ := s.field R.ILN_EPOCH_AT 0 48
  let c := s.stp.stamp.toNat
  if at_ < c + 1 || (at_ == c + 1 && decide (0xC000 ≤ s.phase)) then s.setField R.ILN_EPOCH_STATUS 0 3 3
  else (s.setField R.ILN_EPOCH_STATUS 0 3 1).modIln (fun i => { i with armed := some (at_, s.field R.ILN_EPOCH_NEXT 0 16) })

/-- CANCEL. -/
def State.epochCancel (s : State) : State := (s.setField R.ILN_EPOCH_STATUS 0 3 6).modIln (fun i => { i with armed := none })

/-- EPOCH_ARM (R375). -/
def execEpochArm (s : State) : Out := .next (if s.alive then s.epochArm else s)

/-- EPOCH_CANCEL (R375). -/
def execEpochCancel (s : State) : Out := .next (if s.alive then s.epochCancel else s)

/-- An armed epoch fires at its stamp. -/
def State.epochFire (s : State) : State :=
  match s.iln.armed with
  | none => s
  | some (at_, e) =>
    let n := s.stp.stamp.toNat
    if n < at_ then s
    else
      ((s.setReg R.ILN_EPOCH (BitVec.ofNat 64 (e + s.epoch * 65536))).setReg R.ILN_EPOCH_STATUS (BitVec.ofNat 64 (2 + n * 65536))).modIln
        (fun i => { i with armed := none, firedAt := some s.stp.total })

end Sys2Proof.Machine
end

