-- ==== Sys2Proof/Machine/Bell.lean ====
section
/-! DEFINITION. Who reaches a register (R80, R83, R398, R404, R462), curator shared memory (R36), and the Bell: arrivals, routing, queues,
completions, and the curators' states (R403 to R411). -/

namespace Sys2Proof.Machine

/-! ## Who reaches a register of the manager's -/

/-- A control-window access at `off` to what only the manager reaches: none where it goes on, else the state it leaves. Host traffic
reaches nothing but CFG_ and the boot window before service (R83); a carrel is refused, an unknown one logged. -/
def State.managerGate (s : State) (who : Requester) (off : Nat) : Option State :=
  match who with
  | .curator _ => if s.alive then none else some s
  | .tap => if s.alive then none else some s
  | .host f =>
    if !s.inService then some s
    else if f = 0 then none
    else if !s.carrelExists f.toNat then some (s.log 13 K.hostTag f.toNat off)
    else some (s.notPermitted off f.toNat 1)

/-! ## Curator shared memory -/

/-- Bytes written to curator shared memory; an armed injector of checker 4 acts on the first word (R421). -/
def State.curWrite (s : State) (a : Nat) (bs : List Byte) : State :=
  let s := { s with curMem := Memory.writeN s.curMem a bs
                    ecc := if s.ecc.isEmpty then [] else (wordsOf a bs.length).foldl (fun t w => Tab.erase t (2 ^ 50 + w)) s.ecc }
  match wordsOf a bs.length with
  | [] => s
  | w :: _ => s.inject 4 0 (2 ^ 50 + w) w

/-! ## Arrivals (R404) -/

/-- Sources the manager may signal. -/
def managerSource (n : Nat) : Bool := n == 0 || decide (1536 ≤ n)

/-- A write of BEL_DOORBELL, or with `soft` of BEL_PEND_SET. -/
def State.belWrite (s : State) (who : Requester) (n : Nat) (soft : Bool) : State :=
  match s.managerGate who (if soft then R.BEL_PEND_SET else R.BEL_DOORBELL) with
  | some s' => s'
  | none =>
    match who with
    | .curator _ => s.bell n soft
    | _ => if managerSource n then s.bell n soft else s.countSat R.BEL_STATUS 16 16 1

/-- BEL_DOORBELL (R404). -/
def execBelDoorbell (who : Requester) (n : BitVec 11) (s : State) : Out := .next (s.belWrite who n.toNat false)

/-- BEL_PEND_SET (R404). -/
def execBelPendSet (who : Requester) (n : BitVec 11) (s : State) : Out := .next (s.belWrite who n.toNat true)

/-! ## Queues (R408, R409) -/

/-- Records queue k holds: SIZE_LOG2 outside 4 to 10 is clamped. -/
def State.belSize (s : State) (k : Nat) : Nat := 2 ^ min 10 (max 4 (s.field (R.BEL_Q_CTL k) 0 4))

/-- MASK of curator k. -/
def State.belMasked (s : State) (k : Nat) : Bool := s.regBit (R.BEL_Q_CTL k) 4

/-- Place of record n of queue k: the low bits of OFFSET below the queue's bytes are taken as zero. -/
def State.belAddr (s : State) (k n : Nat) : Nat :=
  s.field (R.BEL_Q_BASE k) 0 20 / (16 * s.belSize k) * (16 * s.belSize k) + 16 * (n % s.belSize k)

/-- Fast records between HEAD and TAIL. -/
def State.fastUnread (s : State) (k : Nat) : Nat :=
  ((List.range (min (s.belLevel k) (s.belSize k))).filter (fun i =>
    bitAt (Memory.readWord s.curMem (s.belAddr k (s.field (R.BEL_Q_HEAD k) 0 16 + i))) 11)).length

/-- The non-empty interrupt of curator k. -/
def State.belIrq (s : State) (k : Nat) : Bool := decide (0 < s.belLevel k) && !s.belMasked k

/-- A fast record takes curator k to its alternate bank, unless it is on it. -/
def State.belTake (s : State) (k : Nat) : State :=
  if s.belIrq k && decide (0 < s.fastUnread k) then { s with bel := { s.bel with alt := s.bel.alt ||| (1#4 <<< k) } } else s

/-! ## Routing (R407) -/

/-- Configuration of source n: EN, FAST, PRIO, and whether TARGETS names curator k. -/
def State.belEn (s : State) (n : Nat) : Bool := s.regBit (R.BEL_SRC_CFG n) 0
def State.belFast (s : State) (n : Nat) : Bool := s.regBit (R.BEL_SRC_CFG n) 1
def State.belPrio (s : State) (n : Nat) : Nat := s.field (R.BEL_SRC_CFG n) 2 4
def State.belTargets (s : State) (n k : Nat) : Bool := s.regBit (R.BEL_SRC_CFG n) (6 + k)

/-- Eligible curators of source n, ascending. -/
def State.belEligible (s : State) (n : Nat) : List Nat :=
  (List.range 4).filter (fun k => s.belTargets n k && !s.belMasked k && decide (s.belLevel k < s.belSize k))

/-- Source a goes before source b. -/
def State.belBefore (s : State) (a b : Nat) : Bool :=
  if s.belFast a != s.belFast b then s.belFast a
  else if s.belPrio a ≠ s.belPrio b then decide (s.belPrio b < s.belPrio a)
  else decide (a < b)

/-- The source to route. -/
def State.belPick (s : State) : Option Nat :=
  ((s.bel.srcs.filter (fun p => p.2.phase == .pending && s.belEn p.1 && !(s.belEligible p.1).isEmpty)).map (·.1)).foldl
    (fun best n =>
      match best with
      | none => some n
      | some b => if s.belBefore n b then some n else some b) none

/-- Rank of a curator, one more than the manual's. -/
def State.belRank (s : State) (k : Nat) : Nat := if s.bel.asleep.getLsbD k then 0 else 1 + s.field (R.BEL_CUR_PRIO k) 0 4

/-- The curator of lowest rank; on a tie, the first upward from the one chosen last. -/
def State.belChoose (s : State) (ks : List Nat) : Nat :=
  let order := ((List.range 4).map (fun i => (s.bel.last + 1 + i) % 4)).filter (fun k => ks.contains k)
  (order.foldl (fun (best : Option Nat) k =>
    match best with
    | none => some k
    | some b => if s.belRank k < s.belRank b then some k else some b) none).getD 0

/-- The two words of a record (Table 15-3). -/
def State.belRecord (s : State) (n : Nat) (x : BelSrc) : List Word :=
  [BitVec.ofNat 64 (n + b2n (s.belFast n) * 2 ^ 11 + b2n (belIsStatus n) * 2 ^ 12 + b2n x.sat * 2 ^ 13 + b2n x.soft * 2 ^ 14
    + b2n x.firstHo * 2 ^ 15 + s.belPrio n * 2 ^ 16 + (if belIsStatus n then 1 else x.count) * 2 ^ 20), x.first]

/-- One record is written: the source is ACTIVE. -/
def State.belRoute (s : State) : State :=
  match s.belPick with
  | none => s
  | some n =>
    let k := s.belChoose (s.belEligible n)
    let x := s.belSrc n
    let tail := s.field (R.BEL_Q_TAIL k) 0 16
    let s := s.curWrite (s.belAddr k tail) (bytesOfWords (s.belRecord n x))
    let s := (s.setReg (R.BEL_Q_TAIL k) (BitVec.ofNat 64 ((tail + 1) % 65536))).countWrap R.BEL_STATUS 32 32 1
    let s := s.setBelSrc n { x with phase := .active, count := 0, sat := false, soft := false, curator := k }
    ({ s with bel := { s.bel with last := k } }.belWake).belTake k

/-- BELL_ROUTE (R407). -/
def execBellRoute (s : State) : Out := .next (if s.alive then s.belRoute else s)

/-! ## Completions, HEAD writes and curators (R405, R408 to R410) -/

/-- A write of BEL_COMPLETE (Table 15-2). -/
def State.belComplete (s : State) (n : Nat) : State :=
  let x := s.belSrc n
  if x.phase ≠ .active then s.countSat R.BEL_STATUS 0 16 1
  else if belIsStatus n then
    if s.belLevelOf n then (s.setBelSrc n { x with phase := .pending, first := s.now, firstHo := s.holdover }).belWake
    else s.setBelSrc n BelSrc.rest
  else if 0 < x.count then (s.setBelSrc n { x with phase := .pending }).belWake
  else s.setBelSrc n BelSrc.rest

/-- BEL_COMPLETE (R405). -/
def execBelComplete (n : BitVec 11) (s : State) : Out := .next (if s.alive then s.belComplete n.toNat else s)

/-- A HEAD write (R408): one that would make the level exceed the size, or pass TAIL, has no effect. -/
def State.belHead (s : State) (k : Nat) (v : Word) : State :=
  if s.belSize k < (s.field (R.BEL_Q_TAIL k) 0 16 + (65536 - fld v 0 16)) % 65536 then s else s.setReg (R.BEL_Q_HEAD k) (v &&& 0xFFFF)

/-- BEL_Q_HEAD_WRITE (R408). -/
def execBelQHeadWrite (k : BitVec 2) (v : Word) (s : State) : Out := .next (if s.alive then s.belHead k.toNat v else s)

/-- Curator k has run code on its bank in use, whose registers it leaves with values the manual does not give (R36). -/
def State.curatorRan (s : State) (k : Nat) : State :=
  let bank := 64 * k + 32 * b2n (s.bel.alt.getLsbD k)
  { s with bel := { s.bel with
      ran := s.bel.ran + 1
      banks := (List.range 31).foldl (fun t i => Tab.put t (bank + 1 + i) (Config.curatorReg s.bel.ran i) 0) s.bel.banks } }

/-- WAIT_FOR_INTERRUPT (R410): the curator is asleep, and wakes at once where something waits for it. -/
def execWaitForInterrupt (k : BitVec 2) (s : State) : Out :=
  .next (
    if s.alive then
      let s := s.curatorRan k.toNat
      ({ s with bel := { s.bel with asleep := s.bel.asleep ||| (1#4 <<< k.toNat) } }).belWake
    else s)

/-- NORMAL_BANK_RETURN (R409): a fast record that waits is taken. -/
def execNormalBankReturn (k : BitVec 2) (s : State) : Out :=
  .next (
    if s.alive then
      let s := s.curatorRan k.toNat
      ({ s with bel := { s.bel with alt := s.bel.alt &&& ~~~ (1#4 <<< k.toNat) } }).belTake k.toNat
    else s)

end Sys2Proof.Machine
end

