-- ==== Sys2Proof/Machine/Settings.lean ====
section
/-! DEFINITION. Writing the settings store: staging, COMMIT, LOAD, the calibration unlock, and the end of a command (R98 to R103). -/

namespace Sys2Proof.Machine

/-- Byte i of the staging area (R99), whose words are registers. -/
def State.stagingByte (s : State) (i : Nat) : Byte := BitVec.ofNat 8 (fld (s.reg (R.STAGING (i / 8))) (8 * (i % 8)) 8)

/-- A sparse byte table of the first n bytes of a function. -/
def tabOf (n : Nat) (f : Nat → Byte) : Tab Byte :=
  ((List.range n).map (fun i => (i, f i))).filter (fun p => p.2 != 0)

/-- A section of the store. -/
def Settings.sect (x : Settings) (cal : Bool) : Section := if cal then x.cal else x.cfg
def Settings.setSect (x : Settings) (cal : Bool) (v : Section) : Settings := if cal then { x with cal := v } else { x with cfg := v }

/-- Byte i of a section as the store window shows it: 32,764 bytes, then the check word (Table 3-3). -/
def Section.byte (x : Section) (i : Nat) : Byte :=
  if i < 32764 then Tab.getD x.bytes i 0 else BitVec.ofNat 8 (x.check.toNat / 256 ^ (i - 32764) % 256)

/-- Word i of the store window (Table 3-7). -/
def State.storeWord (s : State) (i : Nat) : Word :=
  let x := s.ss.sect (decide (4096 ≤ i))
  wordOfBytes ((List.range 8).map (fun k => x.byte (8 * (i % 4096) + k)))

/-- CFG_SS_STATUS (Table 3-10). -/
def State.ssStatus (s : State) : Word :=
  BitVec.ofNat 64 (b2n s.ss.busy.isSome + s.ss.result.toNat * 2 + s.ss.cfg.commits % 1024 * 2 ^ 16 + s.ss.cal.commits % 1024 * 2 ^ 32)

/-- Why a commit is refused (Table 3-10): 1 busy, 2 calibration locked, 3 endurance reached. Where several hold, the first of these is
given (DESIGN CHOICE, notes/assumptions/75.md). -/
def State.commitRefusal (s : State) (cal : Bool) : Option Nat :=
  if s.ss.busy.isSome then some 1
  else if cal && !s.ss.unlocked then some 2
  else if 1000 ≤ (s.ss.sect cal).commits then some 3
  else none

/-- COMMIT of a section (R99, R100, R102, R103). -/
def State.ssCommit (s : State) (cal : Bool) : State :=
  match s.commitRefusal cal with
  | some r => { s with ss := { s.ss with result := BitVec.ofNat 3 r } }
  | none =>
    let x := s.ss.sect cal
    let ss := s.ss.setSect cal { x with commits := x.commits + 1 }
    { s with ss := { ss with
        busy := some ⟨true, cal, tabOf 32764 s.stagingByte⟩, unlocked := if cal then false else ss.unlocked } }

/-- LOAD of a section into the staging area (R99). -/
def State.ssLoad (s : State) (cal : Bool) : State :=
  if s.ss.busy.isSome then { s with ss := { s.ss with result := 1 } }
  else { s with ss := { s.ss with busy := some ⟨false, cal, []⟩ } }

/-- A write of CFG_SS_UNLOCK (R103). -/
def State.ssUnlock (s : State) (v : Word) : State :=
  { s with ss := { s.ss with unlocked := fld v 0 16 == 0xCA1B } }

/-- COMMIT (R99). -/
def execCommit (section_ : Bool) (s : State) : Out := .next (if s.alive then s.ssCommit section_ else s)

/-- LOAD (R99). -/
def execLoad (section_ : Bool) (s : State) : Out := .next (if s.alive then s.ssLoad section_ else s)

/-- CFG_SS_UNLOCK (R103). -/
def execCfgSsUnlock (v : Word) (s : State) : Out := .next (if s.alive then s.ssUnlock v else s)

/-- The command in progress ends: a section is programmed and read back, or loaded (R99, R100). RESULT is then its result, also where a
command refused meanwhile had left 1 (DESIGN CHOICE, notes/assumptions/75.md). -/
def State.ssEnd (s : State) (verified : Bool) : State :=
  match s.ss.busy with
  | none => s
  | some c =>
    if c.commit then
      let x := s.ss.sect c.cal
      let x' := { x with bytes := c.bytes, check := BitVec.ofNat 32 (crc32c (sectionBytes c.bytes)), broken := !verified }
      { s with ss := { s.ss.setSect c.cal x' with busy := none, result := if verified then 0 else 4 } }
    else
      let x := s.ss.sect c.cal
      let s := (List.range 4096).foldl (fun s i =>
        s.setReg (R.STAGING i) (wordOfBytes ((List.range 8).map (fun k => x.byte (8 * i + k))))) s
      { s with ss := { s.ss with busy := none, result := 0 } }

/-- SS_COMMAND_END (R99): the always-on domain completes the command, in reset too (R100). -/
def execSsCommandEnd (verified : Bool) (s : State) : Out := 
  .next (
    if s.pins.life == .off then s
    else if s.alive && s.ss.busy.isSome then (s.ssEnd verified).bell 1104
    else s.ssEnd verified)

/-- A commit cut off by PWROK (R100): each byte is old or new, which is left free, and the section fails its check. -/
def State.ssCut (s : State) : State :=
  match s.ss.busy with
  | none => s
  | some c =>
    if c.commit then
      let x := s.ss.sect c.cal
      let pick := fun i => if (Config.freeValue (s.freeCtr + i)).getLsbD 0 then Tab.getD c.bytes i 0 else Tab.getD x.bytes i 0
      let x' := { x with bytes := tabOf 32764 pick, check := (Config.freeValue (s.freeCtr + 32764)).setWidth 32, broken := true }
      { s with freeCtr := s.freeCtr + 32765, ss := { s.ss.setSect c.cal x' with busy := none } }
    else { s with ss := { s.ss with busy := none } }

end Sys2Proof.Machine
end

