-- ==== Sys2Proof/Machine/Ledger.lean ====
section
/-! DEFINITION. The Ledger: records, buffer and log (R412 to R414), severities and their effects (R417 to R420), block resets by key, the
out-of-service latch (R429), and the watchdog (R422, R423). -/

namespace Sys2Proof.Machine

/-! ## Records and the log (R412, R413) -/

/-- INFO of a record (R412, R466): the kinds STAMP_SPLIT, HBM_TEMP and NEAR_CAPACITY_SHRUNK have a detail word (R124, R330, R353), but no row
that gives its bits, and so INFO zero (notes/assumptions/69.md). -/
def msgInfoBits (m : LMsg) : Nat := if m.code = 0x5010 ∨ m.code = 0x1071 ∨ m.code = 0x4031 then 0 else m.info.toNat % 2 ^ 32

/-- The four words of a record (Table 16-1). -/
def ledgerRecord (m : LMsg) (first : Bool) (severity : Nat) : List Word :=
  [BitVec.ofNat 64 (m.source.toNat + m.kind.toNat * 2 ^ 10 + m.carrel.toNat * 2 ^ 16 + b2n m.holdover * 2 ^ 26 + b2n first * 2 ^ 27
     + severity * 2 ^ 28 + m.code.toNat * 2 ^ 32),
   m.stamp, m.addr, BitVec.ofNat 64 (m.tag.toNat + msgInfoBits m * 2 ^ 32)]

/-- Records the log holds. -/
def State.logSize (s : State) : Nat := 2 ^ s.field R.LDG_LOG_CTL 0 4

/-- A record is written at TAIL: to the manager's host memory, or to the near tier, where bytes that are gone or failing lose it. -/
def State.logPut (s : State) (ws : List Word) : State :=
  let n := s.field R.LDG_LOG_TAIL 0 32
  let a := s.logAddr n
  let bs := bytesOfWords ws
  let near := !s.regBit R.LDG_LOG_BASE 0
  if near && (!s.nearBacked a 32 || (List.range 32).any (fun i => (s.byteStatus (a + i)).isSome)) then s.countSat R.LDG_STATUS 32 12 1
  else
    let s := if near then { s with mem := Memory.writeN s.mem a bs } else s.hostWrite 0 a bs
    let s := (s.setReg R.LDG_LOG_TAIL (BitVec.ofNat 64 ((n + 1) % 2 ^ 32))).countWrap R.LDG_STATUS 0 32 1
    let s := { s with ldg := { s.ldg with records := s.ldg.records ++ [ws] } }
    if 2 ≤ recordSeverity ws then s.bell 1098 else s

/-- Buffered records enter the log while it is in use and has room, by fuel. -/
def State.logDrainN : Nat → State → State
  | 0, s => s
  | n + 1, s =>
    match s.ldg.buffer with
    | [] => s
    | ws :: rest =>
      if !s.regBit R.LDG_LOG_CTL 4 || decide (s.logSize ≤ s.logLevel) then s
      else State.logDrainN n ({ s with ldg := { s.ldg with buffer := rest } }.logPut ws)

/-- The buffer drains; once room has returned after losses, LOG_FULL is recorded with their number. -/
def State.logDrain (s : State) : State :=
  let s := s.logDrainN s.ldg.buffer.length
  if s.ldg.lost = 0 ∨ 64 ≤ s.ldg.buffer.length then s
  else { s with ldg := { s.ldg with lost := 0 } }.log 10 K.logFull 0 0 0 (min (2 ^ 32 - 1) s.ldg.lost)

/-- A record enters the buffer of 64, or is lost where buffer and log are full. -/
def State.logRecord (s : State) (ws : List Word) : State :=
  let s := s.logDrainN s.ldg.buffer.length
  if s.ldg.buffer.length < 64 then { s with ldg := { s.ldg with buffer := s.ldg.buffer ++ [ws] } }.logDrain
  else { s.countSat R.LDG_STATUS 32 12 1 with ldg := { s.ldg with lost := s.ldg.lost + 1 } }

/-- A record copied to LDG_KEEP, at the slot KEEP_NEXT names. -/
def State.keep (s : State) (ws : List Word) : State :=
  let k := s.field R.LDG_STATUS 56 4
  ((List.range 4).foldl (fun s w => s.setReg (R.LDG_KEEP (4 * k + w)) (wordAt ws w)) s).setField R.LDG_STATUS 56 4 (k + 1)

/-! ## Acceptance (R413, R417 to R420) -/

/-- Effects of severity 3 (Table 16-4). -/
def State.carrelFatal (s : State) (m : LMsg) : State :=
  let c := m.carrel.toNat
  if !s.carrelExists c then s
  else if s.regBit R.LDG_CTL 0 then s.blockReset m.source.toNat m.kind.toNat true
  else s.carrelReset c (s.regBit R.CRL_CTL 11)

/-- Effects of severity 2 and above. -/
def State.notifyRecord (s : State) (ws : List Word) : State :=
  let s := s.keep ws
  if s.regBit R.LDG_CTL 1 then s.mgrNotify else s

/-- A message accepted: counter, first-error bit, record, and what its severity brings. -/
def State.accept (s : State) (m : LMsg) : State :=
  let src := m.source.toNat
  let sev := s.severity src m.code.toNat
  if sev = 0 then s
  else
    let first := !s.regBit (R.LDG_FIRST (src / 64)) (src % 64)
    let s := s.ldgCount src
    if m.code = 0x1070 then s
    else
      let ws := ledgerRecord m first sev
      let s := s.logRecord ws
      let s := if 2 ≤ sev then s.notifyRecord ws else s
      if sev = 3 then s.carrelFatal m
      else if sev = 4 then s.blockReset src m.kind.toNat true
      else s

/-- Codes a source sends, by kind index (Table 16-3). -/
def ledgerKinds (src : Nat) : List Nat :=
  if src = 0 then [0x8010, 0x1010, 0x8011, 0x1011, 0x1012, 0x7010, 0x7011]
  else if src = 1 then [0x5010, 0x5011, 0x5012, 0x5013, 0x5014, 0x1030]
  else if src = 2 then [0x2020, 0x4010]
  else if src = 3 then [0x8001]
  else if src = 4 then [0x1040, 0x4020, 0x4021, 0x4022]
  else if src = 5 then [0x2030, 0x4030, 0x6010, 0x4031, 0x5020, 0x6011]
  else if src = 6 then [0x2040, 0x2041, 0x2042, 0x6020]
  else if src = 7 then [0x5030, 0x5031, 0x5003, 0x2050, 0x3020, 0x5032, 0x5033, 0x1050, 0x1051, 0x4040]
  else if src = 8 then [0x7020]
  else if src = 10 then [0x4070]
  else if src = 11 then [0x1100]
  else if src = 12 then [0x1110, 0x4080]
  else if src = 13 then [0x2000, 0x3010, 0x1020, 0x2010]
  else if src = 14 then [0x8020, 0x6030]
  else if 16 ≤ src ∧ src ≤ 21 then [0x1070, 0x6040, 0x6041, 0x4050, 0x4051, 0x1071]
  else if 22 ≤ src ∧ src ≤ 25 then [0x5040, 0x1080]
  else if 64 ≤ src ∧ src ≤ 127 then [0x4060, 0x1090, 0x1091, 0x8030, 0x6050]
  else if 128 ≤ src ∧ src ≤ 143 then [0, 0x1090, 0x1091, 0x8030]
  else if 144 ≤ src ∧ src ≤ 147 then [0x6060]
  else if 512 ≤ src then
    [0x3030, 0x3031, 0x3032, 0x3033, 0x3034, 0x2060, 0x3035, 0x10A0, 0x10A1, 0x10A2, 0x10A3, 0x10A4, 0x3036, 0x6003, 0x6004]
  else []

/-- A message is one its source sends: a kind of Table 16-3 under its code. -/
def messageNamed (m : LMsg) : Bool := m.code != 0 && (ledgerKinds m.source.toNat)[m.kind.toNat]? == some m.code.toNat

/-- LEDGER_MESSAGE: the oldest message that waits at a source is accepted; `natural` is a fault the source observes now that no other
command raises (a parity checker, a firmware fault). From the hush of a block reset to its end only source 0 is accepted (R419). -/
def State.ledgerMessage (s : State) (src : Nat) (natural : Option LMsg) : State :=
  let s := match natural with
    | some m => if m.source.toNat = src ∧ messageNamed m then s.send m else s
    | none => s
  if s.blockResetting && src != 0 then s
  else
    match Tab.getD s.ldg.waiting src [] with
    | [] => s
    | m :: rest => { s with ldg := { s.ldg with waiting := Tab.put s.ldg.waiting src rest [] } }.accept m

/-- LEDGER_MESSAGE (R413). -/
def execLedgerMessage (src : BitVec 10) (natural : Option LMsg) (s : State) : Out :=
  .next (if s.alive || s.pins.life == .failed then s.ledgerMessage src.toNat natural else s)

/-! ## The manager's writes (R413, R429, R431) -/

/-- A HEAD write moves forward, and not beyond TAIL. -/
def State.logHead (s : State) (v : Word) : State :=
  let left := (s.field R.LDG_LOG_TAIL 0 32 + (2 ^ 32 - fld v 0 32)) % 2 ^ 32
  if s.logLevel < left then s
  else
    let n := s.logLevel - left
    { s.setReg R.LDG_LOG_HEAD (v &&& 0xFFFFFFFF) with ldg := { s.ldg with records := s.ldg.records.drop n } }.logDrain

/-- LDG_LOG_HEAD (R413). -/
def execLdgLogHead (v : Word) (s : State) : Out := .next (if s.alive then s.logHead v else s)

/-- The log as the registers stand breaks its placement: in use in the near tier, but not in present near tier outside every extent. -/
def State.logMisplaced (s : State) : Bool :=
  s.logNear && (!s.nearBacked s.logRange.1 s.logRange.2
    || (List.range 1024).any (fun c => (List.range 6).any (fun k =>
      (s.extent c k).2 != 0 && overlaps s.logRange.1 s.logRange.2 (s.extent c k).1 (s.extent c k).2)))

/-- A write of LDG_LOG_CTL or LDG_LOG_BASE. -/
def State.logConfig (s : State) (ctl : Bool) (v : Word) : State :=
  let s' := if ctl then s.setReg R.LDG_LOG_CTL (BitVec.ofNat 64 (max 8 (fld v 0 4) + b2n (bitAt v 4) * 16))
    else s.setReg R.LDG_LOG_BASE (v &&& 0xFFFFFFFFFFFFF001)
  if s'.logMisplaced then s else s'.logDrain

/-- LOG_CONFIG_WRITE (R413). -/
def execLogConfigWrite (ctl : Bool) (v : Word) (s : State) : Out := .next (if s.alive then s.logConfig ctl v else s)

/-- LDG_BLOCK_RESET (R431): a manager block reset is not counted (R428). -/
def State.managerReset (s : State) (v : Word) : State := if fld v 0 16 = 0xB10C then s.blockReset 0 0 false else s

/-- LDG_BLOCK_RESET. -/
def execLdgBlockReset (v : Word) (s : State) : Out := .next (if s.alive then s.managerReset v else s)

/-- LDG_OOS_CLEAR (R429). -/
def State.oosClear (s : State) (v : Word) : State :=
  if fld v 0 16 = 0x0C1E && s.ldg.oos && s.ldg.cycled then { s with ldg := { s.ldg with oos := false, cycled := false, history := [] } }
  else s

/-- LDG_OOS_CLEAR. -/
def execLdgOosClear (v : Word) (s : State) : Out := .next (if s.alive then s.oosClear v else s)

/-! ## The watchdog (R422, R423) -/

/-- The watchdog's 100 ms in fc. -/
def watchdogFc : Nat := 100000 * fcPerUs

/-- A curator's bit of LDG_HEARTBEAT: with all four seen the watchdog restarts. -/
def State.heartbeat (s : State) (v : Word) : State :=
  if !s.ldg.wdArmed then s
  else
    let seen := s.ldg.wdSeen ||| v.setWidth 4
    if seen = 15 then { s with ldg := { s.ldg with wdSeen := 0, wdLeft := watchdogFc } }
    else { s with ldg := { s.ldg with wdSeen := seen } }

/-- LDG_HEARTBEAT (R422). -/
def execLdgHeartbeat (v : Word) (s : State) : Out := .next (if s.alive then s.heartbeat v else s)

/-- The watchdog expires: ALERT_CAUSE bit 3, the record with the missing bits, and its block reset. -/
def State.watchdogExpire (s : State) : State :=
  let s := s.advance s.ldg.wdLeft
  let missing := 15 - s.ldg.wdSeen.toNat
  let s := { s.alert 3 with ldg := { s.ldg with wdExpiries := min 65535 (s.ldg.wdExpiries + 1), wdSeen := 0, wdLeft := watchdogFc } }
  s.accept { source := 0, kind := 2, code := 0x8011, carrel := 0, holdover := s.holdover, stamp := s.now, addr := 0, tag := 0
             info := BitVec.ofNat 64 missing }

/-- WATCHDOG_EXPIRED (R422); the watchdog is paused while a hush holds the die. -/
def execWatchdogExpired (s : State) : Out := .next (if s.alive && s.ldg.wdArmed && !s.hushed then s.watchdogExpire else s)

/-! ## The reference clock (R56) -/

/-- REFCLK_LOST: ALERT_CAUSE bit 4, and a record of severity 4 in any life in which the Ledger runs. -/
def execRefclkLost (s : State) : Out :=
  .next (
    if s.pins.life == .off || !s.pins.refclk then s
    else
      let s := { s with pins := { s.pins with refclk := false } }.alert 4
      if s.alive || s.pins.life == .failed then s.log 0 K.refclkLost else s)

/-- REFCLK_RESTORED: what waits for the clock in phase 0x1 goes on (R56, R425). -/
def execRefclkRestored (s : State) : Out :=
  .next (if s.pins.life == .off then s else { s with pins := { s.pins with refclk := true } })

end Sys2Proof.Machine
end

