-- ==== Sys2Proof/Machine/Observe.lean ====
section
/-! DEFINITION. The Observation unit: release of a hush (R445, R446), scan-out (R447, R448), engine counters (R455), the wait-for graph
(R457) and the online self-test (R458). Hushes begin at State.startHush (R443). -/

namespace Sys2Proof.Machine

/-! ## Hush (R443 to R446) -/

/-- A running pass whose deadline moves n fc later. -/
def Shelf.deadlineLater (n : Nat) (x : Shelf) : Shelf := { x with run := x.run.map (fun r => { r with deadline := r.deadline + n }) }

/-- A channel whose packets were sent n fc later. -/
def Chan.later (n : Nat) (c : Chan) : Chan :=
  { c with unacked := c.unacked.map (fun y => { y with first := y.first + n, last := y.last + n })
           since := c.since + n, ackedAt := c.ackedAt + n, resentAt := c.resentAt.map (fun t => t + n) }

/-- Time stood still for the endpoint's timers and the running passes' deadlines while the die was hushed (R445). -/
def State.shiftTimers (s : State) (n : Nat) : State :=
  let shelves : Tab Shelf := s.shelves.map (fun p => (p.1, p.2.deadlineLater n))
  let reqs : Tab Req := s.iln.reqs.map (fun p => (p.1, { p.2 with made := p.2.made + n, sent := p.2.sent.map (fun t => t + n) }))
  let peers : Tab Peer := s.iln.peers.map (fun p => (p.1, { p.2 with chans := p.2.chans.map (Chan.later n), syncAt := p.2.syncAt + n }))
  { s with shelves := shelves, iln := { s.iln with reqs := reqs, peers := peers } }

/-- A hush ends: refused while a scan-out runs, without effect on the hush of a block reset, whose cause may have joined an earlier
one (R443, R446). The Shelver resumes after the next stamp. -/
def State.releaseHush (s : State) : State :=
  if !s.hushed || s.obs.scan || s.blockResetting || s.field R.OBS_HUSH_STATUS 2 3 == 4 then s
  else
    let s := (s.shiftTimers s.obs.hushFc).setReg R.OBS_HUSH_STATUS 0
    ({ s with obs := { s.obs with hushFc := 0, resuming := true } }.event R.OBS_EVENT 1).settle

/-- HUSH (R443). -/
def execHush (s : State) : Out := .next (if s.inService then s.startHush 1 else s)

/-- HUSH_RELEASE (R446). -/
def execHushRelease (s : State) : Out := .next (if s.inService then s.releaseHush else s)

/-! ## Scan-out (R447, R448) -/

/-- A segment header (Table 18-2). -/
def State.scanHeader (s : State) (r content len layout : Nat) : List Byte :=
  bytesOfWords [BitVec.ofNat 64 (r + content * 2 ^ 8 + len * 2 ^ 32), s.reg R.OBS_HUSH_WHEN, BitVec.ofNat 64 layout, 0, 0, 0, 0, 0]

/-- n bytes of internal state whose order the block revision keeps to itself: free values (notes/assumptions/3.md). -/
def State.logicBytes (s : State) (n : Nat) : State × List Byte :=
  ({ s with freeCtr := s.freeCtr + n / 8 },
   (List.range (n / 8)).flatMap (fun i => leBytes 8 (Config.freeValue (s.freeCtr + i)).toNat))

/-- n bytes of a store from local address a; a word with an uncorrectable error reads as all ones. -/
def State.scanBytes (s : State) (a n : Nat) : List Byte :=
  (List.range (n / 8)).flatMap (fun i => if s.eccAt (a + 8 * i) = 2 then List.replicate 8 0xFF else Memory.readN s.mem (a + 8 * i) 8)

/-- The segments of one range: logic, shelf store, folio memory. -/
def State.scanRange (s : State) (r : Nat) : State × List Byte :=
  let shs := (List.range 64).map (fun i => 64 * r + i)
  let l := if s.regBit R.OBS_SCAN_CTL 0 then
      let q := s.logicBytes 0x400000
      (q.1, s.scanHeader r 0 0x400000 1 ++ q.2)
    else (s, [])
  let st := if s.regBit R.OBS_SCAN_CTL 1 then
      s.scanHeader r 1 0x2000000 0 ++ shs.flatMap (fun sh => s.scanBytes (storeAddr sh 0) 0x80000)
        ++ s.scanHeader r 2 0x1000000 0 ++ shs.flatMap (fun sh => s.scanBytes (folioAddr sh 0) 0x40000)
    else []
  (l.1, l.2 ++ st)

/-- The image: the segments of the ranges named, ascending; fused-off ranges are not scanned. -/
def State.scanImage (s : State) : List Nat → State × List Byte
  | [] => (s, [])
  | r :: rs =>
    match s.scanRange r with
    | (s, bs) =>
      match State.scanImage s rs with
      | (s, bs') => (s, bs ++ bs')

/-- Ranges a scan names. -/
def State.scanRanges (s : State) : List Nat := (bitList 64 (s.reg R.OBS_SCAN_RANGES).toNat).filter s.rangeEnabled

/-- OBS_SCAN_CTL.START. -/
def State.scanStart (s : State) : State :=
  if s.hushed && !s.obs.scan then { s.setReg R.OBS_SCAN_STATUS 1 with obs := { s.obs with scan := true } } else s

/-- SCAN_START (R447). -/
def execScanStart (s : State) : Out := .next (if s.inService then s.scanStart else s)

/-- The image goes to the near tier as curator traffic, or to the manager's host memory; the answer is its size in 4 KiB units. -/
def State.scanWrite (s : State) (bs : List Byte) : State × Nat :=
  let a := 4096 * s.field R.OBS_SCAN_BASE 12 52
  if s.regBit R.OBS_SCAN_BASE 0 then (s.hostWrite 0 a bs, ceilDiv bs.length 4096)
  else
    match s.writeFor 0 a bs with
    | (s, none) => (s, ceilDiv bs.length 4096)
    | (s, some _) => (s, 0)

/-- SCAN_DONE: the image has been written; a block reset that waited for it goes on (R425). -/
def State.scanDone (s : State) : State :=
  if !s.obs.scan then s
  else
    match s.scanImage s.scanRanges with
    | (s, bs) =>
      match s.scanWrite bs with
      | (s, n) =>
        let s := { s.setReg R.OBS_SCAN_STATUS (BitVec.ofNat 64 (2 + n * 2 ^ 16)) with obs := { s.obs with scan := false } }
        if s.blockResetting then s.blockResetGo else s

/-- SCAN_DONE (R447). -/
def execScanDone (s : State) : Out := .next (if s.alive then s.scanDone else s)

/-! ## Counters (R455) -/

/-- CNT_CLEAR. -/
def State.cntClear (s : State) : State := { s with obs := { s.obs with counters := [], ccs := [] } }

/-- CNT_CLEAR (R455). -/
def execCntClear (s : State) : Out := .next (if s.inService then s.cntClear else s)

/-- Counter i of a shelf: its BUSY and STALL counts, and IDLE, which makes up 256 core-cc a cc. -/
def State.counter (s : State) (sh i : Nat) : Nat :=
  let c := Tab.getD s.obs.counters sh (List.replicate 30 0)
  let at_ := fun (i : Nat) => c.getD i 0 / 1280
  if i % 10 = 1 then
    256 * (Tab.getD s.obs.ccs (sh / 64) 0 / 1280) - listSum (((List.range 10).filter (fun k => k != 1)).map (fun k => at_ (i / 10 * 10 + k)))
  else at_ i

/-- A write of OBS_CNT_SEL latches the shelf's counters. -/
def State.cntSel (s : State) (v : Word) : State :=
  let sh := fld v 0 12
  let s := s.setReg R.OBS_CNT_SEL (v &&& 0xFFF)
  (List.range 30).foldl (fun s i => s.setReg (R.OBS_CNT i) (BitVec.ofNat 64 (s.counter sh i))) s

/-- CNT_SEL (R455). -/
def execCntSel (v : Word) (s : State) : Out := .next (if s.inService then s.cntSel v else s)

/-! ## Wait-for graph (R457) -/

/-- A node of the graph. -/
inductive WfgNode where
  | slip (id : Nat)
  | stream (sh j e : Nat)
  | ring (k : Nat)
  | peer (n : Nat)
  deriving DecidableEq, Repr

/-- An edge: its nodes (no TO for a missing writer), KIND, WAIT_VALUE and the tally's value. -/
structure WfgEdge where
  src  : WfgNode
  dst  : Option WfgNode
  kind : Nat
  wait : Nat
  val  : Nat
  deriving DecidableEq, Repr

/-- The graph is of one carrel, or of every carrel for 0. -/
def wfgOf (c carrel : Nat) : Bool := c == 0 || carrel == c

/-- Shelves running a pass of the graph, with the pass. -/
def State.wfgRuns (s : State) (c : Nat) : List (Nat × Running) :=
  s.shelves.filterMap (fun p => (p.2.run.filter (fun r => wfgOf c r.e.carrel)).map (fun r => (p.1, r)))

/-- Running streams of a pass: core and engine. -/
def Running.streams (r : Running) : List (Nat × Nat) :=
  (List.range 256).flatMap (fun j => [0, 1, 2].filterMap (fun e => if ((r.core j).stream e).finished then none else some (j, e)))

/-- The nodes: resident slips, running streams, enabled rings, peers. -/
def State.wfgNodes (s : State) (c : Nat) : List WfgNode :=
  (s.cat.slips.filter (fun p => wfgOf c p.2.carrel)).map (fun p => .slip p.1)
    ++ (s.wfgRuns c).flatMap (fun p => p.2.streams.map (fun q => .stream p.1 q.1 q.2))
    ++ (s.ringsOn.filter (fun k => wfgOf c (s.ringCarrel k))).map .ring
    ++ (Tab.keys s.iln.peers).map .peer

/-- A node's record: what it holds, in a layout the manual does not give. -/
def State.wfgNodeBytes (s : State) (n : WfgNode) : List Byte :=
  let w := match n with
    | .slip id => match s.slip id with
      | some x => Config.wfgNode 0 [x.tag, x.st.code, x.carrel]
      | none => 0
    | .stream sh j e => let x := s.streamOf sh j e; Config.wfgNode 1 [sh, j, e, x.ptr, x.reason]
    | .ring k => Config.wfgNode 2 [k]
    | .peer n => Config.wfgNode 3 [n]
  leBytes 16 w.toNat

/-- Folios of a ring from a slot to its end, by fuel. -/
def State.ringFolios (s : State) (sh : Nat) : Nat → Nat → List Folio
  | 0, _ => []
  | n + 1, i =>
    let x : Folio := ⟨i, s.folioSlot sh i⟩
    x :: (if x.end_ then [] else State.ringFolios s sh n (i + 1))

/-- Folios whose effects a stream has still to fire: those taken from it, and those that remain in its ring. -/
def State.remaining (s : State) (sh : Nat) (r : Running) (j e : Nat) : List Folio :=
  let x := (r.core j).stream e
  let taken := (x.execs.filter (fun y => y.phase != .done false && !y.fired)).map (fun y => Folio.mk y.slot y.words)
  if x.ended then taken
  else
    let here := s.ringFolios sh 1024 x.ptr
    let more := here.getLast?.any (fun f => f.end_ && decide (x.lap < f.again))
    taken ++ here ++ (if more then s.ringFolios sh 1024 (r.first e) else [])

/-- Completing folio f on core j of pass r on shelf sh increments tally t of core k of the pass on shelf dst. -/
def Folio.feeds (f : Folio) (sh : Nat) (r : Running) (j : Nat) (dst : Nat) (tgt : Running) (k t : Nat) : Bool :=
  (f.localInc != 0 && f.localTally == t && sh == dst && j == k)
    || (f.sigInc != 0 && f.sigTally == t && (
      (f.sigScope == 1 && sh == dst && f.sigCore == k)
      || (f.sigScope == 2 && sh == dst)
      || ((f.sigScope == 3 || f.sigScope == 4) && r.e.slip == tgt.e.slip && r.e.map[f.sigMember]? == some dst
          && r.e.gFirst + f.sigMember == tgt.e.pass && (f.sigScope == 4 || f.sigCore == k))))

/-- Streams that would still increment a tally. -/
def State.writers (s : State) (runs : List (Nat × Running)) (dst : Nat) (tgt : Running) (k t : Nat) : List WfgNode :=
  runs.flatMap (fun p => p.2.streams.filterMap (fun q =>
    if (s.remaining p.1 p.2 q.1 q.2).any (fun f => f.feeds p.1 p.2 q.1 dst tgt k t) then some (.stream p.1 q.1 q.2) else none))

/-- Edges of a stream whose head waits on a tally: one for each writer, or one that marks a missing writer. -/
def State.tallyEdges (s : State) (runs : List (Nat × Running)) (sh : Nat) (r : Running) (j e : Nat) : List WfgEdge :=
  let x := (r.core j).stream e
  let f : Folio := ⟨x.ptr, s.folioSlot sh x.ptr⟩
  let v := (r.core j).tallyAt f.waitTally
  if x.ended || x.ready || !f.waitEn || reached v f.waitValue then []
  else
    match s.writers runs sh r j f.waitTally with
    | [] => [⟨.stream sh j e, none, 2, f.waitValue, v⟩]
    | ws => ws.map (fun w => ⟨.stream sh j e, some w, 2, f.waitValue, v⟩)

/-- Edges of a stream to peer chips whose answers its folios wait for. -/
def State.peerEdges (s : State) (sh : Nat) (r : Running) (j e : Nat) : List WfgEdge :=
  ((((r.core j).stream e).execs.flatMap (·.reqs)).filterMap (fun i => (Tab.find? s.iln.reqs i).map (·.peer))).eraseDups.map
    (fun n => ⟨.stream sh j e, some (.peer n), 3, 0, 0⟩)

/-- Edges to rings: enqueues that wait for room or credit, and retired slips whose receipt ring is full. -/
def State.ringEdges (s : State) (c : Nat) : List WfgEdge :=
  (s.cir.waits.filter (fun w => wfgOf c w.carrel)).map (fun w => match w.who with
    | .slip id => ⟨.slip id, some (.ring w.ctx), 4, 0, 0⟩
    | .folio sh j => ⟨.stream sh j 2, some (.ring w.ctx), 4, 0, 0⟩)
  ++ (s.cir.due.filter (fun d => wfgOf c d.carrel)).filterMap (fun d =>
    match d.record, s.ringOf d.carrel true d.rring with
    | some id, some k => if s.receiptRoom k then none else some ⟨.slip id, some (.ring k), 4, 0, 0⟩
    | _, _ => none)

/-- The edges of R457's table. -/
def State.wfgEdges (s : State) (c : Nat) : List WfgEdge :=
  let runs := s.wfgRuns c
  (s.cat.slips.filter (fun p => wfgOf c p.2.carrel)).flatMap (fun p => p.2.waits.map (fun i => ⟨.slip p.1, some (.slip i), 0, 0, 0⟩))
    ++ runs.flatMap (fun p => p.2.streams.map (fun q => ⟨.slip p.2.e.slip, some (.stream p.1 q.1 q.2), 1, 0, 0⟩))
    ++ runs.flatMap (fun p => p.2.streams.flatMap (fun q => s.tallyEdges runs p.1 p.2 q.1 q.2 ++ s.peerEdges p.1 p.2 q.1 q.2))
    ++ s.ringEdges c

/-- An edge record. -/
def WfgEdge.bytes (x : WfgEdge) (ns : List WfgNode) : List Byte :=
  bytesOfWords [BitVec.ofNat 64 (ns.idxOf x.src + (x.dst.elim 0xFFFFFFFF (fun n => ns.idxOf n)) * 2 ^ 32),
    BitVec.ofNat 64 (x.kind + x.wait * 2 ^ 16 + x.val * 2 ^ 32)]

/-- The graph as it is written: bytes, nodes, edges, truncated. -/
def State.wfgImage (s : State) (w : Wfg) : List Byte × Nat × Nat × Bool :=
  let ns := s.wfgNodes w.carrel
  let es := s.wfgEdges w.carrel
  let room := (65536 * s.field R.OBS_WFG_ADDR 48 16 - 64) / 16
  let nn := min room ns.length
  let ne := min (room - nn) es.length
  let cut := decide (room < ns.length + es.length) || s.field R.OBS_WFG_ADDR 48 16 == 0
  let header := bytesOfWords [BitVec.ofNat 64 (nn + ne * 2 ^ 32), w.start, s.now, BitVec.ofNat 64 (b2n cut + b2n s.hushed * 2), 0, 0, 0, 0]
  ((if s.field R.OBS_WFG_ADDR 48 16 = 0 then [] else header) ++ (ns.take nn).flatMap s.wfgNodeBytes ++ (es.take ne).flatMap (fun e => e.bytes ns),
   nn, ne, cut)

/-- A write of OBS_WFG_CMD. -/
def State.wfgCmd (s : State) (v : Word) : State :=
  if s.obs.wfg.isSome then s.setField R.OBS_WFG_STATUS 1 2 3
  else
    let hush := bitAt v 10 && !s.hushed
    let start := s.now
    let s := if hush then s.startHush 5 else s
    { s.setReg R.OBS_WFG_STATUS 1 with obs := { s.obs with wfg := some ⟨fld v 0 10, hush, start⟩ } }

/-- WFG_CMD (R457). -/
def execWfgCmd (v : Word) (s : State) : Out := .next (if s.inService then s.wfgCmd v else s)

/-- The graph is written; a hush begun for it is released. -/
def State.wfgDone (s : State) : State :=
  match s.obs.wfg with
  | none => s
  | some w =>
    match s.wfgImage w with
    | (bs, nn, ne, cut) =>
      let s := (s.writeFor 0 (s.field R.OBS_WFG_ADDR 6 42 * 64) bs).1
      let s := s.setReg R.OBS_WFG_STATUS (BitVec.ofNat 64 ((if cut then 2 else 1) * 2 + nn % 2 ^ 21 * 2 ^ 3 + ne % 2 ^ 24 * 2 ^ 24))
      let s := { s with obs := { s.obs with wfg := none } }.event R.OBS_EVENT 16
      if w.hushed && s.field R.OBS_HUSH_STATUS 2 3 == 5 then s.releaseHush else s

/-- WFG_DONE (R457). -/
def execWfgDone (s : State) : Out := .next (if s.inService then s.wfgDone else s)

/-! ## Online self-test (R458) -/

/-- RESULT of a refused command: 3 INVALID, 2 BUSY. -/
def State.selftestRefusal (s : State) (r : Nat) : Option Nat :=
  if !s.rangeEnabled r || s.reg (R.CFG_SHELF_WITHDRAWN r) == 0xFFFFFFFFFFFFFFFF then some 3
  else if s.obs.selftest.isSome || !s.domainOn r || !s.domainOn (64 + r / 4)
      || s.shelves.any (fun p => p.1 / 64 == r && (p.2.owner != 0 || p.2.clearing)) then some 2
  else none

/-- OBS_SELFTEST_CMD: the range is drained for test. -/
def State.selftestCmd (s : State) (r : Nat) (full : Bool) : State :=
  match s.selftestRefusal r with
  | some k => s.setField R.OBS_SELFTEST_STATUS 1 2 k
  | none =>
    { s.setReg R.OBS_SELFTEST_STATUS (BitVec.ofNat 64 (1 + r * 8)) with obs := { s.obs with selftest := some ⟨r, full⟩ } }

/-- ONLINE_SELFTEST_FULL (R458). -/
def execOnlineSelftestFull (r : BitVec 6) (s : State) : Out := .next (if s.inService then s.selftestCmd r.toNat true else s)

/-- ONLINE_SELFTEST_MEMORY (R458). -/
def execOnlineSelftestMemory (r : BitVec 6) (s : State) : Out := .next (if s.inService then s.selftestCmd r.toNat false else s)

/-- A test ends: failing shelves are withdrawn (R93), every shelf of the range is cleared, and FAILED counts the shelves that the test
withdrew. -/
def State.selftestDone (s : State) (failed : Word) : State :=
  match s.obs.selftest with
  | none => s
  | some t =>
    let all := (List.range 64).map (fun i => 64 * t.range + i)
    let good := all.filter (fun sh => !s.withdrawn sh)
    let s := { s with obs := { s.obs with selftest := none } }
    let s := s.withdraw (good.filter (fun sh => bitAt failed (sh % 64)))
    let s := all.foldl (fun s sh => s.zeroShelf sh) s
    (s.setReg R.OBS_SELFTEST_STATUS (BitVec.ofNat 64 (2 + t.range * 8 + (good.filter s.withdrawn).length * 2 ^ 9))).event R.OBS_EVENT 8

/-- SELFTEST_DONE (R458). -/
def execSelftestDone (failed : Word) (s : State) : Out := .next (if s.inService then s.selftestDone failed else s)

end Sys2Proof.Machine
end

