-- ==== Sys2Proof/Machine/Stamp.lean ====
section
/-! DEFINITION. The stamp: what falls at the end of a period in every unit (R130, R133 to R135, R159, R186, R345, R350, R375, R434 to R439,
R445). -/

namespace Sys2Proof.Machine

/-- Passes whose deadline the period's end has reached have overrun (R134). -/
def State.overrunsAt (s : State) (end_ : Nat) : State :=
  (s.shelves.filter (fun p => p.2.run.any (fun r => decide (r.deadline ≤ end_)))).foldl (fun s p => s.overrun p.1) s

/-- What is due before the period ends: deadlines, and no-progress events of the stamp before. -/
def State.stampDue (s : State) : State := (s.overrunsAt (s.stp.total + (s.stampFc - s.stp.t))).noProgressDue

/-- The Power unit's part: readings of the stacks, emergencies that end, a lower cap, the points of the new period (R113, R353, R435,
R439). -/
def State.stampPower (s : State) (sense : StampSense) : State :=
  let was := (List.range 64).filter s.throttled
  let s := ((s.stackTemps sense.stackTemps).endThrottle sense).capRerun
  { s with pwr := { s.pwr with fixed := false } }.applyPoints sense.railMv (was.filter (fun r => !s.throttled r))

/-- What begins at a stamp on a die that is not hushed: resets past their drain, queues, credits, evictions, retraining slots, a new epoch. -/
def State.stampWork (s : State) : State :=
  let s := { s with obs := { s.obs with resuming := false } }
  (((((((s.drainLimits).queuesForm).addCredits).quotaEviction).holdsGo).slotsBegin).epochFire).settle

/-- STAMP in each life: the datestamp runs while PWROK is high; a hush lets nothing start (R445). -/
def State.stampFall (s : State) (sense : StampSense) : State :=
  if s.pins.life == .off then s
  else if !s.alive then s.stampClock
  else if s.running then
    let s := (s.stampDue.stampClock).stallUpdate
    ((s.stampPower sense).bell 1105).stampWork
  else (s.stampClock.stampPower sense).bell 1105

/-- STAMP (R130). -/
def execStamp (sense : StampSense) (s : State) : Out := .next (s.stampFall sense)

end Sys2Proof.Machine
end

