-- ==== Sys2Proof/Machine/Boot.lean ====
section
/-! DEFINITION. Power, reset and boot: PWROK and RESET_N (R71, R72, R84), the straps (R62, R63), the phases of Table 3-1 (R82 to R93,
R96, R97), and the default state at entry to service (R106, R190, R325, R356, R402, R431). -/

namespace Sys2Proof.Machine

/-! ## PWROK and RESET_N (R71, R72, R84, R85) -/

/-- PWROK_RISE (R84): the reset life; the latch may be cleared from now on (R429). -/
def State.pwrokRise (s : State) : State :=
  if s.pins.life ≠ .off then s
  else
    let s := { s with pins := { s.pins with life := .reset }, ldg := { s.ldg with cycled := s.ldg.oos } }
    if s.ldg.oos then s.alert 2 else s

/-- PWROK_RISE. -/
def execPwrokRise (s : State) : Out := .next s.pwrokRise

/-- What PWROK low leaves (Table 16-6): the fuses, the settings store with a cut-off commit, the out-of-service latch, and the far tier, whose
devices lie outside the chiplet. -/
def State.pwrokFall (s : State) : State :=
  if s.pins.life = .off then s
  else
    let c := s.ssCut
    { State.reset with
      pending := s.pending, freeCtr := c.freeCtr, hostOut := s.hostOut
      rf := s.rf.filter (fun p => fused p.1)
      mem := Memory.dropOnDie s.mem
      ss := { c.ss with result := 0, unlocked := false, items := factoryConfig }
      iln := { Iln.reset with sent := s.iln.sent, answers := s.iln.answers }
      ldg := { Ldg.reset with oos := s.ldg.oos } }

/-- PWROK_FALL (R71). -/
def execPwrokFall (s : State) : Out := .next s.pwrokFall

/-- The instruction in the TAP as RESET_N moves: EXTEST, CLAMP and HIGHZ act while it is low and are BYPASS while it is high (R53). -/
def State.tapFollows (s : State) (low : Bool) : State :=
  { s with
    pins := { s.pins with driving := low && (s.tap.ir == 0x00 || s.tap.ir == 0x03), highz := low && s.tap.ir == 0x04 }
    tap := { s.tap with bypass := if s.tap.ir = 0x00 then !low else s.tap.bypass } }

/-- PIN_RESET (R72): the reset life; it takes over from a block reset (R427). -/
def State.pinReset (s : State) : State :=
  if s.pins.life = .off then s
  else
    let s := { s with boot := Boot.reset }.resetUnits
    { s with pins := { s.pins with life := .reset, resetN := false, sbLive := false } }.tapFollows true

/-- PIN_RESET. -/
def execPinReset (s : State) : Out := .next s.pinReset

/-- CFG_STRAP of the straps on SB0 to SB3 (Tables 2-6 and 2-8, R63). -/
def strapWord (straps : Nat) : Nat :=
  let m := straps / 4 % 4
  if m = 3 then straps % 4 + 16
  else if m = 2 ∧ straps % 2 = 0 then straps % 4 + 4 + 16
  else straps % 4 + m * 4

/-- RESET_N_DEASSERT (R72): the straps are sampled, the boot life begins with phase 0x1. A trip in the reset life ended that life (R69):
the pin is then high and no boot begins (DEDUCED, notes/assumptions/75.md). -/
def State.resetDeassert (s : State) (straps : Nat) : State :=
  if s.pins.life = .failed ∧ s.pins.resetN = false then { s with pins := { s.pins with resetN := true } }.tapFollows false
  else if s.pins.life ≠ .reset then s
  else
    let s := s.setReg R.CFG_STRAP (BitVec.ofNat 64 (strapWord straps))
    let s := s.tapFollows false
    let s := { s with
      pins := { s.pins with life := .boot, resetN := true }
      ss := { s.ss with unlocked := false }
      boot := { s.boot with pin := true }
      stp := { s.stp with state := if straps / 2 % 2 = 1 then 0 else 1 } }
    s.setPhase 1

/-- RESET_N_DEASSERT. -/
def execResetNDeassert (straps : BitVec 4) (s : State) : Out := .next (s.resetDeassert straps.toNat)

/-! ## Phase 0x1 (R96, R97) -/

/-- Registers that the Reset column loads from the settings store, and the domains that are on from the start of a boot (R432). -/
def State.loadItems (s : State) : State :=
  let s := s.setReg R.STP_PERIOD (BitVec.ofNat 64 (s.item 0x2 2))
  let s := s.setReg R.STP_CTL (BitVec.ofNat 64 (0x70000 + s.item 0x4 2))
  let s := s.setReg R.CFG_SMB_CTL (BitVec.ofNat 64 (s.item 0x9 1))
  let s := s.setReg R.ILN_CHIP (BitVec.ofNat 64 (s.item 0xA 2))
  let s := s.setReg R.ILN_EPOCH (BitVec.ofNat 64 (s.item 0xC 2 + s.item 0xC 2 * 65536))
  let s := s.setReg R.LDG_CTL (BitVec.ofNat 64 (s.item 0xF 1))
  let s := s.setReg R.PWR_CAP (BitVec.ofNat 64 (s.item 0x12 2))
  let s := (s.setField (R.PWR_DOMAIN_STATE 94) 0 2 1).setField (R.PWR_DOMAIN_STATE 95) 0 2 1
  { s with smb := { s.smb with active := BitVec.ofNat 64 (s.item 0x9 1) } }

/-- The Stamp unit starts with the period and the role in effect (R84). -/
def State.startStamps (s : State) : State :=
  { s with stp := { s.stp with
      running := true, len := s.periodFc, ctl := s.reg R.STP_CTL, delay := 0, offA := 0, offB := 0
      state := if s.regBit R.CFG_STRAP 1 then 0 else 1, lastEdge := none, misses := 0, periods := 0 } }

/-- The sections a boot uses (R101): those of the store after a RESET_N deassertion, the same as before after a block reset. -/
def State.takeSections (s : State) : State :=
  if s.boot.pin then { s with ss := { s.ss with cfgUse := s.ss.cfg, calUse := s.ss.cal }, boot := { s.boot with pin := false } } else s

/-- STORE: the sections are judged, the items taken. It waits for a commit in progress (R100) and for REFCLK (R425). A section whose last
commit was cut off or misread fails at the next boot of either kind (R100). -/
def State.storePhase (s : State) : State :=
  if s.pins.life ≠ .boot ∨ s.bootPhase ≠ 1 ∨ s.ss.busy.isSome ∨ !s.pins.refclk then s
  else
    let s := s.takeSections
    let cfgOk := s.ss.cfgUse.sound && !s.ss.cfg.broken && itemsAllowed s.ss.cfgUse.bytes
    let calOk := s.ss.calUse.sound && !s.ss.cal.broken && s.calOwn
    let items := if cfgOk then s.ss.cfgUse.bytes else factoryConfig
    let s := { s with ss := { s.ss with items := items }, boot := { s.boot with cfgLog := !cfgOk, calLog := !calOk } }
    let s := s.setReg R.CFG_STATUS
      (BitVec.ofNat 64 (b2n (!cfgOk) + b2n (!calOk) * 2 + b2n (!s.calOwn) * 4 + b2n (s.item 0x6 1 == 2) * 16))
    (s.loadItems.startStamps).setPhase 2

/-- STORE (R96). -/
def execStore (s : State) : Out := .next s.storePhase

/-! ## The image (R86 to R88) -/

/-- A byte of the curators' 256 KiB boot ROM (R36), which the deassertion of RESET_N and a block reset start (R72, R425). What its code does
are the phases of this file. -/
def bootRomByte (a : Nat) : Option Byte := if a < 0x40000 then some (Config.bootRom a) else none

/-- Fields of a header (Table 3-2). -/
def hdrRlen (h : List Word) : Nat := fld (wordAt h 1) 0 32
def hdrRcrc (h : List Word) : Nat := fld (wordAt h 2) 0 32
def hdrBcrc (h : List Word) : Nat := fld (wordAt h 2) 32 32
def hdrBlen (h : List Word) : Nat := (wordAt h 3).toNat

/-- The header passes R86. -/
def headerValid (h : List Word) : Bool :=
  fld (wordAt h 0) 0 32 == 0x4B315A48 && fld (wordAt h 0) 32 32 == 1
  && decide (4096 ≤ hdrRlen h) && decide (hdrRlen h ≤ 786432) && hdrRlen h % 64 == 0
  && decide (1 ≤ fld (wordAt h 1) 32 32) && decide (fld (wordAt h 1) 32 32 ≤ 50)
  && decide (hdrBlen h ≤ 0x4000000) && hdrBlen h % 64 == 0
  && decide (fld (wordAt h 5) 0 64 < hdrRlen h) && wordAt h 6 == 0
  && (wordAt h 7).toNat == crc32c (bytesOfWords ((List.range 7).map (wordAt h)))

/-- The secondary header in use: the one at 0x0080_0000, failing that the one at 0x0800_0000 (R87). -/
def secondaryHeader (h : HeaderRead) : Option (List Word) :=
  if headerValid h.sec8M then some h.sec8M else if headerValid h.sec128M then some h.sec128M else none

/-- Where that header lies. -/
def secondaryBase (h : HeaderRead) : Nat := if headerValid h.sec8M then 0x800000 else 0x8000000

/-- The read of a header at flash address a, at 12.5 MHz (R65). -/
def spiHeader (a : Nat) : SpiRead := ⟨if a < 0x1000000 then 0x03 else 0x13, a, 64, 12500⟩

/-- The reads of n bytes of an image at flash address a at the header's clock, split at 0x0100_0000 (R65). -/
def spiImage (h : List Word) (a n : Nat) : List SpiRead :=
  let kHz := 1000 * fld (wordAt h 1) 32 32
  if 0x1000000 ≤ a then [⟨0xBC, a, n, kHz⟩]
  else if a + n ≤ 0x1000000 then [⟨0xBB, a, n, kHz⟩]
  else [⟨0xBB, a, 0x1000000 - a, kHz⟩, ⟨0xBC, 0x1000000, n - (0x1000000 - a), kHz⟩]

/-- Read commands leave on the SPI pins. -/
def State.spiReads (s : State) (l : List SpiRead) : State := { s with boot := { s.boot with spi := s.boot.spi ++ l } }

/-- The headers of the secondary slot are read: the one at 0x0080_0000, and, where it is invalid, the one at 0x0800_0000 (R87). -/
def State.readSecondary (s : State) (h : HeaderRead) : State :=
  s.spiReads (spiHeader 0x800000 :: if headerValid h.sec8M then [] else [spiHeader 0x8000000])

/-- The resident part of the slot in use is read (R87). -/
def State.readResident (s : State) : State :=
  s.spiReads (spiImage s.boot.header (s.boot.slotAt + 0x40) (hdrRlen s.boot.header))

/-- The header found, in the slot at a flash address: the boot goes on with its resident part. -/
def State.headerFound (s : State) (h : List Word) (slot base : Nat) : State :=
  ({ s with boot := { s.boot with header := h, slotAt := base } }.setField R.CFG_BOOT_STATUS 12 1 slot).setPhase 3

/-- HEADER: from the flash, or from the boot window once the boot source has handed it over (R88). -/
def State.headerPhase (s : State) (h : HeaderRead) : State :=
  if s.pins.life ≠ .boot ∨ s.bootPhase ≠ 2 then s
  else if s.port0Boot then
    if !s.portUp 0 then s.bootFail 4
    else if !s.boot.go then s
    else
      let ws := Memory.readWords s.curMem 0 8
      if headerValid ws then s.headerFound ws 0 0 else s.bootFail 1
  else
    let s := s.spiReads [spiHeader 0]
    if headerValid h.primary then s.headerFound h.primary 0 0
    else
      let s := s.readSecondary h
      match secondaryHeader h with
      | some ws => s.headerFound ws 1 (secondaryBase h)
      | none => s.bootFail 1

/-- HEADER (R86). -/
def execHeader (h : HeaderRead) (s : State) : Out := .next (s.headerPhase h)

/-- The resident part that a header describes matches its RCRC. -/
def residentOk (h : List Word) (bs : List Byte) : Bool :=
  decide (hdrRlen h ≤ bs.length) && crc32c (bs.take (hdrRlen h)) == hdrRcrc h

/-- The resident part is in curator shared memory: firmware starts, the watchdog is armed, training and self-test begin (START, R82, R422). -/
def State.startFirmware (s : State) (bs : List Byte) : State :=
  let h := s.boot.header
  let s := (s.setReg R.CFG_FW_VERSION (wordAt h 4)).setPhase 5
  { s with
    curMem := Memory.writeN (Memory.writeN s.curMem 0 (bytesOfWords ((List.range 8).map (wordAt h)))) 0x40 (bs.take (hdrRlen h))
    boot := { s.boot with go := false }
    ldg := { s.ldg with wdArmed := true, wdSeen := 0, wdLeft := watchdogFc } }

/-- RESIDENT: a primary part that fails its CRC gives way to the secondary slot (R87). -/
def State.residentPhase (s : State) (r : ResidentRead) : State :=
  if s.pins.life ≠ .boot ∨ s.bootPhase ≠ 3 then s
  else
    let h := s.boot.header
    if s.port0Boot then
      let bs := Memory.readN s.curMem 0x40 (hdrRlen h)
      if residentOk h bs then s.startFirmware bs else s.bootFail 2
    else
      let s := s.readResident
      if s.regBit R.CFG_BOOT_STATUS 12 then
        if residentOk h r.secondary then s.startFirmware r.secondary else s.bootFail 2
      else if residentOk h r.primary then s.startFirmware r.primary
      else
        let s := s.readSecondary r.headers
        match secondaryHeader r.headers with
        | some ws =>
          let s := (s.headerFound ws 1 (secondaryBase r.headers)).readResident
          if residentOk ws r.secondary then s.startFirmware r.secondary else s.bootFail 2
        | none => s.bootFail 2

/-- RESIDENT (R87). -/
def execResident (r : ResidentRead) (s : State) : Out := .next (s.residentPhase r)

/-! ## Training and self-test (R91 to R93, R332) -/

/-- One CXL device's memory joins the far tier: base of the next, windows so far (R332). -/
def State.farWindow (st : State × Nat × Nat) (p : Nat) (bytes : Nat) : State × Nat × Nat :=
  let n := min (bytes / 0x200000) (0x200000 - st.2.1)
  if st.1.modeOf p = 2 && st.1.portUp p && n != 0 then
    (st.1.setReg (R.KPR_FAR_MAP st.2.2) (BitVec.ofNat 64 (st.2.1 + n * 2 ^ 32 + p * 2 ^ 54 + 2 ^ 56)), st.2.1 + n, st.2.2 + 1)
  else st

/-- The far tier: windows in ascending port number. -/
def State.farTier (s : State) (ports : List PortTrain) : State :=
  ((List.range 4).foldl (fun st p => State.farWindow st p ((ports.map (·.farBytes)).getD p 0)) (s, 0, 0)).1

/-- A stack or port with no training result: absent, no partner. -/
def noStack : StackTrain := ⟨false, 0, false, 0, 0⟩
def noPort : PortTrain := ⟨false, false, false, 0, false, 0, 0, 0⟩

/-- Phases 0x5 and 0x6 run together; 0x7 follows both (R82). -/
def State.afterTest (s : State) : State :=
  if s.boot.trained && s.boot.tested then s.setPhase 7 else if s.boot.trained then s.setPhase 6 else s

/-- TRAIN: stacks, then ports; port 0 unless it has trained for boot. -/
def State.trainPhase (s : State) (stks : List StackTrain) (ports : List PortTrain) : State :=
  if s.pins.life ≠ .boot ∨ s.bootPhase ≠ 5 ∨ s.boot.trained then s
  else
    let s := (List.range 6).foldl (fun s k => s.trainStack k (stks.getD k noStack)) s
    let s := (List.range 4).foldl (fun s p => if s.portUp p then s else s.trainPort p (ports.getD p noPort)) s
    let s := s.farTier ports
    let up := listSum (((List.range 6).filter s.stackUp).map (fun k => 2 ^ k))
    let pup := listSum (((List.range 4).filter s.portUp).map (fun p => 2 ^ p))
    let s := (s.setField R.CFG_BOOT_STATUS 32 6 up).setField R.CFG_BOOT_STATUS 38 4 pup
    let s := (s.setReg R.CFG_BOOT_BULK_BASE (BitVec.ofNat 64 s.fwBase))
    if up = 0 then s.bootFail 7 else { s with boot := { s.boot with trained := true } }.afterTest

/-- TRAIN (R91). -/
def execTrain (stks : List StackTrain) (ports : List PortTrain) (s : State) : Out := .next (s.trainPhase stks ports)

/-- Domains come on in the order of R42: quadrants, stacked SRAM, enabled ranges; with the latch set, or
while THERMTRIP_N is asserted, every range is held off (R429, R440). -/
def State.domainsUp (s : State) : State :=
  let s := ((List.range 4).map (90 + ·) ++ (List.range 16).map (64 + ·)).foldl (fun s d => s.setField (R.PWR_DOMAIN_STATE d) 0 2 1) s
  (List.range 64).foldl (fun s r =>
    if s.rangeEnabled r && !s.ldg.oos && !s.pins.thermTrip then (s.setReg (R.PWR_DOMAIN_STATE r) 1).throttleNew r
    else s.setReg (R.PWR_DOMAIN_STATE r) 4) s

/-- SELFTEST: failing shelves of enabled ranges are withdrawn, unless the level is NONE; stores and folio memories are clear. -/
def State.selftestPhase (s : State) (failed : List (Nat × Word)) : State :=
  if s.pins.life ≠ .boot ∨ !(s.bootPhase == 5 || s.bootPhase == 6) ∨ s.boot.tested then s
  else
    let s := s.domainsUp
    let bad := (failed.filter (fun p => decide (p.1 < 64) && s.rangeEnabled p.1)).flatMap (fun p => (bitList 64 p.2.toNat).map (fun i => 64 * p.1 + i))
    let s := if s.item 0x6 1 = 2 then s else s.withdraw bad
    { s with mem := Memory.clear s.mem storeBase (2 ^ 64), boot := { s.boot with tested := true } }.afterTest

/-- SELFTEST (R93). -/
def execSelftest (failed : List (Nat × Word)) (s : State) : Out := .next (s.selftestPhase failed)

/-! ## Bulk part and hand-over (R88, R89) -/

/-- The bulk part is read, from the first 4 KiB boundary after the resident part (R87). -/
def State.readBulk (s : State) : State :=
  let h := s.boot.header
  s.spiReads (spiImage h (ceilDiv (s.boot.slotAt + 0x40 + hdrRlen h) 0x1000 * 0x1000) (hdrBlen h))

/-- BULK: the bulk part lies in the firmware region and matches BCRC; a port 0 boot waits for its second CFG_BOOT_GO. -/
def State.bulkPhase (s : State) (part : List Byte) : State :=
  let n := hdrBlen s.boot.header
  if s.pins.life ≠ .boot ∨ s.bootPhase ≠ 7 ∨ (s.port0Boot && !s.boot.go) then s
  else
    let s := if s.port0Boot then s else
      let s := s.readBulk
      { s with mem := Memory.writeN s.mem s.fwBase (part.take n) }
    let bs := Memory.readN s.mem s.fwBase n
    if crc32c bs = hdrBcrc s.boot.header ∧ (s.port0Boot ∨ n ≤ part.length) then
      { s with boot := { s.boot with go := false } }.setPhase 8
    else s.bootFail 3

/-- BULK (R88). -/
def execBulk (part : List Byte) (s : State) : Out := .next (s.bulkPhase part)

/-- CFG_BOOT_GO: the boot source has written what the phase waits for. A write that comes before its phase is kept for it (DESIGN CHOICE,
notes/assumptions/75.md). -/
def State.bootGo (s : State) (v : Word) : State :=
  if s.pins.life == .boot && s.port0Boot && bitAt v 0 then { s with boot := { s.boot with go := true } } else s

/-- CFG_BOOT_GO (R88). -/
def execCfgBootGo (v : Word) (s : State) : Out := .next (s.bootGo v)

/-- A port 0 boot waits for CFG_BOOT_GO. -/
def State.waitsGo (s : State) : Bool := s.port0Boot && (s.bootPhase == 2 || s.bootPhase == 7) && !s.boot.go

/-- BOOT_TIME_LIMIT (R89): time spent waiting for CFG_BOOT_GO does not count. -/
def execBootTimeLimit (s : State) : Out := .next (if s.pins.life == .boot && !s.waitsGo then s.bootFail 6 else s)

/-- BOOT_SOURCE_TIMEOUT (R89). -/
def execBootSourceTimeout (s : State) : Out := .next (if s.pins.life == .boot && s.waitsGo then s.bootFail 5 else s)

/-! ## Entry to service (R106, R425, R429) -/

/-- Near extents of carrel 1: every present stack's range less the firmware region (R356). -/
def State.defaultExtents (s : State) : State :=
  ((List.range 6).filter s.stackUp).foldl (fun s k =>
    s.setReg (R.KPR_EXTENT 1 k) (BitVec.ofNat 64 ((stackBase k + s.fwSize k) / leafBytes + (s.stackSize k - s.fwSize k) / leafBytes * 2 ^ 32))) s

/-- The two default rings, directly above the main part of the firmware region, pinned as one region (Table 3-11, R356). -/
def State.defaultRings (s : State) : State :=
  let base := s.fwBase + 0x8000000
  let s := s.setReg (R.CIR_RING_BASE 0) (BitVec.ofNat 64 base)
  let s := s.setReg (R.CIR_RING_CTL 0) (BitVec.ofNat 64 (1 + 12 * 2 ^ 8 + 1 * 2 ^ 12))
  let s := s.setReg (R.CIR_RING_BASE 1) (BitVec.ofNat 64 (base + 0x80000))
  let s := s.setReg (R.CIR_RING_CTL 1) (BitVec.ofNat 64 (1 + 2 + 12 * 2 ^ 8 + 1 * 2 ^ 12))
  let s := { s with cir := { s.cir with committed := [(0, true), (1, true)], fetch := [(0, 0), (1, 0)] } }
  (s.setRegBit (R.CIR_DB_ENABLE 0) 1 true).setHolding
    { carrel := 1, call := 0xFFFFFF01, pin := true, addr := base, size := 0xA0000, flags := 0, leaves := [], gone := false }

/-- Carrel 1 of the default state: ACTIVE, every enabled shelf that is not withdrawn in its room. -/
def State.defaultCarrel (s : State) : State :=
  let s := s.setReg (R.CRL_CARREL_STATE 1) 2
  let s := s.setReg (R.CAT_SHARE 1) (BitVec.ofNat 64 (4096 * 2 ^ 16 + 32768 * 2 ^ 32))
  let s := s.setReg (R.LND_WINDOW 1) (BitVec.ofNat 64 (1 + 8192 * 2 ^ 14 + 2 ^ 28))
  let s := s.setReg (R.KPR_FAR_EXTENT 1) (BitVec.ofNat 64 (2 ^ 21 * 2 ^ 32))
  let s := s.setReg (R.KPR_REG_SHARE 1) 0xFFFFFFFFFFFF
  let shs := (List.range 4096).filter (fun sh => s.rangeEnabled (sh / 64) && !s.withdrawn sh)
  { s with shelves := shs.map (fun sh => (sh, { Shelf.idle with owner := 1 })) }.defaultExtents.defaultRings

/-- Records due at entry to service: section checks that failed, the block reset, the latch (R96, R97, R425, R429). -/
def State.serviceRecords (s : State) : State :=
  let s := if s.boot.cfgLog then s.log 0 K.cfgDefaulted else s
  let s := if s.boot.calLog then s.log 0 K.calDefaulted else s
  let s := match s.boot.cause with
    | some (src, kind) => s.log 0 K.blockReset 0 0 0 (src + kind * 2 ^ 16)
    | none => s
  if s.ldg.oos then s.log 0 K.outOfService else s

/-- CONFIGURE: the default state, then service. -/
def State.configure (s : State) : State :=
  if s.pins.life ≠ .boot ∨ s.bootPhase ≠ 8 then s
  else
    let s := s.setReg R.LDG_LOG_BASE (BitVec.ofNat 64 (s.fwBase + 0x7800000))
    let s := s.setReg R.LDG_LOG_CTL 0x1F
    let s := if s.item 0xE 1 = 1 && !s.ldg.oos then s.defaultCarrel else s
    let s := (s.setPhase 9).setRegBit R.CFG_STATUS 3 true
    let s := { s with pins := { s.pins with life := .service, sbLive := true } }.serviceRecords
    { s with boot := { s.boot with cause := none, cfgLog := false, calLog := false } }

/-- CONFIGURE (R106). -/
def execConfigure (s : State) : Out := .next s.configure

end Sys2Proof.Machine
end

