-- ==== Sys2Proof/Machine/Smbus.lean ====
section
/-! DEFINITION. The SMBus target: its transactions, ALERT_CAUSE and the alert response (R64, R66 to R68, Table 2-11). -/

namespace Sys2Proof.Machine

/-- The sideband pins have their service functions (R66), or the boot ended in failure (R69, R89). -/
def State.smbOn (s : State) : Bool := s.pins.life == .service || s.pins.life == .failed

/-- A transaction is taken: PEC is checked when present, and must be present under PEC_REQ (Table 2-9). -/
def State.pecOk (s : State) (p : Pec) : Bool :=
  match p with
  | .valid => true
  | .invalid => false
  | .absent => !bitAt s.smb.active 7

/-- What the target answers. -/
def State.smbReply (s : State) (r : SmbReply) : State := { s with smb := { s.smb with reply := r } }


/-- The STATUS byte (Table 2-11). -/
def State.smbStatus (s : State) : Nat :=
  b2n (s.pins.life == .service && s.regBit R.CFG_STATUS 3) + 2 * b2n s.pins.thermTrip + 4 * b2n s.alertN
    + 8 * b2n (s.regBit R.CFG_STATUS 0) + 16 * b2n (s.regBit R.CFG_STATUS 1) + 32 * b2n s.ldg.oos

/-- The hottest of the enabled ranges' 16-bit signed readings at bit lo of PWR_TEMP. -/
def State.hottest (s : State) (lo : Nat) : Int :=
  match ((List.range 64).filter s.rangeEnabled).map (fun r => sext 16 (s.field (R.PWR_TEMP r) lo 16)) with
  | [] => 0
  | x :: xs => xs.foldl max x

/-- Rail power in 1/8 W averaged over the last 1 ms (R66): each reading stands for the time from it to the next one (DESIGN CHOICE,
notes/assumptions/75.md). -/
def State.powerMean (s : State) : Nat :=
  let from_ := s.stp.total - 1000 * fcPerUs
  let spans := (s.pwr.recent.foldl (fun (st : Nat × List (Nat × Nat)) x =>
    (max from_ x.1, (st.1 - max from_ x.1, x.2) :: st.2)) (s.stp.total, [])).2
  let w := listSum (spans.map (·.1))
  if w = 0 then s.pwr.power else listSum (spans.map (fun x => x.1 * x.2)) / w

/-- What a read of a command code answers (Table 2-11): none for a code that is not listed. -/
def State.smbContent (s : State) (code : Nat) : Option (List Byte) :=
  match code with
  | 0x01 => some (leBytes 1 s.smbStatus)
  | 0x02 => some (leBytes 2 (wrapInt 16 (s.hottest 0)))
  | 0x03 => some (leBytes 2 (wrapInt 16 (s.hottest 16)))
  | 0x04 => some (leBytes 2 s.powerMean)
  | 0x05 => some (leBytes 2 s.pwr.vcore)
  | 0x06 => some (leBytes 1 s.smb.cause.toNat)
  | 0x07 => some (leBytes 8 (s.reg R.CFG_ID).toNat)
  | 0x08 => some (leBytes 2 s.smb.cap.toNat)
  | _ => none

/-- A read transaction with a command code: its bytes, or a NACK, which an unlisted code gets always (R66). -/
def State.smbRead (s : State) (p : Pec) (code : Nat) : State :=
  if !s.smbOn then s
  else
    match s.smbContent code with
    | some bytes => s.smbReply (if s.pecOk p then .ack bytes else .nack)
    | none => s.smbReply .nack

/-- STATUS (R66). -/
def execStatus (pec : Pec) (s : State) : Out := .next (s.smbRead pec 0x01)

/-- TEMP_COMPUTE (R66): signed 1/8 °C. -/
def execTempCompute (pec : Pec) (s : State) : Out := .next (s.smbRead pec 0x02)

/-- TEMP_SRAM (R66). -/
def execTempSram (pec : Pec) (s : State) : Out := .next (s.smbRead pec 0x03)

/-- POWER (R66): 1/8 W. -/
def execPower (pec : Pec) (s : State) : Out := .next (s.smbRead pec 0x04)

/-- VCORE_REQ (R66, R74): mV. -/
def execVcoreReq (pec : Pec) (s : State) : Out := .next (s.smbRead pec 0x05)

/-- ALERT_CAUSE, read (R67). -/
def execAlertCauseRead (pec : Pec) (s : State) : Out := .next (s.smbRead pec 0x06)

/-- ALERT_CAUSE, write (R67): write 1 to clear; a cause that recurs in the same cycle stays, and bit 2 stands while the
out-of-service latch is set (R429). -/
def execAlertCauseClear (pec : Pec) (v : Byte) (recur : BitVec 6) (s : State) : Out :=
  .next (
    if !s.smbOn then s
    else if !s.pecOk pec then s.smbReply .nack
    else
      let s := s.smbReply (.ack [])
      { s with smb := { s.smb with
          cause := (s.smb.cause &&& ~~~ (v.setWidth 6)) ||| recur ||| (if s.ldg.oos then 4#6 else 0#6) } })

/-- IDENT (R66): CFG_ID, eight bytes. -/
def execIdent (pec : Pec) (s : State) : Out := .next (s.smbRead pec 0x07)

/-- POWER_CAP, read (R66, R68). -/
def execPowerCapRead (pec : Pec) (s : State) : Out := .next (s.smbRead pec 0x08)

/-- POWER_CAP, write (R66, R68): it counts from the next phase 0.70 or the next stamp (R435). -/
def execPowerCapWrite (pec : Pec) (v : BitVec 16) (s : State) : Out :=
  .next (
    if !s.smbOn then s
    else if !s.pecOk pec then s.smbReply .nack
    else { s with smb := { s.smb with cap := v, reply := .ack [] } })

/-- The Alert Response Address read (R67): answered while ALERT_N is asserted, which stays asserted. -/
def execAlertResponse (s : State) : Out :=
  .next (
    if !s.smbOn then s
    else if s.alertN then s.smbReply (.ack (leBytes 1 (fld s.smb.active 0 7 * 2)))
    else s.smbReply .nack)

/-- A stop condition (R64): CFG_SMB_CTL takes effect. -/
def execSmbusStop (s : State) : Out :=
  .next (if s.smbOn then { s with smb := { s.smb with active := s.reg R.CFG_SMB_CTL } } else s)

end Sys2Proof.Machine
end

