-- ==== Sys2Proof/Machine/TestPort.lean ====
section
/-! DEFINITION. The test access port (R50 to R54, R447): instruction loads, the boundary register, IDCODE, the wrapper pass-through and the
scan of a hushed die. CTL_ACCESS is in Window. -/

namespace Sys2Proof.Machine

/-- Instruction codes of Table 2-4. -/
def tapCodes : List (BitVec 8) := [0x00, 0x01, 0x02, 0x03, 0x04, 0x20, 0x21, 0x22, 0xFF]

/-- The port works whenever PWROK is high (R51). -/
def State.tapOn (s : State) : Bool := s.pins.life != .off

/-- An instruction is loaded: what the one before it drove is released; its data register holds `data`. -/
def State.irLoad (s : State) (code : BitVec 8) (bypass : Bool) (data : Word) : State :=
  { s with
    pins := { s.pins with driving := false, highz := false }
    tap := { s.tap with
      ir := code, bypass := bypass, data := data, busy := false
      scanPos := if code = 0x21 ∧ s.tap.ir = 0x21 then s.tap.scanPos else 0, scanBits := [] } }

/-- TAP_RESET (R51). -/
def execTapReset (s : State) : Out :=
  .next (if s.tapOn then { s with tap := .reset, pins := { s.pins with driving := false, highz := false } } else s)

/-- EXTEST: the boundary register drives and captures while RESET_N is low; otherwise it acts as BYPASS (R53). -/
def State.extest (s : State) (pins : BitVec 10) : State :=
  if s.pins.resetN then s.irLoad 0x00 true 0
  else
    let s := s.irLoad 0x00 false 0
    { s with pins := { s.pins with boundary := pins, driving := true } }

/-- EXTEST. -/
def execExtest (pins : BitVec 10) (s : State) : Out := .next (if s.tapOn then s.extest pins else s)

/-- SAMPLE/PRELOAD: the pins are sampled; the outputs to drive are preloaded (R52). -/
def execSamplePreload (pins load : BitVec 10) (s : State) : Out :=
  .next (
    if s.tapOn then
      let s := s.irLoad 0x01 false 0
      { s with pins := { s.pins with boundary := pins, preload := load } }
    else s)

/-- IDCODE (R54). -/
def execIdcode (s : State) : Out := .next (if s.tapOn then s.irLoad 0x02 false 0x1A3E1B87 else s)

/-- CLAMP: preloaded outputs while RESET_N is low, and bypass (R53). -/
def execClamp (s : State) : Out :=
  .next (
    if s.tapOn then
      let low := !s.pins.resetN
      let s := s.irLoad 0x03 true 0
      { s with pins := { s.pins with driving := low } }
    else s)

/-- HIGHZ: every boundary output in high impedance while RESET_N is low, and bypass (R53). -/
def execHighz (s : State) : Out :=
  .next (
    if s.tapOn then
      let low := !s.pins.resetN
      let s := s.irLoad 0x04 true 0
      { s with pins := { s.pins with highz := low } }
    else s)

/-- BYPASS: its code, or any that Table 2-4 does not list, selects the one-bit register, which holds the last bit shifted in. -/
def execBypass (code : BitVec 8) (tdi : Bool) (s : State) : Out :=
  .next (if s.tapOn && (code == 0xFF || !tapCodes.contains code) then s.irLoad code true (BitVec.ofNat 64 (b2n tdi)) else s)

/-- STACK_WSP: pass-through to the selected stack while its port is in the test state, else BUSY (R50). -/
def State.stackWsp (s : State) (sel len : Nat) (reply : Word) : State :=
  let ok := decide (sel < 6) && s.stackUp sel && s.regBit (R.HBM_TEST_CTL sel) 1
  let s := s.irLoad irStackWsp false (if ok then BitVec.ofNat 64 (reply.toNat % 2 ^ min 64 len) else 0)
  { s with tap := { s.tap with stk := BitVec.ofNat 3 sel, busy := !ok } }

/-- STACK_WSP. The bits shifted in go to the stack. -/
def execStackWsp (sel : BitVec 3) (len : BitVec 7) (_data reply : Word) (s : State) : Out :=
  .next (if s.tapOn then s.stackWsp sel.toNat len.toNat reply else s)

/-- Bits [pos, pos + n) of an image, least significant bit of each byte first; zeros beyond its end. -/
def imageBits (bs : List Byte) (pos n : Nat) : List Bool :=
  (List.range n).map (fun i => (bs.getD ((pos + i) / 8) 0).getLsbD ((pos + i) % 8))

/-- HUSH_SCAN: the die is hushed if it runs, and nbits of the image are shifted out (R443, R447). -/
def State.hushScan (s : State) (nbits : Nat) : State :=
  let s := s.irLoad 0x21 false 0
  if !s.inService then s
  else
    let s := s.startHush 3
    match s.scanImage s.scanRanges with
    | (s, bs) =>
      { s with tap := { s.tap with scanBits := imageBits bs s.tap.scanPos nbits, scanPos := s.tap.scanPos + nbits } }

/-- HUSH_SCAN (R447). -/
def execHushScan (nbits : Nat) (s : State) : Out := .next (if s.tapOn then s.hushScan nbits else s)

end Sys2Proof.Machine
end

