-- ==== Sys2Proof/Machine/Registers.lean ====
section
/-! DEFINITION. The registers of Tables 19-3 to 19-15 as they read, and what a write of each does, block by block (R11 to R13, R460 to
R465). A write that has a command of its own acts here by the same operation as that command. -/

namespace Sys2Proof.Machine

/-! ## Rows whose bits a write stores or clears -/

/-- Rows of the CFG_, STP_, CIR_, CAT_, SHV_, KPR_ and HBM_ blocks (Tables 19-3 to 19-8). -/
def regRowsLow : List RegRow :=
  [⟨R.CFG_ID, 8, 8, 0, 0, false⟩, ⟨R.CFG_STRAP, 8, 1, 0, 0, false⟩, ⟨R.CFG_SMB_CTL, 8, 1, 0xFF, 0, false⟩, ⟨R.CFG_SS_CMD, 8, 3, 0, 0, false⟩,
   ⟨R.CFG_SHELF_WITHDRAWN 0, 8, 64, 0, 0, false⟩, ⟨R.STORE_WINDOW 0, 8, 8192, 0, 0, false⟩,
   ⟨R.STAGING 0, 8, 4096, 0xFFFFFFFFFFFFFFFF, 0, false⟩,
   ⟨R.STP_DATESTAMP, 8, 3, 0, 0, false⟩, ⟨R.STP_CTL, 8, 1, 0xF3FFF, 0, false⟩, ⟨R.STP_GRID_DELAY, 8, 3, 0x3FF, 0, false⟩,
   ⟨R.STP_CHANGE_AT, 8, 1, 0xFFFFFFFFFFFF, 0, false⟩, ⟨R.STP_NEXT_PERIOD, 8, 1, 0x1FFF, 0, false⟩, ⟨R.STP_CHANGE_CMD, 8, 2, 0, 0, false⟩,
   ⟨R.STP_EVENT, 8, 1, 0, 0x7F, false⟩, ⟨R.STP_IN_COUNT 0, 8, 4, 0, 0, false⟩,
   ⟨R.CIR_RING_BASE 0, 0x40, 8192, 0, 0, false⟩, ⟨R.CIR_RING_CTL 0, 0x40, 8192, 0, 0, false⟩,
   ⟨R.CIR_RING_HEAD 0, 0x40, 8192, 0, 0, false⟩, ⟨R.CIR_RING_TAIL 0, 0x40, 8192, 0, 0, false⟩,
   ⟨R.CIR_RING_NOTIFY_ADDR 0, 0x40, 8192, 0xFFFFFFFFFFFFFFFC, 0, false⟩, ⟨R.CIR_RING_NOTIFY_CTL 0, 0x40, 8192, 0xFFF7FFFFFFFF, 0, false⟩,
   ⟨R.CIR_RING_WMARK 0, 0x40, 8192, 0x7FFFF, 0, false⟩, ⟨R.CIR_RING_STATUS 0, 0x40, 8192, 0, 0x8000000, false⟩,
   ⟨R.CIR_DB_ENABLE 0, 8, 1, 0xFFFFFFFFFFFFFFFE, 0, false⟩,
   ⟨R.CIR_DB_ENABLE 1, 8, 15, 0xFFFFFFFFFFFFFFFF, 0, false⟩, ⟨R.CIR_DESK_STATUS 0, 8, 16, 0, 0, false⟩, ⟨R.CIR_SLIP_COUNT, 8, 2, 0, 0, false⟩,
   ⟨R.CIR_ENQ_LIMIT 0, 8, 1024, 0, 0, true⟩,
   ⟨R.CAT_STATUS, 8, 1, 0, 0x100000000, false⟩, ⟨R.CAT_CANCEL, 8, 2, 0, 0, false⟩, ⟨R.CAT_SNAP_SEL, 8, 1, 0x3FF, 0, false⟩,
   ⟨R.CAT_SNAP_CLEAR, 8, 1, 0, 0, false⟩, ⟨R.CAT_SNAP 0, 8, 16, 0, 0, false⟩, ⟨R.CAT_SHARE 0, 8, 1024, 0, 0, true⟩,
   ⟨R.CAT_NOPROG 0, 8, 1024, 0x1FFFFFFFF, 0, true⟩, ⟨R.CAT_CARREL_STATE 0, 8, 1024, 0, 0x4000000, true⟩,
   ⟨R.SHV_POLICY, 8, 1, 0x1FFFF0F1F, 0, false⟩, ⟨R.SHV_STATUS, 8, 2, 0, 0, false⟩, ⟨R.SHV_EVENT, 8, 1, 0, 0x1F, false⟩,
   ⟨R.SHV_HEADROOM 0, 8, 64, 0, 0, false⟩, ⟨R.SHV_CARREL 0, 8, 1024, 0xFFFF0003, 0, true⟩, ⟨R.SHV_CARREL_STATS 0, 8, 1024, 0, 0, true⟩,
   ⟨R.KPR_STATUS, 8, 1, 0, 0, false⟩, ⟨R.KPR_EVENT, 8, 1, 0, 0x3F, false⟩, ⟨R.KPR_POLICY, 8, 1, 0xFF, 0, false⟩,
   ⟨R.KPR_FAR_STATUS, 8, 3, 0, 0, false⟩, ⟨R.KPR_FAR_MAP 0, 8, 8, 0, 0, false⟩, ⟨R.KPR_EXTENT 0 0, 8, 8192, 0, 0, false⟩,
   ⟨R.KPR_FAR_EXTENT 0, 8, 1024, 0, 0, true⟩, ⟨R.KPR_REG_SHARE 0, 8, 1024, 0, 0, true⟩, ⟨R.KPR_USE 0, 8, 1024, 0, 0, true⟩,
   ⟨R.HBM_STACK_STATE 0, 8, 6, 0, 0, false⟩, ⟨R.HBM_CHAN_STATE 0, 8, 6, 0, 0, false⟩, ⟨R.HBM_MAPOUT_FORCE 0, 8, 6, 0xFFFFFFFF, 0, false⟩,
   ⟨R.HBM_RETRAIN, 8, 1, 0x3FFFFF, 0, false⟩, ⟨R.HBM_TEMP_LIMIT, 8, 1, 0xFFFF, 0, false⟩, ⟨R.HBM_CHAN_ERR_LIMIT, 8, 1, 0xFF, 0, false⟩,
   ⟨R.HBM_TEMP 0, 8, 6, 0, 0, false⟩, ⟨R.HBM_ERR_COUNT 0, 8, 6, 0, 0, false⟩, ⟨R.HBM_TEST_CTL 0, 8, 6, 0, 0, false⟩,
   ⟨R.HBM_WSP_CMD 0, 8, 6, 0, 0, false⟩, ⟨R.HBM_WSP_DATA 0, 8, 6, 0xFFFFFFFFFFFFFFFF, 0, false⟩]

/-- Rows of the LND_, ILN_, CRL_ and BEL_ blocks (Tables 19-9 to 19-12); the mailboxes, whose array is two-dimensional, are apart. -/
def regRowsMid : List RegRow :=
  [⟨R.LND_LOAN_LIMIT, 8, 2, 0, 0, false⟩, ⟨R.LND_EVENT, 8, 1, 0, 0xF, false⟩, ⟨R.LND_REFUSALS, 8, 1, 0, 0, false⟩,
   ⟨R.LND_WINDOW 0, 8, 1024, 0x3FFFFFFF, 0, true⟩, ⟨R.LND_WINDOW_SRC 0, 8, 1024, 0x3FFFFFFFFFF, 0, true⟩,
   ⟨R.LND_SHELF_STATE 0, 8, 4096, 0, 0, false⟩,
   ⟨R.ILN_CHIP, 8, 1, 0, 0, false⟩, ⟨R.ILN_CTL, 8, 1, 0x3FFFF03, 0, false⟩, ⟨R.ILN_TIMEOUT, 8, 2, 0, 0, false⟩,
   ⟨R.ILN_EPOCH_NEXT, 8, 1, 0xFFFF, 0, false⟩, ⟨R.ILN_EPOCH_AT, 8, 1, 0xFFFFFFFFFFFF, 0, false⟩, ⟨R.ILN_EPOCH_CMD, 8, 2, 0, 0, false⟩,
   ⟨R.ILN_EVENT, 8, 1, 0, 0x1FF, false⟩, ⟨R.ILN_COUNT, 8, 1, 0, 0, false⟩, ⟨R.ILN_PORT_STATE 0, 8, 4, 0, 0, false⟩,
   ⟨R.ILN_PORT_CTL 0, 8, 4, 0, 0, false⟩, ⟨R.ILN_ROUTE 0, 8, 16, 0, 0, false⟩, ⟨R.ILN_PEER_SEL, 8, 1, 0xFFFF, 0, false⟩,
   ⟨R.ILN_PEER_STATE, 8, 1, 0, 0, false⟩, ⟨R.ILN_REMOTE_MEM 0, 8, 1024, 0xFFFFFFFF0003, 0, true⟩,
   ⟨R.CRL_CMD, 8, 2, 0, 0, false⟩, ⟨R.CRL_ROOM_MASK, 8, 1, 0xFFFFFFFFFFFFFFFF, 0, false⟩, ⟨R.CRL_IMAGE_ADDR, 8, 1, 0xFFFFFFFFFFC0, 0, false⟩,
   ⟨R.CRL_CTL, 8, 1, 0xFFF, 0, false⟩, ⟨R.CRL_EVENT, 8, 1, 0, 0x1F, false⟩, ⟨R.CRL_MGR_NOTIFY_ADDR, 8, 1, 0xFFFFFFFFFFFFFFFC, 0, false⟩,
   ⟨R.CRL_MGR_NOTIFY_CTL, 8, 1, 0x3FFFFFFFF, 0, false⟩, ⟨R.CRL_MBOX_SUMMARY 0, 8, 16, 0, 0, false⟩, ⟨R.CRL_CARREL_CFG 0, 8, 1024, 0xFF, 0, true⟩,
   ⟨R.CRL_CARREL_STATE 0, 8, 1024, 0, 0, true⟩,
   ⟨R.BEL_DOORBELL, 8, 4, 0, 0, false⟩, ⟨R.BEL_CUR_PRIO 0, 8, 4, 0xF, 0, false⟩, ⟨R.BEL_Q_BASE 0, 8, 4, 0xFFFFF, 0, false⟩,
   ⟨R.BEL_Q_CTL 0, 8, 4, 0, 0, false⟩, ⟨R.BEL_Q_HEAD 0, 8, 4, 0, 0, false⟩, ⟨R.BEL_Q_TAIL 0, 8, 4, 0, 0, false⟩,
   ⟨R.BEL_CUR_STATUS 0, 8, 4, 0, 0, false⟩, ⟨R.BEL_SRC_CFG 0, 8, 2048, 0x3FF, 0, false⟩, ⟨R.BEL_SRC_STATE 0, 8, 2048, 0, 0, false⟩,
   ⟨R.BEL_PENDING 0, 8, 32, 0, 0, false⟩]

/-- Rows of the LDG_, PWR_ and OBS_ blocks (Tables 19-13 to 19-15). -/
def regRowsHigh : List RegRow :=
  [⟨R.LDG_CTL, 8, 1, 3, 0, false⟩, ⟨R.LDG_STATUS, 8, 9, 0, 0, false⟩, ⟨R.LDG_BLOCK_RESET, 8, 5, 0, 0, false⟩,
   ⟨R.LDG_FIRST 0, 8, 16, 0, 0xFFFFFFFFFFFFFFFF, false⟩, ⟨R.LDG_INJECT 0, 8, 8, 0, 0x20000, false⟩, ⟨R.LDG_INJECT_ADDR 0, 8, 8, 0, 0, false⟩,
   ⟨R.LDG_KEEP 0, 8, 64, 0, 0, false⟩, ⟨R.LDG_SEVERITY 0, 8, 1024, 0, 0, false⟩, ⟨R.LDG_COUNT 0, 8, 1024, 0, 0, false⟩,
   ⟨R.PWR_CTL, 8, 1, 1, 0, false⟩, ⟨R.PWR_STATUS, 8, 1, 0, 0, false⟩, ⟨R.PWR_EVENT, 8, 1, 0, 0xF, false⟩, ⟨R.PWR_CAP, 8, 1, 0xFF, 0, false⟩,
   ⟨R.PWR_LEND, 8, 1, 0xFFFFFFFFFF, 0, false⟩, ⟨R.PWR_THERM_LIMIT, 8, 2, 0, 0, false⟩, ⟨R.PWR_ALERT_EN, 8, 1, 0x3F, 0, false⟩,
   ⟨R.PWR_DOMAIN_CMD, 8, 2, 0, 0, false⟩, ⟨R.PWR_DOMAIN_STATE 0, 8, 96, 0, 0, false⟩, ⟨R.PWR_RANGE_CEIL 0, 8, 64, 7, 0, false⟩,
   ⟨R.PWR_RANGE_STATE 0, 8, 64, 0, 0, false⟩, ⟨R.PWR_TEMP 0, 8, 64, 0, 0, false⟩, ⟨R.PWR_CARREL_CAP 0, 8, 1024, 0xFF, 0, true⟩,
   ⟨R.OBS_CTL, 8, 1, 1, 0, false⟩, ⟨R.OBS_EVENT, 8, 1, 0, 0x3F, false⟩, ⟨R.OBS_HUSH, 8, 3, 0, 0, false⟩, ⟨R.OBS_SCAN_CTL, 8, 1, 7, 0, false⟩,
   ⟨R.OBS_SCAN_RANGES, 8, 1, 0xFFFFFFFFFFFFFFFF, 0, false⟩, ⟨R.OBS_SCAN_BASE, 8, 1, 0xFFFFFFFFFFFFF001, 0, false⟩,
   ⟨R.OBS_SCAN_STATUS, 8, 1, 0, 0, false⟩, ⟨R.OBS_JNL_BASE, 8, 2, 0, 0, false⟩, ⟨R.OBS_JNL_FILTER, 8, 1, 0x7FFFFFFFFFF, 0, false⟩,
   ⟨R.OBS_JNL_STATUS, 8, 1, 0, 0, false⟩, ⟨R.OBS_WP_BASE 0, 0x10, 64, 0x7FFFFFFFFFFFFFFF, 0, false⟩, ⟨R.OBS_WP_LIMIT 0, 0x10, 64, 0, 0, false⟩,
   ⟨R.OBS_CNT_SEL, 8, 31, 0, 0, false⟩, ⟨R.OBS_UTIL 0, 8, 64, 0, 0, false⟩, ⟨R.OBS_ERR 0, 8, 64, 0, 0, false⟩,
   ⟨R.OBS_SELFTEST_CMD, 8, 2, 0, 0, false⟩, ⟨R.OBS_WFG_CMD, 8, 1, 0, 0, false⟩, ⟨R.OBS_WFG_ADDR, 8, 1, 0xFFFFFFFFFFFFFFC0, 0, false⟩,
   ⟨R.OBS_WFG_STATUS, 8, 1, 0, 0, false⟩, ⟨R.OBS_BISECT_MATCH 0, 0x20, 16, 0x3FFFFFFFFFFF, 0, false⟩,
   ⟨R.OBS_BISECT_PASS 0, 0x20, 16, 0x3FFFFFFFFFF, 0, false⟩, ⟨R.OBS_BISECT_CUT 0, 0x20, 16, 0xFFFFFFFFF, 0, false⟩,
   ⟨R.OBS_BISECT_STATUS 0, 0x20, 16, 0, 0x100000000, false⟩, ⟨R.OBS_BISECT_RELEASE, 8, 1, 0, 0, false⟩]

/-- The row that assigns an offset. -/
def regRow (off : Nat) : Option RegRow :=
  (if off < 0x600000 then regRowsLow else if off < 0xA00000 then regRowsMid else regRowsHigh).find? (fun r => inArray off r.base r.stride r.count)

/-! ## Mailboxes in the window -/

/-- Base of the mailboxes, each 0x100 bytes, and the carrel whose mailbox holds an offset. -/
def mboxBase : Nat := R.CRL_MBOX_MSG 0 0
def mboxOf (off : Nat) : Option Nat := if mboxBase ≤ off ∧ off < mboxBase + 0x100 * 1024 then some ((off - mboxBase) / 0x100) else none

/-- Word of a mailbox at an offset: 0 to 15 the message, 16 the doorbells, 17 and 18 the notify registers. -/
def mboxWord (off : Nat) : Nat := off % 0x100 / 8

/-- An offset that Tables 19-3 to 19-15 or R465 assign, or the boot window. -/
def assigned (off : Nat) : Bool :=
  (regRow off).isSome || ((mboxOf off).isSome && decide (mboxWord off ≤ 18))
    || (decide (0xE00000 ≤ off) && decide (off < 0xF00000)) || (decide (0x1000000 ≤ off) && decide (off < 0x1400000))

/-! ## Registers computed as they are read -/

/-- STP_STATUS (Table 4-8). -/
def State.stpStatus (s : State) : Word :=
  BitVec.ofNat 64 (s.stp.state.toNat + (if s.stp.state = 0 then 0 else s.masterInput * 8) + b2n s.stp.armed.isSome * 16)

/-- CAT_STATUS (Table 6-4): records and overflow entries in use. -/
def State.catStatus (s : State) : Word :=
  setFld (setFld (s.reg R.CAT_STATUS) 0 13 s.cat.slips.length) 16 16 (listSum ((Tab.vals s.cat.slips).map (·.ovf)))

/-- KPR_STATUS and KPR_FAR_STATUS (Table 12-8). -/
def State.kprStatus (s : State) : Word :=
  BitVec.ofNat 64 (s.kpr.calls.length + (s.kpr.moves.filter (·.started)).length * 2 ^ 17)
def State.kprFarStatus (s : State) : Word :=
  let on := (List.range 8).filter (fun i => s.regBit (R.KPR_FAR_MAP i) 56)
  let ports := (List.range 4).filter (fun p => on.any (fun i => s.field (R.KPR_FAR_MAP i) 54 2 == p) && !s.kpr.farDown.getLsbD p)
  BitVec.ofNat 64 (listSum (on.map (fun i => s.field (R.KPR_FAR_MAP i) 32 22)) % 2 ^ 22 + listSum (ports.map (fun p => 2 ^ p)) * 2 ^ 22)

/-- LND_STATUS and LND_SHELF_STATE (Table 11-4). -/
def State.lndStatus (s : State) : Word :=
  let l := Tab.vals s.shelves
  BitVec.ofNat 64 (listSum (l.map (fun x => b2n x.loan0.isSome + b2n x.loan1.isSome)) + (l.filter (·.clearing)).length * 2 ^ 13)
def Shelf.stateWord (x : Shelf) : Word :=
  let open_ := x.run.any (fun r => r.window.isSome)
  let frame := (x.run.bind (fun r => r.e.frame)).getD 0
  BitVec.ofNat 64 (x.owner + b2n x.clearing * 2 ^ 10 + b2n x.loan0.isSome * 2 ^ 11 + b2n x.loan1.isSome * 2 ^ 12 + x.gen0.toNat * 2 ^ 16
    + x.gen1.toNat * 2 ^ 24 + b2n open_ * 2 ^ 32 + (if open_ then frame else 0) * 2 ^ 33)

/-- ILN_PEER_STATE of the peer ILN_PEER_SEL names (Table 13-8). -/
def State.peerState (s : State) : Word :=
  let n := s.field R.ILN_PEER_SEL 0 16
  match s.peer n with
  | none => 0
  | some x => BitVec.ofNat 64 (x.out.toNat + b2n x.holdover * 4 + (s.reqsTo n).length * 2 ^ 16 + x.epoch.toNat * 2 ^ 32)

/-- BEL_SRC_STATE, BEL_PENDING and BEL_CUR_STATUS (Table 15-5). -/
def State.belSrcState (s : State) (n : Nat) : Word :=
  let x := s.belSrc n
  BitVec.ofNat 64 ((match x.phase with | .idle => 0 | .pending => 1 | .active => 2) + b2n (belIsStatus n && s.belLevelOf n) * 4 + x.count * 8
    + b2n x.sat * 2 ^ 11 + x.curator * 2 ^ 12)
def State.belPending (s : State) (i : Nat) : Word :=
  BitVec.ofNat 64 (listSum (((List.range 64).filter (fun j => (s.belSrc (64 * i + j)).phase == .pending)).map (fun j => 2 ^ j)))
def State.belCurStatus (s : State) (k : Nat) : Word :=
  BitVec.ofNat 64 (b2n (s.bel.asleep.getLsbD k) + b2n (s.bel.alt.getLsbD k) * 2 + b2n (s.belIrq k) * 4 + s.fastUnread k * 8)

/-- LDG_NEXT, LDG_ESCALATION and LDG_WDOG_STATUS (Table 16-8); the time left is rounded up. -/
def State.ldgNext (s : State) (w : Nat) : Word := wordAt (s.ldg.records.headD []) w
def State.escalationWord (s : State) : Word :=
  BitVec.ofNat 64 (min 255 s.escCount + s.escLimit * 2 ^ 8 + s.escWindow * 2 ^ 16 + b2n s.ldg.oos * 2 ^ 24 + b2n s.ldg.cycled * 2 ^ 25)
def State.wdogWord (s : State) : Word :=
  BitVec.ofNat 64 (b2n s.ldg.wdArmed + s.ldg.wdSeen.toNat * 2 + (if s.ldg.wdArmed then ceilDiv s.ldg.wdLeft (1000 * fcPerUs) else 0) * 2 ^ 16
    + s.ldg.wdExpiries * 2 ^ 32)

/-- PWR_STATUS and PWR_CAP (Table 17-5). -/
def State.pwrStatus (s : State) : Word := BitVec.ofNat 64 (s.powerMean % 2 ^ 16 + s.pwr.vcore * 2 ^ 16 + min 255 s.pwr.capUsed * 2 ^ 26)
def State.pwrCap (s : State) : Word := setFld (s.reg R.PWR_CAP) 8 8 (min 255 s.smb.cap.toNat)

/-- Index of an element of an array at `base`. -/
def idx (off base : Nat) : Nat := (off - base) / 8

/-- Registers of a stack port: an absent stack's read zero (R356). -/
def stackRegOf (off : Nat) : Option Nat :=
  ([R.HBM_STACK_STATE 0, R.HBM_CHAN_STATE 0, R.HBM_MAPOUT_FORCE 0, R.HBM_TEMP 0, R.HBM_ERR_COUNT 0, R.HBM_TEST_CTL 0, R.HBM_WSP_CMD 0,
    R.HBM_WSP_DATA 0].find? (fun b => inArray off b 8 6)).map (idx off)

/-- Registers of the low blocks that are computed as they are read. -/
def State.readLow (s : State) (off : Nat) : Option Word :=
  if off = R.CFG_SS_STATUS then some s.ssStatus
  else if inArray off (R.STORE_WINDOW 0) 8 8192 then some (s.storeWord (idx off (R.STORE_WINDOW 0)))
  else if off = R.STP_DATESTAMP then some s.now
  else if off = R.STP_STATUS then some s.stpStatus
  else if inArray off (R.CIR_RING_STATUS 0) 0x40 8192 then
    some (setFld (s.reg off) 0 17 (s.ringLevel ((off - R.CIR_RING_STATUS 0) / 0x40)))
  else if off = R.CAT_STATUS then some s.catStatus
  else if inArray off (R.CAT_SNAP 0) 8 16 then some (s.snapWordOf (idx off (R.CAT_SNAP 0)))
  else if inArray off (R.CAT_CARREL_STATE 0) 8 1024 then some (s.catCarrelWord (idx off (R.CAT_CARREL_STATE 0)))
  else if off = R.KPR_STATUS then some s.kprStatus
  else if off = R.KPR_FAR_STATUS then some s.kprFarStatus
  else if inArray off (R.KPR_USE 0) 8 1024 then some (s.kprUseWord (idx off (R.KPR_USE 0)))
  else if (stackRegOf off).any (fun k => !s.stackUp k) then some 0
  else none

/-- Registers of the middle blocks that are computed as they are read. -/
def State.readMid (s : State) (off : Nat) : Option Word :=
  if off = R.LND_STATUS then some s.lndStatus
  else if inArray off (R.LND_SHELF_STATE 0) 8 4096 then some (s.shelf (idx off (R.LND_SHELF_STATE 0))).stateWord
  else if off = R.ILN_PEER_STATE then some s.peerState
  else if inArray off (R.CRL_CARREL_STATE 0) 8 1024 then some (s.carrelStateWord (idx off (R.CRL_CARREL_STATE 0)))
  else if inArray off (R.BEL_CUR_STATUS 0) 8 4 then some (s.belCurStatus (idx off (R.BEL_CUR_STATUS 0)))
  else if inArray off (R.BEL_SRC_STATE 0) 8 2048 then some (s.belSrcState (idx off (R.BEL_SRC_STATE 0)))
  else if inArray off (R.BEL_PENDING 0) 8 32 then some (s.belPending (idx off (R.BEL_PENDING 0)))
  else none

/-- Registers of the high blocks that are computed as they are read. -/
def State.readHigh (s : State) (off : Nat) : Option Word :=
  if inArray off (R.LDG_NEXT 0) 8 4 then some (s.ldgNext (idx off (R.LDG_NEXT 0)))
  else if off = R.LDG_ESCALATION then some s.escalationWord
  else if off = R.LDG_WDOG_STATUS then some s.wdogWord
  else if off = R.PWR_STATUS then some s.pwrStatus
  else if off = R.PWR_CAP then some s.pwrCap
  else if inArray off (R.OBS_UTIL 0) 8 64 then some (BitVec.ofNat 64 (Tab.getD s.obs.util (idx off (R.OBS_UTIL 0)) 0 / 1280 % 2 ^ 48))
  else none

/-- An entry of an array indexed by carrel: index 0 reads zero and ignores writes (R190, R218, R325, R356, R385, R402, R442); the enqueue
limits have no such rule. -/
def entryZero (off : Nat) : Bool :=
  match regRow off with
  | some r => r.carrel && off == r.base && r.base != R.CIR_ENQ_LIMIT 0
  | none => mboxOf off == some 0

/-- A register as the manager reads it; an offset that no table assigns reads zero (R461). -/
def State.readReg (s : State) (off : Nat) : Word :=
  if entryZero off || !assigned off then 0
  else
    match (if off < 0x600000 then s.readLow off else if off < 0xA00000 then s.readMid off else s.readHigh off) with
    | some w => w
    | none => s.reg off

/-- A word of the doorbell pages (R145, R465). -/
def State.readDoorbell (s : State) (off : Nat) : Word :=
  let o := off % 0x1000
  s.dbRead ((off - 0x1000000) / 0x1000) (decide (0x800 ≤ o)) (o % 0x800 / 0x40) (o % 0x40 / 8)

/-- The control window as the manager, a curator or the TAP reads it: what no table assigns reads zero (R461), and so does the boot
window, which takes writes (R88). -/
def State.readWindow (s : State) (off : Nat) : Word :=
  if off < 0xD00000 then s.readReg off
  else if 0x1000000 ≤ off ∧ off < 0x1400000 then s.readDoorbell off
  else 0

/-! ## Writes, block by block -/

/-- A value clamped to the nearer of two limits. -/
def clamp (lo hi v : Nat) : Nat := max lo (min hi v)

/-- Bits stored and bits cleared by 1, as the row of the register says; the entry of a carrel that does not exist takes none (Table 14-1). -/
def State.storeBits (s : State) (off : Nat) (v : Word) : State :=
  match regRow off with
  | none => s
  | some r =>
    if r.carrel && !s.carrelExists ((off - r.base) / r.stride) then s
    else s.setReg off ((s.reg off &&& ~~~ r.rw &&& ~~~ (r.w1c &&& v)) ||| (v &&& r.rw))

/-- Writes of CFG_ (Tables 3-8 to 3-10); the staging area keeps its content while a store command runs (R99). -/
def State.writeCfg (s : State) (off : Nat) (v : Word) : State :=
  if off = R.CFG_BOOT_GO then s.bootGo v
  else if off = R.CFG_SS_CMD then
    (if fld v 0 2 = 1 then s.ssCommit (bitAt v 2) else if fld v 0 2 = 2 then s.ssLoad (bitAt v 2) else s)
  else if off = R.CFG_SS_UNLOCK then s.ssUnlock v
  else if R.STAGING 0 ≤ off ∧ s.ss.busy.isSome then s
  else s.storeBits off v

/-- Writes of STP_ (Tables 4-9 to 4-13): WINDOW_NS is clamped to 50 to 10,000 (R122). -/
def State.writeStp (s : State) (off : Nat) (v : Word) : State :=
  if off = R.STP_CTL then
    let s' := s.storeBits off (setFld v 0 14 (clamp 50 10000 (fld v 0 14)))
    if bitAt v 20 then s'.relock else s'
  else if off = R.STP_CHANGE_CMD then (if fld v 0 2 = 1 then s.changeArm else if fld v 0 2 = 2 then s.changeCancel else s)
  else s.storeBits off v

/-- CIR_RING_BASE[k]: no effect while ENABLE is 1; RING_LOC is kept once the context is committed (R143, R168). -/
def State.writeRingBase (s : State) (k : Nat) (v : Word) : State :=
  if s.ringOn k then s
  else
    let loc := if Tab.mem s.cir.committed k then s.reg (R.CIR_RING_BASE k) &&& 1 else v &&& 1
    s.setReg (R.CIR_RING_BASE k) ((v &&& 0xFFFFFFFFFFFFF000) ||| loc)

/-- CIR_RING_STATUS[k]: a stop cleared restarts the ring, CROSSED cleared clears its count (R152, R166). -/
def State.writeRingStatus (s : State) (k : Nat) (v : Word) : State :=
  let s := if bitAt v 17 then s.ringRestart k else s
  let s := if bitAt v 18 then s.clearCrossed k else s
  s.storeBits (R.CIR_RING_STATUS k) v

/-- A register of ring context k: HEAD and TAIL are writable only while the context is disabled (Table 5-8). -/
def State.writeRing (s : State) (k w off : Nat) (v : Word) : State :=
  if w = 0 then s.writeRingBase k v
  else if w = 1 then (if bitAt v 0 then s.ringEnable k v else s.ringDisable k v)
  else if w = 2 ∨ w = 3 then (if s.ringOn k then s else s.setReg off (v &&& 0xFFFFFFFF))
  else if w = 7 then s.writeRingStatus k v
  else s.storeBits off v

/-- Writes of CIR_ (Table 5-9). -/
def State.writeCir (s : State) (off : Nat) (v : Word) : State :=
  if off < R.CIR_DB_ENABLE 0 then s.writeRing ((off - R.CIR_RING_BASE 0) / 0x40) (off % 0x40 / 8) off v
  else if inArray off (R.CIR_ENQ_LIMIT 0) 8 1024 then s.enqLimit (idx off (R.CIR_ENQ_LIMIT 0)) v
  else s.storeBits off v

/-- CAT_CANCEL (R182, Table 6-4). -/
def State.catCancel (s : State) (v : Word) : State :=
  if fld v 55 2 = 0 then s.cancelTag (fld v 32 10) (fld v 0 32)
  else if fld v 55 2 = 1 then s.cancelCarrel (fld v 32 10)
  else if fld v 55 2 = 2 then s.cancelRing (fld v 42 13)
  else s

/-- Writes of CAT_ (Table 6-4). -/
def State.writeCat (s : State) (off : Nat) (v : Word) : State :=
  if off = R.CAT_CANCEL then s.catCancel v
  else if off = R.CAT_SNAP_CLEAR then s.snapClear (fld v 0 10)
  else if inArray off (R.CAT_SHARE 0) 8 1024 then s.shareWrite (idx off (R.CAT_SHARE 0)) v
  else s.storeBits off v

/-- Writes of SHV_ (Table 7-4): FILL is clamped to 8 to 16 (R218). -/
def State.writeShv (s : State) (off : Nat) (v : Word) : State :=
  if off = R.SHV_POLICY then s.storeBits off (setFld v 0 5 (clamp 8 16 (fld v 0 5))) else s.storeBits off v

/-- HBM_WSP_CMD[k]: a shift by the wrapper, whose bits shifted out the stack decides: a free value here; other codes only store (R352). -/
def State.writeWsp (s : State) (k : Nat) (v : Word) : State :=
  if fld v 0 2 = 1 ∨ fld v 0 2 = 2 then
    { s.wspShift k (fld v 0 2) (fld v 8 7) (Config.freeValue s.freeCtr) with freeCtr := s.freeCtr + 1 }
  else s.setReg (R.HBM_WSP_CMD k) ((s.reg (R.HBM_WSP_CMD k) &&& 0x300000000) ||| (v &&& 0x7F03))

/-- HBM_TEST_CTL[k].REQ (R351). -/
def State.writeTest (s : State) (k : Nat) (v : Word) : State := if bitAt v 0 then s.testRequest k else s.testWithdraw k

/-- Writes of KPR_ and HBM_ (Table 12-8). -/
def State.writeKpr (s : State) (off : Nat) (v : Word) : State :=
  if off = R.KPR_QUERY then s.kprQuery v
  else if inArray off (R.KPR_EXTENT 0 0) 8 8192 then
    (if idx off (R.KPR_EXTENT 0 0) % 8 < 6 then s.nearExtent (idx off (R.KPR_EXTENT 0 0) / 8) (idx off (R.KPR_EXTENT 0 0) % 8) v else s)
  else if inArray off (R.KPR_FAR_EXTENT 0) 8 1024 then s.farExtent (idx off (R.KPR_FAR_EXTENT 0)) v
  else if inArray off (R.KPR_REG_SHARE 0) 8 1024 then s.regShare (idx off (R.KPR_REG_SHARE 0)) v
  else if inArray off (R.HBM_TEST_CTL 0) 8 6 then s.writeTest (idx off (R.HBM_TEST_CTL 0)) v
  else if inArray off (R.HBM_WSP_CMD 0) 8 6 then s.writeWsp (idx off (R.HBM_WSP_CMD 0)) v
  else s.storeBits off v

/-- Writes of LND_ (Table 11-4): LIMIT is clamped and its bits [5:0] are taken as zero (R325). -/
def State.writeLnd (s : State) (off : Nat) (v : Word) : State :=
  if off = R.LND_LOAN_LIMIT then s.setReg off (BitVec.ofNat 64 (clamp 65536 524288 (fld v 0 20) / 64 * 64)) else s.storeBits off v

/-- ILN_CHIP: kept once committed; 0xFFFF is refused (R385). -/
def State.writeChip (s : State) (v : Word) : State :=
  if fld v 0 16 = 0xFFFF then s.ilnCfgErr else if s.iln.committed then s else s.setReg R.ILN_CHIP (v &&& 0xFFFF)

/-- ILN_PORT_CTL[p] (R383): DISABLE written 0 lets the port train again. -/
def State.writePort (s : State) (p : Nat) (v : Word) : State :=
  let s := if bitAt v 0 then s.portDisable p else s.setRegBit (R.ILN_PORT_CTL p) 0 false
  if bitAt v 1 then s.portRetrain p else s

/-- Writes of ILN_ (Table 13-8). -/
def State.writeIln (s : State) (off : Nat) (v : Word) : State :=
  if off = R.ILN_CHIP then s.writeChip v
  else if off = R.ILN_TIMEOUT then s.setReg off (BitVec.ofNat 64 (clamp 100 1000000 (fld v 0 20)))
  else if off = R.ILN_EPOCH_CMD then (if fld v 0 2 = 1 then s.epochArm else if fld v 0 2 = 2 then s.epochCancel else s)
  else if inArray off (R.ILN_PORT_CTL 0) 8 4 then s.writePort (idx off (R.ILN_PORT_CTL 0)) v
  else if inArray off (R.ILN_ROUTE 0) 8 16 then s.routeWrite (idx off (R.ILN_ROUTE 0)) v
  else s.storeBits off v

/-- The state a total meaning leaves. -/
def nextOf (s : State) : Out → State
  | .next t => t
  | .fault _ => s
  | .refused _ => s

/-- CRL_CMD (Table 14-2). -/
def State.writeCrlCmd (s : State) (v : Word) : State :=
  let c : Func := BitVec.ofNat 10 (fld v 16 10)
  let r : BitVec 6 := BitVec.ofNat 6 (fld v 32 6)
  let op := fld v 0 4
  if op = 1 then nextOf s (execCreate c (bitAt v 4) s)
  else if op = 2 then nextOf s (execOpenCarrel c s)
  else if op = 3 then nextOf s (execFreeze c s)
  else if op = 4 then nextOf s (execThaw c s)
  else if op = 5 then nextOf s (execSave c s)
  else if op = 6 then nextOf s (execRestore c s)
  else if op = 7 then nextOf s (execReset c (bitAt v 5) s)
  else if op = 8 then nextOf s (execDestroy c s)
  else if op = 9 then nextOf s (execRoomAdd c r s)
  else if op = 10 then nextOf s (execRoomRemove c r s)
  else s

/-- Word w of carrel c's mailbox written by one side (R395, Table 14-8): each side sets its own doorbell and clears the other's. -/
def State.writeMbox (s : State) (manager : Bool) (c w : Nat) (v : Word) : State :=
  if w < 16 then s.mboxWrite manager c w v
  else if w = 16 then
    if manager then
      let s := if bitAt v 0 && s.mailboxOpen c then s.clearUp c else s
      if bitAt v 1 then s.downSet c else s
    else
      let s := if bitAt v 1 then s.downClear c else s
      if bitAt v 0 then s.upSet c else s
  else if !s.carrelExists c then s
  else if w = 17 then s.setReg (R.CRL_MBOX_NOTIFY_ADDR c) (v &&& 0xFFFFFFFFFFFFFFFC)
  else if w = 18 then s.setReg (R.CRL_MBOX_NOTIFY_CTL c) (v &&& 0x1FFFFFFFF)
  else s

/-- Writes of CRL_ by the manager (Table 14-8). -/
def State.writeCrl (s : State) (off : Nat) (v : Word) : State :=
  if off = R.CRL_CMD then s.writeCrlCmd v
  else
    match mboxOf off with
    | some c => s.writeMbox true c (mboxWord off) v
    | none => s.storeBits off v

/-- BEL_Q_CTL[k]: SIZE_LOG2 is clamped; a queue unmasked with a fast record unread takes its curator to the alternate bank (R409). -/
def State.writeQCtl (s : State) (k : Nat) (v : Word) : State :=
  (s.setReg (R.BEL_Q_CTL k) (BitVec.ofNat 64 (clamp 4 10 (fld v 0 4) + b2n (bitAt v 4) * 16))).belTake k

/-- Writes of BEL_ (Table 15-5): a source enabled or retargeted may wake a curator (R410). -/
def State.writeBel (s : State) (who : Requester) (off : Nat) (v : Word) : State :=
  if off = R.BEL_DOORBELL then s.belWrite who (fld v 0 11) false
  else if off = R.BEL_PEND_SET then s.belWrite who (fld v 0 11) true
  else if off = R.BEL_COMPLETE then s.belComplete (fld v 0 11)
  else if inArray off (R.BEL_Q_CTL 0) 8 4 then s.writeQCtl (idx off (R.BEL_Q_CTL 0)) v
  else if inArray off (R.BEL_Q_HEAD 0) 8 4 then s.belHead (idx off (R.BEL_Q_HEAD 0)) v
  else if inArray off (R.BEL_SRC_CFG 0) 8 2048 then (s.storeBits off v).belWake
  else s.storeBits off v

/-- LDG_INJECT[i] (Table 16-5): ARM has no effect with a reserved checker. -/
def State.writeInject (s : State) (off : Nat) (v : Word) : State :=
  let keep := s.reg off &&& 0x20000 &&& ~~~ v
  s.setReg off (keep ||| (if 5 ≤ fld v 0 3 then v &&& 0xFFFF else v &&& 0x1FFFF))

/-- Writes of LDG_ (Table 16-8); a SEVERITY of 5 to 7 has no effect (R417). -/
def State.writeLdg (s : State) (off : Nat) (v : Word) : State :=
  if off = R.LDG_LOG_BASE then s.logConfig false v
  else if off = R.LDG_LOG_CTL then s.logConfig true v
  else if off = R.LDG_LOG_HEAD then s.logHead v
  else if off = R.LDG_BLOCK_RESET then s.managerReset v
  else if off = R.LDG_OOS_CLEAR then s.oosClear v
  else if off = R.LDG_HEARTBEAT then s.heartbeat v
  else if inArray off (R.LDG_INJECT 0) 8 8 then s.writeInject off v
  else if inArray off (R.LDG_SEVERITY 0) 8 1024 then (if fld v 0 3 ≤ 4 then s.setReg off (v &&& 7) else s)
  else s.storeBits off v

/-- PWR_THERM_LIMIT and PWR_SRAM_LIMIT (R442): WARN, THROTTLE and EMERG ascend below TRIP, which is fixed. -/
def State.writeLimits (s : State) (off : Nat) (v : Word) : State :=
  if fld v 0 8 < fld v 8 8 ∧ fld v 8 8 < fld v 16 8 ∧ fld v 16 8 < s.field off 24 8 then
    s.setReg off ((s.reg off &&& 0xFF000000) ||| (v &&& 0xFFFFFF))
  else s.orReg R.PWR_EVENT 8

/-- Writes of PWR_ (Tables 17-3 and 17-4). -/
def State.writePwr (s : State) (off : Nat) (v : Word) : State :=
  if off = R.PWR_THERM_LIMIT ∨ off = R.PWR_SRAM_LIMIT then s.writeLimits off v
  else if off = R.PWR_DOMAIN_CMD then (if fld v 8 2 = 0 then s else s.domainCmd (fld v 0 7) (fld v 8 2))
  else s.storeBits off v

/-- The journal's region as the registers stand breaks R450. -/
def State.journalMisplaced (s : State) : Bool :=
  let mib := s.field R.OBS_JNL_CTL 2 13
  let a := 4096 * s.field R.OBS_JNL_BASE 12 36
  let n := mib * 0x100000
  (s.regBit R.OBS_JNL_CTL 0 && mib == 0) || decide (4096 < mib)
    || (mib != 0 && (!s.nearBacked a n || s.touchesFw a n
      || (List.range 1024).any (fun c => (List.range 6).any (fun k =>
        (s.extent c k).2 != 0 && overlaps a n (s.extent c k).1 (s.extent c k).2))))

/-- A write of OBS_JNL_BASE or OBS_JNL_CTL (R450). -/
def State.writeJournal (s : State) (off : Nat) (v : Word) : State :=
  let s' := if off = R.OBS_JNL_BASE then s.setReg off (v &&& 0xFFFFFFFFF000) else s.setReg off (v &&& 0x7FFFF)
  let moved := s'.reg R.OBS_JNL_BASE != s.reg R.OBS_JNL_BASE || s'.field R.OBS_JNL_CTL 2 13 != s.field R.OBS_JNL_CTL 2 13
  if s'.journalMisplaced || (s.regBit R.OBS_JNL_CTL 0 && moved) then s.event R.OBS_EVENT 0x20 else s'

/-- OBS_HUSH (R443, R445). -/
def State.writeHush (s : State) (v : Word) : State := if fld v 0 2 = 1 then s.startHush 1 else if fld v 0 2 = 2 then s.releaseHush else s

/-- OBS_SELFTEST_CMD (R458). -/
def State.writeSelftest (s : State) (v : Word) : State :=
  if fld v 6 2 = 0 then s.selftestCmd (fld v 0 6) true else if fld v 6 2 = 1 then s.selftestCmd (fld v 0 6) false else s

/-- Commands of the Observation unit by their registers: they act in service only. -/
def State.obsCommand (s : State) (off : Nat) (v : Word) : State :=
  if !s.inService then s
  else if off = R.OBS_HUSH then s.writeHush v
  else if off = R.OBS_CTL then (if bitAt v 1 then s.cntClear else s)
  else if off = R.OBS_SCAN_CTL then (if bitAt v 3 then s.scanStart else s)
  else if off = R.OBS_CNT_SEL then s.cntSel v
  else if off = R.OBS_SELFTEST_CMD then s.writeSelftest v
  else if off = R.OBS_WFG_CMD then s.wfgCmd v
  else s

/-- Writes of OBS_ (Table 18-6, Table 9-12). -/
def State.writeObs (s : State) (off : Nat) (v : Word) : State :=
  if off = R.OBS_JNL_BASE ∨ off = R.OBS_JNL_CTL then s.writeJournal off v
  else if inArray off (R.OBS_WP_LIMIT 0) 0x10 64 then s.setReg off (v &&& 0xFFFFFFFFFFFF)
  else if off = R.OBS_BISECT_RELEASE then s.bisectRelease (fld v 0 16)
  else (s.storeBits off v).obsCommand off v

/-- A write of the register at an offset by the manager, a curator or the TAP, acting by its access code (R13). -/
def State.writeReg (s : State) (who : Requester) (off : Nat) (v : Word) : State :=
  if entryZero off || !assigned off then s
  else
    match off / 0x100000 with
    | 0 => s.writeCfg off v
    | 1 => s.writeStp off v
    | 2 => s.writeCir off v
    | 3 => s.writeCat off v
    | 4 => s.writeShv off v
    | 5 => s.writeKpr off v
    | 6 => s.writeLnd off v
    | 7 => s.writeIln off v
    | 8 => s.writeCrl off v
    | 9 => s.writeBel who off v
    | 10 => s.writeLdg off v
    | 11 => s.writePwr off v
    | 12 => s.writeObs off v
    | _ => s

end Sys2Proof.Machine
end

