-- ==== Sys2Proof/Machine/Window.lean ====
section
/-! DEFINITION. The ways into the control window: host traffic on port 0, the curators and the TAP (R11, R54, R79, R80, R83, R88, R98,
R384, R398, R460 to R466). -/

namespace Sys2Proof.Machine

/-- The function an access carries: the curators and the TAP act as the manager (R462). -/
def requesterFunc : Requester → Nat
  | .host f => f.toNat
  | _ => 0

/-- Before service host traffic reaches the CFG_ block and the boot window only (R83). -/
def State.hostReaches (s : State) (off : Nat) : Bool := s.inService || decide (off < 0x100000) || (decide (0xE00000 ≤ off) && decide (off < 0xF00000))

/-- An access that is not a naturally aligned 64-bit one (R11). -/
def badSize (off size : Nat) : Bool := size != 8 || off % 8 != 0

/-- REG_ACCESS_SIZE. -/
def State.sizeRefused (s : State) (f off : Nat) : State := s.log 13 K.regSize f off

/-! ## The boot window (R88) -/

/-- The boot window is open: a port 0 boot whose phase 0x7 has not ended, with port 0 trained. -/
def State.bootWindowOpen (s : State) : Bool :=
  s.pins.life == .boot && s.port0Boot && decide (2 ≤ s.bootPhase) && decide (s.bootPhase ≤ 7) && s.portUp 0

/-- A word written to the boot window. -/
def State.writeBootWindow (s : State) (off : Nat) (v : Word) : State :=
  if s.bootWindowOpen then s.curWrite (off - 0xE00000) (leBytes 8 v.toNat) else s

/-! ## Doorbell pages (R145, R465) -/

/-- A write of a word of the doorbell pages. -/
def State.writeDoorbell (s : State) (f off : Nat) (v : Word) : State :=
  let page := (off - 0x1000000) / 0x1000
  let o := off % 0x1000
  let receipt := decide (0x800 ≤ o)
  let ring := o % 0x800 / 0x40
  let w := o % 0x40 / 8
  if w = 0 then s.dbPtr f page receipt ring (fld v 0 32)
  else if w = 3 then s.dbWord f page receipt ring 3 (fun k => if bitAt v 0 then s.clearCrossed k else s)
  else if w = 4 then s.dbWord f page receipt ring 4 (fun k => if bitAt v 0 then s.ringRestart k else s)
  else s.dbWord f page receipt ring w (fun _ => s)

/-! ## What a carrel reaches (R398, R462, Table 19-2) -/

/-- Cause for which carrel f's access at an offset is refused, if it is (Table 16-11). -/
def carrelCause (f off : Nat) (write : Bool) : Option Nat :=
  if 0x1000000 ≤ off ∧ off < 0x1400000 then (if (off - 0x1000000) / 0x1000 = f then none else some 3)
  else if !assigned off then some 4
  else if inArray off R.CFG_SS_CMD 8 3 || inArray off (R.STORE_WINDOW 0) 8 8192 || inArray off (R.STAGING 0) 8 4096 then some 5
  else if (off = R.STP_DATESTAMP ∨ off = R.STP_STATUS) ∧ write = false then none
  else
    match mboxOf off with
    | some c => if c = f then none else some 2
    | none => some 1

/-! ## Accesses -/

/-- A write of `size` bytes at an offset of the control window. -/
def State.windowStore (s : State) (who : Requester) (off size : Nat) (v : Word) : State :=
  let f := requesterFunc who
  match who with
  | .host _ =>
    if !s.alive || !s.hostReaches off then s
    else if f != 0 && !s.carrelExists f then s.log 13 K.hostTag f off
    else if badSize off size then s.sizeRefused f off
    else if 0x1000000 ≤ off ∧ off < 0x1400000 then s.writeDoorbell f off v
    else if f = 0 then (if 0xE00000 ≤ off ∧ off < 0xF00000 then s.writeBootWindow off v else s.writeReg who off v)
    else
      match carrelCause f off true with
      | some cause => s.notPermitted off f cause
      | none => s.writeMbox false f (mboxWord off) v
  | _ =>
    if !s.alive then s
    else if badSize off size then s.sizeRefused 0 off
    else if 0x1000000 ≤ off ∧ off < 0x1400000 then s.writeDoorbell 0 off v
    else if 0xE00000 ≤ off ∧ off < 0xF00000 then s.writeBootWindow off v
    else s.writeReg who off v

/-- The control window can be read: in the boot and service lives, and after a boot that failed. -/
def State.windowReads (s : State) : Bool := s.alive || s.pins.life == .failed

/-- A read of `size` bytes at an offset: its effect on the state and the word answered, zero where the access is not served. -/
def State.windowLoad (s : State) (who : Requester) (off size : Nat) : State × Word :=
  let f := requesterFunc who
  let tagged := match who with | .host _ => true | _ => false
  if !s.windowReads || (tagged && !s.hostReaches off) then (s, 0)
  else if f != 0 && !s.carrelExists f then (s.log 13 K.hostTag f off, 0)
  else if badSize off size then (s.sizeRefused f off, 0)
  else if f = 0 then (s, s.readWindow off)
  else
    match carrelCause f off false with
    | some cause => (s.notPermitted off f cause, 0)
    | none => (s, s.readWindow off)

/-- Bits of a register that a write of 1 clears (R13). -/
def clearsByOne (off : Nat) : Word :=
  match regRow off with
  | none => 0
  | some r => r.w1c ||| (if r.base = R.CIR_RING_STATUS 0 then 0x60000 else 0)

/-- A word as a register takes it when hardware events set the bits `recur` in the write's own cycle: a 1 written to such a bit clears
nothing (R14). The event's command comes first; a hardware clear of a bit that a write sets comes first too, and so the bit ends set. -/
def keepSet (off : Nat) (v recur : Word) : Word := v &&& ~~~ (recur &&& clearsByOne off)

/-- REGISTER_WRITE (R11, R13, R14, R398, R461, R462). -/
def execRegisterWrite (who : Requester) (off : BitVec 25) (size : Nat) (v : Written) (s : State) : Out :=
  .next (s.windowStore who off.toNat size (keepSet off.toNat v.v v.recur))

/-- CTL_ACCESS (R54): a 64-bit access as the manager, logged; a read's word is in the data register. -/
def State.ctlAccess (s : State) (write : Bool) (off : Nat) (v : Word) : State :=
  let s := s.irLoad 0x22 false 0
  let s := if s.windowReads then s.log 13 K.tapAccess 0 off else s
  if write then s.windowStore .tap off 8 v
  else
    match s.windowLoad .tap off 8 with
    | (s, w) => { s with tap := { s.tap with data := w } }

/-- CTL_ACCESS. -/
def execCtlAccess (write : Bool) (off : BitVec 25) (v : Written) (s : State) : Out :=
  .next (if s.tapOn then s.ctlAccess write off.toNat (keepSet off.toNat v.v v.recur) else s)

/-! ## Host requests (R384) -/

/-- Local address of the control window (Table 13-1), and the offset a host target names in it. -/
def windowBase : Nat := 0x300000000000
def windowOff (a : Nat) : Option Nat := if windowBase ≤ a ∧ a < windowBase + 0x2000000 then some (a - windowBase) else none

/-- A HOST_RSP leaves through port 0. -/
def State.hostAnswer (s : State) (f : Func) (reqId : BitVec 16) (data : List Byte) : State :=
  s.modIln (fun i => { i with answers := i.answers ++ [⟨f, reqId, data⟩] })

/-- A manager's write of the bulk part in phase 0x7 of a port 0 boot: within the first 64 MiB of the main part of the firmware region
(R88); any other host write of the near tier is dropped. -/
def State.bulkWrite (s : State) (f a : Nat) (data : List Byte) : State :=
  if s.pins.life == .boot && s.port0Boot && s.bootPhase == 7 && f == 0 && decide (s.fwBase ≤ a) && decide (a + data.length ≤ s.fwBase + 0x4000000)
    && s.nearBacked a data.length then
    { s with mem := Memory.writeN s.mem a data }
  else s

/-- A packet tagged with a carrel that does not exist names a place outside the control window: refused and logged (R80). -/
def State.tagRefused (s : State) (f a : Nat) : State := if s.alive && f != 0 && !s.carrelExists f then s.log 13 K.hostTag f a else s

/-- A host write: to the control window, or the bulk part. A doorbell write is answered by nothing (R146). -/
def State.hostStore (s : State) (f : Func) (a : Nat) (data : List Byte) (reqId : BitVec 16) (recur : Word) : State :=
  match windowOff a with
  | some off =>
    let s := s.windowStore (.host f) off data.length (keepSet off (wordOfBytes data) recur)
    if 0x1000000 ≤ off then s else s.hostAnswer f reqId []
  | none => ((s.tagRefused f.toNat a).bulkWrite f.toNat a data).hostAnswer f reqId []

/-- A host read of n bytes: what is not served reads zero. -/
def State.hostLoad (s : State) (f : Func) (a n : Nat) (reqId : BitVec 16) : State :=
  match windowOff a with
  | some off =>
    match s.windowLoad (.host f) off n with
    | (s, w) => s.hostAnswer f reqId (leBytes n w.toNat)
  | none => (s.tagRefused f.toNat a).hostAnswer f reqId (leBytes n 0)

/-- HOST_REQ (R384): on ports 1 to 3 it is refused and logged. The length of `data` is the length asked for on a read. -/
def State.hostReq (s : State) (port : Nat) (write : Bool) (f : Func) (target : Nat) (data : List Byte) (reqId : BitVec 16)
    (recur : Word) : State :=
  if !s.windowReads || !s.portUp port then s
  else if port ≠ 0 then (if s.alive then s.hostRefused f.toNat target else s)
  else if write then s.hostStore f target data reqId recur
  else s.hostLoad f target data.length reqId

/-- HOST_REQ. -/
def execHostReq (port : BitVec 2) (write : Bool) (func : Func) (target : Word) (data : HostData) (reqId : BitVec 16) (s : State) : Out :=
  .next (s.hostReq port.toNat write func target.toNat data.bytes reqId data.recur)

end Sys2Proof.Machine
end

