-- ==== Sys2Proof/Machine/Dispatch.lean ====
section
/-! DEFINITION. Dispatch: one arm per command, a direct call of its meaning. -/

namespace Sys2Proof.Machine

/-- The effect of a command on everything but the queue. -/
def exec (i : Instr) (s : State) : Host.Outcome State Fault Refusal :=
  match i with
  | .pwrokRise => Sys2Proof.Machine.execPwrokRise s
  | .pwrokFall => Sys2Proof.Machine.execPwrokFall s
  | .pinReset => Sys2Proof.Machine.execPinReset s
  | .resetNDeassert straps => Sys2Proof.Machine.execResetNDeassert straps s
  | .store => Sys2Proof.Machine.execStore s
  | .header h => Sys2Proof.Machine.execHeader h s
  | .resident r => Sys2Proof.Machine.execResident r s
  | .train stks ports => Sys2Proof.Machine.execTrain stks ports s
  | .selftest failed => Sys2Proof.Machine.execSelftest failed s
  | .bulk part => Sys2Proof.Machine.execBulk part s
  | .configure => Sys2Proof.Machine.execConfigure s
  | .bootTimeLimit => Sys2Proof.Machine.execBootTimeLimit s
  | .bootSourceTimeout => Sys2Proof.Machine.execBootSourceTimeout s
  | .cfgBootGo v => Sys2Proof.Machine.execCfgBootGo v s
  | .refclkLost => Sys2Proof.Machine.execRefclkLost s
  | .refclkRestored => Sys2Proof.Machine.execRefclkRestored s
  | .vcoreLow => Sys2Proof.Machine.execVcoreLow s
  | .tapReset => Sys2Proof.Machine.execTapReset s
  | .extest pins => Sys2Proof.Machine.execExtest pins s
  | .samplePreload pins load => Sys2Proof.Machine.execSamplePreload pins load s
  | .idcode => Sys2Proof.Machine.execIdcode s
  | .clamp => Sys2Proof.Machine.execClamp s
  | .highz => Sys2Proof.Machine.execHighz s
  | .stackWsp sel len data reply => Sys2Proof.Machine.execStackWsp sel len data reply s
  | .hushScan nbits => Sys2Proof.Machine.execHushScan nbits s
  | .ctlAccess write off v => Sys2Proof.Machine.execCtlAccess write off v s
  | .bypass code tdi => Sys2Proof.Machine.execBypass code tdi s
  | .status pec => Sys2Proof.Machine.execStatus pec s
  | .tempCompute pec => Sys2Proof.Machine.execTempCompute pec s
  | .tempSram pec => Sys2Proof.Machine.execTempSram pec s
  | .power pec => Sys2Proof.Machine.execPower pec s
  | .vcoreReq pec => Sys2Proof.Machine.execVcoreReq pec s
  | .alertCauseRead pec => Sys2Proof.Machine.execAlertCauseRead pec s
  | .alertCauseClear pec v recur => Sys2Proof.Machine.execAlertCauseClear pec v recur s
  | .ident pec => Sys2Proof.Machine.execIdent pec s
  | .powerCapRead pec => Sys2Proof.Machine.execPowerCapRead pec s
  | .powerCapWrite pec v => Sys2Proof.Machine.execPowerCapWrite pec v s
  | .alertResponse => Sys2Proof.Machine.execAlertResponse s
  | .smbusStop => Sys2Proof.Machine.execSmbusStop s
  | .stamp sense => Sys2Proof.Machine.execStamp sense s
  | .stampPulse inputB width edge => Sys2Proof.Machine.execStampPulse inputB width edge s
  | .epochFrame => Sys2Proof.Machine.execEpochFrame s
  | .stampLost => Sys2Proof.Machine.execStampLost s
  | .stampNoFrame => Sys2Proof.Machine.execStampNoFrame s
  | .stampChangeArm => Sys2Proof.Machine.execStampChangeArm s
  | .stampChangeCancel => Sys2Proof.Machine.execStampChangeCancel s
  | .relock => Sys2Proof.Machine.execRelock s
  | .opFix p => Sys2Proof.Machine.execOpFix p s
  | .planCutoff => Sys2Proof.Machine.execPlanCutoff s
  | .planDelivery => Sys2Proof.Machine.execPlanDelivery s
  | .commit section_ => Sys2Proof.Machine.execCommit section_ s
  | .load section_ => Sys2Proof.Machine.execLoad section_ s
  | .cfgSsUnlock v => Sys2Proof.Machine.execCfgSsUnlock v s
  | .ssCommandEnd verified => Sys2Proof.Machine.execSsCommandEnd verified s
  | .dbPtrWrite func page receipt ring v => Sys2Proof.Machine.execDbPtrWrite func page receipt ring v s
  | .dbRestart func page receipt ring => Sys2Proof.Machine.execDbRestart func page receipt ring s
  | .wmarkClear func page receipt ring => Sys2Proof.Machine.execWmarkClear func page receipt ring s
  | .ringEnable k ctl => Sys2Proof.Machine.execRingEnable k ctl s
  | .ringDisable k ctl => Sys2Proof.Machine.execRingDisable k ctl s
  | .ringDisableEffect k => Sys2Proof.Machine.execRingDisableEffect k s
  | .deskGrant => Sys2Proof.Machine.execDeskGrant s
  | .burstEnd d host fail => Sys2Proof.Machine.execBurstEnd d host fail s
  | .receiptWrite k fail => Sys2Proof.Machine.execReceiptWrite k fail s
  | .notifyHoldoffEnd k => Sys2Proof.Machine.execNotifyHoldoffEnd k s
  | .enqueueAppend n => Sys2Proof.Machine.execEnqueueAppend n s
  | .enqLimitWrite c v => Sys2Proof.Machine.execEnqLimitWrite c v s
  | .passTableRead c tag => Sys2Proof.Machine.execPassTableRead c tag s
  | .noProgress c tag => Sys2Proof.Machine.execNoProgress c tag s
  | .catCancelSlip c tag => Sys2Proof.Machine.execCatCancelSlip c tag s
  | .catCancelCarrel c => Sys2Proof.Machine.execCatCancelCarrel c s
  | .catCancelRing k => Sys2Proof.Machine.execCatCancelRing k s
  | .catSnapClear c => Sys2Proof.Machine.execCatSnapClear c s
  | .catShareWrite c v => Sys2Proof.Machine.execCatShareWrite c v s
  | .accession slot tr => Sys2Proof.Machine.execAccession slot tr s
  | .accessionDone slot fail => Sys2Proof.Machine.execAccessionDone slot fail s
  | .copyChunk c tag host fail => Sys2Proof.Machine.execCopyChunk c tag host fail s
  | .register c tag => Sys2Proof.Machine.execRegister c tag s
  | .release c tag => Sys2Proof.Machine.execRelease c tag s
  | .pin c tag => Sys2Proof.Machine.execPin c tag s
  | .unpin c tag => Sys2Proof.Machine.execUnpin c tag s
  | .prefetch c tag => Sys2Proof.Machine.execPrefetch c tag s
  | .evict c tag => Sys2Proof.Machine.execEvict c tag s
  | .leafMoveStart n => Sys2Proof.Machine.execLeafMoveStart n s
  | .leafMoveDone n writeFails => Sys2Proof.Machine.execLeafMoveDone n writeFails s
  | .preloadStart sh => Sys2Proof.Machine.execPreloadStart sh s
  | .preloadDone sh fail => Sys2Proof.Machine.execPreloadDone sh fail s
  | .passStart sh => Sys2Proof.Machine.execPassStart sh s
  | .periodOverrun sh => Sys2Proof.Machine.execPeriodOverrun sh s
  | .passEnd sh => Sys2Proof.Machine.execPassEnd sh s
  | .shelfWithdrawn sh => Sys2Proof.Machine.execShelfWithdrawn sh s
  | .folioHead sh core e => Sys2Proof.Machine.execFolioHead sh core e s
  | .folioComplete sh core e => Sys2Proof.Machine.execFolioComplete sh core e s
  | .folioErrorEnd sh core e n code addr => Sys2Proof.Machine.execFolioErrorEnd sh core e n code addr s
  | .nop sh core e => Sys2Proof.Machine.execNop sh core e s
  | .mma sh core => Sys2Proof.Machine.execMma sh core s
  | .mmaSparse sh core => Sys2Proof.Machine.execMmaSparse sh core s
  | .accClear sh core => Sys2Proof.Machine.execAccClear sh core s
  | .accDrain sh core => Sys2Proof.Machine.execAccDrain sh core s
  | .accStore sh core => Sys2Proof.Machine.execAccStore sh core s
  | .accLoad sh core => Sys2Proof.Machine.execAccLoad sh core s
  | .elemwiseAdd sh core => Sys2Proof.Machine.execElemwiseAdd sh core s
  | .elemwiseSub sh core => Sys2Proof.Machine.execElemwiseSub sh core s
  | .elemwiseMul sh core => Sys2Proof.Machine.execElemwiseMul sh core s
  | .elemwiseFma sh core => Sys2Proof.Machine.execElemwiseFma sh core s
  | .elemwiseMax sh core => Sys2Proof.Machine.execElemwiseMax sh core s
  | .elemwiseMin sh core => Sys2Proof.Machine.execElemwiseMin sh core s
  | .convert sh core => Sys2Proof.Machine.execConvert sh core s
  | .scale sh core => Sys2Proof.Machine.execScale sh core s
  | .exp sh core => Sys2Proof.Machine.execExp sh core s
  | .rsqrt sh core => Sys2Proof.Machine.execRsqrt sh core s
  | .recip sh core => Sys2Proof.Machine.execRecip sh core s
  | .reduceSum sh core => Sys2Proof.Machine.execReduceSum sh core s
  | .reduceMax sh core => Sys2Proof.Machine.execReduceMax sh core s
  | .reduceMin sh core => Sys2Proof.Machine.execReduceMin sh core s
  | .reduceSumsq sh core => Sys2Proof.Machine.execReduceSumsq sh core s
  | .copy sh core => Sys2Proof.Machine.execCopy sh core s
  | .addAt sh core => Sys2Proof.Machine.execAddAt sh core s
  | .fill sh core => Sys2Proof.Machine.execFill sh core s
  | .gather sh core => Sys2Proof.Machine.execGather sh core s
  | .scatter sh core => Sys2Proof.Machine.execScatter sh core s
  | .signalRemote sh core => Sys2Proof.Machine.execSignalRemote sh core s
  | .wait sh core e => Sys2Proof.Machine.execWait sh core e s
  | .select sh core e => Sys2Proof.Machine.execSelect sh core e s
  | .enqueue sh core => Sys2Proof.Machine.execEnqueue sh core s
  | .slipWrite sh core => Sys2Proof.Machine.execSlipWrite sh core s
  | .tallySignal sh sig => Sys2Proof.Machine.execTallySignal sh sig s
  | .windowWrite a => Sys2Proof.Machine.execWindowWrite a s
  | .lendStart sh => Sys2Proof.Machine.execLendStart sh s
  | .lendEnd sh => Sys2Proof.Machine.execLendEnd sh s
  | .clearStart sh => Sys2Proof.Machine.execClearStart sh s
  | .clearDone sh verified => Sys2Proof.Machine.execClearDone sh verified s
  | .stackAdd op => Sys2Proof.Machine.execStackAdd op s
  | .fetchAdd op => Sys2Proof.Machine.execFetchAdd op s
  | .compareSwap op compare => Sys2Proof.Machine.execCompareSwap op compare s
  | .retrainSlotEnd stk lost => Sys2Proof.Machine.execRetrainSlotEnd stk lost s
  | .farLinkDown p => Sys2Proof.Machine.execFarLinkDown p s
  | .farLinkUp p => Sys2Proof.Machine.execFarLinkUp p s
  | .nearExtentWrite c stk v => Sys2Proof.Machine.execNearExtentWrite c stk v s
  | .farExtentWrite c v => Sys2Proof.Machine.execFarExtentWrite c v s
  | .regShareWrite c v => Sys2Proof.Machine.execRegShareWrite c v s
  | .kprQuery v => Sys2Proof.Machine.execKprQuery v s
  | .testStateRequest stk => Sys2Proof.Machine.execTestStateRequest stk s
  | .testStateEnter stk => Sys2Proof.Machine.execTestStateEnter stk s
  | .testStateLeave stk t => Sys2Proof.Machine.execTestStateLeave stk t s
  | .shiftInstruction stk len reply => Sys2Proof.Machine.execShiftInstruction stk len reply s
  | .shiftData stk len reply => Sys2Proof.Machine.execShiftData stk len reply s
  | .ilnWrite port p => Sys2Proof.Machine.execIlnWrite port p s
  | .ilnSignal port p => Sys2Proof.Machine.execIlnSignal port p s
  | .ilnRead port p => Sys2Proof.Machine.execIlnRead port p s
  | .ilnAdd port p => Sys2Proof.Machine.execIlnAdd port p s
  | .ilnResponse port p => Sys2Proof.Machine.execIlnResponse port p s
  | .ilnAck port p => Sys2Proof.Machine.execIlnAck port p s
  | .ilnResend port p => Sys2Proof.Machine.execIlnResend port p s
  | .ilnSync port p => Sys2Proof.Machine.execIlnSync port p s
  | .ilnSyncAck port p => Sys2Proof.Machine.execIlnSyncAck port p s
  | .hostReq port write func target data reqId => Sys2Proof.Machine.execHostReq port write func target data reqId s
  | .hostRsp port p => Sys2Proof.Machine.execHostRsp port p s
  | .retryTimeout peer channel => Sys2Proof.Machine.execRetryTimeout peer channel s
  | .ackTimer peer channel => Sys2Proof.Machine.execAckTimer peer channel s
  | .syncRetry peer => Sys2Proof.Machine.execSyncRetry peer s
  | .ilnLinkLost peer => Sys2Proof.Machine.execIlnLinkLost peer s
  | .ilnRemoteTimeout reqId => Sys2Proof.Machine.execIlnRemoteTimeout reqId s
  | .hostTimeout reqId => Sys2Proof.Machine.execHostTimeout reqId s
  | .peerIdle peer => Sys2Proof.Machine.execPeerIdle peer s
  | .portDown p => Sys2Proof.Machine.execPortDown p s
  | .portTrained p t => Sys2Proof.Machine.execPortTrained p t s
  | .disable p => Sys2Proof.Machine.execDisable p s
  | .retrain p => Sys2Proof.Machine.execRetrain p s
  | .routeWrite n v => Sys2Proof.Machine.execRouteWrite n v s
  | .epochArm => Sys2Proof.Machine.execEpochArm s
  | .epochCancel => Sys2Proof.Machine.execEpochCancel s
  | .create c elastic => Sys2Proof.Machine.execCreate c elastic s
  | .openCarrel c => Sys2Proof.Machine.execOpenCarrel c s
  | .freeze c => Sys2Proof.Machine.execFreeze c s
  | .carrelFrozen c => Sys2Proof.Machine.execCarrelFrozen c s
  | .thaw c => Sys2Proof.Machine.execThaw c s
  | .save c => Sys2Proof.Machine.execSave c s
  | .restore c => Sys2Proof.Machine.execRestore c s
  | .reset c squash => Sys2Proof.Machine.execReset c squash s
  | .drainLimit c => Sys2Proof.Machine.execDrainLimit c s
  | .drainComplete c => Sys2Proof.Machine.execDrainComplete c s
  | .destroy c => Sys2Proof.Machine.execDestroy c s
  | .roomAdd c r => Sys2Proof.Machine.execRoomAdd c r s
  | .roomRemove c r => Sys2Proof.Machine.execRoomRemove c r s
  | .mboxWrite manager c w v => Sys2Proof.Machine.execMboxWrite manager c w v s
  | .upSet c => Sys2Proof.Machine.execUpSet c s
  | .upClear c => Sys2Proof.Machine.execUpClear c s
  | .downSet c => Sys2Proof.Machine.execDownSet c s
  | .downClear c => Sys2Proof.Machine.execDownClear c s
  | .cancelSlip c => Sys2Proof.Machine.execCancelSlip c s
  | .cancelRing c => Sys2Proof.Machine.execCancelRing c s
  | .cancelAll c => Sys2Proof.Machine.execCancelAll c s
  | .query c => Sys2Proof.Machine.execQuery c s
  | .belDoorbell who n => Sys2Proof.Machine.execBelDoorbell who n s
  | .belPendSet who n => Sys2Proof.Machine.execBelPendSet who n s
  | .belComplete n => Sys2Proof.Machine.execBelComplete n s
  | .bellRoute => Sys2Proof.Machine.execBellRoute s
  | .belQHeadWrite k v => Sys2Proof.Machine.execBelQHeadWrite k v s
  | .ledgerMessage src natural => Sys2Proof.Machine.execLedgerMessage src natural s
  | .ldgLogHead v => Sys2Proof.Machine.execLdgLogHead v s
  | .logConfigWrite ctl v => Sys2Proof.Machine.execLogConfigWrite ctl v s
  | .ldgBlockReset v => Sys2Proof.Machine.execLdgBlockReset v s
  | .ldgOosClear v => Sys2Proof.Machine.execLdgOosClear v s
  | .ldgHeartbeat v => Sys2Proof.Machine.execLdgHeartbeat v s
  | .watchdogExpired => Sys2Proof.Machine.execWatchdogExpired s
  | .hush => Sys2Proof.Machine.execHush s
  | .scanStart => Sys2Proof.Machine.execScanStart s
  | .scanDone => Sys2Proof.Machine.execScanDone s
  | .cntClear => Sys2Proof.Machine.execCntClear s
  | .cntSel v => Sys2Proof.Machine.execCntSel v s
  | .wfgCmd v => Sys2Proof.Machine.execWfgCmd v s
  | .wfgDone => Sys2Proof.Machine.execWfgDone s
  | .onlineSelftestFull r => Sys2Proof.Machine.execOnlineSelftestFull r s
  | .onlineSelftestMemory r => Sys2Proof.Machine.execOnlineSelftestMemory r s
  | .selftestDone failed => Sys2Proof.Machine.execSelftestDone failed s
  | .bisectRelease v => Sys2Proof.Machine.execBisectRelease v s
  | .domainOn d => Sys2Proof.Machine.execDomainOn d s
  | .domainOff d => Sys2Proof.Machine.execDomainOff d s
  | .domainRetain d => Sys2Proof.Machine.execDomainRetain d s
  | .domainSwitchDone => Sys2Proof.Machine.execDomainSwitchDone s
  | .thermalSample r compute sram => Sys2Proof.Machine.execThermalSample r compute sram s
  | .registerWrite who off size v => Sys2Proof.Machine.execRegisterWrite who off size v s
  | .hushRelease => Sys2Proof.Machine.execHushRelease s
  | .shelfJoin sh => Sys2Proof.Machine.execShelfJoin sh s
  | .zeroWriteDone c tag => Sys2Proof.Machine.execZeroWriteDone c tag s
  | .waitForInterrupt k => Sys2Proof.Machine.execWaitForInterrupt k s
  | .normalBankReturn k => Sys2Proof.Machine.execNormalBankReturn k s

end Sys2Proof.Machine
end

