-- ==== Sys2Proof/Safety.lean ====
section
/-! DEFINITION. What counts as a sound state and a sound step, in the terms the statements use: the canonical forms of the memories and
of the register file, outcomes, and frames by component of the state. -/

namespace Sys2Proof.Machine

/-- The canonical form of a register file: offsets rising, no register listed that holds its Reset column. -/
def RegFile.wf (f : RegFile) : Bool := Tab.wf f regReset

/-- The memories are in their canonical form: local memory (Table 13-1) and curator shared memory. -/
def State.memWf (s : State) : Bool := Memory.wf s.mem && Memory.wf s.curMem

/-- Memories and registers are in their canonical forms, so that equal contents are equal data. -/
def State.canon (s : State) : Bool := s.memWf && RegFile.wf s.rf

/-- An outcome that is a next state: the block neither faulted nor refused. -/
def Goes (o : Out) : Prop := ∃ t, o = .next t

/-- The outcome is a next state with a property. -/
def GoesTo (o : Out) (p : State → Prop) : Prop := ∃ t, o = .next t ∧ p t

/-- The command's effect is a state with a property, in which the Catalogue then makes the moves that have become due (R178). -/
def SettlesTo (o : Out) (p : State → Prop) : Prop := ∃ t, o = .next t.settle ∧ p t

/-- Components of the state but for the queue, as State names its fields. -/
inductive Comp where
  | freeCtr | rf | mem | ecc | curMem | pins | tap | smb | ss | boot | stp | cir | cat | bind | shelves | kpr | iln | crl | bel | ldg | pwr
  | obs | hostOut
  deriving DecidableEq, Repr

/-- A component is the same in two states. -/
def Comp.same (c : Comp) (s t : State) : Prop :=
  match c with
  | .freeCtr => t.freeCtr = s.freeCtr
  | .rf => t.rf = s.rf
  | .mem => t.mem = s.mem
  | .ecc => t.ecc = s.ecc
  | .curMem => t.curMem = s.curMem
  | .pins => t.pins = s.pins
  | .tap => t.tap = s.tap
  | .smb => t.smb = s.smb
  | .ss => t.ss = s.ss
  | .boot => t.boot = s.boot
  | .stp => t.stp = s.stp
  | .cir => t.cir = s.cir
  | .cat => t.cat = s.cat
  | .bind => t.bind = s.bind
  | .shelves => t.shelves = s.shelves
  | .kpr => t.kpr = s.kpr
  | .iln => t.iln = s.iln
  | .crl => t.crl = s.crl
  | .bel => t.bel = s.bel
  | .ldg => t.ldg = s.ldg
  | .pwr => t.pwr = s.pwr
  | .obs => t.obs = s.obs
  | .hostOut => t.hostOut = s.hostOut

/-- A frame: the queue is unchanged, and so is every component but those listed. -/
def OnlyIn (l : List Comp) (s t : State) : Prop := t.pending = s.pending ∧ ∀ c, c ∉ l → c.same s t

/-- Every register but the one at an offset reads as before. -/
def OtherRegs (off : Nat) (s t : State) : Prop := ∀ o, o ≠ off → t.reg o = s.reg o

/-- Every byte of local memory outside [a, a + n) reads as before. -/
def OtherBytes (a n : Nat) (s t : State) : Prop := ∀ x, (x < a ∨ a + n ≤ x) → Memory.read t.mem x = Memory.read s.mem x

/-- Record id has left the Catalogue, or is retired with this status. -/
def State.slipOver (s : State) (id : Nat) (code : Code) : Prop := ∀ y, s.slip id = some y → y.st = .retired ∧ y.status = code

/-- Record id has left the Catalogue, or is retired with a success status. -/
def State.slipDone (s : State) (id : Nat) : Prop := ∀ y, s.slip id = some y → y.st = .retired ∧ isSuccess y.status = true

/-- A HOLDING slip of one HOP has its turn (R341): it is READY, without a failure, in an ACTIVE carrel of a die that runs, and no other
HOLDING slip names its call number. -/
abbrev State.holdTurn (s : State) (hop : Nat) (c : Func) (tag : BitVec 32) (id : Nat) (x : Slip) : Prop :=
  s.running = true ∧ s.slipByTag c.toNat tag.toNat = some (id, x) ∧ s.slip id = some x ∧ x.typ = 6 ∧ x.hop = hop ∧ x.st = .ready
    ∧ x.fail = none ∧ s.carrelState c.toNat = 2 ∧ s.sameCall id x = []

/-- No wrong check bits are stored and no injector is armed (R309, R421). -/
abbrev State.errorFree (s : State) : Prop := s.ecc = [] ∧ ∀ i < 8, s.regBit (R.LDG_INJECT i) 16 = false

/-- No posted traffic is held back at a shelf (R265). -/
abbrev State.noneHeld (s : State) : Prop := ∀ p ∈ s.shelves, p.2.posted = []

/-- n bytes of a local space of core j from byte a, as a folio reads them (R251). -/
def State.spBytes (s : State) (c : PassCtx) (j sp a n : Nat) : List Byte := (s.spRead c j sp a n).2.1

/-- Core j of shelf sh holds a started folio x of an opcode, for the running pass in context c (R268). -/
abbrev State.runsFolio (s : State) (sh j e op : Nat) (c : PassCtx) (x : Exec) : Prop :=
  s.running = true ∧ s.runCtx sh = some c ∧ (s.streamOf sh j e).startedOp op = some x

/-- The folio of an executing entry. -/
def Exec.folio (x : Exec) : Folio := ⟨x.slot, x.words⟩

/-- Folio x of a stream has been performed, and no other shelf and no other core's state is changed. -/
def State.performs (s t : State) (sh j e : Nat) (x : Exec) : Prop :=
  (t.streamOf sh j e).execs = (s.streamOf sh j e).execs.map (fun y =>
      if y.slot = x.slot ∧ y.lap = x.lap ∧ y.phase = .started then { y with phase := .performed } else y)
    ∧ (∀ k, k ≠ sh → t.shelf k = s.shelf k) ∧ ∀ i, i ≠ j → t.coreOf sh i = s.coreOf sh i

/-- Every byte of local memory is as before but n bytes of the loan from byte a, which change only where the space is the loan. -/
def OutsideSp (c : PassCtx) (sp a n : Nat) (s t : State) : Prop :=
  OtherBytes (storeAddr c.sh (c.base + a)) (if sp = 0 then n else 0) s t

/-- Rows, byte of row q, and bytes of a row of an operand's walk (R253). -/
def Folio.rowCount (f : Folio) (o : Opnd) : Nat := ((f.walk o).map (fun w => w.1)).getD 0
def Folio.rowAt (f : Folio) (o : Opnd) (j q : Nat) : Nat := f.start o j + q * f.stride o
def Folio.rowLen (f : Folio) (o : Opnd) : Nat := ((f.walk o).map (fun w => w.2.2)).getD 0

/-- The destination lies in the loan, inside the shelf's store, or in staging (R251, R254). -/
def Folio.destFits (f : Folio) (c : PassCtx) (j : Nat) : Bool :=
  f.space .d == 1 || (f.space .d == 0 && (f.span .d j).all (fun w => decide (c.base + w.2 ≤ 0x80000)))

/-- No row of D is written over a later row of D or of one of the operands, so that every row is read as the folio found it. -/
def Folio.rowsApart (f : Folio) (j : Nat) (os : List Opnd) : Bool :=
  (List.range (f.rowCount .d)).all (fun r => (List.range (f.rowCount .d)).all (fun q => decide (q ≤ r) || (Opnd.d :: os).all (fun o =>
    f.space o != f.space .d || decide (f.rowAt .d j r + f.rowLen .d ≤ f.rowAt o j q) || decide (f.rowAt o j q + f.rowLen o ≤ f.rowAt .d j r))))

/-- A folio x of core j that writes rows of D has run on s (R253): row q holds what `row q` gives where no row of D is written over a later
row, and nothing outside D's rows changes in local memory or in staging. -/
def State.rowsRan (s t : State) (c : PassCtx) (j e : Nat) (x : Exec) (os : List Opnd) (row : Nat → List Byte) : Prop :=
  let f := x.folio
  s.performs t c.sh j e x
    ∧ (∀ a, (∀ q < f.rowCount .d, f.space .d ≠ 0 ∨ a < storeAddr c.sh (c.base + f.rowAt .d j q)
        ∨ storeAddr c.sh (c.base + f.rowAt .d j q) + f.rowLen .d ≤ a) → Memory.read t.mem a = Memory.read s.mem a)
    ∧ (∀ a, (∀ q < f.rowCount .d, f.space .d ≠ 1 ∨ a < f.rowAt .d j q ∨ f.rowAt .d j q + f.rowLen .d ≤ a) →
        t.spBytes c j 1 a 1 = s.spBytes c j 1 a 1)
    ∧ (t.coreOf c.sh j).acc = (s.coreOf c.sh j).acc ∧ (t.coreOf c.sh j).tally = (s.coreOf c.sh j).tally
    ∧ t.kpr = s.kpr ∧ t.iln = s.iln ∧ t.curMem = s.curMem
    ∧ (f.rowsApart j os = true → ∀ q < f.rowCount .d, t.spBytes c j (f.space .d) (f.rowAt .d j q) (row q).length = row q)

/-- n bytes of near tier at local address a that a carrel may use, that serve, and that no watchpoint looks at (R335, R329, R453). -/
abbrev State.servesNear (s : State) (c a n : Nat) : Prop :=
  a + n ≤ 0x6000000000 ∧ s.memAdmitted c a n = true ∧ (∀ i < n, s.byteStatus (a + i) = none)
    ∧ ∀ w < 64, s.regBit (R.OBS_WP_BASE w) 48 = false

/-- Local address of an external side of a row. -/
def extAddr (ext : Option Ext) (side : Nat × Int) : Nat := Ext.at ext side.2 % 2 ^ 48

/-- One side of a row of a transfer, of n bytes, is local, or near tier of this chip that serves its carrel. -/
abbrev State.sideReady (s : State) (c : PassCtx) (ext : Option Ext) (n : Nat) (side : Nat × Int) : Prop :=
  side.1 = 3 → s.ownChip (Ext.at ext side.2) = true ∧ s.servesNear c.e.carrel (extAddr ext side) n

/-- The n bytes of a side of a row. -/
def State.sideBytes (s : State) (c : PassCtx) (j : Nat) (ext : Option Ext) (n : Nat) (side : Nat × Int) : List Byte :=
  if side.1 = 3 then Memory.readN s.mem (extAddr ext side) n else s.spBytes c j side.1 side.2.toNat n

/-- Where a side of a row begins in its space. -/
def sideStart (ext : Option Ext) (side : Nat × Int) : Nat := if side.1 = 3 then extAddr ext side else side.2.toNat

/-- Two destinations of n bytes in one space share no byte. -/
def sidesApart (ext : Option Ext) (n : Nat) (a b : Nat × Int) : Prop :=
  sideStart ext a + n ≤ sideStart ext b ∨ sideStart ext b + n ≤ sideStart ext a

/-- A byte of local memory lies outside a destination of n bytes. -/
def outsideSide (c : PassCtx) (ext : Option Ext) (n : Nat) (side : Nat × Int) (a : Nat) : Prop :=
  let lo := if side.1 = 3 then extAddr ext side else storeAddr c.sh (c.base + side.2.toNat)
  (side.1 = 3 ∨ side.1 = 0) → a < lo ∨ lo + n ≤ a

/-- A stream-engine folio x has been performed with all of its rows moved. -/
def State.moved (s t : State) (sh j : Nat) (x : Exec) (rows : Nat) : Prop :=
  (t.streamOf sh j 2).execs = (s.streamOf sh j 2).execs.map (fun y => if y.slot = x.slot ∧ y.lap = x.lap then
      { y with moved := y.moved + rows, phase := if y.phase = .started then .performed else y.phase } else y)
    ∧ (∀ k, k ≠ sh → t.shelf k = s.shelf k) ∧ ∀ i, i ≠ j → t.coreOf sh i = s.coreOf sh i

/-- A packet of a class arrives well formed at a streaming port of a chip that runs, for this chip, from a peer in its table (R361, R371). -/
abbrev State.hears (s : State) (port : BitVec 2) (p : Packet) (cls : Nat) (x : Peer) : Prop :=
  s.inService = true ∧ s.portStreams port.toNat = true ∧ s.hushed = false ∧ Packet.crcRight p = true ∧ malformed p cls = false
    ∧ p.dst.toNat = s.chip ∧ s.peer p.src.toNat = some x ∧ x.chans.length = 4 ∧ (p.holdover && !x.holdover) = false

/-- The packet is the next in sequence of a direction that is synced (R366). -/
abbrev Peer.expects (x : Peer) (p : Packet) : Prop := x.inSync = true ∧ p.seq = (x.chan p.channel.toNat).expected

/-- A channel of a peer as the endpoint keeps it. -/
def State.chanOf (s : State) (peer ch : Nat) : Chan := ((s.peer peer).getD (Peer.fresh 0)).chan ch

/-- The packet has been taken: its channel expects the next sequence number. -/
def Accepted (s t : State) (p : Packet) : Prop :=
  (t.chanOf p.src.toNat p.channel.toNat).expected = (s.chanOf p.src.toNat p.channel.toNat).expected + 1

/-- A RESPONSE to a request, with a status and data, waits for its peer or is on its way (R362, R372). -/
def State.answered (t : State) (p : Packet) (status : Code) (data : List Byte) : Prop :=
  ∃ q ∈ (t.chanOf p.src.toNat 3).waiting ++ (t.chanOf p.src.toNat 3).unacked.map (·.packet),
    q.cls = 5 ∧ q.reqId = p.reqId ∧ q.target = status.setWidth 64 ∧ q.payload = data

/-- Checks 2 to 4 of Table 13-4 pass: the epoch, the holdover mark, the carrel. -/
abbrev State.receives (s : State) (p : Packet) : Prop :=
  s.epochMatches p.epoch = true ∧ (p.holdover && s.regBit R.ILN_CTL 1) = false ∧ s.carrelExists p.carrel.toNat = true

/-- A route leads to a peer through a port that streams. -/
def State.reaches (s : State) (peer port : Nat) : Prop := ∃ i, s.routeFor peer = some i ∧ s.routePort i = port ∧ s.portStreams port = true

/-- Who reaches the registers as the manager (R80, R83, R462): the TAP and the curators in the boot and service lives, and the manager's host
traffic in service. -/
def State.manages (s : State) (who : Requester) : Prop :=
  s.alive = true ∧ (who = .tap ∨ (∃ k, who = .curator k) ∨ (who = .host 0 ∧ s.inService = true))

/-- A carrel command for c can be taken: none is in progress, and c is in one of the states Table 14-2 allows. -/
abbrev State.takesCmd (s : State) (c : Func) (states : List Nat) : Prop :=
  s.alive = true ∧ s.crl.cmd = none ∧ c ≠ 0 ∧ s.carrelState c.toNat ∈ states

/-- A carrel command has completed with a RESULT (R387). -/
def CmdResult (t : State) (r : Nat) : Prop := t.field R.CRL_CMD_STATUS 0 5 = 2 * r ∧ t.regBit R.CRL_EVENT 0 = true ∧ t.crl.cmd = none

/-- The command has completed with SUCCESS after the moves that had become due (R178), from a state with a property. -/
def SettlesDone (o : Out) (p : State → Prop) : Prop := ∃ t, o = .next (t.settle.cmdDone 1) ∧ p t

/-- What a carrel command may touch beyond its own effect: its registers, its Bell arrival, and the manager's notify write. -/
def cmdComps : List Comp := [.rf, .bel, .iln, .crl, .hostOut]

/-- The components of the state that each command can change, whatever the state. -/
def touches : Instr → List Comp
  | .waitForInterrupt _ | .normalBankReturn _ =>
    [.bel]
  | .cfgBootGo _ =>
    [.boot]
  | .ldgOosClear _ | .ldgHeartbeat _ =>
    [.ldg]
  | .cntClear =>
    [.obs]
  | .refclkRestored =>
    [.pins]
  | .catShareWrite _ _ | .regShareWrite _ _ | .kprQuery _ | .testStateRequest _ | .testStateEnter _ | .shiftInstruction _ _ _
  | .shiftData _ _ _ | .carrelFrozen _ | .mboxWrite _ _ _ _ | .upClear _ | .belQHeadWrite _ _ | .cntSel _ =>
    [.rf]
  | .preloadStart _ | .clearStart _ | .bisectRelease _ =>
    [.shelves]
  | .status _ | .tempCompute _ | .tempSram _ | .power _ | .vcoreReq _ | .alertCauseRead _ | .alertCauseClear _ _ _ | .ident _
  | .powerCapRead _ | .powerCapWrite _ _ | .alertResponse | .smbusStop =>
    [.smb]
  | .commit _ | .load _ | .cfgSsUnlock _ =>
    [.ss]
  | .relock =>
    [.stp]
  | .tapReset | .extest _ | .samplePreload _ _ | .idcode | .clamp | .highz | .stackWsp _ _ _ _ | .bypass _ _ =>
    [.pins, .tap]
  | .farExtentWrite _ _ | .routeWrite _ _ | .belComplete _ =>
    [.rf, .bel]
  | .catSnapClear _ =>
    [.rf, .cat]
  | .ringEnable _ _ | .enqLimitWrite _ _ =>
    [.rf, .cir]
  | .epochArm | .epochCancel =>
    [.rf, .iln]
  | .dbRestart _ _ _ _ | .wmarkClear _ _ _ _ =>
    [.rf, .ldg]
  | .hush | .scanStart | .wfgCmd _ | .onlineSelftestFull _ | .onlineSelftestMemory _ =>
    [.rf, .obs]
  | .bootTimeLimit | .bootSourceTimeout =>
    [.rf, .pins]
  | .domainOn _ | .domainOff _ | .domainRetain _ =>
    [.rf, .pwr]
  | .stampChangeArm | .stampChangeCancel =>
    [.rf, .stp]
  | .notifyHoldoffEnd _ =>
    [.cir, .iln, .hostOut]
  | .pwrokRise =>
    [.pins, .smb, .ldg]
  | .belDoorbell _ _ | .belPendSet _ _ =>
    [.rf, .bel, .ldg]
  | .deskGrant =>
    [.rf, .cir, .crl]
  | .retrain _ =>
    [.rf, .iln, .bel]
  | .downSet _ | .downClear _ =>
    [.rf, .iln, .hostOut]
  | .header _ =>
    [.rf, .pins, .boot]
  | .ssCommandEnd _ =>
    [.rf, .ss, .bel]
  | .leafMoveStart _ =>
    [.rf, .cat, .kpr, .crl]
  | .bellRoute =>
    [.rf, .ecc, .curMem, .bel]
  | .upSet _ =>
    [.rf, .iln, .bel, .hostOut]
  | .ilnAck _ _ | .ilnResend _ _ | .ilnSync _ _ | .ilnSyncAck _ _ =>
    [.rf, .iln, .bel, .ldg]
  | .nearExtentWrite _ _ _ =>
    [.rf, .kpr, .bel, .ldg]
  | .bulk _ =>
    [.rf, .mem, .pins, .boot]
  | .refclkLost =>
    [.rf, .pins, .smb, .ldg]
  | .tallySignal _ _ =>
    [.rf, .shelves, .ldg, .pwr]
  | .stampPulse _ _ _ | .epochFrame | .stampLost | .stampNoFrame =>
    [.rf, .stp, .bel, .ldg]
  | .hushScan _ =>
    [.freeCtr, .rf, .pins, .tap, .obs]
  | .dbPtrWrite _ _ _ _ _ =>
    [.rf, .cir, .iln, .ldg, .hostOut]
  | .resident _ =>
    [.rf, .curMem, .pins, .boot, .ldg]
  | .freeze _ =>
    [.rf, .iln, .crl, .bel, .hostOut]
  | .farLinkDown _ | .portDown _ | .disable _ =>
    [.rf, .kpr, .iln, .bel, .ldg]
  | .train _ _ =>
    [.rf, .pins, .boot, .kpr, .ldg]
  | .store =>
    [.rf, .smb, .ss, .boot, .stp]
  | .planDelivery =>
    [.rf, .stp, .shelves, .ldg, .obs]
  | .peerIdle _ =>
    [.stp, .shelves, .iln, .ldg, .obs]
  | .ldgLogHead _ | .logConfigWrite _ _ =>
    [.rf, .mem, .iln, .bel, .ldg, .hostOut]
  | .folioComplete _ _ _ | .domainSwitchDone =>
    [.rf, .mem, .shelves, .bel, .ldg, .pwr]
  | .vcoreLow | .thermalSample _ _ _ =>
    [.rf, .pins, .smb, .bel, .ldg, .pwr]
  | .resetNDeassert _ =>
    [.rf, .pins, .tap, .ss, .boot, .stp]
  | .roomAdd _ _ | .roomRemove _ _ =>
    [.rf, .shelves, .iln, .crl, .bel, .hostOut]
  | .periodOverrun _ =>
    [.rf, .stp, .cat, .shelves, .ldg, .obs]
  | .retryTimeout _ _ | .ackTimer _ _ | .syncRetry _ =>
    [.rf, .stp, .shelves, .iln, .ldg, .obs]
  | .lendStart _ | .lendEnd _ =>
    [.rf, .stp, .shelves, .ldg, .pwr, .obs]
  | .ilnRead _ _ =>
    [.rf, .ecc, .kpr, .iln, .bel, .ldg, .obs]
  | .testStateLeave _ _ =>
    [.rf, .mem, .ecc, .cir, .cat, .kpr, .ldg]
  | .stackAdd _ | .fetchAdd _ | .compareSwap _ _ =>
    [.rf, .mem, .ecc, .kpr, .bel, .ldg, .obs]
  | .shelfJoin _ =>
    [.rf, .mem, .ecc, .shelves, .iln, .crl, .hostOut]
  | .configure =>
    [.rf, .pins, .boot, .cir, .shelves, .kpr, .ldg]
  | .retrainSlotEnd _ _ =>
    [.rf, .stp, .shelves, .kpr, .bel, .ldg, .obs]
  | .drainLimit _ =>
    [.stp, .shelves, .kpr, .iln, .crl, .ldg, .obs]
  | .create _ _ =>
    [.rf, .cir, .cat, .kpr, .iln, .crl, .bel, .hostOut]
  | .ilnAdd _ _ =>
    [.rf, .mem, .ecc, .kpr, .iln, .bel, .ldg, .obs]
  | .opFix _ =>
    [.rf, .smb, .stp, .shelves, .bel, .ldg, .pwr, .obs]
  | .nop _ _ _ | .accClear _ _ | .signalRemote _ _ | .wait _ _ _ =>
    [.freeCtr, .rf, .mem, .cat, .shelves, .iln, .bel, .ldg, .pwr]
  | .folioHead _ _ _ =>
    [.freeCtr, .rf, .mem, .ecc, .cat, .shelves, .bel, .ldg, .pwr]
  | .passTableRead _ _ | .catCancelSlip _ _ | .catCancelCarrel _ | .catCancelRing _ | .register _ _ | .release _ _ | .pin _ _
  | .unpin _ _ | .prefetch _ _ | .evict _ _ | .farLinkUp _ =>
    [.rf, .ecc, .cir, .cat, .bind, .kpr, .bel, .ldg, .obs]
  | .windowWrite _ | .ilnWrite _ _ | .ilnSignal _ _ =>
    [.rf, .mem, .ecc, .shelves, .iln, .bel, .ldg, .pwr, .obs]
  | .folioErrorEnd _ _ _ _ _ _ =>
    [.freeCtr, .rf, .mem, .cat, .shelves, .kpr, .iln, .bel, .ldg, .pwr]
  | .enqueue _ _ | .slipWrite _ _ =>
    [.freeCtr, .rf, .mem, .cir, .cat, .shelves, .iln, .bel, .ldg, .pwr]
  | .mma _ _ | .mmaSparse _ _ | .accDrain _ _ | .accStore _ _ | .accLoad _ _ | .elemwiseAdd _ _ | .elemwiseSub _ _
  | .elemwiseMul _ _ | .elemwiseFma _ _ | .elemwiseMax _ _ | .elemwiseMin _ _ | .convert _ _ | .scale _ _ | .exp _ _ | .rsqrt _ _
  | .recip _ _ | .reduceSum _ _ | .reduceMax _ _ | .reduceMin _ _ | .reduceSumsq _ _ | .fill _ _ | .select _ _ _ =>
    [.freeCtr, .rf, .mem, .ecc, .cat, .shelves, .iln, .bel, .ldg, .pwr]
  | .query _ =>
    [.freeCtr, .rf, .mem, .ecc, .kpr, .iln, .bel, .ldg, .obs, .hostOut]
  | .portTrained _ _ =>
    [.rf, .ecc, .cir, .cat, .bind, .kpr, .iln, .bel, .ldg, .obs]
  | .accessionDone _ _ | .zeroWriteDone _ _ =>
    [.rf, .mem, .ecc, .cir, .cat, .bind, .kpr, .bel, .ldg, .obs]
  | .preloadDone _ _ =>
    [.freeCtr, .rf, .mem, .ecc, .cat, .shelves, .kpr, .iln, .bel, .ldg, .obs]
  | .accession _ _ =>
    [.freeCtr, .rf, .mem, .ecc, .cir, .cat, .bind, .kpr, .bel, .ldg, .obs]
  | .save _ =>
    [.freeCtr, .rf, .mem, .ecc, .kpr, .iln, .crl, .bel, .ldg, .obs, .hostOut]
  | .burstEnd _ _ _ | .cancelSlip _ | .cancelRing _ | .cancelAll _ =>
    [.rf, .ecc, .cir, .cat, .bind, .kpr, .iln, .bel, .ldg, .obs, .hostOut]
  | .hushRelease =>
    [.rf, .ecc, .cir, .cat, .bind, .shelves, .kpr, .iln, .bel, .ldg, .obs]
  | .planCutoff =>
    [.rf, .ecc, .stp, .cir, .cat, .bind, .shelves, .kpr, .bel, .ldg, .obs]
  | .copy _ _ | .addAt _ _ | .gather _ _ | .scatter _ _ =>
    [.freeCtr, .rf, .mem, .ecc, .cat, .shelves, .kpr, .iln, .bel, .ldg, .pwr, .obs]
  | .receiptWrite _ _ =>
    [.freeCtr, .rf, .mem, .ecc, .cir, .cat, .kpr, .iln, .bel, .ldg, .obs, .hostOut]
  | .passStart _ =>
    [.freeCtr, .rf, .mem, .ecc, .stp, .cat, .shelves, .iln, .bel, .ldg, .pwr, .obs]
  | .openCarrel _ | .thaw _ =>
    [.rf, .ecc, .cir, .cat, .bind, .kpr, .iln, .crl, .bel, .ldg, .obs, .hostOut]
  | .leafMoveDone _ _ =>
    [.rf, .mem, .ecc, .cir, .cat, .bind, .kpr, .iln, .crl, .bel, .ldg, .obs]
  | .ringDisable _ _ | .ringDisableEffect _ =>
    [.freeCtr, .rf, .mem, .ecc, .cir, .cat, .bind, .shelves, .kpr, .bel, .ldg, .pwr, .obs]
  | .wfgDone =>
    [.freeCtr, .rf, .mem, .ecc, .cir, .cat, .bind, .shelves, .kpr, .iln, .bel, .ldg, .obs]
  | .restore _ =>
    [.rf, .mem, .ecc, .cir, .cat, .bind, .kpr, .iln, .crl, .bel, .ldg, .obs, .hostOut]
  | .passEnd _ =>
    [.rf, .mem, .ecc, .cir, .cat, .bind, .shelves, .kpr, .iln, .bel, .ldg, .pwr, .obs]
  | .noProgress _ _ =>
    [.freeCtr, .rf, .mem, .ecc, .cir, .cat, .bind, .shelves, .kpr, .iln, .bel, .ldg, .pwr, .obs]
  | .enqueueAppend _ | .ilnResponse _ _ | .hostRsp _ _ =>
    [.freeCtr, .rf, .mem, .ecc, .cir, .cat, .bind, .shelves, .kpr, .iln, .bel, .ldg, .pwr, .obs, .hostOut]
  | .shelfWithdrawn _ | .clearDone _ _ | .reset _ _ | .selftestDone _ =>
    [.rf, .mem, .ecc, .cir, .cat, .bind, .shelves, .kpr, .iln, .crl, .bel, .ldg, .pwr, .obs, .hostOut]
  | .copyChunk _ _ _ _ | .drainComplete _ | .destroy _ =>
    [.freeCtr, .rf, .mem, .ecc, .cir, .cat, .bind, .shelves, .kpr, .iln, .crl, .bel, .ldg, .pwr, .obs, .hostOut]
  | .ilnLinkLost _ | .ilnRemoteTimeout _ | .hostTimeout _ =>
    [.freeCtr, .rf, .mem, .ecc, .stp, .cir, .cat, .bind, .shelves, .kpr, .iln, .bel, .ldg, .pwr, .obs, .hostOut]
  | .selftest _ =>
    [.rf, .mem, .ecc, .boot, .cir, .cat, .bind, .shelves, .kpr, .iln, .crl, .bel, .ldg, .pwr, .obs, .hostOut]
  | .stamp _ =>
    [.freeCtr, .rf, .mem, .ecc, .pins, .smb, .stp, .cir, .cat, .bind, .shelves, .kpr, .iln, .crl, .bel, .ldg, .pwr, .obs]
  | .ldgBlockReset _ =>
    [.rf, .mem, .ecc, .curMem, .pins, .smb, .boot, .stp, .cir, .cat, .bind, .shelves, .kpr, .iln, .crl, .bel, .ldg, .pwr, .obs]
  | .ledgerMessage _ _ | .watchdogExpired =>
    [.rf, .mem, .ecc, .curMem, .pins, .smb, .boot, .stp, .cir, .cat, .bind, .shelves, .kpr, .iln, .crl, .bel, .ldg, .pwr, .obs,
    .hostOut]
  | .pinReset =>
    [.rf, .mem, .ecc, .curMem, .pins, .tap, .smb, .boot, .stp, .cir, .cat, .bind, .shelves, .kpr, .iln, .crl, .bel, .ldg, .pwr,
    .obs]
  | .scanDone =>
    [.freeCtr, .rf, .mem, .ecc, .curMem, .pins, .smb, .boot, .stp, .cir, .cat, .bind, .shelves, .kpr, .iln, .crl, .bel, .ldg,
    .pwr, .obs, .hostOut]
  | .hostReq _ _ _ _ _ _ | .registerWrite _ _ _ _ =>
    [.freeCtr, .rf, .mem, .ecc, .curMem, .pins, .smb, .ss, .boot, .stp, .cir, .cat, .bind, .shelves, .kpr, .iln, .crl, .bel, .ldg,
    .pwr, .obs, .hostOut]
  | .pwrokFall =>
    [.freeCtr, .rf, .mem, .ecc, .curMem, .pins, .tap, .smb, .ss, .boot, .stp, .cir, .cat, .bind, .shelves, .kpr, .iln, .crl, .bel,
    .ldg, .pwr, .obs]
  | .ctlAccess _ _ _ =>
    [.freeCtr, .rf, .mem, .ecc, .curMem, .pins, .tap, .smb, .ss, .boot, .stp, .cir, .cat, .bind, .shelves, .kpr, .iln, .crl, .bel,
    .ldg, .pwr, .obs, .hostOut]

end Sys2Proof.Machine
end

