-- ==== Sys2Proof/Certificates/Slice0/Obligations.lean ====
section
/-! DEFINITION. What the provers are to show of the model: whole-machine rules, frames, and for every command where it completes and what
its effect is. -/

open Sys2Proof Sys2Proof.Machine

/-- The command at the front of the queue is the one a step runs, on the state with the queue's rest. Rests on the model's readings
notes/assumptions/1.md. -/
def Obligations.StepRunsFrontCommand : Prop := ∀ (c : Instr) (q : List Instr) (s : State), s.pending = c :: q → step s = exec c { s with pending := q }

/-- On an empty queue one fabric cycle passes: with PWROK low, at the last cycle of the period, or at the last before a plan cutoff that
has not come, nothing changes, and otherwise the clock counts one cycle and memory, registers and the queue stay. The tick is the model's
choice (notes/assumptions/2.md). From every state a step answers a next state, and takes exactly the front command off the queue: no
command faults, is refused, or puts another on the queue. Rests on the model's readings notes/assumptions/1.md, notes/assumptions/2.md,
notes/assumptions/7.md. -/
def Obligations.EveryStepGoesOnAndTakesOneCommand : Prop :=
  (
    ∀ s : State, s.pending = [] →
      let cutNext := s.running = true ∧ s.stp.cut = false ∧ s.obs.resuming = false ∧ ceilDiv (3 * s.stp.len) 4 ≤ s.stp.t + 1
      ((s.pins.life = .off ∨ s.stp.len ≤ s.stp.t + 1 ∨ cutNext) → step s = .next s)
      ∧ (s.pins.life ≠ .off → s.stp.t + 1 < s.stp.len → ¬ cutNext →
          GoesTo (step s) (fun t => t.stp.t = s.stp.t + 1 ∧ t.stp.total = s.stp.total + 1 ∧ OnlyIn [.stp, .shelves, .ldg, .obs] s t)))
  ∧ (
    ∀ s : State, GoesTo (step s) (fun t => t.pending = s.pending.tail))

/-- A state whose memories and registers are in their canonical forms steps only to such a state. Rests on the model's readings
notes/assumptions/4.md. -/
def Obligations.StepKeepsCanonicalForms : Prop := ∀ s t : State, s.canon = true → step s = .next t → t.canon = true

/-- The state after reset is in canonical form. With PWROK low every register reads its Reset column, nothing is held, the settings store
is as shipped and no command waits. Rests on the model's readings notes/assumptions/6.md. -/
def Obligations.ResetIsCanonicalAndAsTabled : Prop :=
  (
   State.reset.canon = true)
  ∧ (
    (∀ off, State.reset.reg off = regReset off)
    ∧ State.reset.reg R.CFG_ID = 0x05C30000A3E10100 ∧ State.reset.reg R.STP_PERIOD = 32 ∧ State.reset.reg R.CFG_SMB_CTL = 0x5A
    ∧ State.reset.reg R.HBM_RETRAIN = 0x21000 ∧ State.reset.reg R.PWR_THERM_LIMIT = 0x6C64605A
    ∧ State.reset.pins.life = .off ∧ State.reset.pins.thermTrip = false ∧ State.reset.stp.stamp = 0
    ∧ State.reset.pending = [] ∧ State.reset.mem = [] ∧ State.reset.hostOut = [])

/-- Every command leaves the queue and every component of the state but those listed for it as they were. A command that stores to no
memory leaves every byte of local memory and of curator shared memory as it reads. -/
def Obligations.CommandsChangeOnlyTheirComponents : Prop :=
  (
    ∀ (c : Instr) (s t : State), exec c s = .next t → OnlyIn (touches c) s t)
  ∧ (
    ∀ (c : Instr) (s t : State), Comp.mem ∉ touches c → Comp.curMem ∉ touches c → exec c s = .next t →
      ∀ a, Memory.read t.mem a = Memory.read s.mem a ∧ Memory.read t.curMem a = Memory.read s.curMem a)

/-- An SMBus read whose PEC is good answers the command's bytes, little-endian, and changes nothing else; POWER is the mean of the last 1
ms (R64, R66, R67). SMBus writes, the alert response and the stop condition: each clears causes, sets POWER_CAP, answers the address of
the target while ALERT_N is asserted, or brings CFG_SMB_CTL into effect (R64, R67, R68). The address is sent in the upper seven bits, the
model's choice (notes/assumptions/40.md). A transaction whose PEC is wrong, or absent while PEC_REQ is in effect, is answered with a NACK
and has no effect (Table 2-9). Rests on the model's readings notes/assumptions/19.md, notes/assumptions/20.md, notes/assumptions/40.md. -/
def Obligations.SmbusTransactionsAnswerAndWrite : Prop :=
  (
    ∀ (s : State) (pec : Pec), s.smbOn = true → s.pecOk pec = true →
      let answers := fun (bs : List Byte) => (.next { s with smb := { s.smb with reply := .ack bs } } : Out)
      exec (.status pec) s = answers (leBytes 1 s.smbStatus)
      ∧ exec (.tempCompute pec) s = answers (leBytes 2 (wrapInt 16 (s.hottest 0)))
      ∧ exec (.tempSram pec) s = answers (leBytes 2 (wrapInt 16 (s.hottest 16)))
      ∧ exec (.power pec) s = answers (leBytes 2 s.powerMean)
      ∧ exec (.vcoreReq pec) s = answers (leBytes 2 s.pwr.vcore)
      ∧ exec (.alertCauseRead pec) s = answers (leBytes 1 s.smb.cause.toNat)
      ∧ exec (.ident pec) s = answers (leBytes 8 (s.reg R.CFG_ID).toNat)
      ∧ exec (.powerCapRead pec) s = answers (leBytes 2 s.smb.cap.toNat))
  ∧ (
    ∀ (s : State) (pec : Pec), s.smbOn = true →
      (∀ v recur, s.pecOk pec = true → exec (.alertCauseClear pec v recur) s =
        .next { s with smb := { s.smb with
          cause := (s.smb.cause &&& ~~~ (v.setWidth 6)) ||| recur ||| (if s.ldg.oos then 4#6 else 0#6), reply := .ack [] } })
      ∧ (∀ v, s.pecOk pec = true → exec (.powerCapWrite pec v) s = .next { s with smb := { s.smb with cap := v, reply := .ack [] } })
      ∧ (s.alertN = true → exec .alertResponse s =
          .next { s with smb := { s.smb with reply := .ack (leBytes 1 (fld s.smb.active 0 7 * 2)) } })
      ∧ (s.alertN = false → exec .alertResponse s = .next { s with smb := { s.smb with reply := .nack } })
      ∧ exec .smbusStop s = .next { s with smb := { s.smb with active := s.reg R.CFG_SMB_CTL } }
      ∧ (∀ who v recur, s.manages who → GoesTo (exec (.registerWrite who (BitVec.ofNat 25 R.CFG_SMB_CTL) 8 ⟨v, recur⟩) s) (fun t =>
          t.smb = s.smb ∧ t.reg R.CFG_SMB_CTL = (s.reg R.CFG_SMB_CTL &&& ~~~ 0xFF) ||| (v &&& 0xFF))))
  ∧ (
    ∀ (s : State) (pec : Pec) (w : BitVec 16) (v : Byte) (recur : BitVec 6), s.smbOn = true →
      (pec = .invalid ∨ (pec = .absent ∧ bitAt s.smb.active 7 = true)) →
      ∀ c ∈ [Instr.status pec, .tempCompute pec, .tempSram pec, .power pec, .vcoreReq pec, .alertCauseRead pec, .ident pec,
          .powerCapRead pec, .powerCapWrite pec w, .alertCauseClear pec v recur],
        exec c s = .next { s with smb := { s.smb with reply := .nack } })

/-- With PWROK high, loading an instruction selects its data register and releases the pins; while RESET_N is low EXTEST and CLAMP drive
them and HIGHZ floats them, and while it is high EXTEST acts as BYPASS (R51 to R54). STACK_WSP answers the wrapper's reply bits while the
stack's port is in its test state, and BUSY with nothing shifted in otherwise (R50). HUSH_SCAN and CTL_ACCESS (R54, R447): on a hushed die
the scan shifts bits out one after another and changes nothing but the port and the free values drawn; a running die is first hushed with
cause 3; a CTL_ACCESS is logged and acts as the manager's access. Rests on the model's readings notes/assumptions/3.md,
notes/assumptions/16.md. -/
def Obligations.TestPortSelectsDrivesAndScans : Prop :=
  (
    ∀ s : State, s.pins.life ≠ .off →
      let loads := fun (c : Instr) (code : BitVec 8) (bypass : Bool) (data : Word) (drive high : Bool) =>
        GoesTo (exec c s) (fun t => t.tap.ir = code ∧ t.tap.bypass = bypass ∧ t.tap.data = data ∧ t.pins.driving = drive
          ∧ t.pins.highz = high ∧ OnlyIn [.tap, .pins] s t)
      loads .tapReset 0x02 false 0x1A3E1B87 false false
      ∧ loads .idcode 0x02 false 0x1A3E1B87 false false
      ∧ loads .clamp 0x03 true 0 (!s.pins.resetN) false
      ∧ loads .highz 0x04 true 0 false (!s.pins.resetN)
      ∧ (∀ pins, loads (.extest pins) 0x00 s.pins.resetN 0 (!s.pins.resetN) false)
      ∧ (∀ pins, s.pins.resetN = false → GoesTo (exec (.extest pins) s) (fun t => t.pins.boundary = pins))
      ∧ (∀ pins load, loads (.samplePreload pins load) 0x01 false 0 false false)
      ∧ (∀ pins load, GoesTo (exec (.samplePreload pins load) s) (fun t => t.pins.boundary = pins ∧ t.pins.preload = load))
      ∧ (∀ code tdi, (code = 0xFF ∨ code ∉ tapCodes) → loads (.bypass code tdi) code true (if tdi then 1 else 0) false false))
  ∧ (
    ∀ (s : State) (sel : BitVec 3) (len : BitVec 7) (data reply : Word), s.pins.life ≠ .off →
      let ok := decide (sel.toNat < 6) && s.stackUp sel.toNat && s.regBit (R.HBM_TEST_CTL sel.toNat) 1
      GoesTo (exec (.stackWsp sel len data reply) s) (fun t =>
        t.tap.ir = 0x20 ∧ t.tap.stk = sel ∧ t.tap.busy = !ok
        ∧ t.tap.data = (if ok then BitVec.ofNat 64 (reply.toNat % 2 ^ min 64 len.toNat) else 0) ∧ OnlyIn [.tap, .pins] s t))
  ∧ (
    (∀ (s : State) (n : Nat), s.inService = true → s.hushed = true → GoesTo (exec (.hushScan n) s) (fun t =>
        t.tap.ir = 0x21 ∧ t.tap.scanBits.length = n ∧ t.tap.scanPos = (if s.tap.ir = 0x21 then s.tap.scanPos else 0) + n
        ∧ OnlyIn [.freeCtr, .pins, .tap] s t))
    ∧ (∀ (s : State) (n : Nat), s.inService = true → s.hushed = false → GoesTo (exec (.hushScan n) s) (fun t =>
        t.reg R.OBS_HUSH_STATUS = 14 ∧ t.reg R.OBS_HUSH_WHEN = s.now ∧ t.obs.hushFc = 0 ∧ t.tap.scanBits.length = n
        ∧ OnlyIn [.freeCtr, .rf, .pins, .tap, .obs] s t))
    ∧ (∀ (s : State) (off : BitVec 25) (v recur : Word), s.alive = true → off.toNat % 8 = 0 →
        let u := (s.irLoad 0x22 false 0).log 13 K.tapAccess 0 off.toNat
        exec (.ctlAccess false off ⟨v, recur⟩) s = .next { u with tap := { u.tap with data := u.readWindow off.toNat } }
        ∧ exec (.ctlAccess true off ⟨v, recur⟩) s = exec (.registerWrite .tap off 8 ⟨v, recur⟩) u))

/-- PWROK rising begins the reset life, and ALERT_CAUSE shows a latch that is set. PWROK falling resets every unit: what stays is the
fuses, the settings store, the out-of-service latch and the far tier, and what has already left the chip (R71, R84, R429, Table 16-6). A
pin reset (R72) resets every unit; what stays is the registers that a block reset keeps, the settings store, the Stamp unit's datestamp,
time and role, the watchdog, the reset history and the latch, source 0's messages, the THERMTRIP_N latch, the far tier, and the TAP, whose
EXTEST, CLAMP and HIGHZ act while RESET_N is low (R53). The end of RESET_N samples the straps and begins the boot at phase 0x1. Rests on
the model's readings notes/assumptions/4.md, notes/assumptions/5.md, notes/assumptions/6.md, notes/assumptions/11.md,
notes/assumptions/75.md. -/
def Obligations.PowerAndPinResets : Prop :=
  (
    (∀ s : State, s.pins.life = .off → GoesTo (exec .pwrokRise s) (fun t =>
        t.pins = { s.pins with life := .reset } ∧ t.ldg = { s.ldg with cycled := s.ldg.oos }
        ∧ t.smb = { s.smb with cause := s.smb.cause ||| (if s.ldg.oos then 4#6 else 0#6) } ∧ OnlyIn [.pins, .smb, .ldg] s t))
    ∧ (∀ s : State, s.pins.life ≠ .off → GoesTo (exec .pwrokFall s) (fun t =>
        (∀ off, t.reg off = if fused off = true then s.reg off else regReset off)
        ∧ (∀ a, Memory.read t.mem a = if farBase ≤ a ∧ (a < storeBase ∨ storeBase + 2 ^ 64 ≤ a) then Memory.read s.mem a else 0)
        ∧ t.ldg = { Ldg.reset with oos := s.ldg.oos } ∧ t.iln = { Iln.reset with sent := s.iln.sent, answers := s.iln.answers }
        ∧ t.ss.busy = none ∧ t.ss.result = 0 ∧ t.ss.unlocked = false ∧ t.ss.items = factoryConfig
        ∧ (∀ cal, s.ss.busy.any (fun c => c.commit && c.cal == cal) = false → t.ss.sect cal = s.ss.sect cal)
        ∧ (∀ cal, s.ss.busy.any (fun c => c.commit && c.cal == cal) = true → (t.ss.sect cal).broken = true)
        ∧ t.ecc = [] ∧ t.curMem = [] ∧ t.pins = Pins.reset ∧ t.tap = Tap.reset ∧ t.smb = Smb.reset ∧ t.boot = Boot.reset ∧ t.stp = Stp.reset
        ∧ t.cir = Cir.reset ∧ t.cat = Cat.reset ∧ t.bind = Bindery.reset ∧ t.shelves = [] ∧ t.kpr = Kpr.reset ∧ t.crl = Crl.reset
        ∧ t.bel = Bel.reset ∧ t.pwr = Pwr.reset ∧ t.obs = Obs.reset ∧ t.hostOut = s.hostOut ∧ t.pending = s.pending)))
  ∧ (
    (∀ s : State, s.pins.life ≠ .off → GoesTo (exec .pinReset s) (fun t =>
        t.pins = { s.pins with
          life := .reset, resetN := false, sbLive := false, vcoreLow := false
          driving := s.tap.ir == 0x00 || s.tap.ir == 0x03, highz := s.tap.ir == 0x04 }
        ∧ t.tap = { s.tap with bypass := if s.tap.ir = 0x00 then false else s.tap.bypass } ∧ t.smb = { s.smb with reply := .none }
        ∧ (∀ off, t.reg off = if keptOverBlockReset off = true then s.reg off else regReset off)
        ∧ (∀ a, Memory.read t.mem a = if farBase ≤ a ∧ (a < storeBase ∨ storeBase + 2 ^ 64 ≤ a) then Memory.read s.mem a else 0)
        ∧ t.stp = { Stp.reset with
            stamp := s.stp.stamp, t := s.stp.t, len := s.stp.len, total := s.stp.total, state := if s.stp.state = 0 then 0 else 1 }
        ∧ t.ldg = { Ldg.reset with
            waiting := s.ldg.waiting.filter (fun p => p.1 == 0), history := s.ldg.history, oos := s.ldg.oos, cycled := s.ldg.cycled
            wdArmed := s.ldg.wdArmed, wdSeen := s.ldg.wdSeen, wdLeft := s.ldg.wdLeft, wdExpiries := s.ldg.wdExpiries }
        ∧ t.iln = { Iln.reset with sent := s.iln.sent, answers := s.iln.answers }
        ∧ t.ecc = [] ∧ t.curMem = [] ∧ t.boot = Boot.reset ∧ t.cir = Cir.reset ∧ t.cat = Cat.reset ∧ t.bind = Bindery.reset ∧ t.shelves = []
        ∧ t.kpr = Kpr.reset ∧ t.crl = Crl.reset ∧ t.bel = Bel.reset ∧ t.pwr = Pwr.reset ∧ t.obs = Obs.reset
        ∧ t.ss = s.ss ∧ t.hostOut = s.hostOut ∧ t.freeCtr = s.freeCtr ∧ t.pending = s.pending))
    ∧ (∀ (s : State) (straps : BitVec 4), s.pins.life = .reset → GoesTo (exec (.resetNDeassert straps) s) (fun t =>
        t.pins = { s.pins with life := .boot, resetN := true, driving := false, highz := false }
        ∧ t.tap = { s.tap with bypass := if s.tap.ir = 0x00 then true else s.tap.bypass }
        ∧ t.bootPhase = 1 ∧ t.reg R.CFG_STRAP = BitVec.ofNat 64 (strapWord straps.toNat)
        ∧ t.ss = { s.ss with unlocked := false } ∧ t.boot = { s.boot with pin := true }
        ∧ t.stp = { s.stp with state := if straps.getLsbD 1 then 0 else 1 }
        ∧ (∀ off, off ≠ R.CFG_STRAP → off ≠ R.CFG_BOOT_STATUS → t.reg off = s.reg off)
        ∧ OnlyIn [.rf, .pins, .tap, .ss, .boot, .stp] s t)))

/-- Phases 0x1 to 0x3 of an SPI boot: the settings in use are judged, which are the store's after RESET_N and else those of the boot
before, and the Stamp unit starts; a valid primary header is read and taken; and a resident part that matches its CRC starts firmware and
arms the watchdog (R65, R82, R84, R86, R87, R95, R96, R101, R422). Phases 0x5 to 0x8: with a stack that trains on enough channels,
training ends; self-test ends with shelf stores and folio memories clear; a bulk part that matches its CRC lies in the firmware region;
and CONFIGURE enters service (R82, R88, R91, R93, R106). A configuration section whose check word fails (R96): phase 0x1 takes the factory
default of every item, shows it in CFG_STATUS, and leaves the stored section as it is; the failure is sent to the Ledger when service
begins. Rests on the model's readings notes/assumptions/10.md, notes/assumptions/12.md, notes/assumptions/13.md, notes/assumptions/75.md. -/
def Obligations.BootReachesService : Prop :=
  (
    (∀ s : State, s.pins.life = .boot → s.bootPhase = 1 → s.ss.busy = none → s.pins.refclk = true →
        let cfg := if s.boot.pin then s.ss.cfg else s.ss.cfgUse
        let ok := cfg.sound && !s.ss.cfg.broken && itemsAllowed cfg.bytes
        GoesTo (exec .store s) (fun t =>
          t.bootPhase = 2 ∧ t.stp.running = true ∧ t.ss.items = (if ok then cfg.bytes else factoryConfig) ∧ t.regBit R.CFG_STATUS 0 = !ok
          ∧ OnlyIn [.rf, .smb, .ss, .boot, .stp] s t))
    ∧ (∀ (s : State) (h : HeaderRead), s.pins.life = .boot → s.bootPhase = 2 → s.port0Boot = false → headerValid h.primary = true →
        GoesTo (exec (.header h) s) (fun t => t.bootPhase = 3 ∧ t.boot = { s.boot with header := h.primary, slotAt := 0, spi := s.boot.spi ++ [⟨0x03, 0, 64, 12500⟩] }
          ∧ OnlyIn [.rf, .boot] s t))
    ∧ (∀ (s : State) (r : ResidentRead), s.pins.life = .boot → s.bootPhase = 3 → s.port0Boot = false → s.regBit R.CFG_BOOT_STATUS 12 = false →
        residentOk s.boot.header r.primary = true → GoesTo (exec (.resident r) s) (fun t =>
          t.bootPhase = 5 ∧ t.ldg.wdArmed = true ∧ t.ldg.wdLeft = watchdogFc ∧ t.reg R.CFG_FW_VERSION = wordAt s.boot.header 4
          ∧ Memory.readN t.curMem 0x40 (hdrRlen s.boot.header) = r.primary.take (hdrRlen s.boot.header)
          ∧ OnlyIn [.rf, .curMem, .boot, .ldg] s t))
    ∧ (∀ (s : State) (v : Word), s.pins.life = .boot → s.port0Boot = true → bitAt v 0 = true →
        exec (.cfgBootGo v) s = .next { s with boot := { s.boot with go := true } }))
  ∧ (
    (∀ (s : State) (stks : List StackTrain) (ports : List PortTrain), s.pins.life = .boot → s.bootPhase = 5 → s.boot.trained = false →
        (stks.getD 0 noStack).present = true →
        popCount 32 ((stks.getD 0 noStack).failed ||| (s.reg (R.HBM_MAPOUT_FORCE 0)).setWidth 32).toNat ≤ 8 →
        GoesTo (exec (.train stks ports) s) (fun t => t.boot.trained = true ∧ t.stackUp 0 = true ∧ t.pins = s.pins ∧ t.mem = s.mem))
    ∧ (∀ (s : State) (failed : List (Nat × Word)), s.pins.life = .boot → (s.bootPhase = 5 ∨ s.bootPhase = 6) → s.boot.tested = false →
        GoesTo (exec (.selftest failed) s) (fun t => t.boot.tested = true ∧ t.pins = s.pins
          ∧ (∀ a, storeBase ≤ a → a < storeBase + 2 ^ 64 → Memory.read t.mem a = 0)))
    ∧ (∀ (s : State) (part : List Byte), s.pins.life = .boot → s.bootPhase = 7 → s.port0Boot = false → hdrBlen s.boot.header ≤ part.length →
        crc32c (part.take (hdrBlen s.boot.header)) = hdrBcrc s.boot.header → GoesTo (exec (.bulk part) s) (fun t =>
          t.bootPhase = 8 ∧ Memory.readN t.mem s.fwBase (hdrBlen s.boot.header) = part.take (hdrBlen s.boot.header)
          ∧ OtherBytes s.fwBase (hdrBlen s.boot.header) s t ∧ OnlyIn [.rf, .mem, .boot] s t))
    ∧ (∀ s : State, s.pins.life = .boot → s.bootPhase = 8 → GoesTo (exec .configure s) (fun t =>
          t.pins = { s.pins with life := .service, sbLive := true } ∧ t.boot.cause = none ∧ t.mem = s.mem)))
  ∧ (
    (∀ s : State, s.pins.life = .boot → s.bootPhase = 1 → s.ss.busy = none → s.pins.refclk = true →
        let cfg := if s.boot.pin then s.ss.cfg else s.ss.cfgUse
        cfg.check.toNat ≠ crc32c (sectionBytes cfg.bytes) → GoesTo (exec .store s) (fun t =>
          t.ss.items = factoryConfig ∧ t.regBit R.CFG_STATUS 0 = true ∧ t.ss.cfg = s.ss.cfg ∧ t.boot.cfgLog = true))
    ∧ (∀ s : State, s.pins.life = .boot → s.bootPhase = 8 → s.boot.cfgLog = true → Tab.getD s.ldg.waiting 0 [] = [] →
        GoesTo (exec .configure s) (fun t => t.inService = true
          ∧ ∃ m ∈ Tab.getD t.ldg.waiting 0 [], m.source = 0 ∧ m.kind = 3 ∧ m.code = 0x1011)))

/-- The two time limits of a boot end it in failure with their causes; SB_LIVE then rises and every range is off (R89, Table 3-9). REFCLK
lost and restored, and a low rail: each is seen on the pins, and recorded as a cause of ALERT_N (R56, R67, R76). A low rail takes every
range that is on to 160 MHz. Rests on the model's readings notes/assumptions/17.md. -/
def Obligations.BootLimitsClockAndRailFail : Prop :=
  (
    ∀ s : State, s.pins.life = .boot →
      let fails := fun (c : Instr) (error : Nat) => GoesTo (exec c s) (fun t =>
        t.pins = { s.pins with life := .failed, sbLive := true } ∧ t.bootPhase = 15 ∧ t.field R.CFG_BOOT_STATUS 4 8 = error
        ∧ (∀ r < 64, t.field (R.PWR_DOMAIN_STATE r) 0 2 = 0) ∧ OnlyIn [.rf, .pins] s t)
      (s.waitsGo = false → fails .bootTimeLimit 6) ∧ (s.waitsGo = true → fails .bootSourceTimeout 5))
  ∧ (
    (∀ s : State, s.pins.life ≠ .off → s.pins.refclk = true → GoesTo (exec .refclkLost s) (fun t =>
        t.pins = { s.pins with refclk := false } ∧ t.smb.cause = s.smb.cause ||| 0x10#6 ∧ t.mem = s.mem))
    ∧ (∀ s : State, s.pins.life ≠ .off → exec .refclkRestored s = .next { s with pins := { s.pins with refclk := true } })
    ∧ (∀ s : State, s.alive = true → s.pins.vcoreLow = false → GoesTo (exec .vcoreLow s) (fun t =>
        t.pins = { s.pins with vcoreLow := true } ∧ t.smb.cause = s.smb.cause ||| 0x20#6
        ∧ (∀ r < 64, s.domainOn r = true → t.field (R.PWR_RANGE_STATE r) 0 3 = 0 ∧ t.regBit (R.PWR_RANGE_STATE r) 9 = true)
        ∧ t.mem = s.mem)))

/-- STAMP while PWROK is high: the period's count restarts and the datestamp moves to the next number, or to the one a master gave, except
where a follower in FRAMING aligns; without an accepted edge the period has lasted LEN (R108, R111, R121, R131). Memory stays unless
posted traffic held back at a shelf goes on (R265), and the carrel manager's state unless a drain has passed its limit (R401). PHASE
(R109): floor(65,536 × t / T) while the period lasts, zero at its start, never 65,536, and the low half-word of the datestamp. Rests on
the model's readings notes/assumptions/9.md. -/
def Obligations.StampAdvancesTheDatestamp : Prop :=
  (
    ∀ (s : State) (sense : StampSense), s.pins.life ≠ .off → GoesTo (exec (.stamp sense) s) (fun t =>
      t.stp.t = 0 ∧ t.stp.cut = false ∧ t.stp.newNum = none ∧ t.stp.edgeA = none
      ∧ ((s.stp.running = false ∨ s.stp.state ≠ 2) → t.stp.stamp = s.stp.newNum.elim (s.stp.stamp + 1) (BitVec.ofNat 48))
      ∧ (s.stp.edgeA = none → t.stp.total = s.stp.total + (s.stp.len - s.stp.t))
      ∧ (∀ at_ p, s.stp.running = true → s.stp.armed = some (at_, p) →
          t.stp.armed = if at_ ≤ t.stp.stamp.toNat then none else some (at_, p))
      ∧ (s.stp.state = 0 → t.stp.state = 0)
      ∧ t.curMem = s.curMem ∧ t.ss = s.ss ∧ (s.noneHeld → t.mem = s.mem) ∧ (s.crl.resets = [] → t.crl = s.crl)))
  ∧ (
    ∀ s : State, s.phase < 65536 ∧ (s.stp.t = 0 → s.phase = 0) ∧ (s.stp.t < s.stp.len → s.phase = 65536 * s.stp.t / s.stp.len)
      ∧ fld s.now 0 16 = s.phase ∧ (4 * s.stp.t = 3 * s.stp.len → s.stp.t < s.stp.len → s.phase = 0xC000))

/-- A pulse on an enabled input: one too narrow is counted as a glitch; on the master input of a follower in FRAMING or LOCKED one within
64 fc of the expected time is the accepted edge and its frame bit is kept; in SEEK a second edge one period after the first enters FRAMING
(R57, R115, R117, Tables 2-5 and 4-3). ARM and CANCEL of a staged period change, with the results of R137: LATE, MISALIGNED, INVALID,
ARMED and CANCELLED. Rests on the model's readings notes/assumptions/18.md. -/
def Obligations.StampInputsAndPeriodChanges : Prop :=
  (
    ∀ (s : State) (inputB : Bool) (width : Nat) (edge : Int),
      let i := if inputB then 1 else 0
      let at_ := edge + 64 + s.inputDelay i
      s.alive = true → s.stp.running = true → s.stp.state ≠ 0 → s.inputOn i = true →
      (width * 100 < 24 * 128 → exec (.stampPulse inputB width edge) s = .next (s.countSat (R.STP_IN_COUNT i) 0 16 1))
      ∧ (∀ bit : Option Bool, (24 * 128 ≤ width * 100 ∧ width * 100 ≤ 56 * 128 ∧ bit = some false)
            ∨ (64 * 128 ≤ width * 100 ∧ width * 100 ≤ 96 * 128 ∧ bit = some true)
            ∨ (56 * 128 < width * 100 ∧ width * 100 < 64 * 128 ∧ bit = none) ∨ (96 * 128 < width * 100 ∧ bit = none) →
          i = s.masterInput →
          ((s.stp.state = 2 ∨ s.stp.state = 3) → s.stp.edgeA = none → (at_ - s.stp.len).natAbs ≤ 64 →
            exec (.stampPulse inputB width edge) s = .next { s with stp := { s.stp with
              edgeA := some at_, lastEdge := some at_, bits := pushBit s.stp.bits bit } })
          ∧ ((s.stp.state = 2 ∨ s.stp.state = 3) → (s.stp.edgeA ≠ none ∨ 64 < (at_ - s.stp.len).natAbs) →
            exec (.stampPulse inputB width edge) s = .next (s.countSat (R.STP_IN_COUNT i) 16 16 1))
          ∧ (∀ l, s.stp.state = 1 → s.stp.lastEdge = some l → (at_ - (l + s.periodFc)).natAbs ≤ 64 →
            exec (.stampPulse inputB width edge) s = .next { s with stp := { s.stp with
              state := 2, bits := [bit], edgeA := some at_, lastEdge := some at_, misses := 0, periods := 0 } })))
  ∧ (
    ∀ s : State, s.alive = true →
      let n := s.field R.STP_CHANGE_AT 0 48
      let p := s.field R.STP_NEXT_PERIOD 0 13
      let late := n ≤ s.stp.stamp.toNat ∨ (n = s.stp.stamp.toNat + 1 ∧ 0xC000 ≤ s.phase)
      (late → exec .stampChangeArm s = .next (s.setField R.STP_CHANGE_STATUS 0 3 3))
      ∧ (¬ late → p ≠ 0 → n % 64 ≠ 0 → exec .stampChangeArm s = .next (s.setField R.STP_CHANGE_STATUS 0 3 4))
      ∧ (¬ late → n % 64 = 0 → p ≠ 0 → (p < 4 ∨ 4096 < p) → exec .stampChangeArm s = .next (s.setField R.STP_CHANGE_STATUS 0 3 5))
      ∧ (¬ late → (p = 0 ∨ (n % 64 = 0 ∧ 4 ≤ p ∧ p ≤ 4096)) → exec .stampChangeArm s =
          .next { s.setField R.STP_CHANGE_STATUS 0 3 1 with stp := { s.stp with armed := some (n, p) } })
      ∧ exec .stampChangeCancel s = .next { s.setField R.STP_CHANGE_STATUS 0 3 6 with stp := { s.stp with armed := none } })

/-- EPOCH_FRAME in LOCKED (R121): a frame that passes its checks and names this stamp and period changes nothing; one that names others is
recorded and its number and period are taken at the next stamp; one that fails is counted. A follower that loses the stamp, or finds no
frame, enters HOLDOVER and raises its event; RELOCK grants the permission once the other conditions hold (R125, R127, Table 4-3). Rests on
the model's readings notes/assumptions/18.md. -/
def Obligations.EpochFramesHoldoverAndRelock : Prop :=
  (
    ∀ s : State, s.alive = true → s.stp.running = true → s.stp.state = 3 → s.stp.stamp.toNat % 64 = 63 → 64 ≤ s.stp.bits.length →
      let u := { s with stp := { s.stp with bits := [] } }
      let frame := parseFrame (s.stp.bits.drop (s.stp.bits.length - 64))
      (frame = none → exec .epochFrame s = .next (u.countSat (R.STP_IN_COUNT s.masterInput) 32 16 1))
      ∧ (frame = some (s.stp.stamp.toNat / 64, s.period) → exec .epochFrame s = .next u)
      ∧ (∀ hi per, frame = some (hi, per) → GoesTo (exec .epochFrame s) (fun t =>
          t.stp.newNum = (if hi = s.stp.stamp.toNat / 64 then s.stp.newNum else some ((hi * 64 + 64) % 2 ^ 48))
          ∧ t.stp.newPer = (if per = s.period then s.stp.newPer else some per)
          ∧ (hi ≠ s.stp.stamp.toNat / 64 → t.regBit R.STP_EVENT 3 = true) ∧ (per ≠ s.period → t.regBit R.STP_EVENT 4 = true)
          ∧ OnlyIn [.rf, .stp, .bel, .ldg] s t)))
  ∧ (
    (∀ s : State, s.alive = true → s.stp.running = true →
        (((s.stp.state = 2 ∨ s.stp.state = 3) ∧ 2 ≤ s.stp.misses) ∨ (s.stp.state = 1 ∧ 64 ≤ s.stp.periods)) →
        GoesTo (exec .stampLost s) (fun t => t.stp = s.stp.toHoldover ∧ t.stp.state = 4 ∧ t.regBit R.STP_EVENT 1 = true
          ∧ OnlyIn [.rf, .stp, .bel, .ldg] s t))
    ∧ (∀ s : State, s.alive = true → s.stp.running = true → s.stp.state = 2 → 256 ≤ s.stp.periods →
        GoesTo (exec .stampNoFrame s) (fun t => t.stp = s.stp.toHoldover ∧ t.stp.state = 4 ∧ t.regBit R.STP_EVENT 5 = true
          ∧ OnlyIn [.rf, .stp, .bel, .ldg] s t))
    ∧ (∀ s : State, s.alive = true → s.stp.running = true → s.stp.state = 4 → s.relockReady = true →
        exec .relock s = .next { s with stp := { s.stp with permit := true } })
    ∧ (∀ s : State, s.alive = true → (s.stp.state ≠ 4 ∨ s.relockReady = false) → exec .relock s = .next s))

/-- OP_FIX at phase 0.70, once a period and before its cutoff (R434): the period's power is kept, a range that is off gets no point and no
headroom, and without lift no range is given more than its ceiling or 640 MHz. PLAN_CUTOFF comes at phase 0.75, once a period, and plans
nothing while launches are held; PLAN_DELIVERY comes 0.5 µs later, and then every shelf has the plan frozen for it (R116, R130, R131,
R205). Rests on the model's readings notes/assumptions/9.md, notes/assumptions/42.md, notes/assumptions/66.md. -/
def Obligations.PeriodEventsFixPointsAndPlans : Prop :=
  (
    (∀ (s : State) (p : PowerReading), s.inService = true → (s.pwr.fixed = true ∨ s.stp.cut = true) → exec (.opFix p) s = .next s)
    ∧ ∀ (s : State) (p : PowerReading), s.inService = true → s.pwr.fixed = false → s.stp.cut = false → GoesTo (exec (.opFix p) s) (fun t =>
      t.stp.t = s.stp.t + (s.fc70 - s.stp.t) ∧ t.pwr.fixed = true ∧ t.pwr.reading = p ∧ t.pwr.power = p.other + listSum p.ranges ∧ t.pwr.capUsed = s.globalCap
      ∧ (∀ r < 64, s.domainOn r = false → t.nextOp r = 0 ∧ t.reg (R.SHV_HEADROOM r) = 0)
      ∧ (∀ r < 64, s.domainOn r = true → s.regBit R.PWR_CTL 0 = false → t.nextOp r ≤ min 3 (s.ceilOf r))
      ∧ (∀ r < 64, t.opOf r = s.opOf r)
      ∧ OnlyIn [.rf, .smb, .stp, .shelves, .bel, .ldg, .pwr, .obs] s t))
  ∧ (
    (∀ s : State, s.running = true → s.stp.cut = false → s.obs.resuming = false → GoesTo (exec .planCutoff s) (fun t =>
        t.stp.cut = true ∧ t.stp.t = s.stp.t + (ceilDiv (3 * s.stp.len) 4 - s.stp.t)
        ∧ (s.launchable = false → ∀ sh, (t.shelf sh).plan = (s.shelf sh).plan)
        ∧ t.stp.stamp = s.stp.stamp ∧ t.mem = s.mem ∧ t.iln = s.iln ∧ t.crl = s.crl))
    ∧ (∀ s : State, (s.stp.cut = true ∨ s.obs.resuming = true) → exec .planCutoff s = .next s)
    ∧ (∀ s : State, s.running = true → s.stp.cut = true → GoesTo (exec .planDelivery s) (fun t =>
        t.stp.t = s.stp.t + (ceilDiv (3 * s.stp.len) 4 + 640 - s.stp.t)
        ∧ (∀ sh, (t.shelf sh).plan ≠ [] → (t.shelf sh).delivered = true)
        ∧ OnlyIn [.rf, .stp, .shelves, .ldg, .obs] s t)))

/-- COMMIT and LOAD (R99, R102, R103): refused while a command runs, COMMIT also where the calibration section is locked or the section's
endurance is reached; otherwise the command runs, a COMMIT with the staging area's bytes, and a calibration commit ends the unlock. A
store command ends while PWROK is high (R99, R100): a COMMIT leaves its bytes in its section, broken where the read-back failed, and the
other section as it was; a LOAD fills the staging area with its section. Rests on the model's readings notes/assumptions/8.md,
notes/assumptions/75.md. -/
def Obligations.SettingsStoreCommands : Prop :=
  (
    (∀ (s : State) (cal : Bool), s.alive = true → s.ss.busy ≠ none →
        exec (.commit cal) s = .next { s with ss := { s.ss with result := 1 } } ∧ exec (.load cal) s = .next { s with ss := { s.ss with result := 1 } })
    ∧ (∀ s : State, s.alive = true → s.ss.busy = none → s.ss.unlocked = false →
        exec (.commit true) s = .next { s with ss := { s.ss with result := 2 } })
    ∧ (∀ s : State, s.ss.cfg.commits ≤ 1000 → s.ss.cal.commits ≤ 1000 →
        fld (s.readWindow R.CFG_SS_STATUS) 16 10 = s.ss.cfg.commits ∧ fld (s.readWindow R.CFG_SS_STATUS) 32 10 = s.ss.cal.commits)
    ∧ (∀ (s : State) (cal : Bool), s.alive = true → s.ss.busy = none → (cal = true → s.ss.unlocked = true) →
        1000 ≤ (s.ss.sect cal).commits → exec (.commit cal) s = .next { s with ss := { s.ss with result := 3 } })
    ∧ (∀ (s : State) (cal : Bool), s.alive = true → s.ss.busy = none → (cal = true → s.ss.unlocked = true) →
        (s.ss.sect cal).commits < 1000 → GoesTo (exec (.commit cal) s) (fun t =>
          t.ss.busy = some ⟨true, cal, tabOf 32764 s.stagingByte⟩ ∧ t.ss.sect cal = { s.ss.sect cal with commits := (s.ss.sect cal).commits + 1 }
          ∧ t.ss.sect (!cal) = s.ss.sect (!cal) ∧ t.ss.unlocked = (s.ss.unlocked && !cal) ∧ t.ss.items = s.ss.items ∧ OnlyIn [.ss] s t))
    ∧ (∀ (s : State) (cal : Bool), s.alive = true → s.ss.busy = none →
        exec (.load cal) s = .next { s with ss := { s.ss with busy := some ⟨false, cal, []⟩ } })
    ∧ (∀ (s : State) (v : Word), s.alive = true →
        exec (.cfgSsUnlock v) s = .next { s with ss := { s.ss with unlocked := fld v 0 16 == 0xCA1B } }))
  ∧ (
    ∀ (s : State) (verified cal : Bool) (bs : Tab Byte), s.pins.life ≠ .off →
      (s.ss.busy = some ⟨true, cal, bs⟩ → GoesTo (exec (.ssCommandEnd verified) s) (fun t =>
        t.ss.busy = none ∧ (t.ss.sect cal).bytes = bs ∧ (t.ss.sect cal).broken = !verified ∧ (t.ss.sect cal).commits = (s.ss.sect cal).commits
        ∧ t.ss.sect (!cal) = s.ss.sect (!cal) ∧ t.ss.result = (if verified then 0 else 4) ∧ OnlyIn [.ss, .bel] s t))
      ∧ (s.ss.busy = some ⟨false, cal, bs⟩ → GoesTo (exec (.ssCommandEnd verified) s) (fun t =>
        t.ss = { s.ss with busy := none, result := 0 }
        ∧ (∀ i < 4096, t.reg (R.STAGING i) = wordOfBytes ((List.range 8).map (fun k => (s.ss.sect cal).byte (8 * i + k))))
        ∧ (∀ o, (o < R.STAGING 0 ∨ R.STAGING 4096 ≤ o) → t.reg o = s.reg o) ∧ OnlyIn [.rf, .ss, .bel] s t)))

/-- A DB_PTR write that reaches its ring (R144, R146): within the ring's room it moves TAIL, or HEAD of a receipt ring, to the value
written and leaves the other count; beyond it, the write is dropped, which is counted, and both counts stay. Rests on the model's readings
notes/assumptions/21.md. -/
def Obligations.DoorbellMovesItsCount : Prop :=
  ∀ (s : State) (func page : Func) (receipt : Bool) (ring : BitVec 5) (v : BitVec 32) (k : Nat),
    s.inService = true → (func = 0 ∨ (func = page ∧ s.carrelExists func.toNat = true)) → page ≠ 0 →
    s.regBit (R.CIR_DB_ENABLE (page.toNat / 64)) (page.toNat % 64) = true → s.ringOf page.toNat receipt ring.toNat = some k →
    let d := (v.toNat + (2 ^ 32 - (if receipt then s.ringHead k else s.ringTail k))) % 2 ^ 32
    let room := if receipt then s.ringLevel k else s.ringSize k - s.ringLevel k
    ((d = 0 ∨ (s.ringStopped k = false ∧ (receipt = true ∨ s.ringDevice k = false) ∧ d ≤ room)) →
      GoesTo (exec (.dbPtrWrite func page receipt ring v) s) (fun t =>
        t.ringTail k = (if receipt then s.ringTail k else v.toNat) ∧ t.ringHead k = (if receipt then v.toNat else s.ringHead k)
        ∧ t.mem = s.mem ∧ t.cat = s.cat ∧ t.ldg = s.ldg))
    ∧ (d ≠ 0 → (s.ringStopped k = true ∨ (receipt = false ∧ s.ringDevice k = true) ∨ room < d) →
      GoesTo (exec (.dbPtrWrite func page receipt ring v) s) (fun t =>
        t.ringTail k = s.ringTail k ∧ t.ringHead k = s.ringHead k
        ∧ t.field (R.CIR_RING_STATUS k) 32 16 = satAdd 0xFFFF (s.field (R.CIR_RING_STATUS k) 32 16) 1
        ∧ OnlyIn [.rf, .ldg] s t))
    ∧ exec (.dbRestart func page receipt ring) s = .next (s.setRegBit (R.CIR_RING_STATUS k) 17 false)
    ∧ exec (.wmarkClear func page receipt ring) s = .next (s.setField (R.CIR_RING_STATUS k) 18 9 0)

/-- Writes of CIR_RING_CTL (R141, R143, R168): a context that breaks no rule is enabled with its fetch point at HEAD; one that breaks a
rule keeps its fields disabled and reports CFG_ERR; a disable waits for its burst, is refused while a slip ring names the receipt ring,
and otherwise takes effect at once. RING_DISABLE_EFFECT (R168): once the burst of a ring that waits for its disable has ended, the ring is
disabled; before, nothing changes. Rests on the model's readings notes/assumptions/22.md, notes/assumptions/76.md. -/
def Obligations.RingsEnableAndDisable : Prop :=
  (
    ∀ (s : State) (k : BitVec 13) (ctl : Word), s.alive = true →
      let n := k.toNat
      let off := s.setReg (R.CIR_RING_CTL n) (setBitAt (ctl &&& ringCtlMask) 0 false)
      (s.ringOn n = false → off.ringRefused n = false → GoesTo (exec (.ringEnable k ctl) s) (fun t =>
          t.reg (R.CIR_RING_CTL n) = setBitAt (ctl &&& ringCtlMask) 0 true ∧ Tab.mem t.cir.committed n = true
          ∧ t.fetchPoint n = s.ringHead n ∧ OtherRegs (R.CIR_RING_CTL n) s t ∧ OnlyIn [.rf, .cir] s t))
      ∧ (s.ringOn n = false → off.ringRefused n = true → GoesTo (exec (.ringEnable k ctl) s) (fun t =>
          t.reg (R.CIR_RING_CTL n) = setBitAt (ctl &&& ringCtlMask) 0 false ∧ t.regBit (R.CIR_RING_STATUS n) 27 = true ∧ OnlyIn [.rf] s t))
      ∧ (s.ringOn n = true →
          exec (.ringEnable k ctl) s = .next { s with cir := { s.cir with disabling := Tab.erase s.cir.disabling n } })
      ∧ (s.ringOn n = false → exec (.ringDisable k ctl) s = .next (s.setReg (R.CIR_RING_CTL n) (ctl &&& ringCtlMask)))
      ∧ (s.ringOn n = true → s.receiptNamed n = true →
          exec (.ringDisable k ctl) s = .next (s.setRegBit (R.CIR_RING_STATUS n) 27 true))
      ∧ (s.ringOn n = true → s.receiptNamed n = false → s.atDesk n = true →
          exec (.ringDisable k ctl) s = .next { s with cir := { s.cir with disabling := Tab.insert s.cir.disabling n true } })
      ∧ (s.ringOn n = true → s.receiptNamed n = false → s.atDesk n = false → (∀ w ∈ s.cir.waits, w.ctx ≠ n) →
          GoesTo (exec (.ringDisable k ctl) s) (fun t =>
            t.ringOn n = false ∧ Tab.mem t.cir.disabling n = false ∧ t.cir.desks = s.cir.desks ∧ t.cir.waits = s.cir.waits
            ∧ (s.ringIsReceipt n = true → ∀ d ∈ t.cir.due, ¬ (d.carrel = s.ringCarrel n ∧ d.rring = s.ringLocal n))
            ∧ OnlyIn [.rf, .cir, .cat, .kpr] s t)))
  ∧ (
    ∀ (s : State) (k : BitVec 13),
      (s.running = true → Tab.mem s.cir.disabling k.toNat = true → s.atDesk k.toNat = false → (∀ w ∈ s.cir.waits, w.ctx ≠ k.toNat) →
        GoesTo (exec (.ringDisableEffect k) s) (fun t =>
          t.ringOn k.toNat = false ∧ Tab.mem t.cir.disabling k.toNat = false ∧ t.cir.desks = s.cir.desks ∧ OnlyIn [.rf, .cir, .cat, .kpr] s t))
      ∧ ((Tab.mem s.cir.disabling k.toNat = false ∨ s.atDesk k.toNat = true) → exec (.ringDisableEffect k) s = .next s))

/-- DESK_GRANT (R148): the lowest free desk takes a ring that has work, whose burst is of at most 16 slips from its fetch point; with
every desk taken nothing changes. BURST_END (R149 to R152, R170): the desk is free and the fetch point is HEAD again. A burst that fails
stops its ring with the status, and a ring that has stopped meanwhile keeps its counts; of a burst of one slip, a slip that passes the
entry checks and has room enters under the next record, and one that fails them is passed over with no record; HEAD and the slip count
advance with each. Rests on the model's readings notes/assumptions/21.md, notes/assumptions/24.md, notes/assumptions/76.md. -/
def Obligations.DesksFetchAndEnterSlips : Prop :=
  (
    ∀ s : State, s.running = true →
      ((∀ d < 16, Tab.mem s.cir.desks d = true) → exec .deskGrant s = .next s)
      ∧ (∀ d, (List.range 16).find? (fun d => !Tab.mem s.cir.desks d) = some d →
          (∃ k ∈ s.ringsOn, s.hasWork k = true ∧ s.ringCarrel k ∈ s.carrelList) →
          GoesTo (exec .deskGrant s) (fun t => ∃ k ∈ s.ringsOn, s.hasWork k = true
            ∧ t.cir.desks = Tab.insert s.cir.desks d ⟨k, s.fetchPoint k, min 16 ((s.ringTail k + (2 ^ 32 - s.fetchPoint k)) % 2 ^ 32)⟩
            ∧ t.fetchPoint k = (s.fetchPoint k + min 16 ((s.ringTail k + (2 ^ 32 - s.fetchPoint k)) % 2 ^ 32)) % 2 ^ 32
            ∧ t.field (R.CIR_DESK_STATUS d) 0 1 = 1 ∧ t.field (R.CIR_DESK_STATUS d) 1 13 = k
            ∧ OtherRegs (R.CIR_DESK_STATUS d) s t ∧ OnlyIn [.rf, .cir, .crl] s t)))
  ∧ (
    ∀ (s : State) (d : BitVec 4) (host : List Byte) (fail : Option Code) (x : Desk),
      s.running = true → Tab.find? s.cir.desks d.toNat = some x → x.ring < 8192 →
      SettlesTo (exec (.burstEnd d host fail) s) (fun t => Tab.find? t.cir.desks d.toNat = none
        ∧ t.fetchPoint x.ring = t.ringHead x.ring ∧ t.field (R.CIR_DESK_STATUS d.toNat) 0 1 = 0)
      ∧ (∀ code, s.ringHost x.ring = true → fail = some code → s.ringStopped x.ring = false →
          SettlesTo (exec (.burstEnd d host fail) s) (fun t => t.ringStopped x.ring = true
            ∧ t.field (R.CIR_RING_STATUS x.ring) 48 16 = (hostCode code).toNat ∧ t.ringHead x.ring = s.ringHead x.ring ∧ t.cat = s.cat))
      ∧ (∀ code tags, s.ringHost x.ring = true → fail = none → s.portUp 0 = true → s.ringStopped x.ring = false → x.n = 1 → s.carrelLive (s.ringCarrel x.ring) = true →
          s.entryRefusal (s.ringCarrel x.ring) (wordsOfBytes 16 host) = (s, tags, some code) →
          SettlesTo (exec (.burstEnd d host fail) s) (fun t => t.ringHead x.ring = (s.ringHead x.ring + 1) % 2 ^ 32 ∧ t.cat = s.cat
            ∧ t.reg R.CIR_SLIP_COUNT = s.reg R.CIR_SLIP_COUNT + 1))
      ∧ (s.ringStopped x.ring = true →
          SettlesTo (exec (.burstEnd d host fail) s) (fun t => t.ringHead x.ring = s.ringHead x.ring ∧ t.cat = s.cat))
      ∧ (∀ tags, s.ringHost x.ring = true → fail = none → s.portUp 0 = true → s.ringStopped x.ring = false → x.n = 1 → s.carrelLive (s.ringCarrel x.ring) = true →
          s.entryRefusal (s.ringCarrel x.ring) (wordsOfBytes 16 host) = (s, tags, none) → s.slotOk (s.ringCarrel x.ring) = true →
          let y := s.newRecord (s.ringCarrel x.ring) x.ring (s.ringHead x.ring) (wordsOfBytes 16 host) tags
          s.edgeOk (s.ringCarrel x.ring) y.ovf = true →
          SettlesTo (exec (.burstEnd d host fail) s) (fun t => t.ringHead x.ring = (s.ringHead x.ring + 1) % 2 ^ 32
            ∧ t.cat = { s.cat with slips := Tab.insert s.cat.slips s.cat.nextId y, nextId := s.cat.nextId + 1 }
            ∧ t.reg R.CIR_SLIP_COUNT = s.reg R.CIR_SLIP_COUNT + 1)))

/-- RECEIPT_WRITE (R152, R160 to R163): the first receipt due to a ring with room is written at TAIL, W1 to W3 before W0, TAIL and the
receipt count advance and its record leaves; a write that fails stops the ring. Local memory outside the slot keeps its bytes.
NOTIFY_HOLDOFF_END (R165): the interval ends; a notify write merged into it leaves for host memory, and starts another interval where the
ring has one. Rests on the model's readings notes/assumptions/22.md. -/
def Obligations.ReceiptsAndNotifiesAreWritten : Prop :=
  (
    ∀ (s : State) (k : BitVec 13) (fail : Option Code) (r : DueReceipt),
      s.running = true → s.dueFor k.toNat = some r → s.receiptRoom k.toNat = true →
      let n := k.toNat
      let a := s.ringAddr n (s.ringTail n)
      (∀ code, s.ringHost n = true → fail = some code → GoesTo (exec (.receiptWrite k fail) s) (fun t =>
          t.ringStopped n = true ∧ t.ringTail n = s.ringTail n ∧ t.cir = s.cir ∧ t.mem = s.mem))
      ∧ (s.ringHost n = true → s.regBit (R.ILN_PORT_STATE 0) 2 = true → fail = none → GoesTo (exec (.receiptWrite k fail) s) (fun t =>
          t.ringTail n = (s.ringTail n + 1) % 2 ^ 32 ∧ t.reg R.CIR_RECEIPT_COUNT = s.reg R.CIR_RECEIPT_COUNT + 1
          ∧ t.cir.due = s.cir.due.erase r
          ∧ t.cat.slips = (match r.record with | some id => Tab.erase s.cat.slips id | none => s.cat.slips)
          ∧ (∃ l, t.hostOut = s.hostOut ++ [⟨s.ringCarrel n, a + 8, bytesOfWords [r.w1, r.w2, r.w3]⟩,
              ⟨s.ringCarrel n, a, bytesOfWords [s.receiptWord n r]⟩] ++ l)
          ∧ t.mem = s.mem))
      ∧ (s.ringHost n = false → a + 32 ≤ 0x6000000000 → GoesTo (exec (.receiptWrite k fail) s) (fun t => OtherBytes a 32 s t)))
  ∧ (
    ∀ (s : State) (k : BitVec 13), s.running = true →
      let n := k.toNat
      (Tab.find? s.cir.holdoff n = none → exec (.notifyHoldoffEnd k) s = .next s)
      ∧ (Tab.find? s.cir.holdoff n = some false →
          exec (.notifyHoldoffEnd k) s = .next { s with cir := { s.cir with holdoff := Tab.erase s.cir.holdoff n } })
      ∧ (Tab.find? s.cir.holdoff n = some true → s.regBit (R.ILN_PORT_STATE 0) 2 = true → GoesTo (exec (.notifyHoldoffEnd k) s) (fun t =>
          t.hostOut = s.hostOut ++ [⟨s.ringCarrel n, (s.reg (R.CIR_RING_NOTIFY_ADDR n)).toNat, leBytes 4 (s.field (R.CIR_RING_NOTIFY_CTL n) 0 32)⟩]
          ∧ (Tab.mem t.cir.holdoff n = true ↔ s.field (R.CIR_RING_NOTIFY_CTL n) 36 12 ≠ 0) ∧ OnlyIn [.cir, .iln, .hostOut] s t)))

/-- ENQUEUE_APPEND and CIR_ENQ_LIMIT (R158, R159): without room and credit an enqueue waits; with them its slips are written from TAIL on,
TAIL and the credit move by their number and the enqueue waits no longer; a BURST below the credit held lowers it, and the limit of a
carrel that does not exist takes no write. Rests on the model's readings notes/assumptions/23.md. -/
def Obligations.EnqueueTakesRoomAndCredit : Prop :=
  (∀ (s : State) (n : Nat) (w : WaitEnq), s.running = true → s.cir.waits[n]? = some w → s.enqReady w = false →
      ∀ fail, exec (.enqueueAppend ⟨n, fail⟩) s = .next s)
  ∧ (∀ (s s1 s2 : State) (n id : Nat) (fail : Option Code) (w : WaitEnq) (bs : List Byte), s.running = true → s.cir.waits[n]? = some w → s.enqReady w = true → w.ctx < 8192 →
      w.who = .slip id → s.enqRead w fail = (s1, bs, none) →
      s1.slotsWrite w.ctx (s1.ringTail w.ctx) fail ((List.range w.count).map (fun i => (bs.drop (128 * i)).take 128)) = (s2, none) →
      SettlesTo (exec (.enqueueAppend ⟨n, fail⟩) s) (fun t => t.ringTail w.ctx = (s2.ringTail w.ctx + w.count) % 2 ^ 32
        ∧ t.enqCredit w.carrel = s2.enqCredit w.carrel - w.count ∧ t.cir.waits.length < s.cir.waits.length ∧ t.mem = s2.mem))
  ∧ (∀ (s : State) (c : Func) (v : Word), s.alive = true → (c = 0 ∨ s.carrelExists c.toNat = true) → GoesTo (exec (.enqLimitWrite c v) s) (fun t =>
      t.reg (R.CIR_ENQ_LIMIT c.toNat) = v &&& 0x1FFFFFFFF ∧ t.enqCredit c.toNat = min (s.enqCredit c.toNat) (fld v 16 16)
      ∧ (∀ j, j ≠ c.toNat → t.enqCredit j = s.enqCredit j) ∧ OtherRegs (R.CIR_ENQ_LIMIT c.toNat) s t ∧ OnlyIn [.rf, .cir] s t))
  ∧ (∀ (s : State) (c : Func) (v : Word), c ≠ 0 → s.carrelExists c.toNat = false → exec (.enqLimitWrite c v) s = .next s)

/-- PASS_TABLE_READ (R180, R222, R233): the LAUNCH becomes READY with what the Shelver read of its kernel, or retires with the status of
the check that failed; a slip whose kernel is not to be read stays. NO_PROGRESS (R187): recorded once, with CAT_CARREL_STATE's bit; where
ABANDON was set at the stamp the slip retires with NO_PROGRESS and no shelf keeps a pass of it, but a COPY whose chunk is under way
elsewhere sends no other chunk and ends with it; a slip whose count did not reach its threshold at the last stamp stays. Rests on the
model's readings notes/assumptions/25.md, notes/assumptions/26.md. -/
def Obligations.LaunchesReadTheirPassTable : Prop :=
  (
    ∀ (s u : State) (c : Func) (tag : BitVec 32) (id : Nat) (x : Slip), s.running = true → s.slipByTag c.toNat tag.toNat = some (id, x) →
      (x.tableDue = false → exec (.passTableRead c tag) s = .next s)
      ∧ (∀ l, x.tableDue = true → s.readKernel x = (u, .ok l) → GoesTo (exec (.passTableRead c tag) s) (fun t =>
          t.slip id = some { x with st := .ready, readyAt := if x.reading then s.now.toNat else x.readyAt, reading := false, launch := some l } ∧ t.mem = s.mem
          ∧ t.shelves = s.shelves ∧ t.bind = s.bind))
      ∧ (∀ code, x.tableDue = true → s.readKernel x = (u, .error code) → isSuccess code = false → x.fail = none →
          SettlesTo (exec (.passTableRead c tag) s) (fun t => t.slipOver id code ∧ t.mem = s.mem ∧ t.shelves = s.shelves)))
  ∧ (
    ∀ (s : State) (c : Func) (tag : BitVec 32) (id : Nat) (x : Slip), s.running = true → s.slipByTag c.toNat tag.toNat = some (id, x) →
      s.slip id = some x →
      (s.stalled x = false → exec (.noProgress c tag) s = .next s)
      ∧ (s.stalled x = true → x.noprog = false → x.due = 1 → GoesTo (exec (.noProgress c tag) s) (fun t =>
          t.regBit (R.CAT_CARREL_STATE c.toNat) 26 = true ∧ t.slip id = some { x with noprog := true, due := 0 }
          ∧ OnlyIn [.rf, .cat, .bel, .ldg] s t))
      ∧ (s.stalled x = true → x.noprog = true → x.due = 1 → GoesTo (exec (.noProgress c tag) s) (fun t =>
          t.slip id = some { x with due := 0 } ∧ OnlyIn [.cat] s t))
      ∧ (s.stalled x = true → x.due = 2 → x.fail = none → x.typ = 3 → s.slipBusy id = true → GoesTo (exec (.noProgress c tag) s) (fun t =>
          t.slip id = some { x with noprog := true, due := 0, fail := some 0x8001, progress := x.copyLen } ∧ t.mem = s.mem ∧ t.shelves = s.shelves))
      ∧ (s.stalled x = true → x.due = 2 → x.fail = none → (x.typ ≠ 3 ∨ s.slipBusy id = false) →
          ∃ t : State, exec (.noProgress c tag) s = .next t.settle.goneSettle ∧ t.slipOver id 0x8001 ∧ (s.noneHeld → t.mem = s.mem)
            ∧ ∀ sh, ((t.shelf sh).run.all (fun r => r.e.slip != id)) = true ∧ (((t.shelf sh).queue ++ (t.shelf sh).plan).all (fun e => e.slip != id)) = true))

/-- CAT_CANCEL (R182, R183): a named slip that is ENTERED or READY retires with CANCELLED and the result says so; one that is later is
left, and none is reported; no slip of a cancelled carrel or ring stays ENTERED or READY. CAT_SNAP_CLEAR and CAT_SHARE (R172, R189, R190):
the snapshot's bits and words go; a share whose minima fit the Catalogue is stored, and one that does not sets the error bit; a carrel
that does not exist takes none. Rests on the model's readings notes/assumptions/14.md, notes/assumptions/27.md. -/
def Obligations.CancelsSnapshotsAndShares : Prop :=
  (
    (∀ (s : State) (c : Func) (tag : BitVec 32), s.alive = true → s.slipByTag c.toNat tag.toNat = none →
        exec (.catCancelSlip c tag) s = .next ((s.setReg R.CAT_CANCEL_STATUS 2).settle))
    ∧ (∀ (s : State) (c : Func) (tag : BitVec 32) (id : Nat) (x : Slip), s.alive = true → s.slipByTag c.toNat tag.toNat = some (id, x) →
        s.slip id = some x → (x.st = .entered ∨ x.st = .ready) → x.fail = none → SettlesTo (exec (.catCancelSlip c tag) s) (fun t =>
          t.reg R.CAT_CANCEL_STATUS = 0x10000 ∧ t.slipOver id 0x2004 ∧ OnlyIn [.rf, .cir, .cat] s t))
    ∧ (∀ (s : State) (c : Func) (tag : BitVec 32) (id : Nat) (x : Slip), s.alive = true → s.slipByTag c.toNat tag.toNat = some (id, x) →
        (x.st = .planned ∨ x.st = .running ∨ x.st = .retired) →
        exec (.catCancelSlip c tag) s = .next ((s.setReg R.CAT_CANCEL_STATUS 4).settle))
    ∧ (∀ (s : State) (c : Func), s.alive = true → SettlesTo (exec (.catCancelCarrel c) s) (fun t =>
        OnlyIn [.rf, .cir, .cat] s t ∧ ∀ id y, t.slip id = some y → y.carrel = c.toNat → y.st ≠ .entered ∧ y.st ≠ .ready))
    ∧ (∀ (s : State) (k : BitVec 13), s.alive = true → SettlesTo (exec (.catCancelRing k) s) (fun t =>
        OnlyIn [.rf, .cir, .cat] s t ∧ ∀ id y, t.slip id = some y → y.ctx = k.toNat → y.st ≠ .entered ∧ y.st ≠ .ready)))
  ∧ (
    ∀ (s : State) (c : Func), s.alive = true →
      (exec (.catSnapClear 0) s = .next s)
      ∧ (c ≠ 0 → GoesTo (exec (.catSnapClear c) s) (fun t => t.field (R.CAT_CARREL_STATE c.toNat) 27 9 = 0
          ∧ t.field (R.CAT_CARREL_STATE c.toNat) 0 27 = s.field (R.CAT_CARREL_STATE c.toNat) 0 27
          ∧ Tab.find? t.cat.snaps c.toNat = none ∧ t.cat.slips = s.cat.slips ∧ OtherRegs (R.CAT_CARREL_STATE c.toNat) s t ∧ OnlyIn [.rf, .cat] s t))
      ∧ (∀ v, s.carrelExists c.toNat = false → exec (.catShareWrite c v) s = .next s)
      ∧ (∀ v, s.carrelExists c.toNat = true →
          let w := v &&& 0xFFFF1FFF1FFF
          let others := listSum ((s.shareMins.filter (fun p => p.1 != c.toNat)).map (·.2))
          ((others + fld v 0 13 ≤ 4096 ∧ fld v 0 13 ≤ fld v 16 13) → exec (.catShareWrite c v) s = .next (s.setReg (R.CAT_SHARE c.toNat) w))
          ∧ ((4096 < others + fld v 0 13 ∨ fld v 16 13 < fld v 0 13) → exec (.catShareWrite c v) s = .next (s.setRegBit R.CAT_STATUS 32 true))))

/-- ACCESSION (R230, R235): a volume that passes its checks is placed in the lowest run of free blocks, with the image of the folios of
its translation; a translation that is not one of the volume's changes nothing; a room without shelves ends it with the status of check 4,
and its slot is free. ACCESSION_DONE (R230, R234, R236): where every shelf's copy of the image is whole and readable the volume becomes
usable, its image lies in the folio memory of every shelf of the room, and its slip retires; a failed load ends with no volume. Rests on
the model's readings notes/assumptions/28.md, notes/assumptions/38.md, notes/assumptions/77.md. -/
def Obligations.AccessionsPlaceAndLoadVolumes : Prop :=
  (
    ∀ (s : State) (slot : Bool) (tr : List KernelTr) (j : BindJob) (x : Slip), s.running = true → s.bind.job slot = some j → j.placed = none →
      s.slip j.slip = some x →
      (j.s = 0 → x.fail = none → x.st ≠ .retired → SettlesTo (exec (.accession slot tr) s) (fun t =>
          t.bind.job slot = none ∧ Tab.find? t.bind.vols (volKey j.carrel j.volId) = none ∧ t.slipOver j.slip 0x4004 ∧ t.mem = s.mem))
      ∧ (∀ (u : State) (bs : List Byte), j.s ≠ 0 → s.readFor j.carrel (fld (x.p 0) 0 48) (fld (x.p 1) 0 32) x.tag = (u, bs, none) →
          let n := fld (x.p 1) 0 32
          let v : Vol := ⟨bs, wordsOfBytes (n / 8) bs⟩
          v.headerCheck n = none → v.sectsOk n = true → v.f 3 0 16 ≤ (v.entries 1).length →
          (v.tabs.plan j (u.bindCap j) tr = .ok none → exec (.accession slot tr) s = .next u)
          ∧ ∀ (ps : List KernelPlan) (b : Nat), v.tabs.plan j (u.bindCap j) tr = .ok (some ps) → firstFit (u.blocksUsed j.carrel) (ceilDiv (imageLen ps) 64) = some b → GoesTo (exec (.accession slot tr) s) (fun t =>
            t.bind.job slot = some { j with placed := some ⟨b, ceilDiv (imageLen ps) 64, j.s, true, v.tabs.image j.volId j.s (256 + 64 * b) ps⟩ }
            ∧ t.bind.vols = s.bind.vols ∧ t.cat = s.cat ∧ t.shelves = s.shelves)))
  ∧ (
    ∀ (s : State) (slot : Bool) (j : BindJob) (v : Volume), s.running = true → s.bind.job slot = some j → j.placed = some v →
      (64 * (256 + 64 * v.first) + 8 * v.image.length ≤ 0x40000 → 8 ≤ v.image.length → s.errorFree →
        (∀ sh ∈ s.roomInUse j.carrel, sh < 4096 ∧ s.copyFor slot sh + 8 * v.image.length ≤ 0x6000000000
          ∧ (∀ i < 8 * v.image.length, s.byteStatus (s.copyFor slot sh + i) = none)
          ∧ Memory.readN s.mem (s.copyFor slot sh) (8 * v.image.length) = bytesOfWords v.image) →
        (∀ x, s.slip j.slip = some x → x.st ≠ .retired ∧ x.fail = none) →
        SettlesTo (exec (.accessionDone slot none) s) (fun t => t.bind.job slot = none
          ∧ Tab.find? t.bind.vols (volKey j.carrel j.volId) = some v ∧ t.slipDone j.slip
          ∧ ∀ sh ∈ s.roomInUse j.carrel, Memory.readN t.mem (folioAddr sh (64 * (256 + 64 * v.first))) (8 * v.image.length) = bytesOfWords v.image))
      ∧ (∀ code, (∀ x, s.slip j.slip = some x → x.st ≠ .retired ∧ x.fail = none) → SettlesTo (exec (.accessionDone slot (some code)) s) (fun t =>
          t.bind.job slot = none ∧ Tab.find? t.bind.vols (volKey j.carrel j.volId) = none
          ∧ t.slipOver j.slip (if code = 0x6001 then 0x6001 else 0x6004) ∧ t.mem = s.mem)))

/-- COPY_CHUNK (R156, R185, R399): a chunk of at most 4 KiB that the arbiter grants moves its bytes. From near tier to near tier they are
written, and with the last chunk the slip retires with success; for host memory they leave, and the chunk waits for the host; a plain copy
to near tier changes no byte outside the chunk's range where no shelf holds posted traffic back. A slip that may not run a chunk stays.
Rests on the model's readings notes/assumptions/38.md, notes/assumptions/76.md. -/
def Obligations.CopyChunkMovesItsBytes : Prop :=
  ∀ (s s' : State) (c : Func) (tag : BitVec 32) (host : List Byte) (fail : Option Code) (id : Nat) (x : Slip), s.running = true →
    s.slipByTag c.toNat tag.toNat = some (id, x) →
    s.slip id = some x →
    (s.copyWaits (id, x) = false → exec (.copyChunk c tag host fail) s = .next s)
    ∧ (s.copyWaits (id, x) = true → s.enginesHeld < 8 → s.reqRoom 32 = true → s.copyHeld x = false →
        s.grant 1 (s.carrelList.filter (fun k => s.cat.slips.any (fun p => p.2.carrel == k && s.copyWaits p))) = (s', some c.toNat) →
        let n := min 4096 (x.copyLen - x.progress)
        let src := (x.p 0).toNat + x.progress
        let dst := (x.p 1).toNat + x.progress
        let s1 := s'.setSlip id { x with progress := x.progress + n }
        (x.srcHost = false → x.dstHost = false → x.copyAdds = false → s.ownChip src = true → s.ownChip dst = true → s.errorFree →
          s.servesNear x.carrel (src % 2 ^ 48) n → s.servesNear x.carrel (dst % 2 ^ 48) n → x.fail = none → fail = none →
          let moved := fun (t : State) => Memory.readN t.mem (dst % 2 ^ 48) n = Memory.readN s.mem (src % 2 ^ 48) n
            ∧ OtherBytes (dst % 2 ^ 48) n s t ∧ t.shelves = s.shelves ∧ t.hostOut = s.hostOut
          (x.progress + n < x.copyLen → GoesTo (exec (.copyChunk c tag host fail) s) (fun t =>
            moved t ∧ t.slip id = some { x with progress := x.progress + n, advanced := true }))
          ∧ (x.progress + n = x.copyLen → SettlesTo (exec (.copyChunk c tag host fail) s) (fun t => moved t ∧ t.slipDone id)))
        ∧ (∀ u bs, x.srcHost = false → x.dstHost = true → s.ownChip src = true → s.portUp 0 = true → fail = none →
          s1.readFor x.carrel (src % 2 ^ 48) n x.tag = (u, bs, none) → u.portUp 0 = true → GoesTo (exec (.copyChunk c tag host fail) s) (fun t =>
            t.hostOut = s.hostOut ++ [⟨x.carrel, dst % 2 ^ 64, bs⟩]
            ∧ t.slip id = some { x with progress := x.progress + n } ∧ t.mem = s.mem ∧ t.shelves = s.shelves))
        ∧ (s.noneHeld → x.dstHost = false → x.copyAdds = false → dst / 2 ^ 48 = 0xFFFF → dst % 2 ^ 48 + n ≤ 0x6000000000 →
          (x.srcHost = true ∨ s.ownChip src = true) →
          GoesTo (exec (.copyChunk c tag host fail) s) (fun t => OtherBytes (dst % 2 ^ 48) n s t ∧ t.hostOut = s.hostOut)))

/-- A HOLDING slip in its turn whose checks refuse it retires with the status of the first that fails, and the Keeper keeps what it had
(R339). REGISTER, RELEASE, PIN and UNPIN in their turn and admitted (R337 to R340): a call number of backed leaves is registered at home;
one with no near leaf and no move is gone once released; a region without leaves is pinned, and an unpinned one is gone. The call table
and the free frames have room (R215, R337). Rests on the model's readings notes/assumptions/55.md. -/
def Obligations.HoldingsRegisterReleaseAndPin : Prop :=
  (
    ∀ (s : State) (c : Func) (tag : BitVec 32) (id : Nat) (x : Slip) (code : Code),
      ∀ q ∈ [(1, Instr.register c tag), (2, .release c tag), (3, .pin c tag), (4, .unpin c tag), (5, .prefetch c tag), (6, .evict c tag)],
        s.holdTurn q.1 c tag id x → s.holdRefusal x true false = some code → isSuccess code = false →
        SettlesTo (exec q.2 s) (fun t => t.slipOver id code ∧ t.kpr = s.kpr ∧ t.mem = s.mem ∧ OnlyIn [.rf, .cir, .cat] s t))
  ∧ (
    ∀ (s : State) (c : Func) (tag : BitVec 32) (id : Nat) (x : Slip), s.holdRefusal x true false = none →
      (s.holdTurn 1 c tag id x → s.holdRoom x = true → x.hFlags % 2 = 0 → id ∉ s.kpr.zeroing → s.unbackedOf x.newHolding = [] →
        SettlesTo (exec (.register c tag) s) (fun t => t.callAt x.hKey = some x.newHolding ∧ t.slipDone id ∧ t.mem = s.mem))
      ∧ (∀ h, s.holdTurn 2 c tag id x → s.callAt x.hKey = some h → (∀ p ∈ h.leaves, p.2.frame = none) →
        (∀ m ∈ s.kpr.moves, callKey m.carrel m.call ≠ x.hKey) →
        SettlesTo (exec (.release c tag) s) (fun t => t.callAt x.hKey = none ∧ t.slipDone id ∧ t.mem = s.mem))
      ∧ (s.holdTurn 3 c tag id x → s.holdRoom x = true → s.movesInto x.hAddr x.hSize = false → s.touchesFrame x.hAddr x.hSize = false → SettlesTo (exec (.pin c tag) s) (fun t =>
          t.callAt x.hKey = some ⟨x.carrel, x.call, true, x.hAddr, x.hSize, 0, [], false⟩ ∧ t.slipDone id ∧ t.mem = s.mem))
      ∧ (s.holdTurn 4 c tag id x → SettlesTo (exec (.unpin c tag) s) (fun t =>
          t.callAt x.hKey = none ∧ t.slipDone id ∧ t.mem = s.mem)))

/-- PREFETCH and EVICT of one leaf in their turn and admitted (R339, R342): a far leaf starts towards a free frame of its stack; a clean
near leaf is dropped and a dirty one starts home. LEAF_MOVE_START and LEAF_MOVE_DONE (R338, R342, R399): a move whose frame is not lost
and that can start, its carrel alone at its ports, starts with its first chunk on each; one that has ended leaves the queue, its leaf lies
at its destination with its bytes, and no other byte of local memory changes. Rests on the model's readings notes/assumptions/37.md,
notes/assumptions/55.md. -/
def Obligations.PrefetchEvictAndLeafMoves : Prop :=
  (
    ∀ (s : State) (c : Func) (tag : BitVec 32) (id i : Nat) (x : Slip) (h : Holding), s.holdRefusal x true false = none → x.namedLeaves = [i] →
      s.callAt x.hKey = some h → callKey h.carrel h.call = x.hKey → s.movingLeaf x.hKey i = false → s.gaveUp id i = false →
      (∀ k f, s.holdTurn 5 c tag id x → (h.leaf i).frame = none → s.flagStack x.carrel x.hFlags = some k →
        (s.freeFrames h.carrel k).head? = some f → GoesTo (exec (.prefetch c tag) s) (fun t =>
          t.kpr = { s.kpr with moves := s.kpr.moves ++ [⟨h.carrel, h.call, i, some f, .slip id, false, []⟩] }
          ∧ t.slip id = some { x with st := .running } ∧ OnlyIn [.cat, .kpr] s t))
      ∧ (s.holdTurn 6 c tag id x → (h.leaf i).frame ≠ none → (h.leaf i).dirty = false → s.backed h i = true → s.heldLeaf x.hKey i = false →
        SettlesTo (exec (.evict c tag) s) (fun t =>
          (t.callAt x.hKey).map (fun g => (g.leaf i).frame) = some none ∧ t.slipDone id ∧ t.mem = s.mem ∧ t.kpr.moves = s.kpr.moves))
      ∧ (s.holdTurn 6 c tag id x → (h.leaf i).frame ≠ none → (h.leaf i).dirty = true → s.backed h i = true → s.heldLeaf x.hKey i = false →
        GoesTo (exec (.evict c tag) s) (fun t =>
          t.kpr = { s.kpr with moves := s.kpr.moves ++ [⟨h.carrel, h.call, i, none, .slip id, false, []⟩] }
          ∧ t.slip id = some { x with st := .running } ∧ OnlyIn [.cat, .kpr] s t)))
  ∧ (
    ∀ (s : State) (n : Nat) (m : Move), s.running = true → s.kpr.moves[n]? = some m →
      (s.moveLost m = false → s.moveReady m = false → exec (.leafMoveStart n) s = .next s)
      ∧ (s.moveLost m = false → s.moveReady m = true → (∀ k ∈ s.movePorts m, s.portCarrels k s.moveReady = [m.carrel]) →
          GoesTo (exec (.leafMoveStart n) s) (fun t =>
            t.kpr = { s.kpr with moves := s.kpr.moves.set n { m with started := true, chunks := (s.movePorts m).map (fun p => (p, 1)) } }
            ∧ OnlyIn [.kpr, .crl] s t))
      ∧ (∀ h fails, m.started = true → s.callAt (callKey m.carrel m.call) = some h → h.gone = false → callKey h.carrel h.call = callKey m.carrel m.call →
          (s.movePorts m).any (fun k => s.kpr.slots.contains k) = false → s.moveHeld m = false → (fails = true → m.dst ≠ none) → s.kpr.adds = [] →
          (∀ p ∈ s.cat.slips, p.2.typ = 6 → p.2.st ≠ .running) → Memory.wf s.mem = true →
          let src := h.placeOf m.leaf
          let dst := match m.dst with | some f => leafBytes * f | none => h.home m.leaf
          GoesTo (exec (.leafMoveDone n fails) s) (fun t =>
            (t.callAt (callKey m.carrel m.call)).map (fun g => (g.leaf m.leaf).frame) = some m.dst
            ∧ (∀ i < leafBytes, Memory.read t.mem (dst + i) = Memory.read s.mem (src + i)) ∧ OtherBytes dst leafBytes s t
            ∧ t.kpr.moves.length < s.kpr.moves.length)))

/-- ZERO_WRITE_DONE (R342), no far device having failed a write: every byte of the holding, where it lies, is zero, and the REGISTER
retires. Rests on the model's readings notes/assumptions/55.md. -/
def Obligations.ZeroWritesClearTheHolding : Prop :=
  ∀ (s : State) (c : Func) (tag : BitVec 32) (id : Nat) (x : Slip) (h : Holding), s.running = true →
    s.slipByTag c.toNat tag.toNat = some (id, x) → s.slip id = some x → x.fail = none → x.st ≠ .retired → id ∈ s.kpr.zeroing → s.carrelLive c.toNat = true →
    s.callAt x.hKey = some h → callKey h.carrel h.call = x.hKey → (∀ i < h.nLeaves, s.unwritable (h.placeOf i) = []) →
    SettlesTo (exec (.zeroWriteDone c ⟨tag, none⟩) s) (fun t =>
      (∀ i < h.nLeaves, ∀ b < leafBytes, Memory.read t.mem (h.placeOf i + b) = 0) ∧ id ∉ t.kpr.zeroing ∧ t.slipDone id)

/-- PRELOAD_START (R245, R312, R313): the first entry without a frame takes the lower free frame, and its loan is granted there with the
next generation unless its bytes overlap the other loan; then it waits. PRELOAD_DONE of a pass without PRE folios (R244, R245): its launch
record stands at the head of its folio-memory frame, the pass is loaded, and no byte outside the frame's 8 KiB changes. Rests on the
model's readings notes/assumptions/43.md. -/
def Obligations.PreloadsGrantLoansAndLoadFrames : Prop :=
  (
    ∀ (s : State) (sh : ShelfNo), s.running = true →
      let k := sh.toNat
      let x := (s.shelf k).takeFrame
      (x.entries.find? PassEntry.preloading = none → GoesTo (exec (.preloadStart sh) s) (fun t =>
          t.shelf k = x ∧ (∀ j, j ≠ k → t.shelf j = s.shelf j) ∧ OnlyIn [.shelves] s t))
      ∧ (∀ e f, x.entries.find? PassEntry.preloading = some e → e.frame = some f → x.loan f = none →
          x.loanBlocked f (loanBase s.kpr.limit f e.fp) e.fp = false → GoesTo (exec (.preloadStart sh) s) (fun t =>
            (t.shelf k).loan f = some ⟨e.carrel, e.tag, (x.genOf f + 1) % 256, loanBase s.kpr.limit f e.fp, e.fp⟩
            ∧ (t.shelf k).genOf f = (x.genOf f + 1) % 256 ∧ (t.shelf k).run = x.run
            ∧ (∀ j, j ≠ k → t.shelf j = s.shelf j) ∧ OnlyIn [.shelves] s t))
      ∧ (∀ e f, x.entries.find? PassEntry.preloading = some e → e.frame = some f →
          (x.loan f ≠ none ∨ x.loanBlocked f (loanBase s.kpr.limit f e.fp) e.fp = true) → GoesTo (exec (.preloadStart sh) s) (fun t =>
            t.shelf k = x ∧ (∀ j, j ≠ k → t.shelf j = s.shelf j) ∧ OnlyIn [.shelves] s t)))
  ∧ (
    ∀ (s : State) (sh : ShelfNo) (fail : Option Code) (e : PassEntry), s.running = true →
      (s.shelf sh.toNat).entries.find? PassEntry.preloading = some e → ((s.shelf sh.toNat).loan (e.frame.getD 0)).isSome = true →
      let c := s.ctxOf sh.toNat e
      let a := folioAddr sh.toNat (64 * c.frameSlot)
      e.preMoved = 0 → e.preReqs = [] → (((s.ctxSlip c).bind (·.launch)).map (·.sFirst)).getD 0 = 0 →
      GoesTo (exec (.preloadDone sh fail) s) (fun t =>
        Memory.readWords t.mem a 8 = s.launchRecord c 0 ∧ OtherBytes a 8192 s t
        ∧ (∃ e' ∈ (t.shelf sh.toNat).entries, e'.slip = e.slip ∧ e'.pass = e.pass ∧ e'.loaded = true)
        ∧ (t.shelf sh.toNat).run = (s.shelf sh.toNat).run))

/-- PASS_START (R133, R246, R317): at its planned offset, or at once when carried, a loaded pass that fits the period runs with its
deadline and its window; one that does not fit is carried over with all that wait behind it, and the shelf stays idle. PERIOD_OVERRUN and
PASS_END (R134, R249): at its deadline a pass has overrun and what waits is carried over; a pass whose streams have all ended leaves its
shelf and its loan is returned, and one that has not finished runs on. Rests on the model's readings notes/assumptions/9.md,
notes/assumptions/43.md, notes/assumptions/44.md. -/
def Obligations.PassesStartOverrunAndEnd : Prop :=
  (
    ∀ (s : State) (sh : ShelfNo) (e : PassEntry) (rest : List PassEntry), s.running = true →
      let k := sh.toNat
      (s.shelf k).queue = e :: rest → (s.shelf k).run = none → (s.shelf k).halted = false → (s.shelf k).clearing = false → e.loaded = true →
      let u := if e.carried then s else s.advance (ccToFc e.offset (s.shelfMHz k) - s.stp.t)
      (u.fits k e.budget = true → GoesTo (exec (.passStart sh) s) (fun t =>
          t.stp = u.stp ∧ (∃ r, (t.shelf k).run = some r ∧ r.e = e ∧ r.start = u.stp.total ∧ r.overrun = false
            ∧ r.deadline = u.stp.total + ccToFc e.budget (u.shelfMHz k)
            ∧ r.window = u.windowOf e.carrel (u.ctxOf k e).base (u.ctxOf k e).size)
          ∧ (t.shelf k).queue.length = rest.length))
      ∧ (u.fits k e.budget = false → GoesTo (exec (.passStart sh) s) (fun t =>
          t.stp = u.stp ∧ (t.shelf k).run = none ∧ (t.shelf k).halted = true ∧ (t.shelf k).queue.length = rest.length + 1
          ∧ (∀ y ∈ (t.shelf k).queue, y.carried = true) ∧ t.mem = s.mem)))
  ∧ (
    ∀ (s : State) (sh : ShelfNo) (r : Running), s.running = true →
      let k := sh.toNat
      (s.shelf k).run = some r →
      (r.overrun = false → GoesTo (exec (.periodOverrun sh) s) (fun t =>
          t.stp.total = s.stp.total + (r.deadline - s.stp.total) ∧ (∃ q, (t.shelf k).run = some q ∧ q.e = r.e ∧ q.overrun = true)
          ∧ (t.shelf k).halted = true ∧ (∀ y ∈ (t.shelf k).queue, y.carried = true) ∧ t.mem = s.mem))
      ∧ (r.overrun = true → exec (.periodOverrun sh) s = .next s)
      ∧ (s.stp.total ≤ r.deadline → r.finished = false → exec (.passEnd sh) s = .next s)
      ∧ (s.stp.total ≤ r.deadline → r.finished = true → GoesTo (exec (.passEnd sh) s) (fun t => (t.shelf k).run = none))
      ∧ (∀ f l, s.stp.total ≤ r.deadline → r.finished = true → r.e.frame = some f → (s.shelf k).loan f = some l → l.carrel = r.e.carrel →
          l.tag = r.e.tag → l.gen = r.e.gen → GoesTo (exec (.passEnd sh) s) (fun t => (t.shelf k).loan f = none ∧ t.stp = s.stp)))

/-- A shelf that joins, its domains on, takes every volume of the carrel into its folio memory, each at its own slots, and is in its room
(R240, R390). A shelf that is withdrawn shows its bit, runs and holds no pass and is in no room; where it was idle no memory changes (R93,
R214). LEND_START, LEND_END and CLEAR_START (R323, R436): a shelf that may lend starts to, once it has stood for WAIT_CC, and its range
counts it; one that a tally increment reached returns 16 cc after it; a clear starts once both domains of its shelf are on, and only then.
CLEAR_DONE (R323): with a good read-back the shelf's store and folio memory are zero, every other byte is as it was, and the shelf is idle
in no room with the generations of its loans; with a bad one it is withdrawn; before the clear has run nothing changes. Rests on the
model's readings notes/assumptions/59.md. -/
def Obligations.ShelvesJoinLendClearAndWithdraw : Prop :=
  (
    (∀ (s : State) (sh : ShelfNo), s.running = true → (s.shelf sh.toNat).joining ≠ 0 → (s.shelf sh.toNat).clearing = false →
        s.domainOn (sh.toNat / 64) = true → s.domainOn (64 + sh.toNat / 256) = true → GoesTo (exec (.shelfJoin sh) s) (fun t => (t.shelf sh.toNat).owner = (s.shelf sh.toNat).joining ∧ (t.shelf sh.toNat).joining = 0
          ∧ (∀ j, j ≠ sh.toNat → t.shelf j = s.shelf j) ∧ t.bind = s.bind
          ∧ ∀ p ∈ s.volumesOf (s.shelf sh.toNat).joining,
              let lo := fun (q : Nat × Volume) => 64 * (256 + 64 * q.2.first)
              let hi := fun (q : Nat × Volume) => lo q + 8 * q.2.image.length
              (∀ q ∈ s.volumesOf (s.shelf sh.toNat).joining, q = p ∨ hi q ≤ lo p ∨ hi p ≤ lo q) →
                Memory.readN t.mem (folioAddr sh.toNat (lo p)) (8 * p.2.image.length) = bytesOfWords p.2.image))
    ∧ (∀ (s : State) (sh : ShelfNo), s.running = true → ((s.shelf sh.toNat).joining = 0 ∨ (s.shelf sh.toNat).clearing = true
        ∨ s.domainOn (sh.toNat / 64) = false ∨ s.domainOn (64 + sh.toNat / 256) = false) →
        exec (.shelfJoin sh) s = .next s)
    ∧ (∀ (s : State) (sh : ShelfNo), s.running = true → s.rangeEnabled (sh.toNat / 64) = true → s.withdrawn sh.toNat = false →
        GoesTo (exec (.shelfWithdrawn sh) s) (fun t => t.withdrawn sh.toNat = true ∧ (t.shelf sh.toNat).owner = 0
          ∧ (t.shelf sh.toNat).run = none ∧ (t.shelf sh.toNat).queue = [] ∧ (t.shelf sh.toNat).plan = []
          ∧ (t.shelf sh.toNat).joining = 0 ∧ (t.shelf sh.toNat).clearing = false))
    ∧ (∀ (s : State) (sh : ShelfNo), s.running = true → s.rangeEnabled (sh.toNat / 64) = true → s.withdrawn sh.toNat = false →
        (s.shelf sh.toNat).run = none → (s.shelf sh.toNat).queue = [] → (s.shelf sh.toNat).plan = [] →
        popCount 64 (setBitAt (s.reg (R.CFG_SHELF_WITHDRAWN (sh.toNat / 64))) (sh.toNat % 64) true).toNat ≤ 8 →
        GoesTo (exec (.shelfWithdrawn sh) s) (fun t => t.withdrawn sh.toNat = true ∧ (t.shelf sh.toNat).owner = 0 ∧ t.mem = s.mem
          ∧ ∀ j, j ≠ sh.toNat → t.shelf j = s.shelf j)))
  ∧ (
    ∀ (s : State) (sh : ShelfNo), s.running = true →
      let k := sh.toNat
      let counted := fun (t : State) => t.field (R.PWR_RANGE_STATE (k / 64)) 10 7 = (t.pwr.lending.filter (fun j => j / 64 == k / 64)).length % 128
      (s.field R.PWR_LEND 0 32 ≠ 0 → s.domainOn (k / 64) = true → s.withdrawn k = false → k ∉ s.pwr.lending → s.canLend k = true →
        GoesTo (exec (.lendStart sh) s) (fun t => t.pwr.lending = s.pwr.lending ++ [k] ∧ counted t
          ∧ t.stp = (s.reachLend k).stp ∧ OnlyIn [.rf, .stp, .shelves, .ldg, .pwr, .obs] s t))
      ∧ (∀ at_, k ∈ s.pwr.lending → Tab.find? s.pwr.wakes k = some at_ → GoesTo (exec (.lendEnd sh) s) (fun t =>
          t.pwr = { s.pwr with lending := s.pwr.lending.filter (fun j => j != k), wakes := Tab.erase s.pwr.wakes k } ∧ counted t
          ∧ t.stp.total = s.stp.total + (at_ + wakeFc (s.shelfMHz k) - s.stp.total)
          ∧ OnlyIn [.rf, .stp, .shelves, .ldg, .pwr, .obs] s t))
      ∧ ((k ∉ s.pwr.lending ∨ Tab.find? s.pwr.wakes k = none) → exec (.lendEnd sh) s = .next s)
      ∧ ((s.shelf k).clearing = true → (s.shelf k).clearRun = false → s.domainOn (k / 64) = true → s.domainOn (64 + k / 256) = true →
          exec (.clearStart sh) s = .next (s.setShelf k { s.shelf k with clearRun := true }))
      ∧ (((s.shelf k).clearing = false ∨ (s.shelf k).clearRun = true ∨ s.domainOn (k / 64) = false ∨ s.domainOn (64 + k / 256) = false) →
          exec (.clearStart sh) s = .next s))
  ∧ (
    ∀ (s : State) (sh : ShelfNo) (ok : Bool), s.running = true →
      let k := sh.toNat
      ((s.shelf k).clearing = true → (s.shelf k).clearRun = true → GoesTo (exec (.clearDone sh true) s) (fun t =>
          t.shelf k = { Shelf.idle with gen0 := (s.shelf k).gen0, gen1 := (s.shelf k).gen1 } ∧ (∀ j, j ≠ k → t.shelf j = s.shelf j)
          ∧ (∀ a, Memory.read t.mem a = if (storeAddr k 0 ≤ a ∧ a < storeAddr k 0 + 0x80000) ∨ (folioAddr k 0 ≤ a ∧ a < folioAddr k 0 + 0x40000)
              then 0 else Memory.read s.mem a)
          ∧ ((s.shelf k).joining = 0 → OnlyIn [.mem, .ecc, .shelves] s t)))
      ∧ ((s.shelf k).clearing = true → (s.shelf k).clearRun = true → GoesTo (exec (.clearDone sh false) s) (fun t => t.withdrawn k = true))
      ∧ (((s.shelf k).clearing = false ∨ (s.shelf k).clearRun = false) → exec (.clearDone sh ok) s = .next s))

/-- Tallies (R263): a wait is met exactly where (t − v) mod 65,536 is below 32,768; a consuming wait leaves (t − v) mod 65,536 in its
tally and no other tally changes; a folio whose wait is not met stays at the head with every tally as it was. TALLY_SIGNAL (R263, R265): a
signal to the running pass adds to the tally of its core, or of every core, modulo 2^16 and changes no other; one to a waiting pass is
held in order; any other is dropped and leaves every shelf as it was; while the buffer is full, or other posted traffic waits at the
shelf, the signal waits behind it. Rests on the model's readings notes/assumptions/47.md. -/
def Obligations.TalliesCountModulo : Prop :=
  (
    ∀ (s : State) (sh : ShelfNo) (core : BitVec 8) (e : Engine) (r : Running), s.running = true →
      let k := sh.toNat
      let j := core.toNat
      let n := engNo e
      (s.shelf k).run = some r →
      let st := (r.core j).stream n
      let c := s.ctxOf k r.e
      let x : Folio := ⟨st.ptr, s.folioSlot k st.ptr⟩
      let d : Int := (((r.core j).tallyAt x.waitTally : Int) - x.waitValue) % 65536
      x.waitEn = true →
      (s.waitMet c j x = none ↔ 32768 ≤ d)
      ∧ (∀ u, s.waitMet c j x = some u →
          ((u.coreOf k j).tallyAt x.waitTally : Int) = (if x.consume = true then d else (r.core j).tallyAt x.waitTally)
          ∧ (∀ i, i ≠ x.waitTally → (u.coreOf k j).tallyAt i = (r.core j).tallyAt i) ∧ ∀ i, i ≠ j → u.coreOf k i = r.core i)
      ∧ (∀ p, 32768 ≤ d → st.ended = false → st.held = false → st.ready = false → st.room n = true → s.cutoffDue k j n = none → st.cut = false →
          st.skipLeft = 0 → s.errorFree → x.fetchCheck n c.size = none → opSpec x.opcode = some p → s.extBad c x p = false → x.pre = false →
          GoesTo (exec (.folioHead sh core e) s) (fun t => (t.coreOf k j).tally = (r.core j).tally ∧ (t.streamOf k j n).ready = false
            ∧ (t.streamOf k j n).ptr = st.ptr)))
  ∧ (
    ∀ (s : State) (sh : ShelfNo) (g : TallySig), s.running = true →
      let k := sh.toNat
      let u := g.tally.toNat
      ((256 ≤ (s.shelf k).early.length ∨ (s.shelf k).posted ≠ []) → exec (.tallySignal sh g) s = .next (s.setShelf k
          { s.shelf k with posted := (s.shelf k).posted ++ [.signal g] }))
      ∧ ((s.shelf k).early.length < 256 → (s.shelf k).posted = [] →
      (∀ r j, (s.shelf k).run = some r → r.e.isPass g.carrel.toNat g.tag.toNat g.pass.toNat = true → g.core = some j →
        GoesTo (exec (.tallySignal sh g) s) (fun t => ∃ q, (t.shelf k).run = some q ∧ q.e = r.e
          ∧ (q.core j.toNat).tallyAt u = ((r.core j.toNat).tallyAt u + g.inc.toNat) % 65536
          ∧ (∀ v, v ≠ u → (q.core j.toNat).tallyAt v = (r.core j.toNat).tallyAt v) ∧ (∀ i, i ≠ j.toNat → q.core i = r.core i)
          ∧ OnlyIn [.shelves, .pwr] s t))
      ∧ (∀ r, (s.shelf k).run = some r → r.e.isPass g.carrel.toNat g.tag.toNat g.pass.toNat = true → g.core = none →
        GoesTo (exec (.tallySignal sh g) s) (fun t => ∃ q, (t.shelf k).run = some q ∧ q.e = r.e
          ∧ (∀ j < 256, (q.core j).tallyAt u = ((r.core j).tallyAt u + g.inc.toNat) % 65536) ∧ OnlyIn [.shelves, .pwr] s t))
      ∧ ((s.shelf k).run.all (fun r => !r.e.isPass g.carrel.toNat g.tag.toNat g.pass.toNat) = true →
        (s.shelf k).awaits g.carrel.toNat g.tag.toNat g.pass.toNat = true →
        exec (.tallySignal sh g) s = .next (s.setShelf k { s.shelf k with early := (s.shelf k).early ++ [g] }))
      ∧ ((s.shelf k).run.all (fun r => !r.e.isPass g.carrel.toNat g.tag.toNat g.pass.toNat) = true →
        (s.shelf k).awaits g.carrel.toNat g.tag.toNat g.pass.toNat = false →
        GoesTo (exec (.tallySignal sh g) s) (fun t => OnlyIn [.rf, .ldg] s t))))

/-- WINDOW_WRITE (R319, R320): an admitted write lands at its offset in the open window of the shelf's store, and no other byte changes; a
refused one writes nothing and is counted; while posted traffic waits at the shelf it waits behind it. Rests on the model's readings
notes/assumptions/48.md. -/
def Obligations.WindowWritesLandInTheWindow : Prop :=
  ∀ (s : State) (a : WindowAccess), s.running = true →
    let k := a.shelf.toNat
    ((s.shelf k).posted ≠ [] → exec (.windowWrite a) s = .next (s.setShelf k { s.shelf k with posted := (s.shelf k).posted ++ [.write a] }))
    ∧ ((s.shelf k).posted = [] →
    (∀ r w, s.windowCause k a.offset a.data.length false a.carrel.toNat none = none → (s.shelf k).run = some r → r.window = some w →
      s.ecc = [] → GoesTo (exec (.windowWrite a) s) (fun t =>
        Memory.readN t.mem (storeAddr k (w.lo + a.offset)) a.data.length = a.data
        ∧ OtherBytes (storeAddr k (w.lo + a.offset)) a.data.length s t ∧ t.shelves = s.shelves))
    ∧ (∀ cause, s.windowCause k a.offset a.data.length false a.carrel.toNat none = some cause → GoesTo (exec (.windowWrite a) s) (fun t =>
        t.field R.LND_REFUSALS 16 32 = satAdd 0xFFFFFFFF (s.field R.LND_REFUSALS 16 32) 1 ∧ t.regBit R.LND_EVENT 2 = true
        ∧ OnlyIn [.rf, .bel, .ldg] s t)))

/-- FOLIO_HEAD (R268): a stream that has ended, is held or has no room is left; an unmet wait or a resource that is taken leaves the folio
at the head; one that can start is under execution with the regions it claims, and the stream stands behind it. A folio that is skipped
(R243, R268, R271): a false predicate or a skip count passes it with no write, and one that a check refuses joins the pass's record of
that folio and lap; the stream goes on behind it. Rests on the model's readings notes/assumptions/31.md, notes/assumptions/32.md,
notes/assumptions/46.md. -/
def Obligations.FolioHeadStartsWaitsOrSkips : Prop :=
  (
    ∀ (s : State) (sh : ShelfNo) (core : BitVec 8) (e : Engine) (r : Running), s.running = true →
      let k := sh.toNat
      let j := core.toNat
      let n := engNo e
      (s.shelf k).run = some r →
      let st := (r.core j).stream n
      let c := s.ctxOf k r.e
      let x : Folio := ⟨st.ptr, s.folioSlot k st.ptr⟩
      ((st.ended = true ∨ st.held = true ∨ st.room n = false) → exec (.folioHead sh core e) s = .next s)
      ∧ (∀ p, st.ended = false → st.held = false → st.room n = true → s.cutoffDue k j n = none → st.cut = false → st.skipLeft = 0 →
          s.errorFree → x.fetchCheck n c.size = none → opSpec x.opcode = some p → s.extBad c x p = false → x.pre = false →
          (st.ready = false → s.waitMet c j x = none → GoesTo (exec (.folioHead sh core e) s) (fun t =>
            t.streamOf k j n = { st with reason := 0 } ∧ OnlyIn [.shelves] s t))
          ∧ (∀ u, st.ready = false → s.waitMet c j x = some u → x.opcode ≠ 0x0700 →
              u.forced k j n (u.predicate c j x).2.1 = true → x.runsOn c j = true → x.noop p = false →
              (∀ why, u.startBlocked c j n x p = some why → GoesTo (exec (.folioHead sh core e) s) (fun t =>
                (t.streamOf k j n).ready = true ∧ (t.streamOf k j n).reason = why ∧ (t.streamOf k j n).ptr = st.ptr
                ∧ (t.streamOf k j n).execs = st.execs ∧ OnlyIn [.shelves] s t))
              ∧ (u.startBlocked c j n x p = none → (u.startCheck c j x).2 = .ok → GoesTo (exec (.folioHead sh core e) s) (fun t =>
                (t.streamOf k j n).execs = st.execs ++ [⟨x.slot, st.lap, x.ws, x.claims p c.size j, .started, [], false, 0, 0, false⟩]
                ∧ (t.streamOf k j n).passed = st.passed + 1 ∧ (x.end_ = false → st.inLap < 1023 → st.ptr < 4095 → (t.streamOf k j n).ptr = st.ptr + 1)
                ∧ (x.waitEn = true → x.consume = true → (t.coreOf k j).tallyAt x.waitTally
                    = ((r.core j).tallyAt x.waitTally + (65536 - x.waitValue)) % 65536))))))
  ∧ (
    ∀ (s : State) (sh : ShelfNo) (core : BitVec 8) (e : Engine) (r : Running), s.running = true →
      let k := sh.toNat
      let j := core.toNat
      let n := engNo e
      (s.shelf k).run = some r →
      let st := (r.core j).stream n
      let c := s.ctxOf k r.e
      let x : Folio := ⟨st.ptr, s.folioSlot k st.ptr⟩
      st.ended = false → st.held = false → st.execs = [] → s.cutoffDue k j n = none → st.cut = false → s.errorFree →
      (0 < st.skipLeft → GoesTo (exec (.folioHead sh core e) s) (fun t =>
        (t.streamOf k j n).skipLeft = st.skipLeft - 1 ∧ (t.streamOf k j n).passed = st.passed + 1 ∧ (t.streamOf k j n).execs = []))
      ∧ (∀ kind, st.skipLeft = 0 → x.fetchCheck n c.size = some kind → kind ≠ 4 → GoesTo (exec (.folioHead sh core e) s) (fun t =>
          (t.streamOf k j n).passed = st.passed + 1 ∧ (t.streamOf k j n).execs = []
          ∧ ∃ q, (t.shelf k).run = some q ∧ ∃ y ∈ q.skips, y.slot = st.ptr ∧ y.lap = st.lap ∧ sameRecord y.kind kind = true))
      ∧ (∀ p u, st.skipLeft = 0 → x.fetchCheck n c.size = none → opSpec x.opcode = some p → s.extBad c x p = false → x.pre = false →
          st.ready = false → s.waitMet c j x = some u → x.opcode ≠ 0x0700 → u.forced k j n (u.predicate c j x).2.1 = false →
          x.onSkip = false → GoesTo (exec (.folioHead sh core e) s) (fun t =>
            (t.streamOf k j n).passed = st.passed + 1 ∧ (t.streamOf k j n).execs = []
            ∧ (t.coreOf k j).acc = (r.core j).acc ∧ (t.coreOf k j).stage = (r.core j).stage
            ∧ (t.coreOf k j).tally = (u.coreOf k j).tally)))

/-- NOP and WAIT are performed without a write, and SELECT whose predicate is false makes the next EXT0 folios of its stream skipped
(R258, R268, R269). FOLIO_COMPLETE (R248, R263, R264): the one performed folio of a stream completes: its claims are released, the
progress count moves on, and its local increment is added modulo 2^16. A folio that ends by an error leaves no effect and gives its slip
the status, unless it met a failure before (R272). Rests on the model's readings notes/assumptions/46.md, notes/assumptions/49.md. -/
def Obligations.FoliosCompleteOrEndByError : Prop :=
  (
    ∀ (s : State) (sh : ShelfNo) (core : BitVec 8) (e : Engine) (c : PassCtx) (x : Exec),
      let k := sh.toNat
      let j := core.toNat
      let n := engNo e
      (s.runsFolio k j n 0x0000 c x → GoesTo (exec (.nop sh core e) s) (fun t =>
        s.performs t k j n x ∧ t.coreOf k j = ((s.coreOf k j).setStream n { s.streamOf k j n with execs := (t.streamOf k j n).execs })
        ∧ OnlyIn [.shelves] s t))
      ∧ (s.runsFolio k j n 0x0601 c x → GoesTo (exec (.wait sh core e) s) (fun t =>
        s.performs t k j n x ∧ t.coreOf k j = ((s.coreOf k j).setStream n { s.streamOf k j n with execs := (t.streamOf k j n).execs })
        ∧ OnlyIn [.shelves] s t))
      ∧ (s.runsFolio k j n 0x0700 c x → s.errorFree → GoesTo (exec (.select sh core e) s) (fun t =>
        s.performs t k j n x ∧ OnlyIn [.shelves] s t
        ∧ (t.streamOf k j n).skipLeft = (if s.forced k j n (s.predicate c j x.folio).2.1 = true then (s.streamOf k j n).skipLeft
            else x.folio.ext 0)))
      ∧ ((s.streamOf k j n).startedOp 0x0700 = none → exec (.select sh core e) s = .next s))
  ∧ (
    ∀ (s : State) (sh : ShelfNo) (core : BitVec 8) (e : Engine) (r : Running) (x : Exec), s.running = true →
      let k := sh.toNat
      let j := core.toNat
      let n := engNo e
      (s.shelf k).run = some r → ((r.core j).stream n).execs = [x] →
      (x.phase = .performed → x.reqs = [] → x.fired = false → x.folio.sigScope = 0 → GoesTo (exec (.folioComplete sh core e) s) (fun t =>
        (t.streamOf k j n).execs = [] ∧ (t.streamOf k j n).prog = ((r.core j).stream n).prog + 1
        ∧ (t.coreOf k j).tallyAt x.folio.localTally = ((r.core j).tallyAt x.folio.localTally + x.folio.localInc) % 65536
        ∧ (∀ v, v ≠ x.folio.localTally → (t.coreOf k j).tallyAt v = (r.core j).tallyAt v)
        ∧ (t.coreOf k j).acc = (r.core j).acc ∧ (t.coreOf k j).stage = (r.core j).stage))
      ∧ (x.phase = .started → exec (.folioComplete sh core e) s = .next s)
      ∧ (∀ (code : Code) (addr : Word), (x.phase = .started ∨ x.phase = .performed) → endsFolio code = true →
          GoesTo (exec (.folioErrorEnd sh core e 0 code addr) s) (fun t =>
            (t.streamOf k j n).execs = [] ∧ (t.streamOf k j n).prog = ((r.core j).stream n).prog
            ∧ (t.coreOf k j).tally = (r.core j).tally
            ∧ (∀ y, s.slip r.e.slip = some y → y.st ≠ .retired → (y.fail = none ∨ y.failAt ≠ s.stp.total) →
              ∃ z, t.slip r.e.slip = some z ∧ z.fail = some (y.fail.getD code))))
      ∧ (∀ (i : Nat) (code : Code) (addr : Word), endsFolio code = false → exec (.folioErrorEnd sh core e i code addr) s = .next s))

/-- MMA and MMA_SPARSE (R258, R259, R287, R291): accumulator D + r × EXT2 + q gains the products of row r of A with column q of B one
contribution after another, over what it held or, cleared or unset, over zero with the folio's ANCHOR; no other accumulator changes. Rests
on the model's readings notes/assumptions/45.md. -/
def Obligations.MmaAddsRowsTimesColumns : Prop :=
  ∀ (s : State) (sh : ShelfNo) (core : BitVec 8) (c : PassCtx) (x : Exec), s.errorFree →
    let k := sh.toNat
    let j := core.toNat
    let f := x.folio
    let n := f.ext 0
    let d := f.start .d j / 16
    let width := ((f.walk .b).map (fun w => w.2.2)).getD 0
    let rowA := fun r => fmtRead (f.fmt .a) n (s.spBytes c j (f.space .a) (f.start .a j + r * f.stride .a) (fmtBytes (f.fmt .a) n))
    let colB := fun q => s.spBytes c j (f.space .b) (f.start .b j + q * f.stride .b) width
    let gains := fun (t : State) (pairs : Nat → Nat → List (List (Val × Val))) =>
      (∀ r < f.ext 1, ∀ q < f.ext 2, (t.coreOf k j).accAt (d + r * f.ext 2 + q)
          = ((accReady ((s.coreOf k j).accAt (d + r * f.ext 2 + q)) f.clear f.anchor).accumulate (pairs r q)).toWord)
        ∧ (∀ i, (i < d ∨ d + f.ext 1 * f.ext 2 ≤ i) → (t.coreOf k j).accAt i = (s.coreOf k j).accAt i)
        ∧ s.performs t k j 0 x ∧ OnlyIn [.shelves] s t
    (s.runsFolio k j 0 0x0100 c x → GoesTo (exec (.mma sh core) s) (fun t =>
        gains t (fun r q => densePairs (f.fmt .a) (rowA r) (fmtRead (f.fmt .b) n (colB q)))))
    ∧ (s.runsFolio k j 0 0x0101 c x → GoesTo (exec (.mmaSparse sh core) s) (fun t =>
        gains t (fun r q => sparsePairs ((fmtOf (f.fmt .a)).getD (.scalar (.int 4 0) 4 [])) (f.fmt .a) (rowA r) (colB q))))

/-- ACC_CLEAR and ACC_LOAD (R259, R288, R292): EXT0 accumulators from D are cleared with the ANCHOR, or gain the LA128 words of A, an
unset one taking the ANCHOR first; no other accumulator changes. ACC_STORE and ACC_DRAIN (R288, R296, R300): the LA128 words of A as they
are, or their values converted to FMT_D, stand at D, and no other byte of memory changes. Rests on the model's readings
notes/assumptions/45.md. -/
def Obligations.AccumulatorsClearLoadAndLeave : Prop :=
  (
    ∀ (s : State) (sh : ShelfNo) (core : BitVec 8) (c : PassCtx) (x : Exec),
      let k := sh.toNat
      let j := core.toNat
      let f := x.folio
      let d := f.start .d j / 16
      (s.runsFolio k j 0 0x0102 c x → GoesTo (exec (.accClear sh core) s) (fun t =>
        (∀ i < f.ext 0, (t.coreOf k j).accAt (d + i) = (La.cleared f.anchor).toWord)
        ∧ (∀ i, (i < d ∨ d + f.ext 0 ≤ i) → (t.coreOf k j).accAt i = (s.coreOf k j).accAt i)
        ∧ s.performs t k j 0 x ∧ OnlyIn [.shelves] s t))
      ∧ (s.runsFolio k j 0 0x0105 c x → s.errorFree → GoesTo (exec (.accLoad sh core) s) (fun t =>
        (∀ i < f.ext 0, (t.coreOf k j).accAt (d + i) = ((accReady ((s.coreOf k j).accAt (d + i)) false f.anchor).load
            (laOf (BitVec.ofNat 128 (leVal (s.spBytes c j (f.space .a) (f.start .a j + 16 * i) 16))))).toWord)
        ∧ (∀ i, (i < d ∨ d + f.ext 0 ≤ i) → (t.coreOf k j).accAt i = (s.coreOf k j).accAt i)
        ∧ s.performs t k j 0 x ∧ OnlyIn [.shelves] s t)))
  ∧ (
    ∀ (s : State) (sh : ShelfNo) (core : BitVec 8) (c : PassCtx) (x : Exec), s.errorFree →
      let k := sh.toNat
      let j := core.toNat
      let f := x.folio
      let stored := fun (t : State) (bs : List Byte) => t.spBytes c j (f.space .d) (f.start .d j) bs.length = bs
        ∧ OutsideSp c (f.space .d) (f.start .d j) bs.length s t ∧ s.performs t k j 0 x ∧ t.kpr = s.kpr ∧ t.ecc = []
      (s.runsFolio k j 0 0x0104 c x → GoesTo (exec (.accStore sh core) s) (fun t =>
        stored t ((s.coreOf k j).accBytes (f.start .a j) (16 * f.ext 0))))
      ∧ (s.runsFolio k j 0 0x0103 c x →
        let outs := (List.range (f.ext 0)).map (fun i =>
          (laOf ((s.coreOf k j).accAt (f.start .a j / 16 + i))).convert (fmtIsInt (f.fmt .d)))
        GoesTo (exec (.accDrain sh core) s) (fun t => stored t (fmtWrite (f.fmt .d) (outs.map (·.res)) (outs.map (·.bad)) f.stoch
          (s.drawsOf c j f (f.f 7 16 16) x.lap 0 (f.ext 0))))))

/-- The two-operand element folios (R301, R302): each element of a row of D is the operation of the elements of A and B in their place,
with D read too for FMA, exact before one rounding to FMT_D; integers wrap. The one-operand element folios (R296, R300 to R302): each
element of a row of D is the function of the element of A in its place; CONVERT from LA128 gives the accumulated value, and a NaN or an
infinity of CONVERT spoils its block. What SCALE, EXP, RSQRT and RECIP give on integers is a free value (notes/assumptions/29.md). The
reductions (R301, R303): row q of A gives one element of D, the sum, maximum, minimum or sum of squares over the canonical tree in FP32,
or the exact integer total. Rests on the model's readings notes/assumptions/29.md, notes/assumptions/30.md, notes/assumptions/35.md,
notes/assumptions/36.md. -/
def Obligations.ElementFoliosAndReductions : Prop :=
  (
    ∀ (s : State) (sh : ShelfNo) (core : BitVec 8) (c : PassCtx) (x : Exec), s.errorFree →
      let f := x.folio
      let j := core.toNat
      let n := f.ext 0
      let w := fmtBits (f.fmt .d)
      ∀ (cmd : Instr) (op : Nat) (fn ifn : ElemFn) (useD : Bool),
        (cmd, op, fn, ifn, useD) ∈ ([(.elemwiseAdd sh core, 0x0200, fnAdd, wrapped w (fun a b _ => a + b), false),
          (.elemwiseSub sh core, 0x0201, fnSub, wrapped w (fun a b _ => a - b), false),
          (.elemwiseMul sh core, 0x0202, fnMul, wrapped w (fun a b _ => a * b), false),
          (.elemwiseFma sh core, 0x0203, fnFma, wrapped w (fun a b d => a * b + d), true),
          (.elemwiseMax sh core, 0x0204, fnMax, fnMax, false), (.elemwiseMin sh core, 0x0205, fnMin, fnMin, false)]
          : List (Instr × Nat × ElemFn × ElemFn × Bool)) →
        s.runsFolio sh.toNat j 1 op c x → f.destFits c j = true →
        let vals := fun (o : Opnd) (q : Nat) => fmtRead (f.fmt o) n (s.spBytes c j (f.space o) (f.rowAt o j q) (fmtBytes (f.fmt o) n))
        let row := fun q =>
          let res := ((vals .a q).zip ((vals .b q).zip (if useD = true then vals .d q else List.replicate n .zero))).map (fun v =>
            (if fmtIsInt (f.fmt .d) = true then ifn else fn) v.1 v.2.1 v.2.2)
          s.rowBytes c j x f (q * n) res (List.replicate n false)
        GoesTo (exec cmd s) (fun t => s.rowsRan t c j 1 x [.a, .b] row))
  ∧ (
    ∀ (s : State) (sh : ShelfNo) (core : BitVec 8) (c : PassCtx) (x : Exec), s.errorFree →
      let f := x.folio
      let j := core.toNat
      let n := f.ext 0
      let func := fun (g : Val → Res) (v : Val) => if fmtIsInt (f.fmt .d) = true then f.intFn v else g v
      let each := fun (g : Val → Res × Bool) (bs : List Byte) => (fmtRead (f.fmt .a) n bs).map g
      ∀ (cmd : Instr) (op : Nat) (fn : List Byte → List (Res × Bool)),
        (cmd, op, fn) ∈ ([(.convert sh core, 0x0206, fun bs => if f.fmt .a = 0x40 then (elements 16 bs).map (fun v =>
              let o := (laOf (BitVec.ofNat 128 (leVal v))).convert (fmtIsInt (f.fmt .d))
              (o.res, o.bad)) else each (fun v => (.val v, v.spoils)) bs),
          (.scale sh core, 0x0207, each (fun v => (func (fun w => .val (w.mul (fp32.value (f.f 7 0 32)))) v, false))),
          (.exp sh core, 0x0208, each (fun v => (func expOf v, false))), (.rsqrt sh core, 0x0209, each (fun v => (func rsqrtOf v, false))),
          (.recip sh core, 0x020A, each (fun v => (func recipOf v, false)))] : List (Instr × Nat × (List Byte → List (Res × Bool)))) →
        s.runsFolio sh.toNat j 1 op c x → f.destFits c j = true →
        let row := fun q =>
          let out := fn (s.spBytes c j (f.space .a) (f.rowAt .a j q) (if f.fmt .a = 0x40 ∧ op = 0x0206 then 16 * n else fmtBytes (f.fmt .a) n))
          s.rowBytes c j x f (q * n) (out.map (·.1)) (out.map (·.2))
        GoesTo (exec cmd s) (fun t => s.rowsRan t c j 1 x [.a] row))
  ∧ (
    ∀ (s : State) (sh : ShelfNo) (core : BitVec 8) (c : PassCtx) (x : Exec), s.errorFree →
      let f := x.folio
      let j := core.toNat
      let n := f.ext 0
      ∀ (cmd : Instr) (op : Nat) (fn ifn : List Val → Res),
        (cmd, op, fn, ifn) ∈ ([(.reduceSum sh core, 0x0300, fun l => .val (tree fp32Add (l.map Val.toFp32)), fun l => intTotal (l.map Val.int)),
          (.reduceMax sh core, 0x0301, fun l => .val (tree Val.max2 (l.map Val.toFp32)), fun l => .val (tree Val.max2 l)),
          (.reduceMin sh core, 0x0302, fun l => .val (tree Val.min2 (l.map Val.toFp32)), fun l => .val (tree Val.min2 l)),
          (.reduceSumsq sh core, 0x0303, fun l => .val (tree fp32Add (l.map (fun v => (v.mul v).toFp32))),
            fun l => intTotal (l.map (fun v => v.int * v.int)))] : List (Instr × Nat × (List Val → Res) × (List Val → Res))) →
        s.runsFolio sh.toNat j 1 op c x → f.destFits c j = true →
        let row := fun q => s.rowBytes c j x f q
          [(if fmtIsInt (f.fmt .d) = true then ifn else fn) (fmtRead (f.fmt .a) n
            (s.spBytes c j (f.space .a) (f.rowAt .a j q) (fmtBytes (f.fmt .a) n)))] [false]
        GoesTo (exec cmd s) (fun t => s.rowsRan t c j 1 x [.a] row))

/-- COPY, GATHER and SCATTER (R253, R272, R308) over loans, staging, accumulators and near tier of this chip: row by row the destination
holds the bytes its source held, the last of rows that land on one place remaining, and no other byte of memory changes. ADD_AT (R346,
R374) to near tier of this chip: each element of a destination row that shares no byte with another row holds the sum of what it held and
its source's element, by the format's adder; no other byte of memory changes. FILL (R253) writes the eight bytes of W7 over each row of D;
SIGNAL_REMOTE to this chip adds its increment to the named tally of the pass that owns the window (R267), where no posted traffic waits at
its shelf; ENQUEUE and SLIP_WRITE hand Circulation one append, and their engine stalls on it (R273, R454). Rests on the model's readings
notes/assumptions/31.md, notes/assumptions/36.md, notes/assumptions/47.md. -/
def Obligations.TransfersFillsAndSignals : Prop :=
  (
    ∀ (s : State) (sh : ShelfNo) (core : BitVec 8) (c : PassCtx) (x : Exec), s.errorFree → x.moved = 0 →
      let k := sh.toNat
      let j := core.toNat
      let f := x.folio
      let n := f.ext 0
      let ext := s.extOf c f
      let rows := (s.transferRows c j f).2.1
      ∀ (cmd : Instr) (op : Nat), (cmd, op) ∈ [(Instr.copy sh core, 0x0400), (.gather sh core, 0x0500), (.scatter sh core, 0x0501)] →
        s.runsFolio k j 2 op c x → (∀ r ∈ rows, s.sideReady c ext n r.src ∧ s.sideReady c ext n r.dst) →
        GoesTo (exec cmd s) (fun t => s.moved t k j x rows.length
          ∧ (∀ (q : Nat) (row : Row), rows[q]? = some row → (∀ (i : Nat) (later : Row), q < i → rows[i]? = some later → sidesApart ext n row.dst later.dst) →
              t.sideBytes c j ext n row.dst = s.sideBytes c j ext n row.src)
          ∧ (∀ a, (∀ r ∈ rows, outsideSide c ext n r.dst a) → Memory.read t.mem a = Memory.read s.mem a)))
  ∧ (
    ∀ (s : State) (sh : ShelfNo) (core : BitVec 8) (c : PassCtx) (x : Exec), s.errorFree → x.moved = 0 →
      let k := sh.toNat
      let j := core.toNat
      let f := x.folio
      let n := f.ext 0
      let typ := addTypeOf (f.fmt .a)
      let z := addSize typ
      let ext := s.extOf c f
      let rows := (s.transferRows c j f).2.1
      s.runsFolio k j 2 0x0401 c x →
      (∀ r ∈ rows, s.sideReady c ext n r.src ∧ r.dst.1 = 3 ∧ s.sideReady c ext n r.dst) →
      GoesTo (exec (.addAt sh core) s) (fun t => s.moved t k j x rows.length
        ∧ (∀ (q : Nat) (row : Row), rows[q]? = some row → (∀ (i : Nat) (other : Row), q ≠ i → rows[i]? = some other → sidesApart ext n row.dst other.dst) →
            ∀ i < n / z, Memory.readLe t.mem (extAddr ext row.dst + z * i) z
              = adderSum typ (Memory.readLe s.mem (extAddr ext row.dst + z * i) z)
                  (leVal (((s.sideBytes c j ext n row.src).drop (z * i)).take z)) % 2 ^ (8 * z))
        ∧ (∀ a, (∀ r ∈ rows, outsideSide c ext n r.dst a) → Memory.read t.mem a = Memory.read s.mem a)))
  ∧ (
    ∀ (s : State) (sh : ShelfNo) (core : BitVec 8) (c : PassCtx) (x : Exec),
      let k := sh.toNat
      let j := core.toNat
      let f := x.folio
      let stalls := fun (t : State) => (t.streamOf k j 2) = { s.streamOf k j 2 with
          reason := 6, execs := (s.streamOf k j 2).execs.map (fun y =>
            if y.slot = x.slot ∧ y.lap = x.lap then { y with waits := y.phase == .started } else y) }
        ∧ OnlyIn [.cir, .shelves] s t
      (s.runsFolio k j 2 0x0402 c x → s.errorFree → f.destFits c j = true → GoesTo (exec (.fill sh core) s) (fun t =>
        s.rowsRan t c j 2 x [] (fun _ => (List.replicate (f.ext 0 / 8) (leBytes 8 (wordAt f.ws 7).toNat)).flatten)))
      ∧ (s.runsFolio k j 2 0x0600 c x → s.ownChip (f.f 7 0 16 * 2 ^ 48) = true →
          (s.shelf (f.f 7 16 12)).posted = [] → s.windowCause (f.f 7 16 12) 0 0 true c.e.carrel none = none → GoesTo (exec (.signalRemote sh core) s) (fun t =>
            (t.coreOf (f.f 7 16 12) (f.f 7 28 8)).tallyAt (f.f 7 36 5)
              = ((s.coreOf (f.f 7 16 12) (f.f 7 28 8)).tallyAt (f.f 7 36 5) + f.f 7 48 8) % 65536
            ∧ (t.streamOf k j 2).startedOp 0x0600 = ((s.streamOf k j 2).execs.filter (fun y => !(y.slot == x.slot && y.lap == x.lap))).find?
                (fun y => y.phase == .started && y.folio.opcode == 0x0600)
            ∧ OnlyIn [.shelves, .pwr] s t))
      ∧ (∀ i, s.runsFolio k j 2 0x0800 c x → (s.cir.waits.any fun w => w.who == .folio k j) = false →
          s.ringOf c.e.carrel false (f.param % 32) = some i → GoesTo (exec (.enqueue sh core) s) (fun t =>
            t.cir = { s.cir with waits := s.cir.waits ++ [⟨c.e.carrel, i, f.ext 0, f.enqSource (s.extOf c f) j % 2 ^ 48, .folio k j⟩] } ∧ stalls t))
      ∧ (∀ i, s.runsFolio k j 2 0x0801 c x → (s.cir.waits.any fun w => w.who == .folio k j) = false →
          s.ringOf c.e.carrel false (f.param % 32) = some i → GoesTo (exec (.slipWrite sh core) s) (fun t =>
            t.cir = { s.cir with waits := s.cir.waits ++ [⟨c.e.carrel, i, f.ext 0, storeAddr k (c.base + f.start .a j), .folio k j⟩] } ∧ stalls t)))

/-- STACK_ADD, FETCH_ADD and COMPARE_SWAP (R294, R295, R346) at near tier that serves the carrel: memory holds the sum, or the new value
where the old one compares equal; FETCH_ADD and COMPARE_SWAP answer the old value; no other byte changes. What an adder does not take, an
operation that returns the old value and meets an error of the DRAM, and an address the carrel may not use (R335), change no byte. Rests
on the model's readings notes/assumptions/50.md. -/
def Obligations.AddersAddFetchAndSwap : Prop :=
  ∀ (s : State) (op : AdderOp) (compare : Word), s.running = true → s.ecc = [] →
    let c := op.carrel.toNat
    let a := op.addr.toNat
    let typ := op.typ.toNat
    let z := addSize typ
    let old := Memory.readLe s.mem a z
    let arg := leVal (op.data.take z)
    (typ ≤ 4 → a % z = 0 → op.data.length % z = 0 → op.data ≠ [] → op.fail = none → s.servesNear c a op.data.length →
      GoesTo (exec (.stackAdd op) s) (fun t => t.kpr.adderStatus = 0
        ∧ (∀ i < op.data.length / z, Memory.readLe t.mem (a + z * i) z
            = adderSum typ (Memory.readLe s.mem (a + z * i) z) (leVal ((op.data.drop (z * i)).take z)) % 2 ^ (8 * z))
        ∧ OtherBytes a op.data.length s t ∧ OnlyIn [.mem, .kpr] s t))
    ∧ (typ ≤ 2 → a % z = 0 → op.fail = none → s.servesNear c a z → GoesTo (exec (.fetchAdd op) s) (fun t =>
        t.kpr.adderStatus = 0 ∧ t.kpr.adderOld = BitVec.ofNat 64 old
        ∧ Memory.readLe t.mem a z = adderSum typ old arg % 2 ^ (8 * z) ∧ OtherBytes a z s t ∧ OnlyIn [.mem, .kpr] s t))
    ∧ (typ = 1 → a % 8 = 0 → op.fail = none → s.servesNear c a 8 → GoesTo (exec (.compareSwap op compare) s) (fun t =>
        t.kpr.adderStatus = 0 ∧ t.kpr.adderOld = BitVec.ofNat 64 old
        ∧ Memory.readLe t.mem a 8 = (if old = compare.toNat then arg else old) ∧ OtherBytes a 8 s t ∧ OnlyIn [.mem, .kpr] s t))
    ∧ (typ ≤ 2 → a % z = 0 → op.fail = some 0x6001 → s.servesNear c a z → s.nearBacked a 1 = true → GoesTo (exec (.fetchAdd op) s) (fun t =>
        t.kpr.adderStatus = 0x6001 ∧ t.mem = s.mem))
    ∧ (a % z ≠ 0 → GoesTo (exec (.fetchAdd op) s) (fun t => t.kpr.adderStatus = 0x3004 ∧ OnlyIn [.kpr] s t))
    ∧ (typ ≤ 4 → a % z = 0 → op.data.length % z = 0 → op.data ≠ [] → s.memAdmitted c a op.data.length = false →
        GoesTo (exec (.stackAdd op) s) (fun t => t.kpr.adderStatus = 0x2000 ∧ OnlyIn [.rf, .kpr, .bel, .ldg] s t))

/-- RETRAIN_SLOT_END (R329, R350): the slot of its stack ends, and working channels that lost their calibration are fenced. FAR_LINK_DOWN
and FAR_LINK_UP (R333): the port's window stops being served, and is served again. The test state (R50, R351, R352): a request is taken or
answered BUSY; a stack that enters it serves no access; one that leaves it trains anew and loses the bytes of its range alone; a wrapper
shift takes place only in it. Rests on the model's readings notes/assumptions/67.md. -/
def Obligations.StackSlotsTestStateAndFarLinks : Prop :=
  (
    ∀ (s : State), s.inService = true →
      (∀ (k : Fin 6) (lost : BitVec 32), k.val ∈ s.kpr.slots → GoesTo (exec (.retrainSlotEnd k lost) s) (fun t =>
          t.kpr.slots = s.kpr.slots.filter (fun i => i != k.val)
          ∧ (∀ ch ∈ s.channels k.val, lost.getLsbD ch = true → t.regBit (R.HBM_CHAN_STATE k.val) ch = true)
          ∧ (∀ ch, lost.getLsbD ch = false → t.regBit (R.HBM_CHAN_STATE k.val) ch = s.regBit (R.HBM_CHAN_STATE k.val) ch)
          ∧ t.stp.total = s.stp.total + (s.slotUs s.stp.stamp.toNat * fcPerUs - s.stp.t) ∧ t.mem = s.mem))
      ∧ (∀ (k : Fin 6) (lost : BitVec 32), k.val ∉ s.kpr.slots → exec (.retrainSlotEnd k lost) s = .next s)
      ∧ (∀ p : BitVec 2, (s.portUp p.toNat = true ∨ s.retraining p.toNat = true) → s.modeOf p.toNat = 2 → s.kpr.farDown.getLsbD p.toNat = false →
          GoesTo (exec (.farLinkDown p) s) (fun t => t.portUp p.toNat = false ∧ t.kpr.farDown = s.kpr.farDown ||| (1#4 <<< p.toNat)
            ∧ t.retraining p.toNat = false
            ∧ t.regBit R.KPR_EVENT 3 = true ∧ t.mem = s.mem ∧ OnlyIn [.rf, .kpr, .iln, .bel, .ldg] s t))
      ∧ (∀ p : BitVec 2, s.modeOf p.toNat = 2 → s.kpr.farDown.getLsbD p.toNat = true →
          (∀ q ∈ s.cat.slips, q.2.typ ≠ 6 ∨ q.2.st ≠ .running) → GoesTo (exec (.farLinkUp p) s) (fun t =>
            t.portUp p.toNat = true ∧ t.kpr = { s.kpr with farDown := s.kpr.farDown &&& ~~~ (1#4 <<< p.toNat) } ∧ OnlyIn [.rf, .kpr] s t)))
  ∧ (
    ∀ (s : State) (stk : Fin 6), s.alive = true →
      let k := stk.val
      let ctl := R.HBM_TEST_CTL k
      (s.stackUp k = true → s.regBit ctl 1 = false → GoesTo (exec (.testStateRequest stk) s) (fun t =>
        t.reg ctl = (if s.testBusy k = true then 5 else 1) ∧ OtherRegs ctl s t ∧ OnlyIn [.rf] s t))
      ∧ (s.stackUp k = true → fld (s.reg ctl) 0 3 = 1 → GoesTo (exec (.testStateEnter stk) s) (fun t =>
          t.regBit ctl 1 = true ∧ t.regBit (R.HBM_STACK_STATE k) 28 = true
          ∧ (∀ o, o ≠ ctl → o ≠ R.HBM_STACK_STATE k → t.reg o = s.reg o) ∧ OnlyIn [.rf] s t))
      ∧ (∀ g : StackTrain, s.regBit ctl 1 = true → GoesTo (exec (.testStateLeave stk g) s) (fun t =>
          t.reg ctl = 0 ∧ OtherBytes (stackBase k) 0x1000000000 s t
          ∧ (g.present = false → t.reg (R.HBM_STACK_STATE k) = 0)
          ∧ (g.present = true → popCount 32 (g.failed ||| (s.reg (R.HBM_MAPOUT_FORCE k)).setWidth 32).toNat ≤ 8 → t.stackUp k = true)))
      ∧ (∀ (len : BitVec 7) (reply : Word) (cmd : Instr) (op : Nat),
          (cmd, op) ∈ [(Instr.shiftInstruction stk len reply, 1), (.shiftData stk len reply, 2)] → s.stackUp k = true →
          (s.wspRefused k = true → GoesTo (exec cmd s) (fun t => t.reg (R.HBM_WSP_CMD k) = BitVec.ofNat 64 (op + len.toNat * 2 ^ 8 + 2 ^ 33)
            ∧ OtherRegs (R.HBM_WSP_CMD k) s t ∧ OnlyIn [.rf] s t))
          ∧ (s.wspRefused k = false → GoesTo (exec cmd s) (fun t => t.reg (R.HBM_WSP_CMD k) = BitVec.ofNat 64 (op + len.toNat * 2 ^ 8)
            ∧ (t.reg (R.HBM_WSP_DATA k)).toNat = reply.toNat % 2 ^ min 64 len.toNat ∧ OnlyIn [.rf] s t))))

/-- NEAR_EXTENT_WRITE, FAR_EXTENT_WRITE and REG_SHARE_WRITE (R334, R345, R348): an extent that R334 refuses leaves the register and sets
its event; any other is stored, and one that leaves something of the carrel outside marks it over quota; a carrel that does not exist
takes none of the three; KPR_QUERY answers from the map (R338). Rests on the model's readings notes/assumptions/56.md. -/
def Obligations.QuotaWritesAndTheMap : Prop :=
  ∀ (s : State) (c : Func) (v : Word), s.alive = true →
    (s.carrelExists c.toNat = false → (∀ k : Fin 6, exec (.nearExtentWrite c k v) s = .next s)
      ∧ exec (.farExtentWrite c v) s = .next s ∧ exec (.regShareWrite c v) s = .next s)
    ∧ (s.carrelExists c.toNat = true → (∀ k : Fin 6,
      let r := R.KPR_EXTENT c.toNat k.val
      let w := v &&& 0xFFFF0003FFFF
      let u := s.setReg r w
      let cut := u.cutUse c.toNat (s.extent c.toNat k.val).1 (s.extent c.toNat k.val).2
      let bad := s.extentRefused c.toNat k.val (leafBytes * fld w 0 18) (leafBytes * fld w 32 16)
      (bad = true → GoesTo (exec (.nearExtentWrite c k v) s) (fun t =>
        t.reg r = s.reg r ∧ t.regBit R.KPR_EVENT 0 = true ∧ OnlyIn [.rf, .bel] s t))
      ∧ (bad = false → cut = false → s.kpr.excess = [] → exec (.nearExtentWrite c k v) s = .next u)
      ∧ (bad = false → cut = true → GoesTo (exec (.nearExtentWrite c k v) s) (fun t =>
          t.reg r = w ∧ Tab.mem t.kpr.excess c.toNat = true ∧ t.regBit R.KPR_EVENT 1 = true ∧ t.mem = s.mem ∧ t.kpr.calls = s.kpr.calls)))
    ∧ (let r := R.KPR_FAR_EXTENT c.toNat
       let w := v &&& 0x3FFFFF001FFFFF
       let lo := farBase + leafBytes * fld w 0 21
       let out := (s.holdings c.toNat).any (fun h => !h.pin
         && !(decide (lo ≤ h.addr) && decide (h.addr + leafBytes * h.nLeaves ≤ lo + leafBytes * fld w 32 22)))
       (out = true → GoesTo (exec (.farExtentWrite c v) s) (fun t => t.reg r = s.reg r ∧ t.regBit R.KPR_EVENT 0 = true))
       ∧ (out = false → GoesTo (exec (.farExtentWrite c v) s) (fun t => t.reg r = w ∧ OtherRegs r s t ∧ OnlyIn [.rf] s t)))
    ∧ (let r := R.KPR_REG_SHARE c.toNat
       let fixed := (s.carrelState c.toNat = 2 ∨ s.carrelState c.toNat = 3) ∧ s.regBit (R.CRL_CARREL_STATE c.toNat) 3 = false
       (fixed → GoesTo (exec (.regShareWrite c v) s) (fun t => t.regBit R.CRL_EVENT 1 = true ∧ OtherRegs R.CRL_EVENT s t ∧ OnlyIn [.rf] s t))
       ∧ (¬ fixed → GoesTo (exec (.regShareWrite c v) s) (fun t => t.reg r = v &&& 0x1FFFFFFFFFFFF ∧ OtherRegs r s t ∧ OnlyIn [.rf] s t))))
    ∧ (let a := (v &&& 0xFFFFFFFFFFFF).toNat
       let found := (Tab.vals s.kpr.calls).find? (fun h => !h.pin && !h.gone && decide (h.addr ≤ a) && decide (a < h.addr + leafBytes * h.nLeaves))
       GoesTo (exec (.kprQuery v) s) (fun t => OnlyIn [.rf] s t ∧ (found = none → t.reg R.KPR_QUERY_RESULT = 0)
         ∧ ∀ h, found = some h →
           let l := h.leaf ((a - h.addr) / leafBytes)
           (∀ f, l.frame = some f → f < 0x30000) → t.regBit R.KPR_QUERY_RESULT 0 = true ∧ t.regBit R.KPR_QUERY_RESULT 1 = l.frame.isNone
             ∧ t.regBit R.KPR_QUERY_RESULT 7 = l.dirty ∧ (∀ f, l.frame = some f → t.field R.KPR_QUERY_RESULT 2 3 = f / 0x8000)))

/-- A packet with a wrong CRC is counted and dropped whatever it asks (R361); a request that repeats what was accepted, or runs ahead, is
not served (R366); one that fails the receiver's checks is accepted and answered with its status (R371 to R373). A request that its
receiver admits is accepted, done and answered with success (R319, R363, R371, R374): a WRITE's bytes stand in the open window, a SIGNAL's
increment is in the tally, where no posted traffic waits at the shelf, a READ's answer holds the bytes of memory, an ADD's elements are
added. Rests on the model's readings notes/assumptions/50.md, notes/assumptions/52.md. -/
def Obligations.InterloanRequestsAreJudgedAndServed : Prop :=
  (
    ∀ (s : State) (port : BitVec 2) (p : Packet) (cmd : Instr) (cls : Nat),
      ∀ fail : Option Code, (cmd, cls) ∈ [(Instr.ilnWrite port p, 1), (.ilnSignal port p, 2), (.ilnRead port ⟨p, fail⟩, 3), (.ilnAdd port ⟨p, fail⟩, 4)] →
      (s.inService = true → s.portStreams port.toNat = true → s.hushed = false → Packet.crcRight p = false →
        GoesTo (exec cmd s) (fun t => t.field R.ILN_COUNT 32 16 = satAdd 0xFFFF (s.field R.ILN_COUNT 32 16) 1
          ∧ OtherRegs R.ILN_COUNT s t ∧ OnlyIn [.rf] s t))
      ∧ (s.portStreams port.toNat = false → exec cmd s = .next s)
      ∧ (∀ x, s.hears port p cls x → (x.inSync = false ∨ p.seq ≠ (x.chan p.channel.toNat).expected) → GoesTo (exec cmd s) (fun t =>
          (t.chanOf p.src.toNat p.channel.toNat).expected = (x.chan p.channel.toNat).expected ∧ t.iln.reqs = s.iln.reqs
          ∧ OnlyIn [.rf, .iln] s t))
      ∧ (∀ x, s.hears port p cls x → x.expects p → s.epochMatches p.epoch = false → GoesTo (exec cmd s) (fun t =>
          Accepted s t p ∧ t.answered p 0x5003 [] ∧ t.regBit R.ILN_EVENT 1 = true ∧ t.mem = s.mem ∧ t.shelves = s.shelves))
      ∧ (∀ x, s.hears port p cls x → x.expects p → s.epochMatches p.epoch = true →
          ((p.holdover && s.regBit R.ILN_CTL 1) = true ∨ s.carrelExists p.carrel.toNat = false) → GoesTo (exec cmd s) (fun t =>
            Accepted s t p ∧ t.answered p 0x5004 [] ∧ t.mem = s.mem ∧ t.shelves = s.shelves)))
  ∧ (
    ∀ (s : State) (port : BitVec 2) (p : Packet) (x : Peer), s.errorFree → x.expects p → s.receives p →
      let a := p.target.toNat
      let n := p.len.toNat
      let c := p.carrel.toNat
      let peer := p.src.toNat
      let z := addSize p.typ.toNat
      let sh := (windowAt a).1
      (∀ r w, s.hears port p 1 x → inWindows a n = true → s.windowCause sh (windowAt a).2 n false c (some peer) = none →
        (s.shelf sh).posted = [] → (s.shelf sh).run = some r → r.window = some w → GoesTo (exec (.ilnWrite port p) s) (fun t =>
          Accepted s t p ∧ t.answered p 0 [] ∧ Memory.readN t.mem (storeAddr sh (w.lo + (windowAt a).2)) n = p.payload
          ∧ OtherBytes (storeAddr sh (w.lo + (windowAt a).2)) n s t ∧ t.shelves = s.shelves))
      ∧ (s.hears port p 2 x →
          let k := fld p.target 0 12
          let j := fld p.target 12 8
          (s.shelf k).posted = [] → s.windowCause k 0 0 true c (some peer) = none → GoesTo (exec (.ilnSignal port p) s) (fun t => Accepted s t p ∧ t.answered p 0 []
            ∧ (t.coreOf k j).tallyAt (fld p.target 20 5) = ((s.coreOf k j).tallyAt (fld p.target 20 5) + fld p.target 32 8) % 65536
            ∧ (∀ i, i ≠ k → t.shelf i = s.shelf i) ∧ t.mem = s.mem))
      ∧ (s.hears port p 3 x → s.remoteRange a n = true → s.remoteMem c 0 peer = true → s.servesNear c a n →
          GoesTo (exec (.ilnRead port ⟨p, none⟩) s) (fun t => Accepted s t p ∧ t.answered p 0 (Memory.readN s.mem a n) ∧ t.mem = s.mem
            ∧ t.shelves = s.shelves))
      ∧ (s.hears port p 4 x → s.remoteRange a n = true → a % z = 0 → s.remoteMem c 1 peer = true → s.servesNear c a n →
          GoesTo (exec (.ilnAdd port ⟨p, none⟩) s) (fun t => Accepted s t p ∧ t.answered p 0 [] ∧ OtherBytes a n s t
            ∧ ∀ i < n / z, Memory.readLe t.mem (a + z * i) z = adderSum p.typ.toNat (Memory.readLe s.mem (a + z * i) z)
                (leVal ((p.payload.drop (z * i)).take z)) % 2 ^ (8 * z)))
      ∧ (∀ fail, s.hears port p 3 x → s.remoteRange a n = true → s.remoteMem c 0 peer = false → GoesTo (exec (.ilnRead port ⟨p, fail⟩) s) (fun t =>
          Accepted s t p ∧ t.answered p 0x5004 [] ∧ t.mem = s.mem)))

/-- A RESPONSE completes its request (R376): its READ bytes stand where the folio sends them, and the request is no longer outstanding;
one for no outstanding request is counted as late and changes nothing else of the block. Link packets (R365, R367, R368): an ACK releases
the packets up to the one it names, a RESEND sends again, unchanged and in order, those from the one it names, a SYNC starts its direction
at sequence zero and is answered, and a SYNC_ACK opens the direction it answers. Rests on the model's readings notes/assumptions/51.md,
notes/assumptions/52.md. -/
def Obligations.InterloanResponsesAndLinkPackets : Prop :=
  (
    ∀ (s : State) (port : BitVec 2) (p : Packet) (x : Peer), s.hears port p 5 x → x.expects p →
      (∀ (r : Req) (c : PassCtx) (y : Exec) (sh j e slot lap sp a : Nat), s.errorFree → Tab.find? s.iln.reqs p.reqId.toNat = some r →
        r.peer = p.src.toNat → r.who = .folio sh j e slot lap sp a → s.waitingFolio sh j e p.reqId.toNat = some y → s.runCtx sh = some c →
        isSuccess (BitVec.ofNat 16 (fld p.target 0 16)) = true → p.payload ≠ [] → GoesTo (exec (.ilnResponse port p) s) (fun t =>
          Accepted s t p ∧ Tab.find? t.iln.reqs p.reqId.toNat = none ∧ t.spBytes c j sp a p.payload.length = p.payload
          ∧ OutsideSp c sp a p.payload.length s t))
      ∧ (Tab.find? s.iln.reqs p.reqId.toNat = none → GoesTo (exec (.ilnResponse port p) s) (fun t =>
          Accepted s t p ∧ t.field R.ILN_COUNT 48 16 = satAdd 0xFFFF (s.field R.ILN_COUNT 48 16) 1 ∧ t.iln.reqs = s.iln.reqs
          ∧ OnlyIn [.rf, .iln] s t)))
  ∧ (
    ∀ (s : State) (port : BitVec 2) (p : Packet) (x : Peer), s.hears port p 6 x →
      let peer := p.src.toNat
      let ch := p.channel.toNat
      let old := x.chan ch
      (old.waiting = [] → GoesTo (exec (.ilnAck port p) s) (fun t =>
        (t.chanOf peer ch).unacked = old.unacked.filter (fun y => !decide ((ackSeq p + (65536 - y.packet.seq.toNat)) % 65536 < 32768))
        ∧ (t.chanOf peer ch).next = old.next ∧ t.iln.sent = s.iln.sent ∧ OnlyIn [.iln] s t))
      ∧ (∀ out, s.reaches peer out → s.errorFree → GoesTo (exec (.ilnResend port p) s) (fun t =>
          (t.chanOf peer ch).unacked.map (·.packet) = old.unacked.map (·.packet)
          ∧ t.iln.sent = s.iln.sent ++ ((old.unacked.filter (fun y => decide ((y.packet.seq.toNat + (65536 - ackSeq p)) % 65536 < 32768))).map
              (fun y => ⟨BitVec.ofNat 2 out, y.packet⟩))
          ∧ OnlyIn [.rf, .iln] s t))
      ∧ (∀ out, s.reaches peer out → GoesTo (exec (.ilnSync port p) s) (fun t =>
          (∃ y, t.peer peer = some y ∧ y.inSync = true ∧ y.out = x.out) ∧ (∀ i < 4, (t.chanOf peer i).expected = 0)
          ∧ (∃ q : SentOn, t.iln.sent = s.iln.sent ++ [q] ∧ q.port = BitVec.ofNat 2 out ∧ q.packet.cls = 6 ∧ fld q.packet.target 0 2 = 3)
          ∧ OnlyIn [.iln] s t))
      ∧ (x.out = 1 → (∀ i < 4, (x.chan i).waiting = []) → GoesTo (exec (.ilnSyncAck port p) s) (fun t =>
          (∃ y, t.peer peer = some y ∧ y.out = 2 ∧ y.inSync = x.inSync) ∧ (∀ i < 4, (t.chanOf peer i).next = 0) ∧ OnlyIn [.iln] s t)))

/-- Interloan's time-outs (R365, R367 to R369, R376, R377), each in the fc in which its time has come: what is unacknowledged is sent
again, an ACK is sent, SYNC is sent again, a peer's route tries its alternative and without one the peer is given up with every request to
it, a request made before the direction synced ends, an acknowledged request ends with REMOTE_TIMEOUT, an idle peer leaves the table.
Rests on the model's readings notes/assumptions/9.md, notes/assumptions/52.md, notes/assumptions/78.md. -/
def Obligations.InterloanTimeouts : Prop :=
  ∀ (s : State) (n : BitVec 16) (ch : BitVec 2), s.running = true →
    let peer := n.toNat
    let reaches := fun (t : State) (at_ : Nat) => t.stp.total = s.stp.total + (at_ - s.stp.total)
    (∀ x, s.peer peer = some x → x.chans.length = 4 →
      let old := x.chan ch.toNat
      (∀ y rest, old.unacked = y :: rest → x.out = 2 → GoesTo (exec (.retryTimeout n ch) s) (fun t =>
        reaches t (max y.last old.ackedAt + s.retryFc)
        ∧ (t.chanOf peer ch.toNat).unacked = old.unacked.map (fun z => { z with last := t.stp.total })
        ∧ ∀ out, s.reaches peer out → s.errorFree →
            t.iln.sent = s.iln.sent ++ old.unacked.map (fun z => ⟨BitVec.ofNat 2 out, z.packet⟩)))
      ∧ (old.accepted ≠ 0 → GoesTo (exec (.ackTimer n ch) s) (fun t => reaches t (old.since + fcPerUs)
          ∧ (t.chanOf peer ch.toNat).accepted = 0 ∧ (t.chanOf peer ch.toNat).expected = old.expected
          ∧ OnlyIn [.stp, .shelves, .iln, .ldg, .obs] s t
          ∧ ∀ out, s.reaches peer out → ∃ q : SentOn, t.iln.sent = s.iln.sent ++ [q] ∧ q.packet.cls = 6
              ∧ q.packet.target.toNat = (old.expected.toNat + 65535) % 65536 * 65536))
      ∧ (old.accepted = 0 → exec (.ackTimer n ch) s = .next s)
      ∧ (x.out = 1 → GoesTo (exec (.syncRetry n) s) (fun t => reaches t (x.syncAt + 1000 * fcPerUs)
          ∧ t.peer peer = some { x with syncAt := t.stp.total } ∧ OnlyIn [.stp, .shelves, .iln, .ldg, .obs] s t
          ∧ ∀ out, s.reaches peer out → ∃ q : SentOn, t.iln.sent = s.iln.sent ++ [q] ∧ q.packet.cls = 6 ∧ fld q.packet.target 0 2 = 2))
      ∧ (x.out ≠ 1 → exec (.syncRetry n) s = .next s)
      ∧ (∀ t0 i, x.out ≠ 1 → x.oldest = some t0 → s.altLeft peer = some i → GoesTo (exec (.ilnLinkLost n) s) (fun t =>
          reaches t (t0 + s.ilnTimeout) ∧ t.regBit (R.ILN_ROUTE i) 38 = true ∧ t.iln.reqs = s.iln.reqs ∧ t.mem = s.mem))
      ∧ (∀ t0, x.out ≠ 1 → x.oldest = some t0 → s.altLeft peer = none → GoesTo (exec (.ilnLinkLost n) s) (fun t =>
          reaches t (t0 + s.ilnTimeout) ∧ t.regBit R.ILN_EVENT 0 = true ∧ t.reqsTo peer = []
          ∧ ∃ y, t.peer peer = some y ∧ y.out = 3 ∧ ∀ i < 4, (y.chan i).unacked = [] ∧ (y.chan i).waiting = []))
      ∧ (∀ id r, x.out = 1 → Tab.find? s.iln.reqs id = some r → r.peer = peer → (∀ q ∈ s.reqsTo peer, r.made ≤ q.2.made) →
          GoesTo (exec (.ilnLinkLost n) s) (fun t => reaches t (r.made + s.ilnTimeout) ∧ Tab.find? t.iln.reqs id = none))
      ∧ ((x.chans.all fun c => c.unacked.isEmpty && c.waiting.isEmpty) = true → s.reqsTo peer = [] →
          GoesTo (exec (.peerIdle n) s) (fun t => reaches t (x.seen + 1000000 * fcPerUs) ∧ t.peer peer = none
            ∧ (∀ k, k ≠ peer → t.peer k = s.peer k) ∧ OnlyIn [.stp, .shelves, .iln, .ldg, .obs] s t)))
    ∧ (∀ r, Tab.find? s.iln.reqs peer = some r →
        let at_ := r.sent.getD s.stp.total + s.ilnTimeout
        (r.acked = true → GoesTo (exec (.ilnRemoteTimeout n) s) (fun t => reaches t at_ ∧ Tab.find? t.iln.reqs peer = none))
        ∧ (∀ sh j e slot lap sp a y c z, r.acked = true → r.who = .folio sh j e slot lap sp a → (s.reach at_).givesUp r.peer = false →
            s.waitingFolio sh j e peer = some y → s.runCtx sh = some c → s.slip c.e.slip = some z → z.st ≠ .retired → z.fail = none →
            GoesTo (exec (.ilnRemoteTimeout n) s) (fun t => ∃ w, t.slip c.e.slip = some w ∧ w.fail = some 0x5002))
        ∧ (r.acked = false → exec (.ilnRemoteTimeout n) s = .next s))

/-- Ports, routes and epochs (R375, R379, R382 to R384): a lost link is down, a port trains, is disabled or retrains, port 0 does neither;
a route that names a CXL port is refused; an epoch change is armed unless it is late, and is cancelled. Host traffic (R80, R384): on ports
1 to 3 it is refused and recorded; on port 0 a manager's access of the control window acts on its register and is answered, and an
outstanding access ends with its answer or, ILN_TIMEOUT after it was made, with REMOTE_TIMEOUT: a COPY whose last chunk it was retires.
Rests on the model's readings notes/assumptions/53.md, notes/assumptions/54.md, notes/assumptions/78.md. -/
def Obligations.PortsRoutesEpochsAndHostTraffic : Prop :=
  (
    ∀ (s : State), s.inService = true →
      (∀ p : BitVec 2, (s.portUp p.toNat = true ∨ s.retraining p.toNat = true) → GoesTo (exec (.portDown p) s) (fun t => t.portUp p.toNat = false
        ∧ t.retraining p.toNat = false
        ∧ OnlyIn [.rf, .kpr, .iln, .bel, .ldg] s t))
      ∧ (∀ (p : BitVec 2) (g : PortTrain), s.portUp p.toNat = false → s.regBit (R.ILN_PORT_CTL p.toNat) 0 = false →
          (s.portMode p.toNat g = none → GoesTo (exec (.portTrained p g) s) (fun t =>
            t.reg (R.ILN_PORT_STATE p.toNat) = 0 ∧ (s.retraining p.toNat = false → OnlyIn [.rf, .iln] s t)))
          ∧ (s.portMode p.toNat g = some 1 → GoesTo (exec (.portTrained p g) s) (fun t => t.portStreams p.toNat = true
              ∧ t.field (R.ILN_PORT_STATE p.toNat) 3 3 = g.rate.toNat ∧ OnlyIn [.rf, .iln, .bel, .ldg] s t))
          ∧ (s.portMode p.toNat g = some 2 → (∀ q ∈ s.cat.slips, q.2.typ ≠ 6 ∨ q.2.st ≠ .running) → GoesTo (exec (.portTrained p g) s) (fun t =>
              t.portUp p.toNat = true ∧ t.modeOf p.toNat = 2 ∧ t.kpr.farDown.getLsbD p.toNat = false ∧ OnlyIn [.rf, .kpr, .iln, .bel, .ldg] s t)))
      ∧ (∀ (p : BitVec 2) (g : PortTrain), (s.portUp p.toNat = true ∨ s.regBit (R.ILN_PORT_CTL p.toNat) 0 = true) →
          exec (.portTrained p g) s = .next s)
      ∧ (∀ p : BitVec 2, p ≠ 0 → GoesTo (exec (.disable p) s) (fun t => t.regBit (R.ILN_PORT_CTL p.toNat) 0 = true
          ∧ (s.modeOf p.toNat ≠ 0 → t.reg (R.ILN_PORT_STATE p.toNat) = 0)))
      ∧ (∀ p : BitVec 2, p ≠ 0 → GoesTo (exec (.retrain p) s) (fun t => t.portUp p.toNat = false ∧ t.modeOf p.toNat = s.modeOf p.toNat
          ∧ (s.portUp p.toNat = true → t.retraining p.toNat = true) ∧ OnlyIn [.rf, .iln, .bel] s t))
      ∧ (∀ cmd ∈ [Instr.disable 0, .retrain 0], GoesTo (exec cmd s) (fun t => t.regBit R.ILN_EVENT 6 = true ∧ OnlyIn [.rf, .bel] s t))
      ∧ (∀ (i : BitVec 4) (v : Word), (s.modeOf (fld v 32 2) ≠ 2 ∧ s.modeOf (fld v 34 2) ≠ 2 → GoesTo (exec (.routeWrite i v) s) (fun t =>
            t.reg (R.ILN_ROUTE i.toNat) = v &&& 0x3FFFFFFFFF ∧ OtherRegs (R.ILN_ROUTE i.toNat) s t ∧ OnlyIn [.rf] s t))
          ∧ ((s.modeOf (fld v 32 2) = 2 ∨ s.modeOf (fld v 34 2) = 2) → GoesTo (exec (.routeWrite i v) s) (fun t =>
            t.reg (R.ILN_ROUTE i.toNat) = s.reg (R.ILN_ROUTE i.toNat) ∧ t.regBit R.ILN_EVENT 6 = true)))
      ∧ (let at_ := s.field R.ILN_EPOCH_AT 0 48
         let c := s.stp.stamp.toNat
         let late := at_ < c + 1 ∨ (at_ = c + 1 ∧ 0xC000 ≤ s.phase)
         (late → GoesTo (exec .epochArm s) (fun t => t.field R.ILN_EPOCH_STATUS 0 3 = 3 ∧ t.iln = s.iln ∧ OnlyIn [.rf] s t))
         ∧ (¬ late → GoesTo (exec .epochArm s) (fun t => t.field R.ILN_EPOCH_STATUS 0 3 = 1
              ∧ t.iln = { s.iln with armed := some (at_, s.field R.ILN_EPOCH_NEXT 0 16) } ∧ OnlyIn [.rf, .iln] s t)))
      ∧ GoesTo (exec .epochCancel s) (fun t => t.field R.ILN_EPOCH_STATUS 0 3 = 6 ∧ t.iln = { s.iln with armed := none }
          ∧ OnlyIn [.rf, .iln] s t))
  ∧ (
    ∀ (s : State), s.inService = true →
      (∀ (port : BitVec 2) (w : Bool) (f : Func) (target : Word) (d : List Byte) (q : BitVec 16) (recur : Word), port ≠ 0 →
        s.portUp port.toNat = true → GoesTo (exec (.hostReq port w f target ⟨d, recur⟩ q) s) (fun t => t.iln = s.iln ∧ OnlyIn [.rf, .bel, .ldg] s t))
      ∧ (∀ (off : BitVec 25) (d : List Byte) (q : BitVec 16) (recur : Word), s.portUp 0 = true → d.length = 8 → off.toNat % 8 = 0 →
          exec (.hostReq 0 false 0 (BitVec.ofNat 64 (windowBase + off.toNat)) ⟨d, recur⟩ q) s
            = .next (s.hostAnswer 0 q (leBytes 8 (s.readWindow off.toNat).toNat))
          ∧ (off.toNat < 0x1000000 → ∃ u, exec (.registerWrite (.host 0) off 8 ⟨(wordOfBytes d), recur⟩) s = .next u
              ∧ exec (.hostReq 0 true 0 (BitVec.ofNat 64 (windowBase + off.toNat)) ⟨d, recur⟩ q) s = .next (u.hostAnswer 0 q [])))
      ∧ (∀ (p : Packet) (port : BitVec 2), port ≠ 0 → s.portUp port.toNat = true → GoesTo (exec (.hostRsp port p) s) (fun t => t.iln = s.iln))
      ∧ (∀ (q : BitVec 16) (p : Packet) (r : HostReq), Tab.find? s.iln.host q.toNat = some r →
          let answers := s.portUp 0 = true ∧ Packet.crcRight p = true ∧ malformed p 9 = false ∧ p.reqId = q
          let ended := fun (status : Code) => { s.iln with host := Tab.erase s.iln.host q.toNat, hostLast := some (q.toNat, status) }
          let late := s.stp.total + (r.since + s.ilnTimeout - s.stp.total)
          (answers → r.who = .nobody → GoesTo (exec (.hostRsp 0 p) s) (fun t => t.iln = ended 0 ∧ OnlyIn [.iln] s t))
          ∧ (r.who = .nobody → GoesTo (exec (.hostTimeout q) s) (fun t => t.iln = ended 0x5002 ∧ t.stp.total = late
              ∧ OnlyIn [.stp, .shelves, .iln, .ldg, .obs] s t))
          ∧ (∀ id x, r.who = .slip id → s.slip id = some x → x.typ = 3 → x.st = .running → x.fail = none → s.carrelLive x.carrel = true →
              s.hushed = false →
              (answers → x.copyLen ≤ x.progress → s.slipReqs id = [] → s.kpr.adds = [] → (∀ y ∈ s.iln.host, y.1 ≠ q.toNat → y.2.who ≠ .slip id) →
                SettlesTo (exec (.hostRsp 0 p) s) (fun t => t.iln = ended 0 ∧ t.slipDone id))
              ∧ SettlesTo (exec (.hostTimeout q) s) (fun t => t.slipOver id 0x5002 ∧ t.stp.total = late
                  ∧ Tab.find? t.iln.host q.toNat = none)))
      ∧ (∀ q : BitVec 16, Tab.find? s.iln.host q.toNat = none → exec (.hostTimeout q) s = .next s))

/-- Every carrel command (R386, R387, Table 14-2) has no effect while another is in progress, answers BAD_CARREL for carrel 0, and in a
state it is not allowed in answers BAD_STATE; then every carrel's state, memory and the shelves are unchanged. CREATE, OPEN, FREEZE,
CARREL_FROZEN and THAW (R386 to R388, R392): a created carrel is CREATED with its registers at reset, an opened or thawed one ACTIVE, a
frozen one FREEZING until nothing of it is planned or runs, and then FROZEN. Rests on the model's readings notes/assumptions/57.md,
notes/assumptions/58.md. -/
def Obligations.CarrelCommandsMoveTheirStates : Prop :=
  (
    ∀ (s : State) (c : Func) (e q : Bool) (r : BitVec 6) (cmd : Instr) (states : List Nat), s.alive = true →
      (cmd, states) ∈ [(Instr.create c e, [0]), (.openCarrel c, [1]), (.freeze c, [2, 3, 4]), (.thaw c, [2, 3, 4]), (.save c, [4]),
        (.restore c, [1]), (.reset c q, [1, 2, 3, 4]), (.destroy c, [1]), (.roomAdd c r, [1, 2, 3, 4]), (.roomRemove c r, [1, 2, 3, 4])] →
      (s.crl.cmd.isSome = true → exec cmd s = .next s)
      ∧ (s.crl.cmd = none → c = 0 → GoesTo (exec cmd s) (fun t =>
          CmdResult t 9 ∧ (∀ k, t.carrelState k = s.carrelState k) ∧ OnlyIn cmdComps s t))
      ∧ (s.crl.cmd = none → c ≠ 0 → s.carrelState c.toNat ∉ states → GoesTo (exec cmd s) (fun t =>
          CmdResult t 2 ∧ (∀ k, t.carrelState k = s.carrelState k) ∧ OnlyIn cmdComps s t)))
  ∧ (
    ∀ (s : State) (c : Func),
      let k := c.toNat
      (∀ e : Bool, s.takesCmd c [0] → (e = false ∨ s.elastics < 8) → GoesTo (exec (.create c e) s) (fun t => CmdResult t 1
          ∧ t.reg (R.CRL_CARREL_STATE k) = BitVec.ofNat 64 (1 + 8 * b2n e) ∧ (∀ o ∈ carrelRegs k, t.reg o = regReset o)
          ∧ t.regBit (R.CIR_DB_ENABLE (k / 64)) (k % 64) = false ∧ t.mem = s.mem ∧ t.shelves = s.shelves))
      ∧ (s.takesCmd c [0] → 8 ≤ s.elastics → GoesTo (exec (.create c true) s) (fun t => CmdResult t 5 ∧ t.carrelState k = 0
          ∧ OnlyIn cmdComps s t))
      ∧ (s.takesCmd c [1] → SettlesDone (exec (.openCarrel c) s) (fun u => u.carrelState k = 2 ∧ (∀ i, i ≠ k → u.carrelState i = s.carrelState i)
          ∧ OnlyIn [.rf, .bel] s u))
      ∧ (s.takesCmd c [2, 3, 4] → SettlesDone (exec (.thaw c) s) (fun u => u.carrelState k = 2
          ∧ (∀ i, i ≠ k → u.carrelState i = s.carrelState i) ∧ OnlyIn [.rf, .bel] s u))
      ∧ (s.takesCmd c [2, 3, 4] → GoesTo (exec (.freeze c) s) (fun t => CmdResult t 1
          ∧ t.carrelState k = (if s.carrelState k = 2 then 3 else s.carrelState k) ∧ OnlyIn cmdComps s t))
      ∧ (s.running = true → s.canFreeze k = true → GoesTo (exec (.carrelFrozen c) s) (fun t => t.carrelState k = 4
          ∧ t.regBit R.CRL_EVENT 2 = true ∧ OnlyIn [.rf] s t))
      ∧ (s.canFreeze k = false → exec (.carrelFrozen c) s = .next s))

/-- ROOM_ADD and ROOM_REMOVE (R390, R391): every named shelf starts to join or to leave, or none does and the command answers why; an
ACTIVE or FREEZING carrel that is not elastic keeps its room. Rests on the model's readings notes/assumptions/57.md. -/
def Obligations.RoomsChangeAsNamed : Prop :=
  ∀ (s : State) (c : Func) (r : BitVec 6), s.takesCmd c [1, 2, 3, 4] →
    let k := c.toNat
    let named := s.namedShelves r.toNat
    let fixed := (s.carrelState k = 2 ∨ s.carrelState k = 3) ∧ s.regBit (R.CRL_CARREL_STATE k) 3 = false
    (∀ cmd ∈ [Instr.roomAdd c r, .roomRemove c r], fixed → GoesTo (exec cmd s) (fun t => CmdResult t 3 ∧ OnlyIn cmdComps s t))
    ∧ (¬ fixed → named ≠ [] → named.any s.unavailable = false → GoesTo (exec (.roomAdd c r) s) (fun t =>
        (∀ sh ∈ named, t.shelf sh = { s.shelf sh with joining := k }) ∧ (∀ sh, sh ∉ named → t.shelf sh = s.shelf sh)
        ∧ t.crl.cmd = some ⟨9, k, r.toNat, s.reg R.CRL_ROOM_MASK⟩ ∧ t.regBit R.CRL_CMD_STATUS 0 = true
        ∧ OnlyIn (.shelves :: cmdComps) s t))
    ∧ (¬ fixed → named = [] → GoesTo (exec (.roomAdd c r) s) (fun t => CmdResult t 1 ∧ OnlyIn cmdComps s t))
    ∧ (¬ fixed → named.any s.unavailable = true → GoesTo (exec (.roomAdd c r) s) (fun t => CmdResult t 4 ∧ OnlyIn cmdComps s t))
    ∧ (¬ fixed → named.any (fun sh => (s.shelf sh).owner != k || (s.shelf sh).clearing) = true →
        GoesTo (exec (.roomRemove c r) s) (fun t => CmdResult t 4 ∧ OnlyIn cmdComps s t))
    ∧ (¬ fixed → named.any (fun sh => (s.shelf sh).owner != k || (s.shelf sh).clearing) = false →
        GoesTo (exec (.roomRemove c r) s) (fun t => CmdResult t 1
          ∧ (∀ sh ∈ named, (t.shelf sh).leaving = true ∨ ((t.shelf sh).owner = 0 ∧ (t.shelf sh).clearing = true))
          ∧ (∀ sh, sh ∉ named → t.shelf sh = s.shelf sh) ∧ OnlyIn (.shelves :: cmdComps) s t))

/-- RESET, DRAIN_LIMIT, DRAIN_COMPLETE and DESTROY (R389, R400, R401): a reset carrel fetches and appends nothing, its requests are
abandoned once the limit is reached, and when nothing of it is under way, or its limit has passed, it is CREATED without volumes; a
destroyed carrel holds nothing and is ABSENT once no shelf of it has to be cleared. Rests on the model's readings notes/assumptions/57.md,
notes/assumptions/58.md. -/
def Obligations.CarrelResetAndDestroy : Prop :=
  ∀ (s : State) (c : Func),
    let k := c.toNat
    (∀ q : Bool, s.takesCmd c [1, 2, 3, 4] → GoesTo (exec (.reset c q) s) (fun t => t.carrelState k = 5
        ∧ t.crl.cmd = some ⟨7, k, 0, 0⟩ ∧ Tab.find? t.crl.resets k = some ⟨q, s.stp.total⟩ ∧ (∀ w ∈ t.cir.waits, w.carrel ≠ k)
        ∧ (q = true → ∀ p ∈ t.iln.reqs, p.2.carrel ≠ k) ∧ (s.noneHeld → t.mem = s.mem)))
    ∧ (∀ r, s.running = true → Tab.find? s.crl.resets k = some r →
        (r.squash = false → GoesTo (exec (.drainLimit c) s) (fun t => (∀ p ∈ t.iln.reqs, p.2.carrel ≠ k)
          ∧ (∀ p ∈ s.iln.reqs, p.2.carrel ≠ k → p ∈ t.iln.reqs)
          ∧ t.stp.total = s.stp.total + (s.drainEnd r - s.stp.total) ∧ t.mem = s.mem))
        ∧ (r.squash = true → exec (.drainLimit c) s = .next s)
        ∧ (s.drained k = false → (∀ p ∈ s.crl.resets, p.2.squash = true ∨ s.stp.total ≤ s.drainEnd p.2) → exec (.drainComplete c) s = .next s)
        ∧ ((s.drained k = true ∨ (r.squash = false ∧ s.drainEnd r < s.stp.total)) → s.cir.waits = [] → SettlesTo (exec (.drainComplete c) s) (fun u => u.carrelState k = 1 ∧ Tab.find? u.crl.resets k = none
            ∧ (∀ p ∈ u.bind.vols, p.1 / 65536 ≠ k) ∧ u.crl.cmd.any (fun m => m.op == 7 && m.carrel == k) = false)))
    ∧ (s.takesCmd c [1] → s.cir.waits = [] → (∀ p ∈ s.shelves, p.2.owner ≠ k ∧ p.2.joining ≠ k) → GoesTo (exec (.destroy c) s) (fun t =>
        CmdResult t 1 ∧ t.carrelState k = 0 ∧ (∀ p ∈ t.bind.vols, p.1 / 65536 ≠ k) ∧ (∀ p ∈ t.kpr.calls, p.2.carrel ≠ k)
        ∧ ∀ o ∈ carrelRegs k, t.reg o = regReset o))
    ∧ (∀ sh0 ∈ s.room k, s.takesCmd c [1] → s.cir.waits = [] → GoesTo (exec (.destroy c) s) (fun t => t.carrelState k = 6 ∧ t.crl.cmd = some ⟨8, k, 0, 0⟩
        ∧ (∀ sh ∈ s.room k, (t.shelf sh).owner = 0 ∧ (t.shelf sh).clearing = true ∧ (t.shelf sh).joining = k)
        ∧ (∀ p ∈ t.bind.vols, p.1 / 65536 ≠ k) ∧ ∀ p ∈ t.kpr.calls, p.2.carrel ≠ k))

/-- SAVE writes the carrel's image at CRL_IMAGE_ADDR and gives its length in units of 64 bytes (R393); RESTORE refuses an image that is
not one, that does not fit the carrel's extents or that finds no space, and an accepted one leaves the carrel FROZEN, with its event
(R394). Rests on the model's readings notes/assumptions/39.md. -/
def Obligations.CarrelImagesAreSavedAndRestored : Prop :=
  ∀ (s : State) (c : Func),
    let k := c.toNat
    let img := s.image k
    (s.takesCmd c [4] → s.ecc = [] → s.servesNear 0 s.imageAddr img.length → GoesTo (exec (.save c) s) (fun t =>
      CmdResult t 1 ∧ Memory.readN t.mem s.imageAddr img.length = img ∧ OtherBytes s.imageAddr img.length s t
      ∧ t.field R.CRL_CMD_STATUS 32 16 = ceilDiv img.length 64 % 65536 ∧ t.shelves = s.shelves ∧ t.cat = s.cat))
    ∧ (s.takesCmd c [1] →
        let b := s.bell 1103
        (∀ u, b.readImage k = (u, none) → GoesTo (exec (.restore c) s) (fun t => CmdResult t 6 ∧ t.cat = s.cat ∧ t.shelves = s.shelves))
        ∧ (∀ u m, b.readImage k = (u, some m) →
            (u.imageMismatch k m = true → GoesTo (exec (.restore c) s) (fun t => CmdResult t 7 ∧ t.cat = s.cat ∧ t.mem = s.mem))
            ∧ (u.imageMismatch k m = false → (u.imageNoSpace k m = true ∨ u.pickContexts m.rings [] = none) → GoesTo (exec (.restore c) s) (fun t =>
                CmdResult t 8 ∧ t.cat = s.cat ∧ t.mem = s.mem))
            ∧ (∀ ks, u.imageMismatch k m = false → u.imageNoSpace k m = false → u.pickContexts m.rings [] = some ks →
                GoesTo (exec (.restore c) s) (fun t => CmdResult t 1 ∧ t.carrelState k = 4 ∧ t.regBit R.CRL_EVENT 2 = true))))

/-- Mailbox words and doorbells (R395 to R397): a side writes its own words and rings while its bit is clear; otherwise the write is
dropped and counted; a message firmware does not serve shows in the summary, and the manager and the carrel clear the other's bit. The
requests firmware serves (R397, Table 14-4): the reply stands in words 8 to 15 with DOWN set and UP clear, and its first word is the
status: DONE, BAD_RING, BAD_TYPE, or what the page write ended with. Rests on the model's readings notes/assumptions/60.md. -/
def Obligations.MailboxesAndServedRequests : Prop :=
  (
    ∀ (s : State) (c : Func),
      let k := c.toNat
      let db := R.CRL_MBOX_DB k
      s.mailboxOpen k = true →
      (∀ (m : Bool) (w : BitVec 4) (v : Word), m = decide (8 ≤ w.toNat) →
        (s.regBit db (if m = true then 1 else 0) = false → GoesTo (exec (.mboxWrite m c w v) s) (fun t =>
          t.reg (R.CRL_MBOX_MSG k w.toNat) = v ∧ OtherRegs (R.CRL_MBOX_MSG k w.toNat) s t ∧ OnlyIn [.rf] s t))
        ∧ (s.regBit db (if m = true then 1 else 0) = true → GoesTo (exec (.mboxWrite m c w v) s) (fun t =>
          t.field db (if m = true then 16 else 8) 8 = satAdd 255 (s.field db (if m = true then 16 else 8) 8) 1
          ∧ OtherRegs db s t ∧ OnlyIn [.rf] s t)))
      ∧ (∀ (m : Bool) (w : BitVec 4) (v : Word), m ≠ decide (8 ≤ w.toNat) → exec (.mboxWrite m c w v) s = .next s)
      ∧ (s.regBit db 0 = false → s.forManager k = true → GoesTo (exec (.upSet c) s) (fun t => t.regBit db 0 = true
          ∧ t.regBit (R.CRL_MBOX_SUMMARY (k / 64)) (k % 64) = true
          ∧ (∀ o, o ≠ db → o ≠ R.CRL_MBOX_SUMMARY (k / 64) → t.reg o = s.reg o) ∧ OnlyIn [.rf, .iln, .bel, .hostOut] s t))
      ∧ (s.regBit db 0 = true → GoesTo (exec (.upSet c) s) (fun t => t.field db 8 8 = satAdd 255 (s.field db 8 8) 1 ∧ t.regBit db 0 = true
          ∧ OtherRegs db s t ∧ OnlyIn [.rf] s t))
      ∧ GoesTo (exec (.upClear c) s) (fun t => t.regBit db 0 = false ∧ t.regBit (R.CRL_MBOX_SUMMARY (k / 64)) (k % 64) = false
          ∧ (∀ o, o ≠ db → o ≠ R.CRL_MBOX_SUMMARY (k / 64) → t.reg o = s.reg o) ∧ OnlyIn [.rf] s t)
      ∧ (s.regBit db 1 = false → GoesTo (exec (.downSet c) s) (fun t => t.regBit db 1 = true ∧ OtherRegs db s t ∧ OnlyIn [.rf, .iln, .hostOut] s t))
      ∧ ((s.regBit db 0 = false ∨ s.regBit (R.CRL_MBOX_SUMMARY (k / 64)) (k % 64) = true ∨ s.mboxCode k ≤ 4) → GoesTo (exec (.downClear c) s) (fun t =>
          t.regBit db 1 = false ∧ OtherRegs db s t ∧ OnlyIn [.rf] s t)))
  ∧ (
    ∀ (s : State) (c : Func),
      let k := c.toNat
      let replied := fun (t : State) (status : Word) => t.reg (R.CRL_MBOX_MSG k 8) = status ∧ t.regBit (R.CRL_MBOX_DB k) 0 = false
        ∧ t.regBit (R.CRL_MBOX_DB k) 1 = true
      (∀ cmd code, (cmd, code) ∈ [(Instr.cancelSlip c, 1), (.cancelAll c, 3)] → s.served k code = true → GoesTo (exec cmd s) (fun t =>
          replied t 0 ∧ t.reg (R.CRL_MBOX_MSG k 9) = t.reg R.CAT_CANCEL_STATUS))
      ∧ (s.served k 2 = true →
          let ring := s.ringOf k false (s.field (R.CRL_MBOX_MSG k 1) 0 5)
          (ring = none → GoesTo (exec (.cancelRing c) s) (fun t => replied t 0x3005 ∧ t.cat = s.cat ∧ OnlyIn [.rf, .iln, .hostOut] s t))
          ∧ (ring ≠ none → GoesTo (exec (.cancelRing c) s) (fun t => replied t 0)))
      ∧ (s.served k 4 = true →
          let a := s.field (R.CRL_MBOX_MSG k 1) 0 48
          (a = 0 → GoesTo (exec (.query c) s) (fun t => replied t 0 ∧ t.reg (R.CRL_MBOX_MSG k 9) = s.carrelStateWord k
            ∧ t.reg (R.CRL_MBOX_MSG k 10) = s.kprUseWord k ∧ t.reg (R.CRL_MBOX_MSG k 11) = s.catCarrelWord k
            ∧ OnlyIn [.rf, .iln, .hostOut] s t))
          ∧ (a ≠ 0 → s.pageOk k a = false → GoesTo (exec (.query c) s) (fun t => replied t 0x2000 ∧ OnlyIn [.rf, .iln, .hostOut] s t))
          ∧ (a ≠ 0 → s.pageOk k a = true → s.ecc = [] → s.servesNear k a (s.roomBytes k).length → GoesTo (exec (.query c) s) (fun t =>
              replied t 0 ∧ Memory.readN t.mem a (s.roomBytes k).length = s.roomBytes k ∧ OtherBytes a (s.roomBytes k).length s t)))
      ∧ (s.mailboxOpen k = true → s.mboxUp k = false → s.mboxDown k = false → s.regBit (R.CRL_MBOX_SUMMARY (k / 64)) (k % 64) = false →
          s.forManager k = false → 4 < s.mboxCode k →
          GoesTo (exec (.upSet c) s) (fun t => replied t 0x3001 ∧ OnlyIn [.rf, .iln, .bel, .hostOut] s t))
      ∧ (∀ code, s.served k code = false → ∀ cmd, (cmd, code) ∈ [(Instr.cancelSlip c, 1), (.cancelRing c, 2), (.cancelAll c, 3), (.query c, 4)] →
          exec cmd s = .next s))

/-- BEL_DOORBELL and BEL_PEND_SET (R404, Table 15-2): an arrival makes an idle source pending and counts at any other, up to 255; a source
the manager may not signal is counted in BEL_STATUS; a carrel changes nothing of the Bell. BEL_COMPLETE (R405): an active source with
arrivals, or of the status class with its level asserted, is pending again, another rests; a source that is not active is counted. A HEAD
write (R408) is taken unless it would leave more between HEAD and TAIL than the queue holds; a curator that waits sleeps unless something
waits for it (R410); a curator that returns to its normal bank stays on the alternate one only for a fast record it has not read (R409).
Rests on the model's readings notes/assumptions/61.md. -/
def Obligations.BellArrivalsCompletionsAndCurators : Prop :=
  (
    ∀ (s : State) (n : BitVec 11), s.alive = true →
      let m := n.toNat
      let x := s.belSrc m
      (∀ (who : Requester) (cmd : Instr) (soft : Bool), (cmd, soft) ∈ [(Instr.belDoorbell who n, false), (.belPendSet who n, true)] →
        ((∃ k, who = .curator k) ∨ (s.manages who ∧ managerSource m = true) → GoesTo (exec cmd s) (fun t =>
          (t.belSrc m).phase = (if x.phase = .idle then .pending else x.phase)
          ∧ (t.belSrc m).count = (if belIsStatus m = true then (if x.phase = .idle then 0 else x.count)
              else if x.phase = .idle then 1 else min 255 (x.count + 1))
          ∧ (x.phase = .idle → (t.belSrc m).first = s.now ∧ (t.belSrc m).soft = (x.soft || soft))
          ∧ (∀ j, j ≠ m → t.belSrc j = s.belSrc j) ∧ OnlyIn [.bel] s t))
        ∧ ((∀ k, who ≠ .curator k) → s.manages who → managerSource m = false → GoesTo (exec cmd s) (fun t =>
            t.field R.BEL_STATUS 16 16 = satAdd 65535 (s.field R.BEL_STATUS 16 16) 1 ∧ OtherRegs R.BEL_STATUS s t ∧ OnlyIn [.rf] s t))
        ∧ (∀ f : Func, who = .host f → f ≠ 0 → GoesTo (exec cmd s) (fun t => t.bel = s.bel ∧ t.reg R.BEL_STATUS = s.reg R.BEL_STATUS)))
      ∧ (x.phase ≠ .active → GoesTo (exec (.belComplete n) s) (fun t =>
          t.field R.BEL_STATUS 0 16 = satAdd 65535 (s.field R.BEL_STATUS 0 16) 1 ∧ OtherRegs R.BEL_STATUS s t ∧ OnlyIn [.rf] s t))
      ∧ (x.phase = .active → belIsStatus m = false → GoesTo (exec (.belComplete n) s) (fun t =>
          t.belSrc m = (if 0 < x.count then { x with phase := .pending } else BelSrc.rest)
          ∧ (∀ j, j ≠ m → t.belSrc j = s.belSrc j) ∧ OnlyIn [.bel] s t))
      ∧ (x.phase = .active → belIsStatus m = true → GoesTo (exec (.belComplete n) s) (fun t =>
          t.belSrc m = (if s.belLevelOf m = true then { x with phase := .pending, first := s.now, firstHo := s.holdover } else BelSrc.rest)
          ∧ (∀ j, j ≠ m → t.belSrc j = s.belSrc j) ∧ OnlyIn [.bel] s t)))
  ∧ (
    ∀ (s : State) (c : BitVec 2) (v : Word), s.alive = true →
      let k := c.toNat
      let level := (s.field (R.BEL_Q_TAIL k) 0 16 + (65536 - fld v 0 16)) % 65536
      (level ≤ s.belSize k → GoesTo (exec (.belQHeadWrite c v) s) (fun t =>
        t.reg (R.BEL_Q_HEAD k) = v &&& 0xFFFF ∧ OtherRegs (R.BEL_Q_HEAD k) s t ∧ OnlyIn [.rf] s t))
      ∧ (s.belSize k < level → exec (.belQHeadWrite c v) s = .next s)
      ∧ GoesTo (exec (.waitForInterrupt c) s) (fun t =>
          t.bel.asleep.getLsbD k = !(s.belNames k || decide (0 < s.belLevel k)) ∧ t.bel.srcs = s.bel.srcs ∧ OnlyIn [.bel] s t)
      ∧ GoesTo (exec (.normalBankReturn c) s) (fun t =>
          t.bel.alt.getLsbD k = (s.belIrq k && decide (0 < s.fastUnread k)) ∧ (∀ j, j ≠ k → t.bel.alt.getLsbD j = s.bel.alt.getLsbD j)
          ∧ t.bel.asleep = s.bel.asleep ∧ t.bel.srcs = s.bel.srcs ∧ OnlyIn [.bel] s t))

/-- BELL_ROUTE (R407, R408): the source chosen goes before every other that waits with an eligible curator, its curator has the lowest
rank among the eligible, its record stands at that queue's TAIL, which moves by one, and the source is active; no other byte of curator
shared memory changes. Where none can be routed nothing changes. Rests on the model's readings notes/assumptions/61.md. -/
def Obligations.BellRoutesOneRecord : Prop :=
  ∀ s : State, s.alive = true →
    (s.belPick = none → exec .bellRoute s = .next s)
    ∧ (∀ n, s.belPick = some n →
        let k := s.belChoose (s.belEligible n)
        let tail := s.field (R.BEL_Q_TAIL k) 0 16
        let a := s.belAddr k tail
        k ∈ s.belEligible n ∧ (∀ i ∈ s.belEligible n, s.belRank k ≤ s.belRank i)
        ∧ (∀ p ∈ s.bel.srcs, p.2.phase = .pending → s.belEn p.1 = true → s.belEligible p.1 ≠ [] → s.belBefore p.1 n = false)
        ∧ GoesTo (exec .bellRoute s) (fun t =>
            Memory.readWords t.curMem a 2 = s.belRecord n (s.belSrc n)
            ∧ (∀ b, (b < a ∨ a + 16 ≤ b) → Memory.read t.curMem b = Memory.read s.curMem b)
            ∧ t.field (R.BEL_Q_TAIL k) 0 16 = (tail + 1) % 65536
            ∧ t.belSrc n = { s.belSrc n with phase := .active, count := 0, sat := false, soft := false, curator := k }
            ∧ (∀ j, j ≠ n → t.belSrc j = s.belSrc j) ∧ t.bel.last = k ∧ OnlyIn [.rf, .ecc, .curMem, .bel] s t))

/-- LEDGER_MESSAGE (R413, R417, R420): a message of severity 0 leaves no trace; any other is counted at its source and sets its
first-error bit; its record enters the buffer, and where the log is in use in the near tier and has room, it stands at TAIL; severity 2
and above is kept in LDG_KEEP. Severity 4, and 3 of a carrel while LDG_CTL says so, resets the block and boots it again (R419, R425).
LDG_LOG_HEAD and LOG_CONFIG_WRITE (R413): HEAD moves forward to at most TAIL and gives up the records before it; a log misplaced in the
near tier is refused; without a message LEDGER_MESSAGE changes nothing, and during a block reset only source 0 is accepted (R419). Rests
on the model's readings notes/assumptions/62.md. -/
def Obligations.LedgerRecordsAndLogPlacement : Prop :=
  (
    ∀ (s : State) (src : BitVec 10) (m : LMsg) (rest : List LMsg), s.alive = true → s.blockResetting = false →
      Tab.getD s.ldg.waiting src.toNat [] = m :: rest → m.code ≠ 0x1070 → s.ldg.buffer = [] → s.ldg.lost = 0 →
      let i := m.source.toNat
      let sev := s.severity i m.code.toNat
      let ws := ledgerRecord m (!s.regBit (R.LDG_FIRST (i / 64)) (i % 64)) sev
      let tail := s.field R.LDG_LOG_TAIL 0 32
      let out := exec (.ledgerMessage src none) s
      let counted := fun (t : State) => t.field (R.LDG_COUNT i) 0 32 = satAdd 0xFFFFFFFF (s.field (R.LDG_COUNT i) 0 32) 1
        ∧ t.regBit (R.LDG_FIRST (i / 64)) (i % 64) = true
      (sev = 0 → GoesTo out (fun t => t.ldg = { s.ldg with waiting := Tab.put s.ldg.waiting src.toNat rest [] } ∧ OnlyIn [.ldg] s t))
      ∧ (sev = 1 ∨ sev = 2 ∧ s.regBit R.LDG_CTL 1 = false → s.regBit R.LDG_LOG_CTL 4 = false → GoesTo out (fun t =>
          counted t ∧ t.ldg = { s.ldg with waiting := Tab.put s.ldg.waiting src.toNat rest [], buffer := [ws] }
          ∧ (sev = 2 → ∀ w < 4, t.reg (R.LDG_KEEP (4 * s.field R.LDG_STATUS 56 4 + w)) = wordAt ws w)
          ∧ OnlyIn [.rf, .ldg] s t))
      ∧ (sev = 1 → s.logNear = true → s.logLevel < s.logSize → s.nearBacked (s.logAddr tail) 32 = true →
          (∀ b < 32, s.byteStatus (s.logAddr tail + b) = none) → GoesTo out (fun t =>
            counted t ∧ Memory.readWords t.mem (s.logAddr tail) 4 = ws ∧ OtherBytes (s.logAddr tail) 32 s t
            ∧ t.reg R.LDG_LOG_TAIL = BitVec.ofNat 64 ((tail + 1) % 2 ^ 32) ∧ t.ldg.records = s.ldg.records ++ [ws] ∧ t.ldg.buffer = []
            ∧ OnlyIn [.rf, .mem, .ldg] s t))
      ∧ (sev = 4 ∨ (sev = 3 ∧ s.regBit R.LDG_CTL 0 = true ∧ s.carrelExists m.carrel.toNat = true) → s.obs.scan = false →
          s.regBit R.OBS_SCAN_CTL 2 = false → s.escCount + 1 < s.escLimit → GoesTo out (fun t =>
            t.pins.life = .boot ∧ t.bootPhase = 1 ∧ t.boot.cause = some (i, m.kind.toNat) ∧ t.ldg.history = s.stp.total :: s.ldg.history
            ∧ t.cat = Cat.reset ∧ t.kpr = Kpr.reset ∧ t.shelves = [] ∧ t.stp.stamp = s.stp.stamp)))
  ∧ (
    (∀ (s : State) (v : Word), s.alive = true →
        let left := (s.field R.LDG_LOG_TAIL 0 32 + (2 ^ 32 - fld v 0 32)) % 2 ^ 32
        (s.logLevel < left → exec (.ldgLogHead v) s = .next s)
        ∧ (left ≤ s.logLevel → s.ldg.buffer = [] → s.ldg.lost = 0 → GoesTo (exec (.ldgLogHead v) s) (fun t =>
            t.reg R.LDG_LOG_HEAD = v &&& 0xFFFFFFFF ∧ t.ldg = { s.ldg with records := s.ldg.records.drop (s.logLevel - left) }
            ∧ OtherRegs R.LDG_LOG_HEAD s t ∧ OnlyIn [.rf, .ldg] s t)))
    ∧ (∀ (s : State) (ctl : Bool) (v : Word), s.alive = true →
        let r := if ctl then R.LDG_LOG_CTL else R.LDG_LOG_BASE
        let w : Word := if ctl then BitVec.ofNat 64 (max 8 (fld v 0 4) + b2n (bitAt v 4) * 16) else v &&& 0xFFFFFFFFFFFFF001
        ((s.setReg r w).logMisplaced = true → exec (.logConfigWrite ctl v) s = .next s)
        ∧ ((s.setReg r w).logMisplaced = false → s.ldg.buffer = [] → s.ldg.lost = 0 → GoesTo (exec (.logConfigWrite ctl v) s) (fun t =>
            t.reg r = w ∧ OtherRegs r s t ∧ OnlyIn [.rf] s t)))
    ∧ (∀ (s : State) (src : BitVec 10), s.alive = true →
        (Tab.getD s.ldg.waiting src.toNat [] = [] ∨ (s.blockResetting = true ∧ src ≠ 0)) → exec (.ledgerMessage src none) s = .next s))

/-- LDG_BLOCK_RESET, LDG_OOS_CLEAR and LDG_HEARTBEAT act on their keys and bits alone (R422, R429, R431); the manager's block reset is not
counted (R428). WATCHDOG_EXPIRED (R422): with the watchdog armed and the die not hushed, its time passes, ALERT_CAUSE bit 3 is set and a
counted block reset begins a boot. RESET_N low takes over from a block reset, and its straps are sampled again; the manager's
LDG_BLOCK_RESET during one has no effect; PWROK low ends it (R427). Rests on the model's readings notes/assumptions/14.md,
notes/assumptions/63.md. -/
def Obligations.BlockResetsAndTheWatchdog : Prop :=
  (
    ∀ (s : State) (v : Word), s.alive = true →
      (fld v 0 16 ≠ 0xB10C → exec (.ldgBlockReset v) s = .next s)
      ∧ (fld v 0 16 = 0xB10C → s.blockResetting = false → s.obs.scan = false → s.regBit R.OBS_SCAN_CTL 2 = false →
          GoesTo (exec (.ldgBlockReset v) s) (fun t => t.pins.life = .boot ∧ t.bootPhase = 1 ∧ t.boot.cause = some (0, 0)
            ∧ t.ldg.history = s.ldg.history ∧ t.ldg.oos = s.ldg.oos ∧ t.stp.stamp = s.stp.stamp ∧ t.cat = Cat.reset ∧ t.shelves = []
            ∧ ∀ a < farBase, Memory.read t.mem a = 0))
      ∧ (fld v 0 16 = 0x0C1E → s.ldg.oos = true → s.ldg.cycled = true → GoesTo (exec (.ldgOosClear v) s) (fun t =>
          t.ldg = { s.ldg with oos := false, cycled := false, history := [] } ∧ OnlyIn [.ldg] s t))
      ∧ ((fld v 0 16 ≠ 0x0C1E ∨ s.ldg.oos = false ∨ s.ldg.cycled = false) → exec (.ldgOosClear v) s = .next s)
      ∧ (s.ldg.wdArmed = true →
          let seen := s.ldg.wdSeen ||| v.setWidth 4
          GoesTo (exec (.ldgHeartbeat v) s) (fun t => t.ldg.wdSeen = (if seen = 15 then 0 else seen)
            ∧ t.ldg.wdLeft = (if seen = 15 then watchdogFc else s.ldg.wdLeft) ∧ t.ldg.wdExpiries = s.ldg.wdExpiries ∧ OnlyIn [.ldg] s t))
      ∧ (s.ldg.wdArmed = false → exec (.ldgHeartbeat v) s = .next s)
      ∧ (s.ldg.wdArmed = true → s.hushed = false → s.blockResetting = false → s.obs.scan = false → s.regBit R.OBS_SCAN_CTL 2 = false →
          s.escCount + 1 < s.escLimit → GoesTo (exec .watchdogExpired s) (fun t =>
            t.pins.life = .boot ∧ t.bootPhase = 1 ∧ t.boot.cause = some (0, 2) ∧ t.smb.cause.getLsbD 3 = true
            ∧ t.stp.total = s.stp.total + s.ldg.wdLeft ∧ t.ldg.wdExpiries = min 65535 (s.ldg.wdExpiries + 1) ∧ t.ldg.wdArmed = false))
      ∧ ((s.ldg.wdArmed = false ∨ s.hushed = true) → exec .watchdogExpired s = .next s))
  ∧ (
    ∀ s : State, s.blockResetting = true →
      (∀ v, exec (.ldgBlockReset v) s = .next s)
      ∧ (s.pins.life ≠ .off → GoesTo (exec .pinReset s) (fun t => t.pins.life = .reset ∧ t.blockResetting = false
          ∧ ∀ straps, GoesTo (exec (.resetNDeassert straps) t) (fun u => u.pins.life = .boot
              ∧ u.reg R.CFG_STRAP = BitVec.ofNat 64 (strapWord straps.toNat))))
      ∧ (s.pins.life ≠ .off → GoesTo (exec .pwrokFall s) (fun t => t.pins.life = .off ∧ t.blockResetting = false)))

/-- HUSH, HUSH_RELEASE, SCAN_START and SCAN_DONE (R443, R445 to R448): a hush shows its cause and its datestamp; its release, refused
while a scan-out runs and in the hush of a block reset, moves every running deadline by the time the hush lasted; an image bound for the
manager's host memory leaves for it whole. Rests on the model's readings notes/assumptions/3.md, notes/assumptions/64.md,
notes/assumptions/65.md. -/
def Obligations.HushesAndScansOut : Prop :=
  ∀ s : State, s.inService = true →
    (s.hushed = false → GoesTo (exec .hush s) (fun t => t.hushed = true ∧ t.field R.OBS_HUSH_STATUS 2 3 = 1 ∧ t.reg R.OBS_HUSH_WHEN = s.now
      ∧ (∀ o, o ≠ R.OBS_HUSH_STATUS → o ≠ R.OBS_HUSH_WHEN → t.reg o = s.reg o) ∧ OnlyIn [.rf, .obs] s t))
    ∧ (s.hushed = true → exec .hush s = .next s)
    ∧ ((s.hushed = false ∨ s.obs.scan = true ∨ s.blockResetting = true ∨ s.field R.OBS_HUSH_STATUS 2 3 = 4) → exec .hushRelease s = .next s)
    ∧ (s.hushed = true → s.obs.scan = false → s.blockResetting = false → s.field R.OBS_HUSH_STATUS 2 3 ≠ 4 → SettlesTo (exec .hushRelease s) (fun u =>
        u.running = true ∧ u.reg R.OBS_HUSH_STATUS = 0 ∧ u.regBit R.OBS_EVENT 0 = true ∧ u.belLevelOf 1107 = true ∧ u.obs.resuming = true ∧ u.obs.hushFc = 0
        ∧ (∀ sh r, (s.shelf sh).run = some r → (u.shelf sh).run = some { r with deadline := r.deadline + s.obs.hushFc })
        ∧ OnlyIn [.rf, .shelves, .iln, .bel, .obs] s u))
    ∧ (s.hushed = true → s.obs.scan = false → GoesTo (exec .scanStart s) (fun t =>
        t.reg R.OBS_SCAN_STATUS = 1 ∧ OtherRegs R.OBS_SCAN_STATUS s t ∧ t.obs = { s.obs with scan := true } ∧ OnlyIn [.rf, .obs] s t))
    ∧ ((s.hushed = false ∨ s.obs.scan = true) → exec .scanStart s = .next s)
    ∧ (s.obs.scan = false → exec .scanDone s = .next s)
    ∧ (s.obs.scan = true → s.blockResetting = false → GoesTo (exec .scanDone s) (fun t => t.obs.scan = false
        ∧ t.field R.OBS_SCAN_STATUS 0 2 = 2
        ∧ (s.regBit R.OBS_SCAN_BASE 0 = true → s.regBit (R.ILN_PORT_STATE 0) 2 = true →
            t.hostOut = s.hostOut ++ [⟨0, 4096 * s.field R.OBS_SCAN_BASE 12 52, (s.scanImage s.scanRanges).2⟩] ∧ t.mem = s.mem)))
    ∧ (s.obs.scan = true → s.blockResetting = true → s.boot.escalated = false → GoesTo (exec .scanDone s) (fun t =>
        t.pins.life = .boot ∧ t.bootPhase = 1 ∧ t.boot.cause = s.boot.cause))

/-- The wait-for graph (R457): a command is refused while one runs, and hushes the die where it asks for it; the graph goes to
OBS_WFG_ADDR, and its counts to OBS_WFG_STATUS. Counters are cleared and latched (R455); bisection holds are released by their entries
(R277). Online self-test (R458): a command that cannot run answers INVALID or BUSY and does nothing; one that runs drains the range; at
its end without a failure the range's shelf stores and folio memories are zero, no other byte has changed, and no shelf is withdrawn.
Rests on the model's readings notes/assumptions/3.md, notes/assumptions/65.md, notes/assumptions/72.md. -/
def Obligations.GraphsCountersHoldsAndSelftests : Prop :=
  (
    ∀ (s : State) (v : Word), s.inService = true →
      (s.obs.wfg ≠ none → GoesTo (exec (.wfgCmd v) s) (fun t =>
        t.field R.OBS_WFG_STATUS 1 2 = 3 ∧ OtherRegs R.OBS_WFG_STATUS s t ∧ OnlyIn [.rf] s t))
      ∧ (s.obs.wfg = none →
          let h := bitAt v 10 && !s.hushed
          GoesTo (exec (.wfgCmd v) s) (fun t => t.reg R.OBS_WFG_STATUS = 1 ∧ t.obs.wfg = some ⟨fld v 0 10, h, s.now⟩
            ∧ t.hushed = (s.hushed || h) ∧ (h = true → t.field R.OBS_HUSH_STATUS 2 3 = 5) ∧ OnlyIn [.rf, .obs] s t))
      ∧ (s.obs.wfg = none → exec .wfgDone s = .next s)
      ∧ (∀ w, s.obs.wfg = some w → w.hushed = false →
          let g := s.wfgImage w
          let a := s.field R.OBS_WFG_ADDR 6 42 * 64
          GoesTo (exec .wfgDone s) (fun t => t.obs.wfg = none ∧ t.regBit R.OBS_EVENT 4 = true
            ∧ t.reg R.OBS_WFG_STATUS = BitVec.ofNat 64 ((if g.2.2.2 then 2 else 1) * 2 + g.2.1 % 2 ^ 21 * 2 ^ 3 + g.2.2.1 % 2 ^ 24 * 2 ^ 24)
            ∧ (s.servesNear 0 a g.1.length → Memory.readN t.mem a g.1.length = g.1 ∧ OtherBytes a g.1.length s t)))
      ∧ GoesTo (exec .cntClear s) (fun t => t.obs = { s.obs with counters := [], ccs := [] } ∧ OnlyIn [.obs] s t)
      ∧ GoesTo (exec (.cntSel v) s) (fun t => t.reg R.OBS_CNT_SEL = v &&& 0xFFF
          ∧ (∀ i < 30, t.reg (R.OBS_CNT i) = BitVec.ofNat 64 (s.counter (fld v 0 12) i))
          ∧ (∀ o, o ≠ R.OBS_CNT_SEL → (∀ i < 30, o ≠ R.OBS_CNT i) → t.reg o = s.reg o) ∧ OnlyIn [.rf] s t)
      ∧ GoesTo (exec (.bisectRelease v) s) (fun t => OnlyIn [.shelves] s t
          ∧ (∀ sh j e i cut, e < 3 → s.bisectOf sh j e = some (i, cut) → (s.streamOf sh j e).held = true → bitAt v i = true →
              (t.streamOf sh j e).held = false ∧ (t.streamOf sh j e).released = true)
          ∧ ∀ sh j e, e < 3 → (s.streamOf sh j e).held = false → t.streamOf sh j e = s.streamOf sh j e))
  ∧ (
    ∀ s : State, s.inService = true →
      (∀ (r : BitVec 6) (cmd : Instr) (full : Bool), (cmd, full) ∈ [(Instr.onlineSelftestFull r, true), (.onlineSelftestMemory r, false)] →
        (∀ k, s.selftestRefusal r.toNat = some k → GoesTo (exec cmd s) (fun t =>
          t.field R.OBS_SELFTEST_STATUS 1 2 = k ∧ OtherRegs R.OBS_SELFTEST_STATUS s t ∧ OnlyIn [.rf] s t))
        ∧ (s.selftestRefusal r.toNat = none → GoesTo (exec cmd s) (fun t =>
            t.reg R.OBS_SELFTEST_STATUS = BitVec.ofNat 64 (1 + r.toNat * 8) ∧ t.obs = { s.obs with selftest := some ⟨r.toNat, full⟩ }
            ∧ OtherRegs R.OBS_SELFTEST_STATUS s t ∧ OnlyIn [.rf, .obs] s t)))
      ∧ (s.obs.selftest = none → ∀ failed, exec (.selftestDone failed) s = .next s)
      ∧ (∀ x, s.obs.selftest = some x → GoesTo (exec (.selftestDone 0) s) (fun t =>
          t.obs.selftest = none ∧ t.reg R.OBS_SELFTEST_STATUS = BitVec.ofNat 64 (2 + x.range * 8) ∧ t.regBit R.OBS_EVENT 3 = true
          ∧ (∀ r < 64, ∀ i, t.regBit (R.CFG_SHELF_WITHDRAWN r) i = s.regBit (R.CFG_SHELF_WITHDRAWN r) i)
          ∧ (∀ a, Memory.read t.mem a =
              if (storeAddr (64 * x.range) 0 ≤ a ∧ a < storeAddr (64 * x.range) 0 + 64 * 0x80000)
                  ∨ (folioAddr (64 * x.range) 0 ≤ a ∧ a < folioAddr (64 * x.range) 0 + 64 * 0x40000) then 0 else Memory.read s.mem a)
          ∧ t.shelves = s.shelves)))

/-- DOMAIN_ON, DOMAIN_OFF, DOMAIN_RETAIN and DOMAIN_SWITCH_DONE (R41 to R43, R432, R433): a command that the order of R42 or the domain's
use forbids answers in PWR_DOMAIN_RESULT and changes nothing else; one taken switches the domain, which reaches its state later; a
stacked-SRAM domain that goes off loses its shelves' contents and nothing else; a shelf whose owner changed while it was off is cleared
(R322); a range that comes on hot or with the rail low is throttled at once (R439). THERMAL_SAMPLE (R438, R440): the readings stand in
PWR_TEMP and the range's level is the higher of its two dies', each of which falls 3 °C below a threshold; a die that newly reaches TRIP
asserts THERMTRIP_N, after a failed boot too, and in the boot life ends the boot. Rests on the model's readings notes/assumptions/66.md. -/
def Obligations.DomainsSwitchAndThermalLevels : Prop :=
  (
    ∀ s : State, s.alive = true →
      (∀ (d : BitVec 7) (cmd : Instr) (op : Nat), (cmd, op) ∈ [(Instr.domainOn d, 1), (.domainOff d, 2), (.domainRetain d, 3)] →
        (∀ r, s.domainRefusal d.toNat op = some r → GoesTo (exec cmd s) (fun t =>
          t.field R.PWR_DOMAIN_RESULT 1 2 = r ∧ OtherRegs R.PWR_DOMAIN_RESULT s t ∧ OnlyIn [.rf] s t))
        ∧ (s.domainRefusal d.toNat op = none → s.domainState d.toNat = domainTarget op → GoesTo (exec cmd s) (fun t =>
            t.field R.PWR_DOMAIN_RESULT 1 2 = 1 ∧ OtherRegs R.PWR_DOMAIN_RESULT s t ∧ OnlyIn [.rf] s t))
        ∧ (s.domainRefusal d.toNat op = none → s.domainState d.toNat ≠ domainTarget op → GoesTo (exec cmd s) (fun t =>
            t.domainState d.toNat = 3 ∧ t.regBit R.PWR_DOMAIN_RESULT 0 = true
            ∧ t.pwr = { s.pwr with switching := some (d.toNat, domainTarget op) }
            ∧ (∀ o, o ≠ R.PWR_DOMAIN_STATE d.toNat → o ≠ R.PWR_DOMAIN_RESULT → t.reg o = s.reg o) ∧ OnlyIn [.rf, .pwr] s t)))
      ∧ (s.pwr.switching = none → exec .domainSwitchDone s = .next s)
      ∧ (∀ d target, s.pwr.switching = some (d, target) → target < 4 → GoesTo (exec .domainSwitchDone s) (fun t =>
          t.domainState d = target ∧ t.reg R.PWR_DOMAIN_RESULT = 2 ∧ t.pwr.switching = none
          ∧ ((64 ≤ d ∨ target ≠ 1 ∨ (s.thermLevel d < 3 ∧ s.pins.vcoreLow = false)) → t.pwr = { s.pwr with switching := none })
          ∧ (d < 64 → target = 1 → (3 ≤ s.thermLevel d ∨ s.pins.vcoreLow = true) → t.throttled d = true)
          ∧ (∀ sh, 64 ≤ d → d < 80 → target = 1 → sh / 256 + 64 = d → (s.shelf sh).owner ≠ 0 →
              (t.shelf sh).owner = 0 ∧ (t.shelf sh).clearing = true)
          ∧ ((d < 64 ∨ 80 ≤ d ∨ target ≠ 1) → t.shelves = s.shelves)
          ∧ (∀ a, Memory.read t.mem a =
              if 64 ≤ d ∧ d < 80 ∧ target = 0 ∧ ((storeAddr (256 * (d - 64)) 0 ≤ a ∧ a < storeAddr (256 * (d - 64)) 0 + 256 * 0x80000)
                  ∨ (folioAddr (256 * (d - 64)) 0 ≤ a ∧ a < folioAddr (256 * (d - 64)) 0 + 256 * 0x40000)) then 0 else Memory.read s.mem a)
          ∧ OnlyIn [.rf, .mem, .shelves, .bel, .ldg, .pwr] s t)))
  ∧ (
    ∀ (s : State) (r : BitVec 6) (compute sram : BitVec 16), s.rangeEnabled r.toNat = true →
      let k := r.toNat
      let oc := Tab.getD s.pwr.lvlC k 0
      let os := Tab.getD s.pwr.lvlS k 0
      let nc := levelAfter oc compute.toInt (s.thresholds R.PWR_THERM_LIMIT)
      let ns := levelAfter os sram.toInt (s.thresholds R.PWR_SRAM_LIMIT)
      let trips := (oc < 4 ∧ nc = 4) ∨ (os < 4 ∧ ns = 4)
      ((s.alive = true ∨ (s.pins.life = .failed ∧ s.pins.resetN = true)) → GoesTo (exec (.thermalSample r compute sram) s) (fun t =>
        t.field (R.PWR_TEMP k) 0 16 = compute.toNat ∧ t.field (R.PWR_TEMP k) 16 16 = sram.toNat
        ∧ Tab.getD t.pwr.lvlC k 0 = nc ∧ Tab.getD t.pwr.lvlS k 0 = ns ∧ t.field (R.PWR_RANGE_STATE k) 6 3 = max nc ns
        ∧ (trips → t.pins.thermTrip = true ∧ t.pins.life = (if s.pins.life = .service then .service else .failed))
        ∧ (¬ trips → t.pins = s.pins) ∧ OnlyIn [.rf, .pins, .smb, .bel, .ldg, .pwr] s t))
      ∧ (s.pins.life = .reset → (s.threshold R.PWR_THERM_LIMIT 24 ≤ compute.toInt ∨ s.threshold R.PWR_SRAM_LIMIT 24 ≤ sram.toInt) →
          GoesTo (exec (.thermalSample r compute sram) s) (fun t => t.pins.thermTrip = true ∧ t.pins.life = .failed ∧ OnlyIn [.pins] s t)))

/-- REGISTER_WRITE by the manager (R11, R13, R14, R386, R461 to R464): a register's writable bits take the value and its others stay; an
event's bits are cleared by 1, but for those that hardware sets in the same cycle (`recur`), and never set; no other register changes.
What no table assigns takes nothing, and neither does the entry of a carrel that does not exist. REGISTER_WRITE that is not served (R11,
R80, R83, R398, R462): one of another size or alignment, a carrel's outside its mailbox and its doorbell page, and host traffic before
service write no register but the Ledger's. Accesses of another size, and offsets that no table assigns (R11, R461): the first write
nothing, read zero and are recorded as REG_ACCESS_SIZE; of the second the manager's write nothing, read zero and are not recorded, and a
carrel's are refused. Rests on the model's readings notes/assumptions/54.md, notes/assumptions/68.md. -/
def Obligations.RegisterWritesAndAccessesTurnedAway : Prop :=
  (
    ∀ (s : State) (who : Requester) (off : BitVec 25) (v recur : Word), s.manages who →
      (∀ m, (off.toNat, m) ∈ [(R.STP_CHANGE_AT, (0xFFFFFFFFFFFF : Word)), (R.STP_NEXT_PERIOD, 0x1FFF), (R.CAT_SNAP_SEL, 0x3FF),
          (R.SHV_CARREL 1, 0xFFFF0003), (R.KPR_POLICY, 0xFF), (R.HBM_TEMP_LIMIT, 0xFFFF), (R.LND_WINDOW 1, 0x3FFFFFFF),
          (R.ILN_EPOCH_AT, 0xFFFFFFFFFFFF), (R.CRL_IMAGE_ADDR, 0xFFFFFFFFFFC0), (R.BEL_CUR_PRIO 3, 0xF), (R.LDG_CTL, 3),
          (R.PWR_LEND, 0xFFFFFFFFFF), (R.OBS_JNL_FILTER, 0x7FFFFFFFFFF)] → (s.carrelExists 1 = true ∨ off.toNat ∉ [R.SHV_CARREL 1, R.LND_WINDOW 1]) →
          GoesTo (exec (.registerWrite who off 8 ⟨v, recur⟩) s) (fun t =>
        t.reg off.toNat = (s.reg off.toNat &&& ~~~ m) ||| (v &&& m) ∧ OtherRegs off.toNat s t ∧ OnlyIn [.rf] s t))
      ∧ (∀ m, (off.toNat, m) ∈ [(R.STP_EVENT, (0x7F : Word)), (R.SHV_EVENT, 0x1F), (R.KPR_EVENT, 0x3F), (R.LND_EVENT, 0xF), (R.ILN_EVENT, 0x1FF),
          (R.CRL_EVENT, 0x1F), (R.PWR_EVENT, 0xF), (R.OBS_EVENT, 0x3F), (R.LDG_FIRST 2, 0xFFFFFFFFFFFFFFFF)] →
          GoesTo (exec (.registerWrite who off 8 ⟨v, recur⟩) s) (fun t =>
            t.reg off.toNat = s.reg off.toNat &&& ~~~ (v &&& m &&& ~~~ recur) ∧ OtherRegs off.toNat s t ∧ OnlyIn [.rf] s t))
      ∧ (∀ cmd, (off.toNat, cmd) ∈ [(R.CFG_SS_UNLOCK, Instr.cfgSsUnlock v), (R.CFG_BOOT_GO, .cfgBootGo v), (R.KPR_QUERY, .kprQuery v),
          (R.BEL_COMPLETE, .belComplete (v.setWidth 11)), (R.BEL_Q_HEAD 2, .belQHeadWrite 2 v), (R.LDG_LOG_HEAD, .ldgLogHead v),
          (R.LDG_BLOCK_RESET, .ldgBlockReset v), (R.LDG_OOS_CLEAR, .ldgOosClear v), (R.LDG_HEARTBEAT, .ldgHeartbeat v)] →
          exec (.registerWrite who off 8 ⟨v, recur⟩) s = exec cmd s)
      ∧ (∀ c < 1024, s.carrelExists c = false → off.toNat ∈ [R.CAT_NOPROG c, R.SHV_CARREL c, R.LND_WINDOW c, R.LND_WINDOW_SRC c, R.ILN_REMOTE_MEM c,
          R.CRL_CARREL_CFG c, R.PWR_CARREL_CAP c] → exec (.registerWrite who off 8 ⟨v, recur⟩) s = .next s)
      ∧ (off.toNat % 8 = 0 → assigned off.toNat = false → exec (.registerWrite who off 8 ⟨v, recur⟩) s = .next s))
  ∧ (
    ∀ (s : State) (who : Requester) (off : BitVec 25) (size : Nat) (v recur : Word),
      (s.manages who → (size ≠ 8 ∨ off.toNat % 8 ≠ 0) → GoesTo (exec (.registerWrite who off size ⟨v, recur⟩) s) (fun t =>
        (∀ o, (o < 0xA00000 ∨ 0xB00000 ≤ o) → t.reg o = s.reg o) ∧ OnlyIn [.rf, .ldg] s t))
      ∧ (∀ f : Func, who = .host f → f ≠ 0 → s.inService = true → (off.toNat < 0x1000000 ∨ 0x1400000 ≤ off.toNat) →
          mboxOf off.toNat ≠ some f.toNat → GoesTo (exec (.registerWrite who off size ⟨v, recur⟩) s) (fun t =>
            (∀ o, (o < 0xA00000 ∨ 0xB00000 ≤ o) → t.reg o = s.reg o) ∧ OnlyIn [.rf, .ldg] s t))
      ∧ (∀ f : Func, who = .host f → s.inService = false → 0x100000 ≤ off.toNat → (off.toNat < 0xE00000 ∨ 0xF00000 ≤ off.toNat) →
          exec (.registerWrite who off size ⟨v, recur⟩) s = .next s)
      ∧ (s.alive = false → exec (.registerWrite who off size ⟨v, recur⟩) s = .next s))
  ∧ (
    ∀ (s : State) (off : BitVec 25) (d : List Byte) (q : BitVec 16) (size : Nat) (v recur : Word),
      let o := off.toNat
      let target := BitVec.ofNat 64 (windowBase + o)
      (∀ who, s.manages who → (size ≠ 8 ∨ o % 8 ≠ 0) → exec (.registerWrite who off size ⟨v, recur⟩) s = .next (s.log 13 K.regSize 0 o))
      ∧ (∀ f : Func, s.inService = true → f ≠ 0 → s.carrelExists f.toNat = true → (size ≠ 8 ∨ o % 8 ≠ 0) →
          exec (.registerWrite (.host f) off size ⟨v, recur⟩) s = .next (s.log 13 K.regSize f.toNat o))
      ∧ (s.inService = true → s.portUp 0 = true → (d.length ≠ 8 ∨ o % 8 ≠ 0) →
          exec (.hostReq 0 false 0 target ⟨d, recur⟩ q) s = .next ((s.log 13 K.regSize 0 o).hostAnswer 0 q (leBytes d.length 0)))
      ∧ (assigned o = false → o % 8 = 0 →
          (∀ who, s.manages who → exec (.registerWrite who off 8 ⟨v, recur⟩) s = .next s)
          ∧ (s.inService = true → s.portUp 0 = true → d.length = 8 →
              exec (.hostReq 0 false 0 target ⟨d, recur⟩ q) s = .next (s.hostAnswer 0 q (leBytes 8 0)))
          ∧ (∀ f : Func, s.inService = true → f ≠ 0 → s.carrelExists f.toNat = true →
              exec (.registerWrite (.host f) off 8 ⟨v, recur⟩) s = .next (s.notPermitted o f.toNat 4)
              ∧ (s.portUp 0 = true → d.length = 8 →
                  exec (.hostReq 0 false f target ⟨d, recur⟩ q) s = .next ((s.notPermitted o f.toNat 4).hostAnswer f q (leBytes 8 0))))))
end

