-- ==== Sys2Proof/Laws/Tab.lean ====
section
/-! SUPPORT. Laws of sparse arrays: what a key reads after an update, and that every update keeps the canonical form. -/

namespace Sys2Proof.Machine

variable {α : Type}

@[simp] theorem Tab.find?_nil (n : Nat) : Tab.find? ([] : Tab α) n = none := rfl

@[simp] theorem Tab.getD_nil (n : Nat) (d : α) : Tab.getD ([] : Tab α) n d = d := rfl

/-- A key reads the value inserted under it. -/
@[simp] theorem Tab.find?_insert_self (t : Tab α) (n : Nat) (v : α) : Tab.find? (Tab.insert t n v) n = some v := by
  induction t with
  | nil => simp [Tab.insert, Tab.find?]
  | cons p t ih =>
    obtain ⟨k, w⟩ := p
    simp only [Tab.insert]
    split
    · simp [Tab.find?]
    · split
      · simp [Tab.find?]
      · next h => simp [Tab.find?, h, ih]

/-- Another key reads as before an insertion. -/
theorem Tab.find?_insert_of_ne (t : Tab α) {n m : Nat} (v : α) (h : m ≠ n) :
    Tab.find? (Tab.insert t n v) m = Tab.find? t m := by
  induction t with
  | nil => simp [Tab.insert, Tab.find?, h]
  | cons p t ih =>
    obtain ⟨k, w⟩ := p
    simp only [Tab.insert]
    split
    · simp [Tab.find?, h]
    · split
      · next hk => subst hk; simp [Tab.find?, h]
      · simp only [Tab.find?, ih]

/-- An erased key reads as not listed. -/
@[simp] theorem Tab.find?_erase_self (t : Tab α) (n : Nat) : Tab.find? (Tab.erase t n) n = none := by
  induction t with
  | nil => rfl
  | cons p t ih =>
    obtain ⟨k, w⟩ := p
    by_cases hk : k = n
    · subst hk; simpa [Tab.erase] using ih
    · have : Tab.erase ((k, w) :: t) n = (k, w) :: Tab.erase t n := by simp [Tab.erase, hk]
      rw [this, Tab.find?, if_neg (fun h => hk h.symm), ih]

/-- Another key reads as before an erasure. -/
theorem Tab.find?_erase_of_ne (t : Tab α) {n m : Nat} (h : m ≠ n) : Tab.find? (Tab.erase t n) m = Tab.find? t m := by
  induction t with
  | nil => rfl
  | cons p t ih =>
    obtain ⟨k, w⟩ := p
    by_cases hk : k = n
    · subst hk
      have : Tab.erase ((k, w) :: t) k = Tab.erase t k := by simp [Tab.erase]
      rw [this, ih, Tab.find?, if_neg h]
    · have : Tab.erase ((k, w) :: t) n = (k, w) :: Tab.erase t n := by simp [Tab.erase, hk]
      rw [this, Tab.find?, Tab.find?, ih]

/-- A key outside a range reads as before the range is erased, a key inside as not listed. -/
theorem Tab.find?_eraseRange (t : Tab α) (lo n m : Nat) :
    Tab.find? (Tab.eraseRange t lo n) m = if lo ≤ m ∧ m < lo + n then none else Tab.find? t m := by
  induction t with
  | nil => simp [Tab.eraseRange]
  | cons p t ih =>
    obtain ⟨k, w⟩ := p
    by_cases hk : k < lo ∨ lo + n ≤ k
    · have : Tab.eraseRange ((k, w) :: t) lo n = (k, w) :: Tab.eraseRange t lo n := by simp [Tab.eraseRange, hk]
      rw [this, Tab.find?, Tab.find?, ih]
      by_cases hm : m = k
      · subst hm; simp only [if_pos]; rw [if_neg]; omega
      · simp only [if_neg hm]
    · have : Tab.eraseRange ((k, w) :: t) lo n = Tab.eraseRange t lo n := by simp [Tab.eraseRange, hk]
      rw [this, ih, Tab.find?]
      by_cases hm : m = k
      · subst hm; rw [if_pos (by omega), if_pos (by omega)]
      · simp only [if_neg hm]

section Put
variable [DecidableEq α]

/-- A key reads the value put under it. -/
@[simp] theorem Tab.getD_put_self (t : Tab α) (n : Nat) (v d : α) : Tab.getD (Tab.put t n v d) n d = v := by
  unfold Tab.getD Tab.put
  split
  · next h => simp [h]
  · simp

/-- Another key reads as before. -/
theorem Tab.getD_put_of_ne (t : Tab α) {n m : Nat} (v d e : α) (h : m ≠ n) : Tab.getD (Tab.put t n v d) m e = Tab.getD t m e := by
  unfold Tab.getD Tab.put
  split
  · rw [Tab.find?_erase_of_ne t h]
  · rw [Tab.find?_insert_of_ne t v h]

end Put

/-! ## Keys strictly rising -/

/-- A weaker bound. -/
theorem Tab.sortedFrom_mono {t : Tab α} {lo lo' : Nat} (h : Tab.sortedFrom lo t = true) (hl : lo' ≤ lo) : Tab.sortedFrom lo' t = true := by
  cases t with
  | nil => rfl
  | cons p t =>
    simp only [Tab.sortedFrom, Bool.and_eq_true, decide_eq_true_eq] at h ⊢
    exact ⟨by omega, h.2⟩

/-- Removing entries keeps the order. -/
theorem Tab.sortedFrom_filter (f : Nat × α → Bool) : ∀ {t : Tab α} {lo : Nat}, Tab.sortedFrom lo t = true → Tab.sortedFrom lo (t.filter f) = true
  | [], _, _ => rfl
  | (k, w) :: t, lo, h => by
    simp only [Tab.sortedFrom, Bool.and_eq_true, decide_eq_true_eq] at h
    rw [List.filter_cons]
    split
    · simp only [Tab.sortedFrom, Bool.and_eq_true, decide_eq_true_eq]
      exact ⟨h.1, Tab.sortedFrom_filter f h.2⟩
    · exact Tab.sortedFrom_mono (Tab.sortedFrom_filter f h.2) (by omega)

/-- An insertion keeps the order. -/
theorem Tab.sortedFrom_insert (n : Nat) (v : α) : ∀ {t : Tab α} {lo : Nat}, Tab.sortedFrom lo t = true → lo ≤ n →
    Tab.sortedFrom lo (Tab.insert t n v) = true
  | [], lo, _, hl => by simp [Tab.insert, Tab.sortedFrom, hl]
  | (k, w) :: t, lo, h, hl => by
    simp only [Tab.sortedFrom, Bool.and_eq_true, decide_eq_true_eq] at h
    simp only [Tab.insert]
    split
    · next hn => simp only [Tab.sortedFrom, Bool.and_eq_true, decide_eq_true_eq]; exact ⟨hl, by omega, h.2⟩
    · split
      · next hk => subst hk; simp only [Tab.sortedFrom, Bool.and_eq_true, decide_eq_true_eq]; exact ⟨hl, h.2⟩
      · next h1 h2 =>
        simp only [Tab.sortedFrom, Bool.and_eq_true, decide_eq_true_eq]
        exact ⟨h.1, Tab.sortedFrom_insert n v h.2 (by omega)⟩

/-- Every entry of an insertion is the new one or an old one. -/
theorem Tab.mem_insert {t : Tab α} {n : Nat} {v : α} {p : Nat × α} (h : p ∈ Tab.insert t n v) : p = (n, v) ∨ p ∈ t := by
  induction t with
  | nil => simpa [Tab.insert] using h
  | cons q t ih =>
    obtain ⟨k, w⟩ := q
    simp only [Tab.insert] at h
    split at h
    · simpa using h
    · split at h
      · rcases List.mem_cons.1 h with h | h
        · exact .inl h
        · exact .inr (List.mem_cons_of_mem _ h)
      · rcases List.mem_cons.1 h with h | h
        · exact .inr (h ▸ List.mem_cons_self ..)
        · exact (ih h).imp id (List.mem_cons_of_mem _)

section Wf
variable [DecidableEq α] {d : Nat → α}

/-- The canonical form, in words. -/
theorem Tab.wf_iff {t : Tab α} : Tab.wf t d = true ↔ Tab.sortedFrom 0 t = true ∧ ∀ p ∈ t, p.2 ≠ d p.1 := by
  simp [Tab.wf]

/-- Nothing listed. -/
@[simp] theorem Tab.wf_nil : Tab.wf ([] : Tab α) d = true := rfl

/-- Removing entries keeps the form. -/
theorem Tab.wf_filter {t : Tab α} (f : Nat × α → Bool) (h : Tab.wf t d = true) : Tab.wf (t.filter f) d = true := by
  rw [Tab.wf_iff] at h ⊢
  exact ⟨Tab.sortedFrom_filter f h.1, fun p hp => h.2 p (List.mem_filter.1 hp).1⟩

/-- Erasing a key keeps the form. -/
theorem Tab.wf_erase {t : Tab α} (n : Nat) (h : Tab.wf t d = true) : Tab.wf (Tab.erase t n) d = true := Tab.wf_filter _ h

/-- Erasing a range keeps the form. -/
theorem Tab.wf_eraseRange {t : Tab α} (lo n : Nat) (h : Tab.wf t d = true) : Tab.wf (Tab.eraseRange t lo n) d = true := Tab.wf_filter _ h

/-- Putting a value under a key, its default being the key's, keeps the form. -/
theorem Tab.wf_put {t : Tab α} (n : Nat) (v : α) (h : Tab.wf t d = true) : Tab.wf (Tab.put t n v (d n)) d = true := by
  unfold Tab.put
  split
  · exact Tab.wf_erase n h
  · next hv =>
    rw [Tab.wf_iff] at h ⊢
    refine ⟨Tab.sortedFrom_insert n v h.1 (Nat.zero_le _), fun p hp => ?_⟩
    rcases Tab.mem_insert hp with rfl | hp
    · exact hv
    · exact h.2 p hp

end Wf

end Sys2Proof.Machine
end

