-- ==== Sys2Proof/Laws/Mem.lean ====
section
/-! SUPPORT. Laws of memory: what a byte reads after a write, and that every operation keeps the canonical form. -/

namespace Sys2Proof.Machine

/-- A byte reads what was written to it. -/
@[simp] theorem Memory.read_write_self (m : Memory) (a : Nat) (b : Byte) : Memory.read (Memory.write m a b) a = b :=
  Tab.getD_put_self ..

/-- Every other byte reads as before. -/
theorem Memory.read_write_of_ne (m : Memory) {a x : Nat} (b : Byte) (h : x ≠ a) :
    Memory.read (Memory.write m a b) x = Memory.read m x :=
  Tab.getD_put_of_ne m b Memory.fill Memory.fill h

/-- A byte outside a write of a list reads as before. -/
theorem Memory.read_writeN_of_out (bs : List Byte) : ∀ (m : Memory) {a x : Nat}, (x < a ∨ a + bs.length ≤ x) →
    Memory.read (Memory.writeN m a bs) x = Memory.read m x := by
  induction bs with
  | nil => intro m a x _; rfl
  | cons b bs ih =>
    intro m a x h
    simp only [List.length_cons] at h
    rw [Memory.writeN, ih _ (by omega), Memory.read_write_of_ne _ _ (by omega)]

/-- Byte i of a written list reads back. -/
theorem Memory.read_writeN_at (bs : List Byte) : ∀ (m : Memory) (a i : Nat) (h : i < bs.length),
    Memory.read (Memory.writeN m a bs) (a + i) = bs[i] := by
  induction bs with
  | nil => intro m a i h; exact absurd h (Nat.not_lt_zero _)
  | cons b bs ih =>
    intro m a i h
    cases i with
    | zero => rw [Memory.writeN, Memory.read_writeN_of_out _ _ (by omega)]; simp
    | succ i =>
      have := ih (Memory.write m a b) (a + 1) i (by simpa using h)
      rw [Memory.writeN, show a + (i + 1) = a + 1 + i by omega, this]
      simp

/-- The bytes written read back as a list. -/
theorem Memory.readN_writeN (m : Memory) (a : Nat) (bs : List Byte) : Memory.readN (Memory.writeN m a bs) a bs.length = bs := by
  induction bs generalizing m a with
  | nil => rfl
  | cons b bs ih =>
    simp only [Memory.writeN, List.length_cons, Memory.readN, ih]
    rw [Memory.read_writeN_of_out _ _ (by omega)]
    simp

/-- n bytes cleared read zero, the others as before. -/
theorem Memory.read_clear (m : Memory) (a n x : Nat) :
    Memory.read (Memory.clear m a n) x = if a ≤ x ∧ x < a + n then 0 else Memory.read m x := by
  unfold Memory.read Memory.clear Tab.getD
  rw [Tab.find?_eraseRange]
  split <;> rfl

/-! ## The canonical form -/

theorem Memory.wf_write {m : Memory} (a : Nat) (b : Byte) (h : Memory.wf m = true) : Memory.wf (Memory.write m a b) = true :=
  Tab.wf_put a b h

theorem Memory.wf_writeN {m : Memory} (a : Nat) (bs : List Byte) (h : Memory.wf m = true) : Memory.wf (Memory.writeN m a bs) = true := by
  induction bs generalizing m a with
  | nil => exact h
  | cons b bs ih => exact ih (a + 1) (Memory.wf_write a b h)

theorem Memory.wf_writeLe {m : Memory} (a n v : Nat) (h : Memory.wf m = true) : Memory.wf (Memory.writeLe m a n v) = true :=
  Memory.wf_writeN a _ h

theorem Memory.wf_clear {m : Memory} (a n : Nat) (h : Memory.wf m = true) : Memory.wf (Memory.clear m a n) = true :=
  Tab.wf_eraseRange a n h

theorem Memory.wf_dropOnDie {m : Memory} (h : Memory.wf m = true) : Memory.wf (Memory.dropOnDie m) = true :=
  Memory.wf_clear _ _ (Memory.wf_clear _ _ h)

theorem Memory.wf_copy {m : Memory} (src dst n : Nat) (h : Memory.wf m = true) : Memory.wf (Memory.copy m src dst n) = true := by
  unfold Memory.copy
  generalize List.map _ _ = l
  have : ∀ {m : Memory}, Memory.wf m = true → Memory.wf (l.foldl (fun m p => Memory.write m p.1 p.2) m) = true := by
    induction l with
    | nil => exact fun h => h
    | cons p l ih => exact fun h => ih (Memory.wf_write _ _ h)
  exact this (Memory.wf_clear _ _ h)

/-! ## The register file -/

theorem RegFile.wf_set {f : RegFile} (off : Nat) (v : Word) (h : RegFile.wf f = true) : RegFile.wf (RegFile.set f off v) = true :=
  Tab.wf_put off v h

theorem RegFile.wf_filter {f : RegFile} (g : Nat × Word → Bool) (h : RegFile.wf f = true) : RegFile.wf (f.filter g) = true :=
  Tab.wf_filter g h

end Sys2Proof.Machine
end

