-- ==== Sys2Proof/Laws/Effect.lean ====
section
/-! SUPPORT. What an operation may change, as one relation: Eff F s t says that from s to t the queue is the same, the canonical forms are
kept, and every component but those that F allows is the same. Each lemma of the Frame files is one operation's line. -/

namespace Sys2Proof.Machine

/-- From s to t only the components that F allows have changed; the queue has not, and canonical forms are kept. -/
structure Eff (F : Comp → Bool) (s t : State) : Prop where
  queue : t.pending = s.pending
  canon : s.canon = true → t.canon = true
  same : ∀ c, F c = false → c.same s t

/-- The same of an operation that answers a pair. -/
def EffP {α : Type} (F : Comp → Bool) (s : State) (p : State × α) : Prop := Eff F s p.1

/-- The same of an operation that may answer none. -/
def EffO (F : Comp → Bool) (s : State) (o : Option State) : Prop := ∀ t, o = some t → Eff F s t

/-- A command answers a next state, and the relation holds to it. -/
def EffX (F : Comp → Bool) (s : State) (o : Out) : Prop := ∃ t, o = .next t ∧ Eff F s t

variable {F : Comp → Bool} {s0 s t : State} {α β : Type}

theorem Eff.refl (F : Comp → Bool) (s : State) : Eff F s s := ⟨rfl, id, fun c _ => by cases c <;> rfl⟩

/-- A change of listed components after s. -/
theorem Eff.upd (h : Eff F s0 s) (hq : t.pending = s.pending) (hc : s.canon = true → t.canon = true)
    (hs : ∀ c, F c = false → c.same s t) : Eff F s0 t :=
  ⟨hq.trans h.queue, fun w => hc (h.canon w), fun c hF => by
    have h1 := h.same c hF
    have h2 := hs c hF
    cases c <;> exact Eq.trans h2 h1⟩

theorem Eff.trans (h : Eff F s0 s) (h' : Eff F s t) : Eff F s0 t := h.upd h'.queue h'.canon h'.same

/-- Fewer components allowed. -/
theorem Eff.mono {G : Comp → Bool} (h : Eff F s t) (hFG : ∀ c, F c = true → G c = true) : Eff G s t :=
  ⟨h.queue, h.canon, fun c hc => h.same c (by
    cases hF : F c with
    | false => rfl
    | true => rw [hFG c hF] at hc; cases hc)⟩

/-- The frame in the terms of the statements. -/
theorem Eff.onlyIn {l : List Comp} (h : Eff (fun c => decide (c ∈ l)) s t) : OnlyIn l s t :=
  ⟨h.queue, fun c hc => h.same c (by simpa using hc)⟩

theorem Eff.cut {P : Prop} (F : Comp → Bool) (s0 x : State) (h : Eff F s0 x) (k : Eff F s0 x → P) : P := k h
theorem EffP.cut {P : Prop} (F : Comp → Bool) (s0 : State) (x : State × α) (h : EffP F s0 x) (k : EffP F s0 x → P) : P := k h

theorem EffP.mk (h : Eff F s0 s) (a : α) : EffP F s0 (s, a) := h
theorem EffP.fst {p : State × α} (h : EffP F s0 p) : Eff F s0 p.1 := h
theorem EffP.of_eq {p : State × α} {a : α} (e : p = (t, a)) (h : EffP F s0 p) : Eff F s0 t := by subst e; exact h

theorem EffX.next (h : Eff F s0 s) : EffX F s0 (.next s) := ⟨s, rfl, h⟩
theorem EffX.goes {o : Out} (h : EffX F s0 o) : Goes o := ⟨h.choose, h.choose_spec.1⟩

theorem EffO.none : EffO F s0 none := fun _ h => nomatch h
theorem EffO.some (h : Eff F s0 s) : EffO F s0 (some s) := fun _ e => by cases e; exact h
theorem EffO.of_eq {o : Option State} (e : o = Option.some t) (h : EffO F s0 o) : Eff F s0 t := h _ e
theorem EffO.map {x : Option α} {f : α → State} (h : ∀ a, Eff F s0 (f a)) : EffO F s0 (x.map f) := by
  cases x with
  | none => exact EffO.none
  | some a => exact EffO.some (h a)

theorem Eff.ite {c : Prop} [Decidable c] {a b : State} (ha : Eff F s0 a) (hb : Eff F s0 b) : Eff F s0 (if c then a else b) := by
  split <;> assumption

theorem EffP.ite {c : Prop} [Decidable c] {a b : State × α} (ha : EffP F s0 a) (hb : EffP F s0 b) :
    EffP F s0 (if c then a else b) := by
  split <;> assumption

theorem EffO.ite {c : Prop} [Decidable c] {a b : Option State} (ha : EffO F s0 a) (hb : EffO F s0 b) :
    EffO F s0 (if c then a else b) := by
  split <;> assumption

theorem EffX.ite {c : Prop} [Decidable c] {a b : Out} (ha : EffX F s0 a) (hb : EffX F s0 b) : EffX F s0 (if c then a else b) := by
  split <;> assumption

theorem Eff.foldl {l : List α} {f : State → α → State} (h : Eff F s0 s) (hf : ∀ s x, Eff F s0 s → Eff F s0 (f s x)) :
    Eff F s0 (l.foldl f s) := by
  induction l generalizing s with
  | nil => exact h
  | cons a l ih => exact ih (hf _ _ h)

theorem EffP.foldl {l : List β} {p : State × α} {f : State × α → β → State × α} (h : EffP F s0 p)
    (hf : ∀ p x, EffP F s0 p → EffP F s0 (f p x)) : EffP F s0 (l.foldl f p) := by
  induction l generalizing p with
  | nil => exact h
  | cons a l ih => exact ih (hf _ _ h)

end Sys2Proof.Machine
end

