-- ==== Sys2Proof/Laws/FrameSet.lean ====
section
/-! SUPPORT. Record updates as effects: each changes the components it names (generated once, then kept by hand). -/

namespace Sys2Proof.Machine

variable {F : Comp → Bool} {s0 s : State}

theorem Eff.set_freeCtr {x_freeCtr : Nat} (h : Eff F s0 s) (h_freeCtr : F .freeCtr = true)  :
    Eff F s0 { s with freeCtr := x_freeCtr } := by
  refine h.upd rfl id (fun c hc => ?_)
  cases c <;> first | rfl | simp_all

theorem Eff.set_rf {x_rf : RegFile} (h : Eff F s0 s) (h_rf : F .rf = true) (w_rf : RegFile.wf s.rf = true → RegFile.wf x_rf = true) :
    Eff F s0 { s with rf := x_rf } := by
  refine h.upd rfl (fun w => ?_) (fun c hc => ?_)
  · simp only [State.canon, State.memWf, Bool.and_eq_true] at w ⊢
    exact ⟨⟨w.1.1, w.1.2⟩, (w_rf w.2)⟩
  · cases c <;> first | rfl | simp_all

theorem Eff.set_mem {x_mem : Memory} (h : Eff F s0 s) (h_mem : F .mem = true) (w_mem : Memory.wf s.mem = true → Memory.wf x_mem = true) :
    Eff F s0 { s with mem := x_mem } := by
  refine h.upd rfl (fun w => ?_) (fun c hc => ?_)
  · simp only [State.canon, State.memWf, Bool.and_eq_true] at w ⊢
    exact ⟨⟨(w_mem w.1.1), w.1.2⟩, w.2⟩
  · cases c <;> first | rfl | simp_all

theorem Eff.set_ecc {x_ecc : Tab Nat} (h : Eff F s0 s) (h_ecc : F .ecc = true)  :
    Eff F s0 { s with ecc := x_ecc } := by
  refine h.upd rfl id (fun c hc => ?_)
  cases c <;> first | rfl | simp_all

theorem Eff.set_pins {x_pins : Pins} (h : Eff F s0 s) (h_pins : F .pins = true)  :
    Eff F s0 { s with pins := x_pins } := by
  refine h.upd rfl id (fun c hc => ?_)
  cases c <;> first | rfl | simp_all

theorem Eff.set_tap {x_tap : Tap} (h : Eff F s0 s) (h_tap : F .tap = true)  :
    Eff F s0 { s with tap := x_tap } := by
  refine h.upd rfl id (fun c hc => ?_)
  cases c <;> first | rfl | simp_all

theorem Eff.set_smb {x_smb : Smb} (h : Eff F s0 s) (h_smb : F .smb = true)  :
    Eff F s0 { s with smb := x_smb } := by
  refine h.upd rfl id (fun c hc => ?_)
  cases c <;> first | rfl | simp_all

theorem Eff.set_ss {x_ss : Settings} (h : Eff F s0 s) (h_ss : F .ss = true)  :
    Eff F s0 { s with ss := x_ss } := by
  refine h.upd rfl id (fun c hc => ?_)
  cases c <;> first | rfl | simp_all

theorem Eff.set_boot {x_boot : Boot} (h : Eff F s0 s) (h_boot : F .boot = true)  :
    Eff F s0 { s with boot := x_boot } := by
  refine h.upd rfl id (fun c hc => ?_)
  cases c <;> first | rfl | simp_all

theorem Eff.set_stp {x_stp : Stp} (h : Eff F s0 s) (h_stp : F .stp = true)  :
    Eff F s0 { s with stp := x_stp } := by
  refine h.upd rfl id (fun c hc => ?_)
  cases c <;> first | rfl | simp_all

theorem Eff.set_cir {x_cir : Cir} (h : Eff F s0 s) (h_cir : F .cir = true)  :
    Eff F s0 { s with cir := x_cir } := by
  refine h.upd rfl id (fun c hc => ?_)
  cases c <;> first | rfl | simp_all

theorem Eff.set_cat {x_cat : Cat} (h : Eff F s0 s) (h_cat : F .cat = true)  :
    Eff F s0 { s with cat := x_cat } := by
  refine h.upd rfl id (fun c hc => ?_)
  cases c <;> first | rfl | simp_all

theorem Eff.set_bind {x_bind : Bindery} (h : Eff F s0 s) (h_bind : F .bind = true)  :
    Eff F s0 { s with bind := x_bind } := by
  refine h.upd rfl id (fun c hc => ?_)
  cases c <;> first | rfl | simp_all

theorem Eff.set_shelves {x_shelves : Tab Shelf} (h : Eff F s0 s) (h_shelves : F .shelves = true)  :
    Eff F s0 { s with shelves := x_shelves } := by
  refine h.upd rfl id (fun c hc => ?_)
  cases c <;> first | rfl | simp_all

theorem Eff.set_kpr {x_kpr : Kpr} (h : Eff F s0 s) (h_kpr : F .kpr = true)  :
    Eff F s0 { s with kpr := x_kpr } := by
  refine h.upd rfl id (fun c hc => ?_)
  cases c <;> first | rfl | simp_all

theorem Eff.set_iln {x_iln : Iln} (h : Eff F s0 s) (h_iln : F .iln = true)  :
    Eff F s0 { s with iln := x_iln } := by
  refine h.upd rfl id (fun c hc => ?_)
  cases c <;> first | rfl | simp_all

theorem Eff.set_crl {x_crl : Crl} (h : Eff F s0 s) (h_crl : F .crl = true)  :
    Eff F s0 { s with crl := x_crl } := by
  refine h.upd rfl id (fun c hc => ?_)
  cases c <;> first | rfl | simp_all

theorem Eff.set_bel {x_bel : Bel} (h : Eff F s0 s) (h_bel : F .bel = true)  :
    Eff F s0 { s with bel := x_bel } := by
  refine h.upd rfl id (fun c hc => ?_)
  cases c <;> first | rfl | simp_all

theorem Eff.set_ldg {x_ldg : Ldg} (h : Eff F s0 s) (h_ldg : F .ldg = true)  :
    Eff F s0 { s with ldg := x_ldg } := by
  refine h.upd rfl id (fun c hc => ?_)
  cases c <;> first | rfl | simp_all

theorem Eff.set_pwr {x_pwr : Pwr} (h : Eff F s0 s) (h_pwr : F .pwr = true)  :
    Eff F s0 { s with pwr := x_pwr } := by
  refine h.upd rfl id (fun c hc => ?_)
  cases c <;> first | rfl | simp_all

theorem Eff.set_obs {x_obs : Obs} (h : Eff F s0 s) (h_obs : F .obs = true)  :
    Eff F s0 { s with obs := x_obs } := by
  refine h.upd rfl id (fun c hc => ?_)
  cases c <;> first | rfl | simp_all

theorem Eff.set_freeCtr_ss {x_freeCtr : Nat} {x_ss : Settings} (h : Eff F s0 s) (h_freeCtr : F .freeCtr = true) (h_ss : F .ss = true)  :
    Eff F s0 { s with freeCtr := x_freeCtr, ss := x_ss } := by
  refine h.upd rfl id (fun c hc => ?_)
  cases c <;> first | rfl | simp_all

theorem Eff.set_freeCtr_kpr {x_freeCtr : Nat} {x_kpr : Kpr} (h : Eff F s0 s) (h_freeCtr : F .freeCtr = true) (h_kpr : F .kpr = true)  :
    Eff F s0 { s with freeCtr := x_freeCtr, kpr := x_kpr } := by
  refine h.upd rfl id (fun c hc => ?_)
  cases c <;> first | rfl | simp_all

theorem Eff.set_rf_obs {x_rf : RegFile} {x_obs : Obs} (h : Eff F s0 s) (h_rf : F .rf = true) (h_obs : F .obs = true) (w_rf : RegFile.wf s.rf = true → RegFile.wf x_rf = true) :
    Eff F s0 { s with rf := x_rf, obs := x_obs } := by
  refine h.upd rfl (fun w => ?_) (fun c hc => ?_)
  · simp only [State.canon, State.memWf, Bool.and_eq_true] at w ⊢
    exact ⟨⟨w.1.1, w.1.2⟩, (w_rf w.2)⟩
  · cases c <;> first | rfl | simp_all

theorem Eff.set_mem_ecc {x_mem : Memory} {x_ecc : Tab Nat} (h : Eff F s0 s) (h_mem : F .mem = true) (h_ecc : F .ecc = true) (w_mem : Memory.wf s.mem = true → Memory.wf x_mem = true) :
    Eff F s0 { s with mem := x_mem, ecc := x_ecc } := by
  refine h.upd rfl (fun w => ?_) (fun c hc => ?_)
  · simp only [State.canon, State.memWf, Bool.and_eq_true] at w ⊢
    exact ⟨⟨(w_mem w.1.1), w.1.2⟩, w.2⟩
  · cases c <;> first | rfl | simp_all

theorem Eff.set_mem_boot {x_mem : Memory} {x_boot : Boot} (h : Eff F s0 s) (h_mem : F .mem = true) (h_boot : F .boot = true) (w_mem : Memory.wf s.mem = true → Memory.wf x_mem = true) :
    Eff F s0 { s with mem := x_mem, boot := x_boot } := by
  refine h.upd rfl (fun w => ?_) (fun c hc => ?_)
  · simp only [State.canon, State.memWf, Bool.and_eq_true] at w ⊢
    exact ⟨⟨(w_mem w.1.1), w.1.2⟩, w.2⟩
  · cases c <;> first | rfl | simp_all

theorem Eff.set_ecc_curMem {x_ecc : Tab Nat} {x_curMem : Memory} (h : Eff F s0 s) (h_ecc : F .ecc = true) (h_curMem : F .curMem = true) (w_curMem : Memory.wf s.curMem = true → Memory.wf x_curMem = true) :
    Eff F s0 { s with ecc := x_ecc, curMem := x_curMem } := by
  refine h.upd rfl (fun w => ?_) (fun c hc => ?_)
  · simp only [State.canon, State.memWf, Bool.and_eq_true] at w ⊢
    exact ⟨⟨w.1.1, (w_curMem w.1.2)⟩, w.2⟩
  · cases c <;> first | rfl | simp_all

theorem Eff.set_pins_tap {x_pins : Pins} {x_tap : Tap} (h : Eff F s0 s) (h_pins : F .pins = true) (h_tap : F .tap = true)  :
    Eff F s0 { s with pins := x_pins, tap := x_tap } := by
  refine h.upd rfl id (fun c hc => ?_)
  cases c <;> first | rfl | simp_all

theorem Eff.set_pins_ldg {x_pins : Pins} {x_ldg : Ldg} (h : Eff F s0 s) (h_pins : F .pins = true) (h_ldg : F .ldg = true)  :
    Eff F s0 { s with pins := x_pins, ldg := x_ldg } := by
  refine h.upd rfl id (fun c hc => ?_)
  cases c <;> first | rfl | simp_all

theorem Eff.set_pins_pwr {x_pins : Pins} {x_pwr : Pwr} (h : Eff F s0 s) (h_pins : F .pins = true) (h_pwr : F .pwr = true)  :
    Eff F s0 { s with pins := x_pins, pwr := x_pwr } := by
  refine h.upd rfl id (fun c hc => ?_)
  cases c <;> first | rfl | simp_all

theorem Eff.set_ss_boot {x_ss : Settings} {x_boot : Boot} (h : Eff F s0 s) (h_ss : F .ss = true) (h_boot : F .boot = true)  :
    Eff F s0 { s with ss := x_ss, boot := x_boot } := by
  refine h.upd rfl id (fun c hc => ?_)
  cases c <;> first | rfl | simp_all

theorem Eff.set_boot_ldg {x_boot : Boot} {x_ldg : Ldg} (h : Eff F s0 s) (h_boot : F .boot = true) (h_ldg : F .ldg = true)  :
    Eff F s0 { s with boot := x_boot, ldg := x_ldg } := by
  refine h.upd rfl id (fun c hc => ?_)
  cases c <;> first | rfl | simp_all

theorem Eff.set_cir_cat {x_cir : Cir} {x_cat : Cat} (h : Eff F s0 s) (h_cir : F .cir = true) (h_cat : F .cat = true)  :
    Eff F s0 { s with cir := x_cir, cat := x_cat } := by
  refine h.upd rfl id (fun c hc => ?_)
  cases c <;> first | rfl | simp_all

theorem Eff.set_cat_shelves {x_cat : Cat} {x_shelves : Tab Shelf} (h : Eff F s0 s) (h_cat : F .cat = true) (h_shelves : F .shelves = true)  :
    Eff F s0 { s with cat := x_cat, shelves := x_shelves } := by
  refine h.upd rfl id (fun c hc => ?_)
  cases c <;> first | rfl | simp_all

theorem Eff.set_bind_crl {x_bind : Bindery} {x_crl : Crl} (h : Eff F s0 s) (h_bind : F .bind = true) (h_crl : F .crl = true)  :
    Eff F s0 { s with bind := x_bind, crl := x_crl } := by
  refine h.upd rfl id (fun c hc => ?_)
  cases c <;> first | rfl | simp_all

theorem Eff.set_shelves_iln {x_shelves : Tab Shelf} {x_iln : Iln} (h : Eff F s0 s) (h_shelves : F .shelves = true) (h_iln : F .iln = true)  :
    Eff F s0 { s with shelves := x_shelves, iln := x_iln } := by
  refine h.upd rfl id (fun c hc => ?_)
  cases c <;> first | rfl | simp_all

theorem Eff.set_iln_hostOut {x_iln : Iln} {x_hostOut : List HostWrite} (h : Eff F s0 s) (h_iln : F .iln = true) (h_hostOut : F .hostOut = true)  :
    Eff F s0 { s with iln := x_iln, hostOut := x_hostOut } := by
  refine h.upd rfl id (fun c hc => ?_)
  cases c <;> first | rfl | simp_all

theorem Eff.set_curMem_boot_ldg {x_curMem : Memory} {x_boot : Boot} {x_ldg : Ldg} (h : Eff F s0 s) (h_curMem : F .curMem = true) (h_boot : F .boot = true) (h_ldg : F .ldg = true) (w_curMem : Memory.wf s.curMem = true → Memory.wf x_curMem = true) :
    Eff F s0 { s with curMem := x_curMem, boot := x_boot, ldg := x_ldg } := by
  refine h.upd rfl (fun w => ?_) (fun c hc => ?_)
  · simp only [State.canon, State.memWf, Bool.and_eq_true] at w ⊢
    exact ⟨⟨w.1.1, (w_curMem w.1.2)⟩, w.2⟩
  · cases c <;> first | rfl | simp_all

theorem Eff.set_stp_ldg_obs {x_stp : Stp} {x_ldg : Ldg} {x_obs : Obs} (h : Eff F s0 s) (h_stp : F .stp = true) (h_ldg : F .ldg = true) (h_obs : F .obs = true)  :
    Eff F s0 { s with stp := x_stp, ldg := x_ldg, obs := x_obs } := by
  refine h.upd rfl id (fun c hc => ?_)
  cases c <;> first | rfl | simp_all

theorem Eff.set_cir_bind_kpr {x_cir : Cir} {x_bind : Bindery} {x_kpr : Kpr} (h : Eff F s0 s) (h_cir : F .cir = true) (h_bind : F .bind = true) (h_kpr : F .kpr = true)  :
    Eff F s0 { s with cir := x_cir, bind := x_bind, kpr := x_kpr } := by
  refine h.upd rfl id (fun c hc => ?_)
  cases c <;> first | rfl | simp_all

theorem Eff.set_kpr_iln_crl {x_kpr : Kpr} {x_iln : Iln} {x_crl : Crl} (h : Eff F s0 s) (h_kpr : F .kpr = true) (h_iln : F .iln = true) (h_crl : F .crl = true)  :
    Eff F s0 { s with kpr := x_kpr, iln := x_iln, crl := x_crl } := by
  refine h.upd rfl id (fun c hc => ?_)
  cases c <;> first | rfl | simp_all

theorem Eff.set_pins_ss_boot_stp {x_pins : Pins} {x_ss : Settings} {x_boot : Boot} {x_stp : Stp} (h : Eff F s0 s) (h_pins : F .pins = true) (h_ss : F .ss = true) (h_boot : F .boot = true) (h_stp : F .stp = true)  :
    Eff F s0 { s with pins := x_pins, ss := x_ss, boot := x_boot, stp := x_stp } := by
  refine h.upd rfl id (fun c hc => ?_)
  cases c <;> first | rfl | simp_all

theorem Eff.set_cir_cat_kpr_crl {x_cir : Cir} {x_cat : Cat} {x_kpr : Kpr} {x_crl : Crl} (h : Eff F s0 s) (h_cir : F .cir = true) (h_cat : F .cat = true) (h_kpr : F .kpr = true) (h_crl : F .crl = true)  :
    Eff F s0 { s with cir := x_cir, cat := x_cat, kpr := x_kpr, crl := x_crl } := by
  refine h.upd rfl id (fun c hc => ?_)
  cases c <;> first | rfl | simp_all

theorem Eff.set_rf_mem_ss_iln_ldg {x_rf : RegFile} {x_mem : Memory} {x_ss : Settings} {x_iln : Iln} {x_ldg : Ldg} (h : Eff F s0 s) (h_rf : F .rf = true) (h_mem : F .mem = true) (h_ss : F .ss = true) (h_iln : F .iln = true) (h_ldg : F .ldg = true) (w_rf : RegFile.wf s.rf = true → RegFile.wf x_rf = true) (w_mem : Memory.wf s.mem = true → Memory.wf x_mem = true) :
    Eff F s0 { s with rf := x_rf, mem := x_mem, ss := x_ss, iln := x_iln, ldg := x_ldg } := by
  refine h.upd rfl (fun w => ?_) (fun c hc => ?_)
  · simp only [State.canon, State.memWf, Bool.and_eq_true] at w ⊢
    exact ⟨⟨(w_mem w.1.1), w.1.2⟩, (w_rf w.2)⟩
  · cases c <;> first | rfl | simp_all

end Sys2Proof.Machine
end

