-- ==== Sys2Proof/Laws/FrameOps.lean ====
section
/-! SUPPORT. Frames of the operations of Machine/Ops.lean: what each may change. -/

namespace Sys2Proof.Machine

variable {F : Comp → Bool} {s0 s : State}

theorem State.observe_eff (h : Eff F s0 s) (h_shelves : F .shelves = true) (h_obs : F .obs = true) :
    ∀ a1, Eff F s0 (State.observe s a1) := by
  intro a1
  unfold State.observe
  repeat' with_reducible first
    | assumption
    | (extract_lets +onlyGivenNames x
       first
       | (refine Eff.cut F s0 x ?_ ?_; unfold x; clear x; rotate_left; intro _; clear_value x; rotate_left)
       | (refine EffP.cut F s0 x ?_ ?_; unfold x; clear x; rotate_left; intro _; clear_value x; rotate_left)
       | clear_value x)
    | refine Eff.foldl ?_ (fun _ _ _ => ?_)
    | refine EffP.foldl ?_ (fun _ _ _ => ?_)
    | refine EffP.fst ?_
    | refine EffP.of_eq (by assumption) ?_
    | refine Eff.ite ?_ ?_
    | split
    | refine Eff.set_obs ?_ h_obs
    | refine Eff.set_shelves ?_ h_shelves

theorem State.advance_eff (h : Eff F s0 s) (h_stp : F .stp = true) (h_shelves : F .shelves = true) (h_ldg : F .ldg = true) (h_obs : F .obs = true) :
    ∀ a1, Eff F s0 (State.advance s a1) := by
  intro a1
  unfold State.advance
  repeat' with_reducible first
    | assumption
    | (extract_lets +onlyGivenNames x
       first
       | (refine Eff.cut F s0 x ?_ ?_; unfold x; clear x; rotate_left; intro _; clear_value x; rotate_left)
       | (refine EffP.cut F s0 x ?_ ?_; unfold x; clear x; rotate_left; intro _; clear_value x; rotate_left)
       | clear_value x)
    | refine State.observe_eff ?_ h_shelves h_obs _
    | refine Eff.ite ?_ ?_
    | split
    | refine Eff.set_stp_ldg_obs ?_ h_stp h_ldg h_obs

theorem State.alert_eff (h : Eff F s0 s) (h_smb : F .smb = true) :
    ∀ a1, Eff F s0 (State.alert s a1) := by
  intro a1
  unfold State.alert
  repeat' with_reducible first
    | assumption
    | split
    | refine Eff.set_smb ?_ h_smb

theorem State.setReg_eff (h : Eff F s0 s) (h_rf : F .rf = true) :
    ∀ a1 a2, Eff F s0 (State.setReg s a1 a2) := by
  intro a1 a2
  unfold State.setReg
  repeat' with_reducible first
    | assumption
    | split
    | refine Eff.set_rf ?_ h_rf ?_
    | intro _
    | refine Memory.wf_write _ _ ?_
    | refine Memory.wf_writeN _ _ ?_
    | refine Memory.wf_writeLe _ _ _ ?_
    | refine Memory.wf_clear _ _ ?_
    | refine Memory.wf_dropOnDie ?_
    | refine Memory.wf_copy _ _ _ ?_
    | refine RegFile.wf_set _ _ ?_
    | refine RegFile.wf_filter _ ?_

theorem State.andNotReg_eff (h : Eff F s0 s) (h_rf : F .rf = true) :
    ∀ a1 a2, Eff F s0 (State.andNotReg s a1 a2) := by
  intro a1 a2
  unfold State.andNotReg
  repeat' with_reducible first
    | assumption
    | refine State.setReg_eff ?_ h_rf _ _
    | split

theorem State.belWake_eff (h : Eff F s0 s) (h_bel : F .bel = true) :
    Eff F s0 (State.belWake s) := by
  unfold State.belWake
  repeat' with_reducible first
    | assumption
    | (extract_lets +onlyGivenNames x
       first
       | (refine Eff.cut F s0 x ?_ ?_; unfold x; clear x; rotate_left; intro _; clear_value x; rotate_left)
       | (refine EffP.cut F s0 x ?_ ?_; unfold x; clear x; rotate_left; intro _; clear_value x; rotate_left)
       | clear_value x)
    | refine Eff.foldl ?_ (fun _ _ _ => ?_)
    | refine EffP.fst ?_
    | refine EffP.of_eq (by assumption) ?_
    | split
    | refine Eff.set_bel ?_ h_bel

theorem State.setBelSrc_eff (h : Eff F s0 s) (h_bel : F .bel = true) :
    ∀ a1 a2, Eff F s0 (State.setBelSrc s a1 a2) := by
  intro a1 a2
  unfold State.setBelSrc
  repeat' with_reducible first
    | assumption
    | split
    | refine Eff.set_bel ?_ h_bel

theorem State.bell_eff (h : Eff F s0 s) (h_bel : F .bel = true) :
    ∀ a1 a2, Eff F s0 (State.bell s a1 a2) := by
  intro a1 a2
  unfold State.bell
  repeat' with_reducible first
    | assumption
    | refine State.belWake_eff ?_ h_bel
    | refine State.setBelSrc_eff ?_ h_bel _ _
    | split

theorem State.setField_eff (h : Eff F s0 s) (h_rf : F .rf = true) :
    ∀ a1 a2 a3 a4, Eff F s0 (State.setField s a1 a2 a3 a4) := by
  intro a1 a2 a3 a4
  unfold State.setField
  repeat' with_reducible first
    | assumption
    | refine State.setReg_eff ?_ h_rf _ _
    | split

theorem State.countSat_eff (h : Eff F s0 s) (h_rf : F .rf = true) :
    ∀ a1 a2 a3 a4, Eff F s0 (State.countSat s a1 a2 a3 a4) := by
  intro a1 a2 a3 a4
  unfold State.countSat
  repeat' with_reducible first
    | assumption
    | refine State.setField_eff ?_ h_rf _ _ _ _
    | split

theorem State.countWrap_eff (h : Eff F s0 s) (h_rf : F .rf = true) :
    ∀ a1 a2 a3 a4, Eff F s0 (State.countWrap s a1 a2 a3 a4) := by
  intro a1 a2 a3 a4
  unfold State.countWrap
  repeat' with_reducible first
    | assumption
    | refine State.setField_eff ?_ h_rf _ _ _ _
    | split

theorem State.orReg_eff (h : Eff F s0 s) (h_rf : F .rf = true) :
    ∀ a1 a2, Eff F s0 (State.orReg s a1 a2) := by
  intro a1 a2
  unfold State.orReg
  repeat' with_reducible first
    | assumption
    | refine State.setReg_eff ?_ h_rf _ _
    | split

theorem State.event_eff (h : Eff F s0 s) (h_rf : F .rf = true) (h_bel : F .bel = true) :
    ∀ a1 a2, Eff F s0 (State.event s a1 a2) := by
  intro a1 a2
  unfold State.event
  repeat' with_reducible first
    | assumption
    | (extract_lets +onlyGivenNames x
       first
       | (refine Eff.cut F s0 x ?_ ?_; unfold x; clear x; rotate_left; intro _; clear_value x; rotate_left)
       | (refine EffP.cut F s0 x ?_ ?_; unfold x; clear x; rotate_left; intro _; clear_value x; rotate_left)
       | clear_value x)
    | refine State.orReg_eff ?_ h_rf _ _
    | refine State.bell_eff ?_ h_bel _ _
    | refine Eff.foldl ?_ (fun _ _ _ => ?_)
    | refine EffP.fst ?_
    | refine EffP.of_eq (by assumption) ?_
    | refine Eff.ite ?_ ?_
    | split

theorem State.hostWrite_eff (h : Eff F s0 s) (h_iln : F .iln = true) (h_hostOut : F .hostOut = true) :
    ∀ a1 a2 a3 a4, Eff F s0 (State.hostWrite s a1 a2 a3 a4) := by
  intro a1 a2 a3 a4
  unfold State.hostWrite
  repeat' with_reducible first
    | assumption
    | refine Eff.ite ?_ ?_
    | split
    | refine Eff.set_iln_hostOut ?_ h_iln h_hostOut

theorem State.setRegBit_eff (h : Eff F s0 s) (h_rf : F .rf = true) :
    ∀ a1 a2 a3, Eff F s0 (State.setRegBit s a1 a2 a3) := by
  intro a1 a2 a3
  unfold State.setRegBit
  repeat' with_reducible first
    | assumption
    | refine State.setReg_eff ?_ h_rf _ _
    | split

theorem State.ldgCount_eff (h : Eff F s0 s) (h_rf : F .rf = true) :
    ∀ a1, Eff F s0 (State.ldgCount s a1) := by
  intro a1
  unfold State.ldgCount
  repeat' with_reducible first
    | assumption
    | refine State.setRegBit_eff ?_ h_rf _ _ _
    | refine State.countSat_eff ?_ h_rf _ _ _ _
    | split

theorem State.send_eff (h : Eff F s0 s) (h_rf : F .rf = true) (h_ldg : F .ldg = true) :
    ∀ a1, Eff F s0 (State.send s a1) := by
  intro a1
  unfold State.send
  repeat' with_reducible first
    | assumption
    | (extract_lets +onlyGivenNames x
       first
       | (refine Eff.cut F s0 x ?_ ?_; unfold x; clear x; rotate_left; intro _; clear_value x; rotate_left)
       | (refine EffP.cut F s0 x ?_ ?_; unfold x; clear x; rotate_left; intro _; clear_value x; rotate_left)
       | clear_value x)
    | refine State.countSat_eff ?_ h_rf _ _ _ _
    | refine State.ldgCount_eff ?_ h_rf _
    | refine Eff.ite ?_ ?_
    | split
    | refine Eff.set_ldg ?_ h_ldg

theorem State.log_eff (h : Eff F s0 s) (h_rf : F .rf = true) (h_ldg : F .ldg = true) :
    ∀ a1 a2 a3 a4 a5 a6 a7, Eff F s0 (State.log s a1 a2 a3 a4 a5 a6 a7) := by
  intro a1 a2 a3 a4 a5 a6 a7
  unfold State.log
  repeat' with_reducible first
    | assumption
    | refine State.send_eff ?_ h_rf h_ldg _
    | split

theorem State.setShelf_eff (h : Eff F s0 s) (h_shelves : F .shelves = true) :
    ∀ a1 a2, Eff F s0 (State.setShelf s a1 a2) := by
  intro a1 a2
  unfold State.setShelf
  repeat' with_reducible first
    | assumption
    | split
    | refine Eff.set_shelves ?_ h_shelves

theorem State.startHush_eff (h : Eff F s0 s) (h_rf : F .rf = true) (h_obs : F .obs = true) :
    ∀ a1 a2, Eff F s0 (State.startHush s a1 a2) := by
  intro a1 a2
  unfold State.startHush
  repeat' with_reducible first
    | assumption
    | refine Eff.ite ?_ ?_
    | split
    | refine Eff.set_rf_obs ?_ h_rf h_obs ?_
    | intro _
    | refine Memory.wf_write _ _ ?_
    | refine Memory.wf_writeN _ _ ?_
    | refine Memory.wf_writeLe _ _ _ ?_
    | refine Memory.wf_clear _ _ ?_
    | refine Memory.wf_dropOnDie ?_
    | refine Memory.wf_copy _ _ _ ?_
    | refine RegFile.wf_set _ _ ?_
    | refine RegFile.wf_filter _ ?_

end Sys2Proof.Machine
end

