-- ==== Sys2Proof/Laws/FrameAccess.lean ====
section
/-! SUPPORT. Frames of the operations of Machine/Access.lean: what each may change. -/

namespace Sys2Proof.Machine

variable {F : Comp → Bool} {s0 s : State}

theorem State.eccClear_eff (h : Eff F s0 s) (h_ecc : F .ecc = true) :
    ∀ a1, Eff F s0 (State.eccClear s a1) := by
  intro a1
  unfold State.eccClear
  repeat' with_reducible first
    | assumption
    | split
    | refine Eff.set_ecc ?_ h_ecc

theorem State.poison_eff (h : Eff F s0 s) (h_kpr : F .kpr = true) :
    ∀ a1, Eff F s0 (State.poison s a1) := by
  intro a1
  unfold State.poison
  repeat' with_reducible first
    | assumption
    | split
    | refine Eff.set_kpr ?_ h_kpr

theorem State.eccRead_eff (h : Eff F s0 s) (h_rf : F .rf = true) (h_ecc : F .ecc = true) (h_kpr : F .kpr = true) (h_ldg : F .ldg = true) :
    ∀ a1, Eff F s0 (State.eccRead s a1) := by
  intro a1
  unfold State.eccRead
  repeat' with_reducible first
    | assumption
    | refine State.log_eff ?_ h_rf h_ldg _ _ _ _ _ _ _
    | refine State.countSat_eff ?_ h_rf _ _ _ _
    | refine State.eccClear_eff ?_ h_ecc _
    | refine State.poison_eff ?_ h_kpr _
    | refine Eff.foldl ?_ (fun _ _ _ => ?_)
    | refine EffP.fst ?_
    | refine EffP.of_eq (by assumption) ?_
    | refine Eff.ite ?_ ?_
    | split

theorem State.eccShelfRead_eff (h : Eff F s0 s) (h_rf : F .rf = true) (h_ecc : F .ecc = true) :
    ∀ a1 a2 a3 a4, EffP F s0 (State.eccShelfRead s a1 a2 a3 a4) := by
  intro a1 a2 a3 a4
  unfold State.eccShelfRead
  repeat' with_reducible first
    | assumption
    | refine State.countSat_eff ?_ h_rf _ _ _ _
    | refine State.eccClear_eff ?_ h_ecc _
    | refine Eff.foldl ?_ (fun _ _ _ => ?_)
    | refine EffP.foldl ?_ (fun _ _ _ => ?_)
    | refine EffP.fst ?_
    | refine EffP.of_eq (by assumption) ?_
    | refine EffP.ite ?_ ?_
    | refine Eff.ite ?_ ?_
    | split
    | refine EffP.mk ?_ _

theorem State.injectorFired_eff (h : Eff F s0 s) (h_rf : F .rf = true) :
    ∀ a1 a2, Eff F s0 (State.injectorFired s a1 a2) := by
  intro a1 a2
  unfold State.injectorFired
  repeat' with_reducible first
    | assumption
    | refine State.setReg_eff ?_ h_rf _ _
    | refine State.setRegBit_eff ?_ h_rf _ _ _
    | split

theorem State.inject_eff (h : Eff F s0 s) (h_rf : F .rf = true) (h_ecc : F .ecc = true) :
    ∀ a1 a2 a3 a4, Eff F s0 (State.inject s a1 a2 a3 a4) := by
  intro a1 a2 a3 a4
  unfold State.inject
  repeat' with_reducible first
    | assumption
    | (extract_lets +onlyGivenNames x
       first
       | (refine Eff.cut F s0 x ?_ ?_; unfold x; clear x; rotate_left; intro _; clear_value x; rotate_left)
       | (refine EffP.cut F s0 x ?_ ?_; unfold x; clear x; rotate_left; intro _; clear_value x; rotate_left)
       | clear_value x)
    | refine State.injectorFired_eff ?_ h_rf _ _
    | refine Eff.ite ?_ ?_
    | split
    | refine Eff.set_ecc ?_ h_ecc

theorem State.eccWrite_eff (h : Eff F s0 s) (h_rf : F .rf = true) (h_ecc : F .ecc = true) (h_kpr : F .kpr = true) :
    ∀ a1, Eff F s0 (State.eccWrite s a1) := by
  intro a1
  unfold State.eccWrite
  repeat' with_reducible first
    | assumption
    | (extract_lets +onlyGivenNames x
       first
       | (refine Eff.cut F s0 x ?_ ?_; unfold x; clear x; rotate_left; intro _; clear_value x; rotate_left)
       | (refine EffP.cut F s0 x ?_ ?_; unfold x; clear x; rotate_left; intro _; clear_value x; rotate_left)
       | clear_value x)
    | refine State.eccClear_eff ?_ h_ecc _
    | refine State.poison_eff ?_ h_kpr _
    | refine State.inject_eff ?_ h_rf h_ecc _ _ _ _
    | refine Eff.foldl ?_ (fun _ _ _ => ?_)
    | refine EffP.fst ?_
    | refine EffP.of_eq (by assumption) ?_
    | refine Eff.ite ?_ ?_
    | split

theorem State.fence_eff (h : Eff F s0 s) (h_rf : F .rf = true) (h_bel : F .bel = true) (h_ldg : F .ldg = true) :
    ∀ a1 a2 a3 a4, Eff F s0 (State.fence s a1 a2 a3 a4) := by
  intro a1 a2 a3 a4
  unfold State.fence
  repeat' with_reducible first
    | assumption
    | refine State.log_eff ?_ h_rf h_ldg _ _ _ _ _ _ _
    | refine State.event_eff ?_ h_rf h_bel _ _
    | refine State.setRegBit_eff ?_ h_rf _ _ _
    | refine Eff.ite ?_ ?_
    | split

theorem State.folioWrite_eff (h : Eff F s0 s) (h_rf : F .rf = true) (h_mem : F .mem = true) (h_ecc : F .ecc = true) :
    ∀ a1 a2 a3, Eff F s0 (State.folioWrite s a1 a2 a3) := by
  intro a1 a2 a3
  unfold State.folioWrite
  repeat' with_reducible first
    | assumption
    | (extract_lets +onlyGivenNames x
       first
       | (refine Eff.cut F s0 x ?_ ?_; unfold x; clear x; rotate_left; intro _; clear_value x; rotate_left)
       | (refine EffP.cut F s0 x ?_ ?_; unfold x; clear x; rotate_left; intro _; clear_value x; rotate_left)
       | clear_value x)
    | refine State.inject_eff ?_ h_rf h_ecc _ _ _ _
    | refine Eff.foldl ?_ (fun _ _ _ => ?_)
    | refine EffP.fst ?_
    | refine EffP.of_eq (by assumption) ?_
    | refine Eff.ite ?_ ?_
    | split
    | refine Eff.set_mem_ecc ?_ h_mem h_ecc ?_
    | intro _
    | refine Memory.wf_write _ _ ?_
    | refine Memory.wf_writeN _ _ ?_
    | refine Memory.wf_writeLe _ _ _ ?_
    | refine Memory.wf_clear _ _ ?_
    | refine Memory.wf_dropOnDie ?_
    | refine Memory.wf_copy _ _ _ ?_
    | refine RegFile.wf_set _ _ ?_
    | refine RegFile.wf_filter _ ?_

theorem State.uncorrectable_eff (h : Eff F s0 s) (h_rf : F .rf = true) (h_kpr : F .kpr = true) (h_bel : F .bel = true) (h_ldg : F .ldg = true) :
    ∀ a1 a2 a3, Eff F s0 (State.uncorrectable s a1 a2 a3) := by
  intro a1 a2 a3
  unfold State.uncorrectable
  repeat' with_reducible first
    | assumption
    | (extract_lets +onlyGivenNames x
       first
       | (refine Eff.cut F s0 x ?_ ?_; unfold x; clear x; rotate_left; intro _; clear_value x; rotate_left)
       | (refine EffP.cut F s0 x ?_ ?_; unfold x; clear x; rotate_left; intro _; clear_value x; rotate_left)
       | clear_value x)
    | refine State.countSat_eff ?_ h_rf _ _ _ _
    | refine State.log_eff ?_ h_rf h_ldg _ _ _ _ _ _ _
    | refine State.fence_eff ?_ h_rf h_bel h_ldg _ _ _ _
    | refine Eff.ite ?_ ?_
    | split
    | refine Eff.set_kpr ?_ h_kpr

theorem State.logBad_eff (h : Eff F s0 s) (h_rf : F .rf = true) (h_kpr : F .kpr = true) (h_bel : F .bel = true) (h_ldg : F .ldg = true) :
    ∀ a1 a2 a3 a4, Eff F s0 (State.logBad s a1 a2 a3 a4) := by
  intro a1 a2 a3 a4
  unfold State.logBad
  repeat' with_reducible first
    | assumption
    | (extract_lets +onlyGivenNames x
       first
       | (refine Eff.cut F s0 x ?_ ?_; unfold x; clear x; rotate_left; intro _; clear_value x; rotate_left)
       | (refine EffP.cut F s0 x ?_ ?_; unfold x; clear x; rotate_left; intro _; clear_value x; rotate_left)
       | clear_value x)
    | refine State.uncorrectable_eff ?_ h_rf h_kpr h_bel h_ldg _ _ _
    | refine State.log_eff ?_ h_rf h_ldg _ _ _ _ _ _ _
    | refine Eff.ite ?_ ?_
    | split

theorem State.logAll_eff (h : Eff F s0 s) (h_rf : F .rf = true) (h_kpr : F .kpr = true) (h_bel : F .bel = true) (h_ldg : F .ldg = true) :
    ∀ a1 a2 a3, Eff F s0 (State.logAll s a1 a2 a3) := by
  intro a1 a2 a3
  unfold State.logAll
  repeat' with_reducible first
    | assumption
    | refine State.logBad_eff ?_ h_rf h_kpr h_bel h_ldg _ _ _ _
    | refine Eff.foldl ?_ (fun _ _ _ => ?_)
    | refine EffP.fst ?_
    | refine EffP.of_eq (by assumption) ?_
    | split

theorem State.memFault_eff (h : Eff F s0 s) (h_rf : F .rf = true) (h_kpr : F .kpr = true) (h_bel : F .bel = true) (h_ldg : F .ldg = true) :
    ∀ a1 a2 a3 a4, Eff F s0 (State.memFault s a1 a2 a3 a4) := by
  intro a1 a2 a3 a4
  unfold State.memFault
  repeat' with_reducible first
    | assumption
    | (extract_lets +onlyGivenNames x
       first
       | (refine Eff.cut F s0 x ?_ ?_; unfold x; clear x; rotate_left; intro _; clear_value x; rotate_left)
       | (refine EffP.cut F s0 x ?_ ?_; unfold x; clear x; rotate_left; intro _; clear_value x; rotate_left)
       | clear_value x)
    | refine State.uncorrectable_eff ?_ h_rf h_kpr h_bel h_ldg _ _ _
    | refine State.poison_eff ?_ h_kpr _
    | refine State.log_eff ?_ h_rf h_ldg _ _ _ _ _ _ _
    | refine Eff.ite ?_ ?_
    | split

theorem State.memRefused_eff (h : Eff F s0 s) (h_rf : F .rf = true) (h_ldg : F .ldg = true) :
    ∀ a1 a2 a3, Eff F s0 (State.memRefused s a1 a2 a3) := by
  intro a1 a2 a3
  unfold State.memRefused
  repeat' with_reducible first
    | assumption
    | refine State.log_eff ?_ h_rf h_ldg _ _ _ _ _ _ _
    | split

theorem State.wpHit_eff (h : Eff F s0 s) (h_rf : F .rf = true) (h_bel : F .bel = true) (h_ldg : F .ldg = true) (h_obs : F .obs = true) :
    ∀ a1 a2 a3 a4, Eff F s0 (State.wpHit s a1 a2 a3 a4) := by
  intro a1 a2 a3 a4
  unfold State.wpHit
  repeat' with_reducible first
    | assumption
    | (extract_lets +onlyGivenNames x
       first
       | (refine Eff.cut F s0 x ?_ ?_; unfold x; clear x; rotate_left; intro _; clear_value x; rotate_left)
       | (refine EffP.cut F s0 x ?_ ?_; unfold x; clear x; rotate_left; intro _; clear_value x; rotate_left)
       | clear_value x)
    | refine State.log_eff ?_ h_rf h_ldg _ _ _ _ _ _ _
    | refine State.event_eff ?_ h_rf h_bel _ _
    | refine State.countSat_eff ?_ h_rf _ _ _ _
    | refine State.startHush_eff ?_ h_rf h_obs _ _
    | refine Eff.ite ?_ ?_
    | split

theorem State.watch_eff (h : Eff F s0 s) (h_rf : F .rf = true) (h_bel : F .bel = true) (h_ldg : F .ldg = true) (h_obs : F .obs = true) :
    ∀ a1 a2 a3 a4, Eff F s0 (State.watch s a1 a2 a3 a4) := by
  intro a1 a2 a3 a4
  unfold State.watch
  repeat' with_reducible first
    | assumption
    | refine State.wpHit_eff ?_ h_rf h_bel h_ldg h_obs _ _ _ _
    | refine Eff.foldl ?_ (fun _ _ _ => ?_)
    | refine EffP.fst ?_
    | refine EffP.of_eq (by assumption) ?_
    | refine Eff.ite ?_ ?_
    | split

theorem State.touchLeaf_eff (h : Eff F s0 s) (h_kpr : F .kpr = true) :
    ∀ a1 a2 a3, Eff F s0 (State.touchLeaf s a1 a2 a3) := by
  intro a1 a2 a3
  unfold State.touchLeaf
  repeat' with_reducible first
    | assumption
    | (extract_lets +onlyGivenNames x
       first
       | (refine Eff.cut F s0 x ?_ ?_; unfold x; clear x; rotate_left; intro _; clear_value x; rotate_left)
       | (refine EffP.cut F s0 x ?_ ?_; unfold x; clear x; rotate_left; intro _; clear_value x; rotate_left)
       | clear_value x)
    | split
    | refine Eff.set_kpr ?_ h_kpr

theorem State.touchLeaves_eff (h : Eff F s0 s) (h_kpr : F .kpr = true) :
    ∀ a1 a2 a3 a4, Eff F s0 (State.touchLeaves s a1 a2 a3 a4) := by
  intro a1 a2 a3 a4
  unfold State.touchLeaves
  repeat' with_reducible first
    | assumption
    | refine State.touchLeaf_eff ?_ h_kpr _ _ _
    | refine Eff.foldl ?_ (fun _ _ _ => ?_)
    | refine EffP.fst ?_
    | refine EffP.of_eq (by assumption) ?_
    | refine Eff.ite ?_ ?_
    | split

theorem State.readMem_eff (h : Eff F s0 s) (h_rf : F .rf = true) (h_ecc : F .ecc = true) (h_kpr : F .kpr = true) (h_bel : F .bel = true) (h_ldg : F .ldg = true) (h_obs : F .obs = true) :
    ∀ a1 a2 a3 a4, EffP F s0 (State.readMem s a1 a2 a3 a4) := by
  intro a1 a2 a3 a4
  unfold State.readMem
  repeat' with_reducible first
    | assumption
    | (extract_lets +onlyGivenNames x
       first
       | (refine Eff.cut F s0 x ?_ ?_; unfold x; clear x; rotate_left; intro _; clear_value x; rotate_left)
       | (refine EffP.cut F s0 x ?_ ?_; unfold x; clear x; rotate_left; intro _; clear_value x; rotate_left)
       | clear_value x)
    | refine State.watch_eff ?_ h_rf h_bel h_ldg h_obs _ _ _ _
    | refine State.touchLeaves_eff ?_ h_kpr _ _ _ _
    | refine State.eccRead_eff ?_ h_rf h_ecc h_kpr h_ldg _
    | refine State.logAll_eff ?_ h_rf h_kpr h_bel h_ldg _ _ _
    | refine EffP.ite ?_ ?_
    | refine Eff.ite ?_ ?_
    | split
    | refine EffP.mk ?_ _

theorem State.readFor_eff (h : Eff F s0 s) (h_rf : F .rf = true) (h_ecc : F .ecc = true) (h_kpr : F .kpr = true) (h_bel : F .bel = true) (h_ldg : F .ldg = true) (h_obs : F .obs = true) :
    ∀ a1 a2 a3 a4, EffP F s0 (State.readFor s a1 a2 a3 a4) := by
  intro a1 a2 a3 a4
  unfold State.readFor
  repeat' with_reducible first
    | assumption
    | refine State.readMem_eff ?_ h_rf h_ecc h_kpr h_bel h_ldg h_obs _ _ _ _
    | refine State.memRefused_eff ?_ h_rf h_ldg _ _ _
    | refine EffP.fst ?_
    | refine EffP.of_eq (by assumption) ?_
    | refine EffP.ite ?_ ?_
    | refine Eff.ite ?_ ?_
    | split
    | refine EffP.mk ?_ _

theorem State.withError_eff (h : Eff F s0 s) (h_kpr : F .kpr = true) {α : Type} (f : State → State × α)
    (h_f : ∀ y, Eff F s0 y → EffP F s0 (f y)) : ∀ a, EffP F s0 (State.withError s a f) := by
  intro a
  unfold State.withError
  split
  · exact h_f _ h
  · exact EffP.mk (Eff.ite (EffP.fst (h_f _ (State.poison_eff h h_kpr _))) (Eff.set_kpr (EffP.fst (h_f _ (State.poison_eff h h_kpr _))) h_kpr)) _

theorem State.readMay_eff (h : Eff F s0 s) (h_rf : F .rf = true) (h_ecc : F .ecc = true) (h_kpr : F .kpr = true) (h_bel : F .bel = true) (h_ldg : F .ldg = true) (h_obs : F .obs = true) :
    ∀ a1 a2 a3 a4 a5, EffP F s0 (State.readMay s a1 a2 a3 a4 a5) := by
  intro a1 a2 a3 a4 a5
  unfold State.readMay
  repeat' with_reducible first
    | assumption
    | refine State.withError_eff ?_ h_kpr _ (fun _ _ => ?_) _
    | refine State.readFor_eff ?_ h_rf h_ecc h_kpr h_bel h_ldg h_obs _ _ _ _
    | refine EffP.fst ?_
    | refine EffP.of_eq (by assumption) ?_
    | split
    | refine EffP.mk ?_ _

theorem State.storeRead_eff (h : Eff F s0 s) (h_rf : F .rf = true) (h_ecc : F .ecc = true) :
    ∀ a1 a2 a3, EffP F s0 (State.storeRead s a1 a2 a3) := by
  intro a1 a2 a3
  unfold State.storeRead
  repeat' with_reducible first
    | assumption
    | (extract_lets +onlyGivenNames x
       first
       | (refine Eff.cut F s0 x ?_ ?_; unfold x; clear x; rotate_left; intro _; clear_value x; rotate_left)
       | (refine EffP.cut F s0 x ?_ ?_; unfold x; clear x; rotate_left; intro _; clear_value x; rotate_left)
       | clear_value x)
    | refine State.eccShelfRead_eff ?_ h_rf h_ecc _ _ _ _
    | refine EffP.fst ?_
    | refine EffP.of_eq (by assumption) ?_
    | split
    | refine EffP.mk ?_ _

theorem State.storeWrite_eff (h : Eff F s0 s) (h_rf : F .rf = true) (h_mem : F .mem = true) (h_ecc : F .ecc = true) :
    ∀ a1 a2 a3, EffP F s0 (State.storeWrite s a1 a2 a3) := by
  intro a1 a2 a3
  unfold State.storeWrite
  repeat' with_reducible first
    | assumption
    | (extract_lets +onlyGivenNames x
       first
       | (refine Eff.cut F s0 x ?_ ?_; unfold x; clear x; rotate_left; intro _; clear_value x; rotate_left)
       | (refine EffP.cut F s0 x ?_ ?_; unfold x; clear x; rotate_left; intro _; clear_value x; rotate_left)
       | clear_value x)
    | refine State.countSat_eff ?_ h_rf _ _ _ _
    | refine State.inject_eff ?_ h_rf h_ecc _ _ _ _
    | refine Eff.foldl ?_ (fun _ _ _ => ?_)
    | refine EffP.foldl ?_ (fun _ _ _ => ?_)
    | refine EffP.fst ?_
    | refine EffP.of_eq (by assumption) ?_
    | refine EffP.ite ?_ ?_
    | refine Eff.ite ?_ ?_
    | split
    | refine Eff.set_mem_ecc ?_ h_mem h_ecc ?_
    | intro _
    | refine Memory.wf_write _ _ ?_
    | refine Memory.wf_writeN _ _ ?_
    | refine Memory.wf_writeLe _ _ _ ?_
    | refine Memory.wf_clear _ _ ?_
    | refine Memory.wf_dropOnDie ?_
    | refine Memory.wf_copy _ _ _ ?_
    | refine RegFile.wf_set _ _ ?_
    | refine RegFile.wf_filter _ ?_
    | refine EffP.mk ?_ _

theorem State.unpoison_eff (h : Eff F s0 s) (h_freeCtr : F .freeCtr = true) (h_kpr : F .kpr = true) :
    ∀ a1, Eff F s0 (State.unpoison s a1) := by
  intro a1
  unfold State.unpoison
  repeat' with_reducible first
    | assumption
    | (extract_lets +onlyGivenNames x
       first
       | (refine Eff.cut F s0 x ?_ ?_; unfold x; clear x; rotate_left; intro _; clear_value x; rotate_left)
       | (refine EffP.cut F s0 x ?_ ?_; unfold x; clear x; rotate_left; intro _; clear_value x; rotate_left)
       | clear_value x)
    | refine Eff.foldl ?_ (fun _ _ _ => ?_)
    | refine EffP.fst ?_
    | refine EffP.of_eq (by assumption) ?_
    | refine Eff.ite ?_ ?_
    | split
    | refine Eff.set_kpr ?_ h_kpr
    | refine Eff.set_freeCtr_kpr ?_ h_freeCtr h_kpr

theorem State.writeMem_eff (h : Eff F s0 s) (h_freeCtr : F .freeCtr = true) (h_rf : F .rf = true) (h_mem : F .mem = true) (h_ecc : F .ecc = true) (h_kpr : F .kpr = true) (h_bel : F .bel = true) (h_ldg : F .ldg = true) (h_obs : F .obs = true) :
    ∀ a1 a2 a3 a4 a5, EffP F s0 (State.writeMem s a1 a2 a3 a4 a5) := by
  intro a1 a2 a3 a4 a5
  unfold State.writeMem
  repeat' with_reducible first
    | assumption
    | (extract_lets +onlyGivenNames x
       first
       | (refine Eff.cut F s0 x ?_ ?_; unfold x; clear x; rotate_left; intro _; clear_value x; rotate_left)
       | (refine EffP.cut F s0 x ?_ ?_; unfold x; clear x; rotate_left; intro _; clear_value x; rotate_left)
       | clear_value x)
    | refine State.watch_eff ?_ h_rf h_bel h_ldg h_obs _ _ _ _
    | refine State.eccWrite_eff ?_ h_rf h_ecc h_kpr _
    | refine State.unpoison_eff ?_ h_freeCtr h_kpr _
    | refine State.touchLeaves_eff ?_ h_kpr _ _ _ _
    | refine State.logAll_eff ?_ h_rf h_kpr h_bel h_ldg _ _ _
    | refine Eff.foldl ?_ (fun _ _ _ => ?_)
    | refine EffP.foldl ?_ (fun _ _ _ => ?_)
    | refine EffP.fst ?_
    | refine EffP.of_eq (by assumption) ?_
    | refine EffP.ite ?_ ?_
    | refine Eff.ite ?_ ?_
    | split
    | refine Eff.set_mem ?_ h_mem ?_
    | intro _
    | refine Memory.wf_write _ _ ?_
    | refine Memory.wf_writeN _ _ ?_
    | refine Memory.wf_writeLe _ _ _ ?_
    | refine Memory.wf_clear _ _ ?_
    | refine Memory.wf_dropOnDie ?_
    | refine Memory.wf_copy _ _ _ ?_
    | refine RegFile.wf_set _ _ ?_
    | refine RegFile.wf_filter _ ?_
    | refine EffP.mk ?_ _

theorem State.writeFor_eff (h : Eff F s0 s) (h_freeCtr : F .freeCtr = true) (h_rf : F .rf = true) (h_mem : F .mem = true) (h_ecc : F .ecc = true) (h_kpr : F .kpr = true) (h_bel : F .bel = true) (h_ldg : F .ldg = true) (h_obs : F .obs = true) :
    ∀ a1 a2 a3 a4, EffP F s0 (State.writeFor s a1 a2 a3 a4) := by
  intro a1 a2 a3 a4
  unfold State.writeFor
  repeat' with_reducible first
    | assumption
    | refine State.writeMem_eff ?_ h_freeCtr h_rf h_mem h_ecc h_kpr h_bel h_ldg h_obs _ _ _ _ _
    | refine State.memRefused_eff ?_ h_rf h_ldg _ _ _
    | refine EffP.fst ?_
    | refine EffP.of_eq (by assumption) ?_
    | refine EffP.ite ?_ ?_
    | refine Eff.ite ?_ ?_
    | split
    | refine EffP.mk ?_ _

theorem State.writeMay_eff (h : Eff F s0 s) (h_freeCtr : F .freeCtr = true) (h_rf : F .rf = true) (h_mem : F .mem = true) (h_ecc : F .ecc = true) (h_kpr : F .kpr = true) (h_bel : F .bel = true) (h_ldg : F .ldg = true) (h_obs : F .obs = true) :
    ∀ a1 a2 a3 a4 a5, EffP F s0 (State.writeMay s a1 a2 a3 a4 a5) := by
  intro a1 a2 a3 a4 a5
  unfold State.writeMay
  repeat' with_reducible first
    | assumption
    | refine State.writeFor_eff ?_ h_freeCtr h_rf h_mem h_ecc h_kpr h_bel h_ldg h_obs _ _ _ _
    | refine State.writeMem_eff ?_ h_freeCtr h_rf h_mem h_ecc h_kpr h_bel h_ldg h_obs _ _ _ _ _
    | refine State.log_eff ?_ h_rf h_ldg _ _ _ _ _ _ _
    | refine State.withError_eff ?_ h_kpr _ (fun _ _ => ?_) _
    | refine EffP.fst ?_
    | refine EffP.of_eq (by assumption) ?_
    | refine EffP.ite ?_ ?_
    | refine Eff.ite ?_ ?_
    | split
    | refine EffP.mk ?_ _

end Sys2Proof.Machine
end

