-- ==== Sys2Proof/Laws/FrameLife.lean ====
section
/-! SUPPORT. Frames of the operations of Machine/Life.lean: what each may change. -/

namespace Sys2Proof.Machine

variable {F : Comp → Bool} {s0 s : State}

theorem State.disarm_eff (h : Eff F s0 s) (h_rf : F .rf = true) :
    Eff F s0 (State.disarm s) := by
  unfold State.disarm
  repeat' with_reducible first
    | assumption
    | refine State.setRegBit_eff ?_ h_rf _ _ _
    | refine Eff.foldl ?_ (fun _ _ _ => ?_)
    | refine EffP.fst ?_
    | refine EffP.of_eq (by assumption) ?_
    | split

theorem State.latchOos_eff (h : Eff F s0 s) (h_rf : F .rf = true) (h_smb : F .smb = true) (h_ldg : F .ldg = true) :
    Eff F s0 (State.latchOos s) := by
  unfold State.latchOos
  repeat' with_reducible first
    | assumption
    | refine State.log_eff ?_ h_rf h_ldg _ _ _ _ _ _ _
    | refine State.alert_eff ?_ h_smb _
    | split
    | refine Eff.set_ldg ?_ h_ldg

theorem State.resetUnits_eff (h : Eff F s0 s) (h_rf : F .rf = true) (h_mem : F .mem = true) (h_ecc : F .ecc = true) (h_curMem : F .curMem = true) (h_pins : F .pins = true) (h_smb : F .smb = true) (h_boot : F .boot = true) (h_stp : F .stp = true) (h_cir : F .cir = true) (h_cat : F .cat = true) (h_bind : F .bind = true) (h_shelves : F .shelves = true) (h_kpr : F .kpr = true) (h_iln : F .iln = true) (h_crl : F .crl = true) (h_bel : F .bel = true) (h_ldg : F .ldg = true) (h_pwr : F .pwr = true) (h_obs : F .obs = true) : Eff F s0 (State.resetUnits s) := by
  refine h.upd rfl (fun w => ?_) (fun c hc => ?_)
  · simp only [State.canon, State.memWf, Bool.and_eq_true] at w ⊢
    exact ⟨⟨Memory.wf_dropOnDie w.1.1, rfl⟩, RegFile.wf_filter _ w.2⟩
  · cases c <;> first | rfl | simp_all

theorem State.setPhase_eff (h : Eff F s0 s) (h_rf : F .rf = true) :
    ∀ a1, Eff F s0 (State.setPhase s a1) := by
  intro a1
  unfold State.setPhase
  repeat' with_reducible first
    | assumption
    | refine State.setField_eff ?_ h_rf _ _ _ _
    | split

theorem State.blockResetGo_eff (h : Eff F s0 s) (h_rf : F .rf = true) (h_mem : F .mem = true) (h_ecc : F .ecc = true) (h_curMem : F .curMem = true) (h_pins : F .pins = true) (h_smb : F .smb = true) (h_boot : F .boot = true) (h_stp : F .stp = true) (h_cir : F .cir = true) (h_cat : F .cat = true) (h_bind : F .bind = true) (h_shelves : F .shelves = true) (h_kpr : F .kpr = true) (h_iln : F .iln = true) (h_crl : F .crl = true) (h_bel : F .bel = true) (h_ldg : F .ldg = true) (h_pwr : F .pwr = true) (h_obs : F .obs = true) :
    Eff F s0 (State.blockResetGo s) := by
  unfold State.blockResetGo
  repeat' with_reducible first
    | assumption
    | (extract_lets +onlyGivenNames x
       first
       | (refine Eff.cut F s0 x ?_ ?_; unfold x; clear x; rotate_left; intro _; clear_value x; rotate_left)
       | (refine EffP.cut F s0 x ?_ ?_; unfold x; clear x; rotate_left; intro _; clear_value x; rotate_left)
       | clear_value x)
    | refine State.latchOos_eff ?_ h_rf h_smb h_ldg
    | refine State.resetUnits_eff ?_ h_rf h_mem h_ecc h_curMem h_pins h_smb h_boot h_stp h_cir h_cat h_bind h_shelves h_kpr h_iln h_crl h_bel h_ldg h_pwr h_obs
    | refine State.setPhase_eff ?_ h_rf _
    | refine Eff.ite ?_ ?_
    | split
    | refine Eff.set_boot ?_ h_boot
    | refine Eff.set_pins ?_ h_pins

theorem State.blockReset_eff (h : Eff F s0 s) (h_rf : F .rf = true) (h_mem : F .mem = true) (h_ecc : F .ecc = true) (h_curMem : F .curMem = true) (h_pins : F .pins = true) (h_smb : F .smb = true) (h_boot : F .boot = true) (h_stp : F .stp = true) (h_cir : F .cir = true) (h_cat : F .cat = true) (h_bind : F .bind = true) (h_shelves : F .shelves = true) (h_kpr : F .kpr = true) (h_iln : F .iln = true) (h_crl : F .crl = true) (h_bel : F .bel = true) (h_ldg : F .ldg = true) (h_pwr : F .pwr = true) (h_obs : F .obs = true) :
    ∀ a1 a2 a3, Eff F s0 (State.blockReset s a1 a2 a3) := by
  intro a1 a2 a3
  unfold State.blockReset
  repeat' with_reducible first
    | assumption
    | (extract_lets +onlyGivenNames x
       first
       | (refine Eff.cut F s0 x ?_ ?_; unfold x; clear x; rotate_left; intro _; clear_value x; rotate_left)
       | (refine EffP.cut F s0 x ?_ ?_; unfold x; clear x; rotate_left; intro _; clear_value x; rotate_left)
       | clear_value x)
    | refine State.disarm_eff ?_ h_rf
    | refine State.startHush_eff ?_ h_rf h_obs _ _
    | refine State.setField_eff ?_ h_rf _ _ _ _
    | refine State.blockResetGo_eff ?_ h_rf h_mem h_ecc h_curMem h_pins h_smb h_boot h_stp h_cir h_cat h_bind h_shelves h_kpr h_iln h_crl h_bel h_ldg h_pwr h_obs
    | refine Eff.ite ?_ ?_
    | split
    | refine Eff.set_ldg ?_ h_ldg
    | refine Eff.set_obs ?_ h_obs
    | refine Eff.set_boot_ldg ?_ h_boot h_ldg

theorem State.rangesOff_eff (h : Eff F s0 s) (h_rf : F .rf = true) :
    Eff F s0 (State.rangesOff s) := by
  unfold State.rangesOff
  repeat' with_reducible first
    | assumption
    | refine State.setField_eff ?_ h_rf _ _ _ _
    | refine Eff.foldl ?_ (fun _ _ _ => ?_)
    | refine EffP.fst ?_
    | refine EffP.of_eq (by assumption) ?_
    | split

theorem State.bootFail_eff (h : Eff F s0 s) (h_rf : F .rf = true) (h_pins : F .pins = true) :
    ∀ a1, Eff F s0 (State.bootFail s a1) := by
  intro a1
  unfold State.bootFail
  repeat' with_reducible first
    | assumption
    | (extract_lets +onlyGivenNames x
       first
       | (refine Eff.cut F s0 x ?_ ?_; unfold x; clear x; rotate_left; intro _; clear_value x; rotate_left)
       | (refine EffP.cut F s0 x ?_ ?_; unfold x; clear x; rotate_left; intro _; clear_value x; rotate_left)
       | clear_value x)
    | refine State.rangesOff_eff ?_ h_rf
    | refine State.setField_eff ?_ h_rf _ _ _ _
    | refine State.setPhase_eff ?_ h_rf _
    | split
    | refine Eff.set_pins ?_ h_pins

theorem State.tick_eff (h : Eff F s0 s) (h_stp : F .stp = true) (h_shelves : F .shelves = true) (h_ldg : F .ldg = true) (h_obs : F .obs = true) :
    Eff F s0 (State.tick s) := by
  unfold State.tick
  repeat' with_reducible first
    | assumption
    | refine State.advance_eff ?_ h_stp h_shelves h_ldg h_obs _
    | refine Eff.ite ?_ ?_
    | split

end Sys2Proof.Machine
end

