-- ==== Sys2Proof/Laws/FrameRings.lean ====
section
/-! SUPPORT. Frames of the operations of Machine/Rings.lean: what each may change. -/

namespace Sys2Proof.Machine

variable {F : Comp → Bool} {s0 s : State}

theorem State.clearCrossed_eff (h : Eff F s0 s) (h_rf : F .rf = true) :
    ∀ a1, Eff F s0 (State.clearCrossed s a1) := by
  intro a1
  unfold State.clearCrossed
  repeat' with_reducible first
    | assumption
    | refine State.setField_eff ?_ h_rf _ _ _ _
    | split

theorem State.notifySend_eff (h : Eff F s0 s) (h_iln : F .iln = true) (h_hostOut : F .hostOut = true) :
    ∀ a1, Eff F s0 (State.notifySend s a1) := by
  intro a1
  unfold State.notifySend
  repeat' with_reducible first
    | assumption
    | refine State.hostWrite_eff ?_ h_iln h_hostOut _ _ _ _
    | split

theorem State.notify_eff (h : Eff F s0 s) (h_cir : F .cir = true) (h_iln : F .iln = true) (h_hostOut : F .hostOut = true) :
    ∀ a1, Eff F s0 (State.notify s a1) := by
  intro a1
  unfold State.notify
  repeat' with_reducible first
    | assumption
    | (extract_lets +onlyGivenNames x
       first
       | (refine Eff.cut F s0 x ?_ ?_; unfold x; clear x; rotate_left; intro _; clear_value x; rotate_left)
       | (refine EffP.cut F s0 x ?_ ?_; unfold x; clear x; rotate_left; intro _; clear_value x; rotate_left)
       | clear_value x)
    | refine State.notifySend_eff ?_ h_iln h_hostOut _
    | refine Eff.ite ?_ ?_
    | split
    | refine Eff.set_cir ?_ h_cir

theorem State.cross_eff (h : Eff F s0 s) (h_rf : F .rf = true) (h_cir : F .cir = true) (h_iln : F .iln = true) (h_hostOut : F .hostOut = true) :
    ∀ a1, Eff F s0 (State.cross s a1) := by
  intro a1
  unfold State.cross
  repeat' with_reducible first
    | assumption
    | (extract_lets +onlyGivenNames x
       first
       | (refine Eff.cut F s0 x ?_ ?_; unfold x; clear x; rotate_left; intro _; clear_value x; rotate_left)
       | (refine EffP.cut F s0 x ?_ ?_; unfold x; clear x; rotate_left; intro _; clear_value x; rotate_left)
       | clear_value x)
    | refine State.countSat_eff ?_ h_rf _ _ _ _
    | refine State.setRegBit_eff ?_ h_rf _ _ _
    | refine State.notify_eff ?_ h_cir h_iln h_hostOut _
    | refine Eff.ite ?_ ?_
    | split

theorem State.dbDrop_eff (h : Eff F s0 s) (h_rf : F .rf = true) (h_ldg : F .ldg = true) :
    ∀ a1 a2 a3 a4 a5, Eff F s0 (State.dbDrop s a1 a2 a3 a4 a5) := by
  intro a1 a2 a3 a4 a5
  unfold State.dbDrop
  repeat' with_reducible first
    | assumption
    | (extract_lets +onlyGivenNames x
       first
       | (refine Eff.cut F s0 x ?_ ?_; unfold x; clear x; rotate_left; intro _; clear_value x; rotate_left)
       | (refine EffP.cut F s0 x ?_ ?_; unfold x; clear x; rotate_left; intro _; clear_value x; rotate_left)
       | clear_value x)
    | refine State.countSat_eff ?_ h_rf _ _ _ _
    | refine State.log_eff ?_ h_rf h_ldg _ _ _ _ _ _ _
    | split

theorem State.notPermitted_eff (h : Eff F s0 s) (h_rf : F .rf = true) (h_ldg : F .ldg = true) :
    ∀ a1 a2 a3, Eff F s0 (State.notPermitted s a1 a2 a3) := by
  intro a1 a2 a3
  unfold State.notPermitted
  repeat' with_reducible first
    | assumption
    | refine State.log_eff ?_ h_rf h_ldg _ _ _ _ _ _ _
    | split

theorem State.dbGate_eff (h : Eff F s0 s) (h_rf : F .rf = true) (h_ldg : F .ldg = true) :
    ∀ a1 a2 a3 a4 a5, EffO F s0 (State.dbGate s a1 a2 a3 a4 a5) := by
  intro a1 a2 a3 a4 a5
  unfold State.dbGate
  repeat' with_reducible first
    | assumption
    | refine State.log_eff ?_ h_rf h_ldg _ _ _ _ _ _ _
    | refine State.notPermitted_eff ?_ h_rf h_ldg _ _ _
    | refine State.dbDrop_eff ?_ h_rf h_ldg _ _ _ _ _
    | exact EffO.none
    | refine EffO.some ?_
    | refine EffO.map (fun _ => ?_)
    | refine Eff.ite ?_ ?_
    | refine EffO.ite ?_ ?_
    | split

theorem State.setRingCount_eff (h : Eff F s0 s) (h_rf : F .rf = true) (h_cir : F .cir = true) (h_iln : F .iln = true) (h_hostOut : F .hostOut = true) :
    ∀ a1 a2 a3, Eff F s0 (State.setRingCount s a1 a2 a3) := by
  intro a1 a2 a3
  unfold State.setRingCount
  repeat' with_reducible first
    | assumption
    | (extract_lets +onlyGivenNames x
       first
       | (refine Eff.cut F s0 x ?_ ?_; unfold x; clear x; rotate_left; intro _; clear_value x; rotate_left)
       | (refine EffP.cut F s0 x ?_ ?_; unfold x; clear x; rotate_left; intro _; clear_value x; rotate_left)
       | clear_value x)
    | refine State.setReg_eff ?_ h_rf _ _
    | refine State.cross_eff ?_ h_rf h_cir h_iln h_hostOut _
    | refine Eff.ite ?_ ?_
    | split

theorem State.dbMove_eff (h : Eff F s0 s) (h_rf : F .rf = true) (h_cir : F .cir = true) (h_iln : F .iln = true) (h_ldg : F .ldg = true) (h_hostOut : F .hostOut = true) :
    ∀ a1 a2 a3 a4 a5 a6, Eff F s0 (State.dbMove s a1 a2 a3 a4 a5 a6) := by
  intro a1 a2 a3 a4 a5 a6
  unfold State.dbMove
  repeat' with_reducible first
    | assumption
    | refine State.dbDrop_eff ?_ h_rf h_ldg _ _ _ _ _
    | refine State.setRingCount_eff ?_ h_rf h_cir h_iln h_hostOut _ _ _
    | split

theorem State.dbPtr_eff (h : Eff F s0 s) (h_rf : F .rf = true) (h_cir : F .cir = true) (h_iln : F .iln = true) (h_ldg : F .ldg = true) (h_hostOut : F .hostOut = true) :
    ∀ a1 a2 a3 a4 a5, Eff F s0 (State.dbPtr s a1 a2 a3 a4 a5) := by
  intro a1 a2 a3 a4 a5
  unfold State.dbPtr
  repeat' with_reducible first
    | assumption
    | (extract_lets +onlyGivenNames x
       first
       | (refine Eff.cut F s0 x ?_ ?_; unfold x; clear x; rotate_left; intro _; clear_value x; rotate_left)
       | (refine EffP.cut F s0 x ?_ ?_; unfold x; clear x; rotate_left; intro _; clear_value x; rotate_left)
       | clear_value x)
    | refine State.dbGate_eff ?_ h_rf h_ldg _ _ _ _ _
    | refine State.dbDrop_eff ?_ h_rf h_ldg _ _ _ _ _
    | refine State.dbMove_eff ?_ h_rf h_cir h_iln h_ldg h_hostOut _ _ _ _ _ _
    | refine EffO.of_eq (by assumption) ?_
    | split

theorem State.dbWord_eff (h : Eff F s0 s) (h_rf : F .rf = true) (h_ldg : F .ldg = true) (f0 : Nat → State) (h_f0 : ∀ y0, Eff F s0 (f0 y0)) :
    ∀ a1 a2 a3 a4 a5, Eff F s0 (State.dbWord s a1 a2 a3 a4 a5 f0) := by
  intro a1 a2 a3 a4 a5
  unfold State.dbWord
  repeat' with_reducible first
    | assumption
    | (extract_lets +onlyGivenNames x
       first
       | (refine Eff.cut F s0 x ?_ ?_; unfold x; clear x; rotate_left; intro _; clear_value x; rotate_left)
       | (refine EffP.cut F s0 x ?_ ?_; unfold x; clear x; rotate_left; intro _; clear_value x; rotate_left)
       | clear_value x)
    | refine State.dbGate_eff ?_ h_rf h_ldg _ _ _ _ _
    | refine State.dbDrop_eff ?_ h_rf h_ldg _ _ _ _ _
    | refine h_f0 _
    | refine EffP.fst ?_
    | refine EffP.of_eq (by assumption) ?_
    | refine EffO.of_eq (by assumption) ?_
    | split

theorem State.receiptDrop_eff (h : Eff F s0 s) (h_rf : F .rf = true) (h_cat : F .cat = true) :
    ∀ a1, Eff F s0 (State.receiptDrop s a1) := by
  intro a1
  unfold State.receiptDrop
  repeat' with_reducible first
    | assumption
    | (extract_lets +onlyGivenNames x
       first
       | (refine Eff.cut F s0 x ?_ ?_; unfold x; clear x; rotate_left; intro _; clear_value x; rotate_left)
       | (refine EffP.cut F s0 x ?_ ?_; unfold x; clear x; rotate_left; intro _; clear_value x; rotate_left)
       | clear_value x)
    | refine State.orReg_eff ?_ h_rf _ _
    | refine State.countSat_eff ?_ h_rf _ _ _ _
    | split
    | refine Eff.set_cat ?_ h_cat

theorem State.receiptDue_eff (h : Eff F s0 s) (h_rf : F .rf = true) (h_cir : F .cir = true) (h_cat : F .cat = true) :
    ∀ a1, Eff F s0 (State.receiptDue s a1) := by
  intro a1
  unfold State.receiptDue
  repeat' with_reducible first
    | assumption
    | refine State.receiptDrop_eff ?_ h_rf h_cat _
    | refine Eff.ite ?_ ?_
    | split
    | refine Eff.set_cir ?_ h_cir

theorem State.ringEnable_eff (h : Eff F s0 s) (h_rf : F .rf = true) (h_cir : F .cir = true) :
    ∀ a1 a2, Eff F s0 (State.ringEnable s a1 a2) := by
  intro a1 a2
  unfold State.ringEnable
  repeat' with_reducible first
    | assumption
    | (extract_lets +onlyGivenNames x
       first
       | (refine Eff.cut F s0 x ?_ ?_; unfold x; clear x; rotate_left; intro _; clear_value x; rotate_left)
       | (refine EffP.cut F s0 x ?_ ?_; unfold x; clear x; rotate_left; intro _; clear_value x; rotate_left)
       | clear_value x)
    | refine State.setReg_eff ?_ h_rf _ _
    | refine State.setRegBit_eff ?_ h_rf _ _ _
    | refine Eff.ite ?_ ?_
    | split
    | refine Eff.set_cir ?_ h_cir

theorem State.ringRecord_eff (h : Eff F s0 s) (h_rf : F .rf = true) (h_cir : F .cir = true) (h_cat : F .cat = true) :
    ∀ a1 a2 a3 a4 a5 a6, Eff F s0 (State.ringRecord s a1 a2 a3 a4 a5 a6) := by
  intro a1 a2 a3 a4 a5 a6
  unfold State.ringRecord
  repeat' with_reducible first
    | assumption
    | refine State.receiptDue_eff ?_ h_rf h_cir h_cat _
    | split

theorem State.ringRestart_eff (h : Eff F s0 s) (h_rf : F .rf = true) :
    ∀ a1, Eff F s0 (State.ringRestart s a1) := by
  intro a1
  unfold State.ringRestart
  repeat' with_reducible first
    | assumption
    | refine State.setRegBit_eff ?_ h_rf _ _ _
    | split

theorem State.ringStop_eff (h : Eff F s0 s) (h_rf : F .rf = true) (h_cir : F .cir = true) (h_cat : F .cat = true) (h_ldg : F .ldg = true) :
    ∀ a1 a2 a3, Eff F s0 (State.ringStop s a1 a2 a3) := by
  intro a1 a2 a3
  unfold State.ringStop
  repeat' with_reducible first
    | assumption
    | (extract_lets +onlyGivenNames x
       first
       | (refine Eff.cut F s0 x ?_ ?_; unfold x; clear x; rotate_left; intro _; clear_value x; rotate_left)
       | (refine EffP.cut F s0 x ?_ ?_; unfold x; clear x; rotate_left; intro _; clear_value x; rotate_left)
       | clear_value x)
    | refine State.setField_eff ?_ h_rf _ _ _ _
    | refine State.setRegBit_eff ?_ h_rf _ _ _
    | refine State.ringRecord_eff ?_ h_rf h_cir h_cat _ _ _ _ _ _
    | refine State.log_eff ?_ h_rf h_ldg _ _ _ _ _ _ _
    | refine EffP.fst ?_
    | refine EffP.of_eq (by assumption) ?_
    | refine Eff.ite ?_ ?_
    | split

theorem execDbPtrWrite_eff (h : Eff F s0 s) (h_rf : F .rf = true) (h_cir : F .cir = true) (h_iln : F .iln = true) (h_ldg : F .ldg = true) (h_hostOut : F .hostOut = true) :
    ∀ a0 a1 a2 a3 a4, EffX F s0 (execDbPtrWrite a0 a1 a2 a3 a4 s) := by
  intro a0 a1 a2 a3 a4
  unfold execDbPtrWrite
  repeat' with_reducible first
    | assumption
    | refine State.dbPtr_eff ?_ h_rf h_cir h_iln h_ldg h_hostOut _ _ _ _ _
    | refine EffX.next ?_
    | split

theorem execDbRestart_eff (h : Eff F s0 s) (h_rf : F .rf = true) (h_ldg : F .ldg = true) :
    ∀ a0 a1 a2 a3, EffX F s0 (execDbRestart a0 a1 a2 a3 s) := by
  intro a0 a1 a2 a3
  unfold execDbRestart
  repeat' with_reducible first
    | assumption
    | refine State.dbWord_eff ?_ h_rf h_ldg _ (fun _ => ?_) _ _ _ _ _
    | refine State.ringRestart_eff ?_ h_rf _
    | refine EffX.next ?_
    | split

theorem execRingEnable_eff (h : Eff F s0 s) (h_rf : F .rf = true) (h_cir : F .cir = true) :
    ∀ a0 a1, EffX F s0 (execRingEnable a0 a1 s) := by
  intro a0 a1
  unfold execRingEnable
  repeat' with_reducible first
    | assumption
    | refine State.ringEnable_eff ?_ h_rf h_cir _ _
    | refine EffX.next ?_
    | refine Eff.ite ?_ ?_
    | refine EffX.ite ?_ ?_
    | split

theorem execWmarkClear_eff (h : Eff F s0 s) (h_rf : F .rf = true) (h_ldg : F .ldg = true) :
    ∀ a0 a1 a2 a3, EffX F s0 (execWmarkClear a0 a1 a2 a3 s) := by
  intro a0 a1 a2 a3
  unfold execWmarkClear
  repeat' with_reducible first
    | assumption
    | refine State.dbWord_eff ?_ h_rf h_ldg _ (fun _ => ?_) _ _ _ _ _
    | refine State.clearCrossed_eff ?_ h_rf _
    | refine EffX.next ?_
    | split

end Sys2Proof.Machine
end

