-- ==== Sys2Proof/Laws/FrameFrames.lean ====
section
/-! SUPPORT. Frames of the operations of Machine/Frames.lean: what each may change. -/

namespace Sys2Proof.Machine

variable {F : Comp → Bool} {s0 s : State}

theorem State.modKpr_eff (h : Eff F s0 s) (h_kpr : F .kpr = true) :
    ∀ a1, Eff F s0 (State.modKpr s a1) := by
  intro a1
  unfold State.modKpr
  repeat' with_reducible first
    | assumption
    | split
    | refine Eff.set_kpr ?_ h_kpr

theorem State.setHolding_eff (h : Eff F s0 s) (h_kpr : F .kpr = true) :
    ∀ a1, Eff F s0 (State.setHolding s a1) := by
  intro a1
  unfold State.setHolding
  repeat' with_reducible first
    | assumption
    | refine State.modKpr_eff ?_ h_kpr _
    | split

theorem State.modLeaf_eff (h : Eff F s0 s) (h_kpr : F .kpr = true) :
    ∀ a1 a2 a3, Eff F s0 (State.modLeaf s a1 a2 a3) := by
  intro a1 a2 a3
  unfold State.modLeaf
  repeat' with_reducible first
    | assumption
    | refine State.setHolding_eff ?_ h_kpr _
    | split

theorem State.overSettle_eff (h : Eff F s0 s) (h_kpr : F .kpr = true) :
    Eff F s0 (State.overSettle s) := by
  unfold State.overSettle
  repeat' with_reducible first
    | assumption
    | refine State.modKpr_eff ?_ h_kpr _
    | refine EffP.fst ?_
    | refine EffP.of_eq (by assumption) ?_
    | refine Eff.ite ?_ ?_
    | split

end Sys2Proof.Machine
end

