-- ==== Sys2Proof/Laws/FrameStamps.lean ====
section
/-! SUPPORT. Frames of the operations of Machine/Stamps.lean: what each may change. -/

namespace Sys2Proof.Machine

variable {F : Comp → Bool} {s0 s : State}

theorem State.changeArm_eff (h : Eff F s0 s) (h_rf : F .rf = true) (h_stp : F .stp = true) :
    Eff F s0 (State.changeArm s) := by
  unfold State.changeArm
  repeat' with_reducible first
    | assumption
    | (extract_lets +onlyGivenNames x
       first
       | (refine Eff.cut F s0 x ?_ ?_; unfold x; clear x; rotate_left; intro _; clear_value x; rotate_left)
       | (refine EffP.cut F s0 x ?_ ?_; unfold x; clear x; rotate_left; intro _; clear_value x; rotate_left)
       | clear_value x)
    | refine State.setField_eff ?_ h_rf _ _ _ _
    | refine Eff.ite ?_ ?_
    | split
    | refine Eff.set_stp ?_ h_stp

theorem State.changeCancel_eff (h : Eff F s0 s) (h_rf : F .rf = true) (h_stp : F .stp = true) :
    Eff F s0 (State.changeCancel s) := by
  unfold State.changeCancel
  repeat' with_reducible first
    | assumption
    | (extract_lets +onlyGivenNames x
       first
       | (refine Eff.cut F s0 x ?_ ?_; unfold x; clear x; rotate_left; intro _; clear_value x; rotate_left)
       | (refine EffP.cut F s0 x ?_ ?_; unfold x; clear x; rotate_left; intro _; clear_value x; rotate_left)
       | clear_value x)
    | refine State.setField_eff ?_ h_rf _ _ _ _
    | split
    | refine Eff.set_stp ?_ h_stp

theorem State.relockAt_eff (h : Eff F s0 s) (h_rf : F .rf = true) (h_stp : F .stp = true) (h_bel : F .bel = true) (h_ldg : F .ldg = true) :
    ∀ a1 a2, Eff F s0 (State.relockAt s a1 a2) := by
  intro a1 a2
  unfold State.relockAt
  repeat' with_reducible first
    | assumption
    | (extract_lets +onlyGivenNames x
       first
       | (refine Eff.cut F s0 x ?_ ?_; unfold x; clear x; rotate_left; intro _; clear_value x; rotate_left)
       | (refine EffP.cut F s0 x ?_ ?_; unfold x; clear x; rotate_left; intro _; clear_value x; rotate_left)
       | clear_value x)
    | refine State.setReg_eff ?_ h_rf _ _
    | refine State.event_eff ?_ h_rf h_bel _ _
    | refine State.log_eff ?_ h_rf h_ldg _ _ _ _ _ _ _
    | refine Eff.ite ?_ ?_
    | split
    | refine Eff.set_stp ?_ h_stp

theorem State.holdoverEdge_eff (h : Eff F s0 s) (h_rf : F .rf = true) (h_stp : F .stp = true) (h_bel : F .bel = true) (h_ldg : F .ldg = true) :
    ∀ a1 a2, Eff F s0 (State.holdoverEdge s a1 a2) := by
  intro a1 a2
  unfold State.holdoverEdge
  repeat' with_reducible first
    | assumption
    | (extract_lets +onlyGivenNames x
       first
       | (refine Eff.cut F s0 x ?_ ?_; unfold x; clear x; rotate_left; intro _; clear_value x; rotate_left)
       | (refine EffP.cut F s0 x ?_ ?_; unfold x; clear x; rotate_left; intro _; clear_value x; rotate_left)
       | clear_value x)
    | refine State.relockAt_eff ?_ h_rf h_stp h_bel h_ldg _ _
    | refine Eff.ite ?_ ?_
    | split
    | refine Eff.set_stp ?_ h_stp

theorem State.masterEdge_eff (h : Eff F s0 s) (h_rf : F .rf = true) (h_stp : F .stp = true) (h_bel : F .bel = true) (h_ldg : F .ldg = true) :
    ∀ a1 a2, Eff F s0 (State.masterEdge s a1 a2) := by
  intro a1 a2
  unfold State.masterEdge
  repeat' with_reducible first
    | assumption
    | refine State.holdoverEdge_eff ?_ h_rf h_stp h_bel h_ldg _ _
    | refine State.countSat_eff ?_ h_rf _ _ _ _
    | refine Eff.ite ?_ ?_
    | split
    | refine Eff.set_stp ?_ h_stp

theorem State.otherEdge_eff (h : Eff F s0 s) (h_stp : F .stp = true) :
    ∀ a1 a2, Eff F s0 (State.otherEdge s a1 a2) := by
  intro a1 a2
  unfold State.otherEdge
  repeat' with_reducible first
    | assumption
    | (extract_lets +onlyGivenNames x
       first
       | (refine Eff.cut F s0 x ?_ ?_; unfold x; clear x; rotate_left; intro _; clear_value x; rotate_left)
       | (refine EffP.cut F s0 x ?_ ?_; unfold x; clear x; rotate_left; intro _; clear_value x; rotate_left)
       | clear_value x)
    | refine Eff.ite ?_ ?_
    | split
    | refine Eff.set_stp ?_ h_stp

theorem State.relock_eff (h : Eff F s0 s) (h_stp : F .stp = true) :
    Eff F s0 (State.relock s) := by
  unfold State.relock
  repeat' with_reducible first
    | assumption
    | refine Eff.ite ?_ ?_
    | split
    | refine Eff.set_stp ?_ h_stp

theorem State.stampInputs_eff (h : Eff F s0 s) (h_rf : F .rf = true) (h_stp : F .stp = true) :
    Eff F s0 (State.stampInputs s) := by
  unfold State.stampInputs
  repeat' with_reducible first
    | assumption
    | (extract_lets +onlyGivenNames x
       first
       | (refine Eff.cut F s0 x ?_ ?_; unfold x; clear x; rotate_left; intro _; clear_value x; rotate_left)
       | (refine EffP.cut F s0 x ?_ ?_; unfold x; clear x; rotate_left; intro _; clear_value x; rotate_left)
       | clear_value x)
    | refine State.countSat_eff ?_ h_rf _ _ _ _
    | refine State.setReg_eff ?_ h_rf _ _
    | refine Eff.ite ?_ ?_
    | split
    | refine Eff.set_stp ?_ h_stp

theorem State.stampPeriod_eff (h : Eff F s0 s) (h_rf : F .rf = true) (h_stp : F .stp = true) :
    Eff F s0 (State.stampPeriod s) := by
  unfold State.stampPeriod
  repeat' with_reducible first
    | assumption
    | (extract_lets +onlyGivenNames x
       first
       | (refine Eff.cut F s0 x ?_ ?_; unfold x; clear x; rotate_left; intro _; clear_value x; rotate_left)
       | (refine EffP.cut F s0 x ?_ ?_; unfold x; clear x; rotate_left; intro _; clear_value x; rotate_left)
       | clear_value x)
    | refine State.setReg_eff ?_ h_rf _ _
    | refine Eff.ite ?_ ?_
    | split
    | refine Eff.set_stp ?_ h_stp

theorem State.stampState_eff (h : Eff F s0 s) (h_rf : F .rf = true) (h_stp : F .stp = true) (h_bel : F .bel = true) (h_ldg : F .ldg = true) :
    ∀ a1 a2, Eff F s0 (State.stampState s a1 a2) := by
  intro a1 a2
  unfold State.stampState
  repeat' with_reducible first
    | assumption
    | (extract_lets +onlyGivenNames x
       first
       | (refine Eff.cut F s0 x ?_ ?_; unfold x; clear x; rotate_left; intro _; clear_value x; rotate_left)
       | (refine EffP.cut F s0 x ?_ ?_; unfold x; clear x; rotate_left; intro _; clear_value x; rotate_left)
       | clear_value x)
    | refine State.log_eff ?_ h_rf h_ldg _ _ _ _ _ _ _
    | refine State.event_eff ?_ h_rf h_bel _ _
    | refine Eff.ite ?_ ?_
    | split
    | refine Eff.set_stp ?_ h_stp

theorem State.takeCtl_eff (h : Eff F s0 s) (h_stp : F .stp = true) :
    Eff F s0 (State.takeCtl s) := by
  unfold State.takeCtl
  repeat' with_reducible first
    | assumption
    | split
    | refine Eff.set_stp ?_ h_stp

theorem State.stampClock_eff (h : Eff F s0 s) (h_rf : F .rf = true) (h_stp : F .stp = true) (h_shelves : F .shelves = true) (h_bel : F .bel = true) (h_ldg : F .ldg = true) (h_obs : F .obs = true) :
    Eff F s0 (State.stampClock s) := by
  unfold State.stampClock
  repeat' with_reducible first
    | assumption
    | (extract_lets +onlyGivenNames x
       first
       | (refine Eff.cut F s0 x ?_ ?_; unfold x; clear x; rotate_left; intro _; clear_value x; rotate_left)
       | (refine EffP.cut F s0 x ?_ ?_; unfold x; clear x; rotate_left; intro _; clear_value x; rotate_left)
       | clear_value x)
    | refine State.stampInputs_eff ?_ h_rf h_stp
    | refine State.advance_eff ?_ h_stp h_shelves h_ldg h_obs _
    | refine State.event_eff ?_ h_rf h_bel _ _
    | refine State.stampPeriod_eff ?_ h_rf h_stp
    | refine State.stampState_eff ?_ h_rf h_stp h_bel h_ldg _ _
    | refine State.takeCtl_eff ?_ h_stp
    | refine Eff.ite ?_ ?_
    | split
    | refine Eff.set_stp ?_ h_stp

theorem execEpochFrame_eff (h : Eff F s0 s) (h_rf : F .rf = true) (h_stp : F .stp = true) (h_bel : F .bel = true) (h_ldg : F .ldg = true) :
    EffX F s0 (execEpochFrame s) := by
  unfold execEpochFrame
  repeat' with_reducible first
    | assumption
    | (extract_lets +onlyGivenNames x
       first
       | (refine Eff.cut F s0 x ?_ ?_; unfold x; clear x; rotate_left; intro _; clear_value x; rotate_left)
       | (refine EffP.cut F s0 x ?_ ?_; unfold x; clear x; rotate_left; intro _; clear_value x; rotate_left)
       | clear_value x)
    | refine State.countSat_eff ?_ h_rf _ _ _ _
    | refine State.event_eff ?_ h_rf h_bel _ _
    | refine State.log_eff ?_ h_rf h_ldg _ _ _ _ _ _ _
    | refine EffX.next ?_
    | refine Eff.ite ?_ ?_
    | refine EffX.ite ?_ ?_
    | split
    | refine Eff.set_stp ?_ h_stp

theorem execRelock_eff (h : Eff F s0 s) (h_stp : F .stp = true) :
    EffX F s0 (execRelock s) := by
  unfold execRelock
  repeat' with_reducible first
    | assumption
    | refine State.relock_eff ?_ h_stp
    | refine EffX.next ?_
    | refine Eff.ite ?_ ?_
    | refine EffX.ite ?_ ?_
    | split

theorem execStampChangeArm_eff (h : Eff F s0 s) (h_rf : F .rf = true) (h_stp : F .stp = true) :
    EffX F s0 (execStampChangeArm s) := by
  unfold execStampChangeArm
  repeat' with_reducible first
    | assumption
    | refine State.changeArm_eff ?_ h_rf h_stp
    | refine EffX.next ?_
    | refine Eff.ite ?_ ?_
    | refine EffX.ite ?_ ?_
    | split

theorem execStampChangeCancel_eff (h : Eff F s0 s) (h_rf : F .rf = true) (h_stp : F .stp = true) :
    EffX F s0 (execStampChangeCancel s) := by
  unfold execStampChangeCancel
  repeat' with_reducible first
    | assumption
    | refine State.changeCancel_eff ?_ h_rf h_stp
    | refine EffX.next ?_
    | refine Eff.ite ?_ ?_
    | refine EffX.ite ?_ ?_
    | split

theorem execStampLost_eff (h : Eff F s0 s) (h_rf : F .rf = true) (h_stp : F .stp = true) (h_bel : F .bel = true) (h_ldg : F .ldg = true) :
    EffX F s0 (execStampLost s) := by
  unfold execStampLost
  repeat' with_reducible first
    | assumption
    | (extract_lets +onlyGivenNames x
       first
       | (refine Eff.cut F s0 x ?_ ?_; unfold x; clear x; rotate_left; intro _; clear_value x; rotate_left)
       | (refine EffP.cut F s0 x ?_ ?_; unfold x; clear x; rotate_left; intro _; clear_value x; rotate_left)
       | clear_value x)
    | refine State.log_eff ?_ h_rf h_ldg _ _ _ _ _ _ _
    | refine State.event_eff ?_ h_rf h_bel _ _
    | refine EffX.next ?_
    | refine Eff.ite ?_ ?_
    | refine EffX.ite ?_ ?_
    | split
    | refine Eff.set_stp ?_ h_stp

theorem execStampNoFrame_eff (h : Eff F s0 s) (h_rf : F .rf = true) (h_stp : F .stp = true) (h_bel : F .bel = true) (h_ldg : F .ldg = true) :
    EffX F s0 (execStampNoFrame s) := by
  unfold execStampNoFrame
  repeat' with_reducible first
    | assumption
    | refine State.log_eff ?_ h_rf h_ldg _ _ _ _ _ _ _
    | refine State.event_eff ?_ h_rf h_bel _ _
    | refine EffX.next ?_
    | refine Eff.ite ?_ ?_
    | refine EffX.ite ?_ ?_
    | split
    | refine Eff.set_stp ?_ h_stp

theorem execStampPulse_eff (h : Eff F s0 s) (h_rf : F .rf = true) (h_stp : F .stp = true) (h_bel : F .bel = true) (h_ldg : F .ldg = true) :
    ∀ a0 a1 a2, EffX F s0 (execStampPulse a0 a1 a2 s) := by
  intro a0 a1 a2
  unfold execStampPulse
  repeat' with_reducible first
    | assumption
    | (extract_lets +onlyGivenNames x
       first
       | (refine Eff.cut F s0 x ?_ ?_; unfold x; clear x; rotate_left; intro _; clear_value x; rotate_left)
       | (refine EffP.cut F s0 x ?_ ?_; unfold x; clear x; rotate_left; intro _; clear_value x; rotate_left)
       | clear_value x)
    | refine State.countSat_eff ?_ h_rf _ _ _ _
    | refine State.masterEdge_eff ?_ h_rf h_stp h_bel h_ldg _ _
    | refine State.otherEdge_eff ?_ h_stp _ _
    | refine EffX.next ?_
    | refine Eff.ite ?_ ?_
    | refine EffX.ite ?_ ?_
    | split

end Sys2Proof.Machine
end

