-- ==== Sys2Proof/Laws/FrameSlips.lean ====
section
/-! SUPPORT. Frames of the operations of Machine/Slips.lean: what each may change. -/

namespace Sys2Proof.Machine

variable {F : Comp → Bool} {s0 s : State}

theorem State.capture_eff (h : Eff F s0 s) (h_rf : F .rf = true) (h_cat : F .cat = true) :
    ∀ a1 a2 a3 a4, Eff F s0 (State.capture s a1 a2 a3 a4) := by
  intro a1 a2 a3 a4
  unfold State.capture
  repeat' with_reducible first
    | assumption
    | (extract_lets +onlyGivenNames x
       first
       | (refine Eff.cut F s0 x ?_ ?_; unfold x; clear x; rotate_left; intro _; clear_value x; rotate_left)
       | (refine EffP.cut F s0 x ?_ ?_; unfold x; clear x; rotate_left; intro _; clear_value x; rotate_left)
       | clear_value x)
    | refine State.countSat_eff ?_ h_rf _ _ _ _
    | refine State.setRegBit_eff ?_ h_rf _ _ _
    | refine Eff.ite ?_ ?_
    | split
    | refine Eff.set_cat ?_ h_cat

theorem State.setSlip_eff (h : Eff F s0 s) (h_cat : F .cat = true) :
    ∀ a1 a2, Eff F s0 (State.setSlip s a1 a2) := by
  intro a1 a2
  unfold State.setSlip
  repeat' with_reducible first
    | assumption
    | split
    | refine Eff.set_cat ?_ h_cat

theorem State.startAccession_eff (h : Eff F s0 s) (h_cat : F .cat = true) (h_bind : F .bind = true) (h_bel : F .bel = true) :
    ∀ a1 a2 a3, Eff F s0 (State.startAccession s a1 a2 a3) := by
  intro a1 a2 a3
  unfold State.startAccession
  repeat' with_reducible first
    | assumption
    | (extract_lets +onlyGivenNames x
       first
       | (refine Eff.cut F s0 x ?_ ?_; unfold x; clear x; rotate_left; intro _; clear_value x; rotate_left)
       | (refine EffP.cut F s0 x ?_ ?_; unfold x; clear x; rotate_left; intro _; clear_value x; rotate_left)
       | clear_value x)
    | refine State.setSlip_eff ?_ h_cat _ _
    | refine State.bell_eff ?_ h_bel _ _
    | refine Eff.ite ?_ ?_
    | split
    | refine Eff.set_bind ?_ h_bind

theorem State.fillBindery_eff (h : Eff F s0 s) (h_cat : F .cat = true) (h_bind : F .bind = true) (h_bel : F .bel = true) :
    EffO F s0 (State.fillBindery s) := by
  unfold State.fillBindery
  repeat' with_reducible first
    | assumption
    | refine State.startAccession_eff ?_ h_cat h_bind h_bel _ _ _
    | exact EffO.none
    | refine EffO.some ?_
    | refine EffO.map (fun _ => ?_)
    | refine EffP.fst ?_
    | refine EffP.of_eq (by assumption) ?_
    | refine Eff.ite ?_ ?_
    | refine EffO.ite ?_ ?_
    | split

theorem State.retire_eff (h : Eff F s0 s) (h_rf : F .rf = true) (h_cir : F .cir = true) (h_cat : F .cat = true) :
    ∀ a1 a2 a3, Eff F s0 (State.retire s a1 a2 a3) := by
  intro a1 a2 a3
  unfold State.retire
  repeat' with_reducible first
    | assumption
    | (extract_lets +onlyGivenNames x
       first
       | (refine Eff.cut F s0 x ?_ ?_; unfold x; clear x; rotate_left; intro _; clear_value x; rotate_left)
       | (refine EffP.cut F s0 x ?_ ?_; unfold x; clear x; rotate_left; intro _; clear_value x; rotate_left)
       | clear_value x)
    | refine State.capture_eff ?_ h_rf h_cat _ _ _ _
    | refine State.receiptDue_eff ?_ h_rf h_cir h_cat _
    | refine State.setSlip_eff ?_ h_cat _ _
    | refine EffP.fst ?_
    | refine EffP.of_eq (by assumption) ?_
    | refine Eff.ite ?_ ?_
    | split
    | refine Eff.set_cir_cat ?_ h_cir h_cat

theorem State.readyChecks_eff (h : Eff F s0 s) (h_rf : F .rf = true) (h_ecc : F .ecc = true) (h_kpr : F .kpr = true) (h_bel : F .bel = true) (h_ldg : F .ldg = true) (h_obs : F .obs = true) :
    ∀ a1 a2, EffP F s0 (State.readyChecks s a1 a2) := by
  intro a1 a2
  unfold State.readyChecks
  repeat' with_reducible first
    | assumption
    | (extract_lets +onlyGivenNames x
       first
       | (refine Eff.cut F s0 x ?_ ?_; unfold x; clear x; rotate_left; intro _; clear_value x; rotate_left)
       | (refine EffP.cut F s0 x ?_ ?_; unfold x; clear x; rotate_left; intro _; clear_value x; rotate_left)
       | clear_value x)
    | refine State.memRefused_eff ?_ h_rf h_ldg _ _ _
    | refine State.readFor_eff ?_ h_rf h_ecc h_kpr h_bel h_ldg h_obs _ _ _ _
    | refine EffP.fst ?_
    | refine EffP.of_eq (by assumption) ?_
    | refine EffP.ite ?_ ?_
    | refine Eff.ite ?_ ?_
    | split
    | refine EffP.mk ?_ _

theorem State.leaveEntered_eff (h : Eff F s0 s) (h_rf : F .rf = true) (h_ecc : F .ecc = true) (h_cir : F .cir = true) (h_cat : F .cat = true) (h_kpr : F .kpr = true) (h_bel : F .bel = true) (h_ldg : F .ldg = true) (h_obs : F .obs = true) :
    ∀ a1 a2, Eff F s0 (State.leaveEntered s a1 a2) := by
  intro a1 a2
  unfold State.leaveEntered
  repeat' with_reducible first
    | assumption
    | (extract_lets +onlyGivenNames x
       first
       | (refine Eff.cut F s0 x ?_ ?_; unfold x; clear x; rotate_left; intro _; clear_value x; rotate_left)
       | (refine EffP.cut F s0 x ?_ ?_; unfold x; clear x; rotate_left; intro _; clear_value x; rotate_left)
       | clear_value x)
    | refine State.retire_eff ?_ h_rf h_cir h_cat _ _ _
    | refine State.setSlip_eff ?_ h_cat _ _
    | refine State.readyChecks_eff ?_ h_rf h_ecc h_kpr h_bel h_ldg h_obs _ _
    | refine EffP.fst ?_
    | refine EffP.of_eq (by assumption) ?_
    | refine EffP.ite ?_ ?_
    | refine Eff.ite ?_ ?_
    | split
    | refine EffP.mk ?_ _

theorem State.withdrawVolume_eff (h : Eff F s0 s) (h_rf : F .rf = true) (h_cir : F .cir = true) (h_cat : F .cat = true) (h_bind : F .bind = true) :
    ∀ a1 a2, Eff F s0 (State.withdrawVolume s a1 a2) := by
  intro a1 a2
  unfold State.withdrawVolume
  repeat' with_reducible first
    | assumption
    | (extract_lets +onlyGivenNames x
       first
       | (refine Eff.cut F s0 x ?_ ?_; unfold x; clear x; rotate_left; intro _; clear_value x; rotate_left)
       | (refine EffP.cut F s0 x ?_ ?_; unfold x; clear x; rotate_left; intro _; clear_value x; rotate_left)
       | clear_value x)
    | refine State.retire_eff ?_ h_rf h_cir h_cat _ _ _
    | refine Eff.ite ?_ ?_
    | split
    | refine Eff.set_bind ?_ h_bind

theorem State.startSlip_eff (h : Eff F s0 s) (h_rf : F .rf = true) (h_cir : F .cir = true) (h_cat : F .cat = true) (h_bind : F .bind = true) :
    ∀ a1 a2, Eff F s0 (State.startSlip s a1 a2) := by
  intro a1 a2
  unfold State.startSlip
  repeat' with_reducible first
    | assumption
    | (extract_lets +onlyGivenNames x
       first
       | (refine Eff.cut F s0 x ?_ ?_; unfold x; clear x; rotate_left; intro _; clear_value x; rotate_left)
       | (refine EffP.cut F s0 x ?_ ?_; unfold x; clear x; rotate_left; intro _; clear_value x; rotate_left)
       | clear_value x)
    | refine State.retire_eff ?_ h_rf h_cir h_cat _ _ _
    | refine State.setSlip_eff ?_ h_cat _ _
    | refine State.withdrawVolume_eff ?_ h_rf h_cir h_cat h_bind _ _
    | refine Eff.ite ?_ ?_
    | split
    | refine Eff.set_cir ?_ h_cir

theorem State.settleOne_eff (h : Eff F s0 s) (h_rf : F .rf = true) (h_ecc : F .ecc = true) (h_cir : F .cir = true) (h_cat : F .cat = true) (h_bind : F .bind = true) (h_kpr : F .kpr = true) (h_bel : F .bel = true) (h_ldg : F .ldg = true) (h_obs : F .obs = true) :
    EffO F s0 (State.settleOne s) := by
  unfold State.settleOne
  repeat' with_reducible first
    | assumption
    | refine State.leaveEntered_eff ?_ h_rf h_ecc h_cir h_cat h_kpr h_bel h_ldg h_obs _ _
    | refine State.startSlip_eff ?_ h_rf h_cir h_cat h_bind _ _
    | refine State.fillBindery_eff ?_ h_cat h_bind h_bel
    | exact EffO.none
    | refine EffO.some ?_
    | refine EffO.map (fun _ => ?_)
    | refine EffO.of_eq (by assumption) ?_
    | split

theorem State.settleN_eff (h : Eff F s0 s) (h_rf : F .rf = true) (h_ecc : F .ecc = true) (h_cir : F .cir = true) (h_cat : F .cat = true) (h_bind : F .bind = true) (h_kpr : F .kpr = true) (h_bel : F .bel = true) (h_ldg : F .ldg = true) (h_obs : F .obs = true) :
    ∀ a0, Eff F s0 (State.settleN a0 s) := by
  intro a0
  induction a0 generalizing s with
  | zero => exact h
  | succ n ih =>
    rw [State.settleN]
    repeat' with_reducible first
      | assumption
      | refine State.settleOne_eff ?_ h_rf h_ecc h_cir h_cat h_bind h_kpr h_bel h_ldg h_obs
      | apply ih
      | refine EffO.of_eq (by assumption) ?_
      | split

theorem State.settle_eff (h : Eff F s0 s) (h_rf : F .rf = true) (h_ecc : F .ecc = true) (h_cir : F .cir = true) (h_cat : F .cat = true) (h_bind : F .bind = true) (h_kpr : F .kpr = true) (h_bel : F .bel = true) (h_ldg : F .ldg = true) (h_obs : F .obs = true) :
    Eff F s0 (State.settle s) := by
  unfold State.settle
  repeat' with_reducible first
    | assumption
    | refine State.settleN_eff ?_ h_rf h_ecc h_cir h_cat h_bind h_kpr h_bel h_ldg h_obs _
    | refine Eff.ite ?_ ?_
    | split

theorem State.finish_eff (h : Eff F s0 s) (h_rf : F .rf = true) (h_ecc : F .ecc = true) (h_cir : F .cir = true) (h_cat : F .cat = true) (h_bind : F .bind = true) (h_kpr : F .kpr = true) (h_bel : F .bel = true) (h_ldg : F .ldg = true) (h_obs : F .obs = true) :
    ∀ a1 a2, Eff F s0 (State.finish s a1 a2) := by
  intro a1 a2
  unfold State.finish
  repeat' with_reducible first
    | assumption
    | refine State.settle_eff ?_ h_rf h_ecc h_cir h_cat h_bind h_kpr h_bel h_ldg h_obs
    | refine State.retire_eff ?_ h_rf h_cir h_cat _ _ _
    | split

theorem State.modSlip_eff (h : Eff F s0 s) (h_cat : F .cat = true) :
    ∀ a1 a2, Eff F s0 (State.modSlip s a1 a2) := by
  intro a1 a2
  unfold State.modSlip
  repeat' with_reducible first
    | assumption
    | refine State.setSlip_eff ?_ h_cat _ _
    | split

theorem State.slipFault_eff (h : Eff F s0 s) (h_rf : F .rf = true) (h_cat : F .cat = true) :
    ∀ a1 a2 a3, Eff F s0 (State.slipFault s a1 a2 a3) := by
  intro a1 a2 a3
  unfold State.slipFault
  repeat' with_reducible first
    | assumption
    | refine State.modSlip_eff ?_ h_cat _ _
    | refine State.capture_eff ?_ h_rf h_cat _ _ _ _
    | refine Eff.ite ?_ ?_
    | split

end Sys2Proof.Machine
end

