-- ==== Sys2Proof/Laws/FrameAdders.lean ====
section
/-! SUPPORT. Frames of the operations of Machine/Adders.lean: what each may change. -/

namespace Sys2Proof.Machine

variable {F : Comp → Bool} {s0 s : State}

theorem State.addElement_eff (h : Eff F s0 s) (h_mem : F .mem = true) :
    ∀ a1 a2 a3, Eff F s0 (State.addElement s a1 a2 a3) := by
  intro a1 a2 a3
  unfold State.addElement
  repeat' with_reducible first
    | assumption
    | refine Eff.ite ?_ ?_
    | split
    | refine Eff.set_mem ?_ h_mem ?_
    | intro _
    | refine Memory.wf_write _ _ ?_
    | refine Memory.wf_writeN _ _ ?_
    | refine Memory.wf_writeLe _ _ _ ?_
    | refine Memory.wf_clear _ _ ?_
    | refine Memory.wf_dropOnDie ?_
    | refine Memory.wf_copy _ _ _ ?_
    | refine RegFile.wf_set _ _ ?_
    | refine RegFile.wf_filter _ ?_

theorem State.addMem_eff (h : Eff F s0 s) (h_rf : F .rf = true) (h_mem : F .mem = true) (h_ecc : F .ecc = true) (h_kpr : F .kpr = true) (h_bel : F .bel = true) (h_ldg : F .ldg = true) (h_obs : F .obs = true) :
    ∀ a1 a2 a3 a4 a5, EffP F s0 (State.addMem s a1 a2 a3 a4 a5) := by
  intro a1 a2 a3 a4 a5
  unfold State.addMem
  repeat' with_reducible first
    | assumption
    | (extract_lets +onlyGivenNames x
       first
       | (refine Eff.cut F s0 x ?_ ?_; unfold x; clear x; rotate_left; intro _; clear_value x; rotate_left)
       | (refine EffP.cut F s0 x ?_ ?_; unfold x; clear x; rotate_left; intro _; clear_value x; rotate_left)
       | clear_value x)
    | refine State.watch_eff ?_ h_rf h_bel h_ldg h_obs _ _ _ _
    | refine State.eccRead_eff ?_ h_rf h_ecc h_kpr h_ldg _
    | refine State.addElement_eff ?_ h_mem _ _ _
    | refine State.touchLeaves_eff ?_ h_kpr _ _ _ _
    | refine State.logAll_eff ?_ h_rf h_kpr h_bel h_ldg _ _ _
    | refine Eff.foldl ?_ (fun _ _ _ => ?_)
    | refine EffP.foldl ?_ (fun _ _ _ => ?_)
    | refine EffP.fst ?_
    | refine EffP.of_eq (by assumption) ?_
    | split
    | refine EffP.mk ?_ _

theorem State.addFor_eff (h : Eff F s0 s) (h_rf : F .rf = true) (h_mem : F .mem = true) (h_ecc : F .ecc = true) (h_kpr : F .kpr = true) (h_bel : F .bel = true) (h_ldg : F .ldg = true) (h_obs : F .obs = true) :
    ∀ a1 a2 a3 a4 a5, EffP F s0 (State.addFor s a1 a2 a3 a4 a5) := by
  intro a1 a2 a3 a4 a5
  unfold State.addFor
  repeat' with_reducible first
    | assumption
    | refine State.addMem_eff ?_ h_rf h_mem h_ecc h_kpr h_bel h_ldg h_obs _ _ _ _ _
    | refine State.memRefused_eff ?_ h_rf h_ldg _ _ _
    | refine EffP.fst ?_
    | refine EffP.of_eq (by assumption) ?_
    | refine EffP.ite ?_ ?_
    | refine Eff.ite ?_ ?_
    | split
    | refine EffP.mk ?_ _

theorem State.addMay_eff (h : Eff F s0 s) (h_rf : F .rf = true) (h_mem : F .mem = true) (h_ecc : F .ecc = true) (h_kpr : F .kpr = true) (h_bel : F .bel = true) (h_ldg : F .ldg = true) (h_obs : F .obs = true) :
    ∀ a1 a2 a3 a4 a5 a6, EffP F s0 (State.addMay s a1 a2 a3 a4 a5 a6) := by
  intro a1 a2 a3 a4 a5 a6
  unfold State.addMay
  repeat' with_reducible first
    | assumption
    | refine State.withError_eff ?_ h_kpr _ (fun _ _ => ?_) _
    | refine State.addFor_eff ?_ h_rf h_mem h_ecc h_kpr h_bel h_ldg h_obs _ _ _ _ _
    | refine EffP.fst ?_
    | refine EffP.of_eq (by assumption) ?_
    | split
    | refine EffP.mk ?_ _

theorem State.adderAnswer_eff (h : Eff F s0 s) (h_kpr : F .kpr = true) :
    ∀ a1 a2, Eff F s0 (State.adderAnswer s a1 a2) := by
  intro a1 a2
  unfold State.adderAnswer
  repeat' with_reducible first
    | assumption
    | split
    | refine Eff.set_kpr ?_ h_kpr

theorem State.holdAdd_eff (h : Eff F s0 s) (h_kpr : F .kpr = true) :
    ∀ a1, Eff F s0 (State.holdAdd s a1) := by
  intro a1
  unfold State.holdAdd
  repeat' with_reducible first
    | assumption
    | split
    | refine Eff.set_kpr ?_ h_kpr

theorem State.adderDone_eff (h : Eff F s0 s) (h_kpr : F .kpr = true) :
    ∀ a1 a2 a3 a4 a5 a6 a7, Eff F s0 (State.adderDone s a1 a2 a3 a4 a5 a6 a7) := by
  intro a1 a2 a3 a4 a5 a6 a7
  unfold State.adderDone
  repeat' with_reducible first
    | assumption
    | refine State.holdAdd_eff ?_ h_kpr _
    | refine State.adderAnswer_eff ?_ h_kpr _ _
    | refine Eff.ite ?_ ?_
    | split

end Sys2Proof.Machine
end

