-- ==== Sys2Proof/Laws/FrameIlnSend.lean ====
section
/-! SUPPORT. Frames of the operations of Machine/IlnSend.lean: what each may change. -/

namespace Sys2Proof.Machine

variable {F : Comp → Bool} {s0 s : State}

theorem State.modIln_eff (h : Eff F s0 s) (h_iln : F .iln = true) :
    ∀ a1, Eff F s0 (State.modIln s a1) := by
  intro a1
  unfold State.modIln
  repeat' with_reducible first
    | assumption
    | split
    | refine Eff.set_iln ?_ h_iln

theorem State.setPeer_eff (h : Eff F s0 s) (h_iln : F .iln = true) :
    ∀ a1 a2, Eff F s0 (State.setPeer s a1 a2) := by
  intro a1 a2
  unfold State.setPeer
  repeat' with_reducible first
    | assumption
    | refine State.modIln_eff ?_ h_iln _
    | split

theorem State.leave_eff (h : Eff F s0 s) (h_rf : F .rf = true) (h_iln : F .iln = true) :
    ∀ a1 a2, Eff F s0 (State.leave s a1 a2) := by
  intro a1 a2
  unfold State.leave
  repeat' with_reducible first
    | assumption
    | (extract_lets +onlyGivenNames x
       first
       | (refine Eff.cut F s0 x ?_ ?_; unfold x; clear x; rotate_left; intro _; clear_value x; rotate_left)
       | (refine EffP.cut F s0 x ?_ ?_; unfold x; clear x; rotate_left; intro _; clear_value x; rotate_left)
       | clear_value x)
    | refine State.modIln_eff ?_ h_iln _
    | refine State.injectorFired_eff ?_ h_rf _ _
    | refine Eff.ite ?_ ?_
    | split

theorem State.transmit_eff (h : Eff F s0 s) (h_rf : F .rf = true) (h_iln : F .iln = true) :
    ∀ a1 a2, Eff F s0 (State.transmit s a1 a2) := by
  intro a1 a2
  unfold State.transmit
  repeat' with_reducible first
    | assumption
    | refine State.leave_eff ?_ h_rf h_iln _ _
    | split

theorem State.pumpOne_eff (h : Eff F s0 s) (h_rf : F .rf = true) (h_iln : F .iln = true) :
    ∀ a1 a2, Eff F s0 (State.pumpOne s a1 a2) := by
  intro a1 a2
  unfold State.pumpOne
  repeat' with_reducible first
    | assumption
    | (extract_lets +onlyGivenNames x
       first
       | (refine Eff.cut F s0 x ?_ ?_; unfold x; clear x; rotate_left; intro _; clear_value x; rotate_left)
       | (refine EffP.cut F s0 x ?_ ?_; unfold x; clear x; rotate_left; intro _; clear_value x; rotate_left)
       | clear_value x)
    | refine State.modIln_eff ?_ h_iln _
    | refine State.setPeer_eff ?_ h_iln _ _
    | refine State.transmit_eff ?_ h_rf h_iln _ _
    | refine EffP.fst ?_
    | refine EffP.of_eq (by assumption) ?_
    | refine Eff.ite ?_ ?_
    | split

theorem State.pumpN_eff (h : Eff F s0 s) (h_rf : F .rf = true) (h_iln : F .iln = true) :
    ∀ a0 a2 a3, Eff F s0 (State.pumpN a0 s a2 a3) := by
  intro a0 a2 a3
  induction a0 generalizing s a2 a3 with
  | zero => exact h
  | succ n ih =>
    rw [State.pumpN]
    repeat' with_reducible first
      | assumption
      | refine State.pumpOne_eff ?_ h_rf h_iln _ _
      | apply ih
      | split

theorem State.pump_eff (h : Eff F s0 s) (h_rf : F .rf = true) (h_iln : F .iln = true) :
    ∀ a1 a2, Eff F s0 (State.pump s a1 a2) := by
  intro a1 a2
  unfold State.pump
  repeat' with_reducible first
    | assumption
    | refine State.pumpN_eff ?_ h_rf h_iln _ _ _
    | split

theorem State.link_eff (h : Eff F s0 s) (h_rf : F .rf = true) (h_iln : F .iln = true) :
    ∀ a1 a2 a3 a4, Eff F s0 (State.link s a1 a2 a3 a4) := by
  intro a1 a2 a3 a4
  unfold State.link
  repeat' with_reducible first
    | assumption
    | refine State.transmit_eff ?_ h_rf h_iln _ _
    | split

theorem State.sendSync_eff (h : Eff F s0 s) (h_rf : F .rf = true) (h_iln : F .iln = true) :
    ∀ a1 a2, Eff F s0 (State.sendSync s a1 a2) := by
  intro a1 a2
  unfold State.sendSync
  repeat' with_reducible first
    | assumption
    | refine State.link_eff ?_ h_rf h_iln _ _ _ _
    | refine State.setPeer_eff ?_ h_iln _ _
    | split

theorem State.startSync_eff (h : Eff F s0 s) (h_rf : F .rf = true) (h_iln : F .iln = true) :
    ∀ a1, Eff F s0 (State.startSync s a1) := by
  intro a1
  unfold State.startSync
  repeat' with_reducible first
    | assumption
    | refine State.sendSync_eff ?_ h_rf h_iln _ _
    | refine Eff.ite ?_ ?_
    | split

theorem State.enqueuePacket_eff (h : Eff F s0 s) (h_rf : F .rf = true) (h_iln : F .iln = true) :
    ∀ a1 a2 a3, Eff F s0 (State.enqueuePacket s a1 a2 a3) := by
  intro a1 a2 a3
  unfold State.enqueuePacket
  repeat' with_reducible first
    | assumption
    | (extract_lets +onlyGivenNames x
       first
       | (refine Eff.cut F s0 x ?_ ?_; unfold x; clear x; rotate_left; intro _; clear_value x; rotate_left)
       | (refine EffP.cut F s0 x ?_ ?_; unfold x; clear x; rotate_left; intro _; clear_value x; rotate_left)
       | clear_value x)
    | refine State.pump_eff ?_ h_rf h_iln _ _
    | refine State.startSync_eff ?_ h_rf h_iln _
    | refine State.setPeer_eff ?_ h_iln _ _
    | split

theorem State.ilnRequest_eff (h : Eff F s0 s) (h_rf : F .rf = true) (h_iln : F .iln = true) :
    ∀ a1 a2 a3 a4 a5 a6 a7 a8 a9, EffP F s0 (State.ilnRequest s a1 a2 a3 a4 a5 a6 a7 a8 a9) := by
  intro a1 a2 a3 a4 a5 a6 a7 a8 a9
  unfold State.ilnRequest
  repeat' with_reducible first
    | assumption
    | (extract_lets +onlyGivenNames x
       first
       | (refine Eff.cut F s0 x ?_ ?_; unfold x; clear x; rotate_left; intro _; clear_value x; rotate_left)
       | (refine EffP.cut F s0 x ?_ ?_; unfold x; clear x; rotate_left; intro _; clear_value x; rotate_left)
       | clear_value x)
    | refine State.modIln_eff ?_ h_iln _
    | refine State.enqueuePacket_eff ?_ h_rf h_iln _ _ _
    | split
    | refine EffP.mk ?_ _

theorem State.reachPeer_eff (h : Eff F s0 s) (h_rf : F .rf = true) (h_iln : F .iln = true) (h_bel : F .bel = true) (h_ldg : F .ldg = true) :
    ∀ a1 a2 a3 a4, EffP F s0 (State.reachPeer s a1 a2 a3 a4) := by
  intro a1 a2 a3 a4
  unfold State.reachPeer
  repeat' with_reducible first
    | assumption
    | refine State.event_eff ?_ h_rf h_bel _ _
    | refine State.log_eff ?_ h_rf h_ldg _ _ _ _ _ _ _
    | refine State.setPeer_eff ?_ h_iln _ _
    | refine EffP.ite ?_ ?_
    | refine Eff.ite ?_ ?_
    | split
    | refine EffP.mk ?_ _

end Sys2Proof.Machine
end

