-- ==== Sys2Proof/Laws/FrameWindows.lean ====
section
/-! SUPPORT. Frames of the operations of Machine/Windows.lean: what each may change. -/

namespace Sys2Proof.Machine

variable {F : Comp → Bool} {s0 s : State}

theorem State.wake_eff (h : Eff F s0 s) (h_pwr : F .pwr = true) :
    ∀ a1, Eff F s0 (State.wake s a1) := by
  intro a1
  unfold State.wake
  repeat' with_reducible first
    | assumption
    | refine Eff.ite ?_ ?_
    | split
    | refine Eff.set_pwr ?_ h_pwr

theorem State.modRun_eff (h : Eff F s0 s) (h_shelves : F .shelves = true) :
    ∀ a1 a2, Eff F s0 (State.modRun s a1 a2) := by
  intro a1 a2
  unfold State.modRun
  repeat' with_reducible first
    | assumption
    | refine State.setShelf_eff ?_ h_shelves _ _
    | split

theorem State.modCore_eff (h : Eff F s0 s) (h_shelves : F .shelves = true) :
    ∀ a1 a2 a3, Eff F s0 (State.modCore s a1 a2 a3) := by
  intro a1 a2 a3
  unfold State.modCore
  repeat' with_reducible first
    | assumption
    | refine State.modRun_eff ?_ h_shelves _ _
    | split

theorem State.applySignal_eff (h : Eff F s0 s) (h_shelves : F .shelves = true) (h_pwr : F .pwr = true) :
    ∀ a1 a2 a3 a4, Eff F s0 (State.applySignal s a1 a2 a3 a4) := by
  intro a1 a2 a3 a4
  unfold State.applySignal
  repeat' with_reducible first
    | assumption
    | (extract_lets +onlyGivenNames x
       first
       | (refine Eff.cut F s0 x ?_ ?_; unfold x; clear x; rotate_left; intro _; clear_value x; rotate_left)
       | (refine EffP.cut F s0 x ?_ ?_; unfold x; clear x; rotate_left; intro _; clear_value x; rotate_left)
       | clear_value x)
    | refine State.wake_eff ?_ h_pwr _
    | refine State.modCore_eff ?_ h_shelves _ _ _
    | refine Eff.foldl ?_ (fun _ _ _ => ?_)
    | refine EffP.fst ?_
    | refine EffP.of_eq (by assumption) ?_
    | split

theorem State.holdBack_eff (h : Eff F s0 s) (h_shelves : F .shelves = true) :
    ∀ a1 a2, Eff F s0 (State.holdBack s a1 a2) := by
  intro a1 a2
  unfold State.holdBack
  repeat' with_reducible first
    | assumption
    | refine State.setShelf_eff ?_ h_shelves _ _
    | split

theorem State.judgeSignal_eff (h : Eff F s0 s) (h_rf : F .rf = true) (h_shelves : F .shelves = true) (h_ldg : F .ldg = true) (h_pwr : F .pwr = true) :
    ∀ a1 a2, Eff F s0 (State.judgeSignal s a1 a2) := by
  intro a1 a2
  unfold State.judgeSignal
  repeat' with_reducible first
    | assumption
    | (extract_lets +onlyGivenNames x
       first
       | (refine Eff.cut F s0 x ?_ ?_; unfold x; clear x; rotate_left; intro _; clear_value x; rotate_left)
       | (refine EffP.cut F s0 x ?_ ?_; unfold x; clear x; rotate_left; intro _; clear_value x; rotate_left)
       | clear_value x)
    | refine State.applySignal_eff ?_ h_shelves h_pwr _ _ _ _
    | refine State.setShelf_eff ?_ h_shelves _ _
    | refine State.log_eff ?_ h_rf h_ldg _ _ _ _ _ _ _
    | refine Eff.ite ?_ ?_
    | split

theorem State.deliverSignal_eff (h : Eff F s0 s) (h_rf : F .rf = true) (h_shelves : F .shelves = true) (h_ldg : F .ldg = true) (h_pwr : F .pwr = true) :
    ∀ a1 a2, Eff F s0 (State.deliverSignal s a1 a2) := by
  intro a1 a2
  unfold State.deliverSignal
  repeat' with_reducible first
    | assumption
    | refine State.holdBack_eff ?_ h_shelves _ _
    | refine State.judgeSignal_eff ?_ h_rf h_shelves h_ldg h_pwr _ _
    | refine Eff.ite ?_ ?_
    | split

theorem State.windowRefused_eff (h : Eff F s0 s) (h_rf : F .rf = true) (h_bel : F .bel = true) (h_ldg : F .ldg = true) :
    ∀ a1 a2 a3 a4 a5, Eff F s0 (State.windowRefused s a1 a2 a3 a4 a5) := by
  intro a1 a2 a3 a4 a5
  unfold State.windowRefused
  repeat' with_reducible first
    | assumption
    | refine State.log_eff ?_ h_rf h_ldg _ _ _ _ _ _ _
    | refine State.event_eff ?_ h_rf h_bel _ _
    | refine State.countSat_eff ?_ h_rf _ _ _ _
    | split

theorem State.windowWrite_eff (h : Eff F s0 s) (h_rf : F .rf = true) (h_mem : F .mem = true) (h_ecc : F .ecc = true) (h_bel : F .bel = true) (h_ldg : F .ldg = true) (h_obs : F .obs = true) :
    ∀ a1 a2 a3 a4 a5, EffP F s0 (State.windowWrite s a1 a2 a3 a4 a5) := by
  intro a1 a2 a3 a4 a5
  unfold State.windowWrite
  repeat' with_reducible first
    | assumption
    | (extract_lets +onlyGivenNames x
       first
       | (refine Eff.cut F s0 x ?_ ?_; unfold x; clear x; rotate_left; intro _; clear_value x; rotate_left)
       | (refine EffP.cut F s0 x ?_ ?_; unfold x; clear x; rotate_left; intro _; clear_value x; rotate_left)
       | clear_value x)
    | refine State.windowRefused_eff ?_ h_rf h_bel h_ldg _ _ _ _ _
    | refine State.watch_eff ?_ h_rf h_bel h_ldg h_obs _ _ _ _
    | refine State.storeWrite_eff ?_ h_rf h_mem h_ecc _ _ _
    | refine State.log_eff ?_ h_rf h_ldg _ _ _ _ _ _ _
    | refine EffP.fst ?_
    | refine EffP.of_eq (by assumption) ?_
    | refine EffP.ite ?_ ?_
    | refine Eff.ite ?_ ?_
    | split
    | refine EffP.mk ?_ _

theorem State.regionRefused_eff (h : Eff F s0 s) (h_rf : F .rf = true) (h_ldg : F .ldg = true) :
    ∀ a1 a2, EffP F s0 (State.regionRefused s a1 a2) := by
  intro a1 a2
  unfold State.regionRefused
  repeat' with_reducible first
    | assumption
    | refine State.log_eff ?_ h_rf h_ldg _ _ _ _ _ _ _
    | split
    | refine EffP.mk ?_ _

theorem State.windowRange_eff (h : Eff F s0 s) (h_rf : F .rf = true) (h_mem : F .mem = true) (h_ecc : F .ecc = true) (h_bel : F .bel = true) (h_ldg : F .ldg = true) (h_obs : F .obs = true) :
    ∀ a1 a2 a3 a4, EffP F s0 (State.windowRange s a1 a2 a3 a4) := by
  intro a1 a2 a3 a4
  unfold State.windowRange
  repeat' with_reducible first
    | assumption
    | (extract_lets +onlyGivenNames x
       first
       | (refine Eff.cut F s0 x ?_ ?_; unfold x; clear x; rotate_left; intro _; clear_value x; rotate_left)
       | (refine EffP.cut F s0 x ?_ ?_; unfold x; clear x; rotate_left; intro _; clear_value x; rotate_left)
       | clear_value x)
    | refine State.windowWrite_eff ?_ h_rf h_mem h_ecc h_bel h_ldg h_obs _ _ _ _ _
    | refine Eff.foldl ?_ (fun _ _ _ => ?_)
    | refine EffP.foldl ?_ (fun _ _ _ => ?_)
    | refine EffP.fst ?_
    | refine EffP.of_eq (by assumption) ?_
    | split
    | refine EffP.mk ?_ _

theorem State.remoteWrite_eff (h : Eff F s0 s) (h_rf : F .rf = true) (h_mem : F .mem = true) (h_ecc : F .ecc = true) (h_bel : F .bel = true) (h_ldg : F .ldg = true) (h_obs : F .obs = true) :
    ∀ a1, EffP F s0 (State.remoteWrite s a1) := by
  intro a1
  unfold State.remoteWrite
  repeat' with_reducible first
    | assumption
    | refine State.regionRefused_eff ?_ h_rf h_ldg _ _
    | refine State.windowRange_eff ?_ h_rf h_mem h_ecc h_bel h_ldg h_obs _ _ _ _
    | refine EffP.fst ?_
    | refine EffP.of_eq (by assumption) ?_
    | refine EffP.ite ?_ ?_
    | refine Eff.ite ?_ ?_
    | split
    | refine EffP.mk ?_ _

theorem State.windowSignal_eff (h : Eff F s0 s) (h_rf : F .rf = true) (h_shelves : F .shelves = true) (h_bel : F .bel = true) (h_ldg : F .ldg = true) (h_pwr : F .pwr = true) :
    ∀ a1 a2 a3 a4 a5 a6, EffP F s0 (State.windowSignal s a1 a2 a3 a4 a5 a6) := by
  intro a1 a2 a3 a4 a5 a6
  unfold State.windowSignal
  repeat' with_reducible first
    | assumption
    | refine State.windowRefused_eff ?_ h_rf h_bel h_ldg _ _ _ _ _
    | refine State.applySignal_eff ?_ h_shelves h_pwr _ _ _ _
    | refine EffP.ite ?_ ?_
    | refine Eff.ite ?_ ?_
    | split
    | refine EffP.mk ?_ _

theorem State.remoteSignal_eff (h : Eff F s0 s) (h_rf : F .rf = true) (h_shelves : F .shelves = true) (h_bel : F .bel = true) (h_ldg : F .ldg = true) (h_pwr : F .pwr = true) :
    ∀ a1, EffP F s0 (State.remoteSignal s a1) := by
  intro a1
  unfold State.remoteSignal
  repeat' with_reducible first
    | assumption
    | refine State.windowSignal_eff ?_ h_rf h_shelves h_bel h_ldg h_pwr _ _ _ _ _ _
    | refine EffP.fst ?_
    | refine EffP.of_eq (by assumption) ?_
    | split
    | refine EffP.mk ?_ _

theorem State.respond_eff (h : Eff F s0 s) (h_rf : F .rf = true) (h_iln : F .iln = true) :
    ∀ a1 a2 a3, Eff F s0 (State.respond s a1 a2 a3) := by
  intro a1 a2 a3
  unfold State.respond
  repeat' with_reducible first
    | assumption
    | (extract_lets +onlyGivenNames x
       first
       | (refine Eff.cut F s0 x ?_ ?_; unfold x; clear x; rotate_left; intro _; clear_value x; rotate_left)
       | (refine EffP.cut F s0 x ?_ ?_; unfold x; clear x; rotate_left; intro _; clear_value x; rotate_left)
       | clear_value x)
    | refine State.enqueuePacket_eff ?_ h_rf h_iln _ _ _
    | split

theorem State.windowServe_eff (h : Eff F s0 s) (h_rf : F .rf = true) (h_mem : F .mem = true) (h_ecc : F .ecc = true) (h_shelves : F .shelves = true) (h_iln : F .iln = true) (h_bel : F .bel = true) (h_ldg : F .ldg = true) (h_pwr : F .pwr = true) (h_obs : F .obs = true) :
    ∀ a1 a2, Eff F s0 (State.windowServe s a1 a2) := by
  intro a1 a2
  unfold State.windowServe
  repeat' with_reducible first
    | assumption
    | refine State.remoteWrite_eff ?_ h_rf h_mem h_ecc h_bel h_ldg h_obs _
    | refine State.remoteSignal_eff ?_ h_rf h_shelves h_bel h_ldg h_pwr _
    | refine State.respond_eff ?_ h_rf h_iln _ _ _
    | refine EffP.fst ?_
    | refine EffP.of_eq (by assumption) ?_
    | refine EffP.ite ?_ ?_
    | refine Eff.ite ?_ ?_
    | split
    | refine EffP.mk ?_ _

theorem State.deliverHeld_eff (h : Eff F s0 s) (h_rf : F .rf = true) (h_mem : F .mem = true) (h_ecc : F .ecc = true) (h_shelves : F .shelves = true) (h_iln : F .iln = true) (h_bel : F .bel = true) (h_ldg : F .ldg = true) (h_pwr : F .pwr = true) (h_obs : F .obs = true) :
    ∀ a1 a2, Eff F s0 (State.deliverHeld s a1 a2) := by
  intro a1 a2
  unfold State.deliverHeld
  repeat' with_reducible first
    | assumption
    | refine State.deliverSignal_eff ?_ h_rf h_shelves h_ldg h_pwr _ _
    | refine State.windowWrite_eff ?_ h_rf h_mem h_ecc h_bel h_ldg h_obs _ _ _ _ _
    | refine State.holdBack_eff ?_ h_shelves _ _
    | refine State.windowServe_eff ?_ h_rf h_mem h_ecc h_shelves h_iln h_bel h_ldg h_pwr h_obs _ _
    | refine EffP.fst ?_
    | refine EffP.of_eq (by assumption) ?_
    | refine EffP.ite ?_ ?_
    | refine Eff.ite ?_ ?_
    | split
    | refine EffP.mk ?_ _

theorem State.dropEarly_eff (h : Eff F s0 s) (h_rf : F .rf = true) (h_mem : F .mem = true) (h_ecc : F .ecc = true) (h_shelves : F .shelves = true) (h_iln : F .iln = true) (h_bel : F .bel = true) (h_ldg : F .ldg = true) (h_pwr : F .pwr = true) (h_obs : F .obs = true) :
    ∀ a1 a2, Eff F s0 (State.dropEarly s a1 a2) := by
  intro a1 a2
  unfold State.dropEarly
  repeat' with_reducible first
    | assumption
    | (extract_lets +onlyGivenNames x
       first
       | (refine Eff.cut F s0 x ?_ ?_; unfold x; clear x; rotate_left; intro _; clear_value x; rotate_left)
       | (refine EffP.cut F s0 x ?_ ?_; unfold x; clear x; rotate_left; intro _; clear_value x; rotate_left)
       | clear_value x)
    | refine State.deliverHeld_eff ?_ h_rf h_mem h_ecc h_shelves h_iln h_bel h_ldg h_pwr h_obs _ _
    | refine State.setShelf_eff ?_ h_shelves _ _
    | refine Eff.foldl ?_ (fun _ _ _ => ?_)
    | refine EffP.foldl ?_ (fun _ _ _ => ?_)
    | refine EffP.fst ?_
    | refine EffP.of_eq (by assumption) ?_
    | split

theorem State.jnlWrite_eff (h : Eff F s0 s) (h_rf : F .rf = true) (h_mem : F .mem = true) (h_bel : F .bel = true) (h_ldg : F .ldg = true) :
    ∀ a1, Eff F s0 (State.jnlWrite s a1) := by
  intro a1
  unfold State.jnlWrite
  repeat' with_reducible first
    | assumption
    | (extract_lets +onlyGivenNames x
       first
       | (refine Eff.cut F s0 x ?_ ?_; unfold x; clear x; rotate_left; intro _; clear_value x; rotate_left)
       | (refine EffP.cut F s0 x ?_ ?_; unfold x; clear x; rotate_left; intro _; clear_value x; rotate_left)
       | clear_value x)
    | refine State.setField_eff ?_ h_rf _ _ _ _
    | refine State.log_eff ?_ h_rf h_ldg _ _ _ _ _ _ _
    | refine State.event_eff ?_ h_rf h_bel _ _
    | refine State.setRegBit_eff ?_ h_rf _ _ _
    | refine Eff.ite ?_ ?_
    | split
    | refine Eff.set_mem ?_ h_mem ?_
    | intro _
    | refine Memory.wf_write _ _ ?_
    | refine Memory.wf_writeN _ _ ?_
    | refine Memory.wf_writeLe _ _ _ ?_
    | refine Memory.wf_clear _ _ ?_
    | refine Memory.wf_dropOnDie ?_
    | refine Memory.wf_copy _ _ _ ?_
    | refine RegFile.wf_set _ _ ?_
    | refine RegFile.wf_filter _ ?_

theorem State.jnlFolio_eff (h : Eff F s0 s) (h_rf : F .rf = true) (h_mem : F .mem = true) (h_bel : F .bel = true) (h_ldg : F .ldg = true) :
    ∀ a1 a2 a3 a4 a5 a6 a7 a8, Eff F s0 (State.jnlFolio s a1 a2 a3 a4 a5 a6 a7 a8) := by
  intro a1 a2 a3 a4 a5 a6 a7 a8
  unfold State.jnlFolio
  repeat' with_reducible first
    | assumption
    | refine State.jnlWrite_eff ?_ h_rf h_mem h_bel h_ldg _
    | refine Eff.ite ?_ ?_
    | split

theorem State.jnlPass_eff (h : Eff F s0 s) (h_rf : F .rf = true) (h_mem : F .mem = true) (h_bel : F .bel = true) (h_ldg : F .ldg = true) :
    ∀ a1 a2 a3 a4, Eff F s0 (State.jnlPass s a1 a2 a3 a4) := by
  intro a1 a2 a3 a4
  unfold State.jnlPass
  repeat' with_reducible first
    | assumption
    | refine State.jnlWrite_eff ?_ h_rf h_mem h_bel h_ldg _
    | refine Eff.ite ?_ ?_
    | split

theorem execTallySignal_eff (h : Eff F s0 s) (h_rf : F .rf = true) (h_shelves : F .shelves = true) (h_ldg : F .ldg = true) (h_pwr : F .pwr = true) :
    ∀ a0 a1, EffX F s0 (execTallySignal a0 a1 s) := by
  intro a0 a1
  unfold execTallySignal
  repeat' with_reducible first
    | assumption
    | refine State.deliverSignal_eff ?_ h_rf h_shelves h_ldg h_pwr _ _
    | refine EffX.next ?_
    | refine Eff.ite ?_ ?_
    | refine EffX.ite ?_ ?_
    | split

theorem execWindowWrite_eff (h : Eff F s0 s) (h_rf : F .rf = true) (h_mem : F .mem = true) (h_ecc : F .ecc = true) (h_shelves : F .shelves = true) (h_iln : F .iln = true) (h_bel : F .bel = true) (h_ldg : F .ldg = true) (h_pwr : F .pwr = true) (h_obs : F .obs = true) :
    ∀ a0, EffX F s0 (execWindowWrite a0 s) := by
  intro a0
  unfold execWindowWrite
  repeat' with_reducible first
    | assumption
    | refine State.deliverHeld_eff ?_ h_rf h_mem h_ecc h_shelves h_iln h_bel h_ldg h_pwr h_obs _ _
    | refine EffX.next ?_
    | refine Eff.ite ?_ ?_
    | refine EffX.ite ?_ ?_
    | split

end Sys2Proof.Machine
end

