-- ==== Sys2Proof/Laws/FrameOperands.lean ====
section
/-! SUPPORT. Frames of the operations of Machine/Operands.lean: what each may change. -/

namespace Sys2Proof.Machine

variable {F : Comp → Bool} {s0 s : State}

theorem State.extDenied_eff (h : Eff F s0 s) (h_rf : F .rf = true) (h_bel : F .bel = true) (h_ldg : F .ldg = true) :
    ∀ a1 a2 a3 a4, EffP F s0 (State.extDenied s a1 a2 a3 a4) := by
  intro a1 a2 a3 a4
  unfold State.extDenied
  repeat' with_reducible first
    | assumption
    | (extract_lets +onlyGivenNames x
       first
       | (refine Eff.cut F s0 x ?_ ?_; unfold x; clear x; rotate_left; intro _; clear_value x; rotate_left)
       | (refine EffP.cut F s0 x ?_ ?_; unfold x; clear x; rotate_left; intro _; clear_value x; rotate_left)
       | clear_value x)
    | refine State.windowRefused_eff ?_ h_rf h_bel h_ldg _ _ _ _ _
    | refine State.memRefused_eff ?_ h_rf h_ldg _ _ _
    | refine EffP.fst ?_
    | refine EffP.of_eq (by assumption) ?_
    | refine EffP.ite ?_ ?_
    | refine Eff.ite ?_ ?_
    | split
    | refine EffP.mk ?_ _

theorem State.anyDenied_eff (h : Eff F s0 s) (h_rf : F .rf = true) (h_bel : F .bel = true) (h_ldg : F .ldg = true) :
    ∀ a1 a2 a3 a4, EffP F s0 (State.anyDenied s a1 a2 a3 a4) := by
  intro a1 a2 a3 a4
  induction a4 generalizing s a1 a2 a3 with
  | nil => exact EffP.mk h _
  | cons q qs ih =>
    rw [State.anyDenied]
    repeat' with_reducible first
      | assumption
      | refine State.extDenied_eff ?_ h_rf h_bel h_ldg _ _ _ _
      | apply ih
      | refine EffP.fst ?_
      | refine EffP.of_eq (by assumption) ?_
      | split
      | refine EffP.mk ?_ _

theorem State.spill_eff (h : Eff F s0 s) (h_cat : F .cat = true) :
    ∀ a1 a2 a3, Eff F s0 (State.spill s a1 a2 a3) := by
  intro a1 a2 a3
  unfold State.spill
  repeat' with_reducible first
    | assumption
    | (extract_lets +onlyGivenNames x
       first
       | (refine Eff.cut F s0 x ?_ ?_; unfold x; clear x; rotate_left; intro _; clear_value x; rotate_left)
       | (refine EffP.cut F s0 x ?_ ?_; unfold x; clear x; rotate_left; intro _; clear_value x; rotate_left)
       | clear_value x)
    | refine State.modSlip_eff ?_ h_cat _ _
    | refine Eff.ite ?_ ?_
    | split

theorem State.extAdd_eff (h : Eff F s0 s) (h_rf : F .rf = true) (h_mem : F .mem = true) (h_ecc : F .ecc = true) (h_cat : F .cat = true) (h_kpr : F .kpr = true) (h_bel : F .bel = true) (h_ldg : F .ldg = true) (h_obs : F .obs = true) :
    ∀ a1 a2 a3 a4, EffP F s0 (State.extAdd s a1 a2 a3 a4) := by
  intro a1 a2 a3 a4
  unfold State.extAdd
  repeat' with_reducible first
    | assumption
    | (extract_lets +onlyGivenNames x
       first
       | (refine Eff.cut F s0 x ?_ ?_; unfold x; clear x; rotate_left; intro _; clear_value x; rotate_left)
       | (refine EffP.cut F s0 x ?_ ?_; unfold x; clear x; rotate_left; intro _; clear_value x; rotate_left)
       | clear_value x)
    | refine State.addFor_eff ?_ h_rf h_mem h_ecc h_kpr h_bel h_ldg h_obs _ _ _ _ _
    | refine State.spill_eff ?_ h_cat _ _ _
    | refine EffP.fst ?_
    | refine EffP.of_eq (by assumption) ?_
    | split
    | refine EffP.mk ?_ _

theorem State.extRead_eff (h : Eff F s0 s) (h_rf : F .rf = true) (h_ecc : F .ecc = true) (h_cat : F .cat = true) (h_kpr : F .kpr = true) (h_bel : F .bel = true) (h_ldg : F .ldg = true) (h_obs : F .obs = true) :
    ∀ a1 a2 a3, EffP F s0 (State.extRead s a1 a2 a3) := by
  intro a1 a2 a3
  unfold State.extRead
  repeat' with_reducible first
    | assumption
    | (extract_lets +onlyGivenNames x
       first
       | (refine Eff.cut F s0 x ?_ ?_; unfold x; clear x; rotate_left; intro _; clear_value x; rotate_left)
       | (refine EffP.cut F s0 x ?_ ?_; unfold x; clear x; rotate_left; intro _; clear_value x; rotate_left)
       | clear_value x)
    | refine State.readFor_eff ?_ h_rf h_ecc h_kpr h_bel h_ldg h_obs _ _ _ _
    | refine State.spill_eff ?_ h_cat _ _ _
    | refine EffP.fst ?_
    | refine EffP.of_eq (by assumption) ?_
    | split
    | refine EffP.mk ?_ _

theorem State.extWrite_eff (h : Eff F s0 s) (h_freeCtr : F .freeCtr = true) (h_rf : F .rf = true) (h_mem : F .mem = true) (h_ecc : F .ecc = true) (h_cat : F .cat = true) (h_kpr : F .kpr = true) (h_bel : F .bel = true) (h_ldg : F .ldg = true) (h_obs : F .obs = true) :
    ∀ a1 a2 a3, EffP F s0 (State.extWrite s a1 a2 a3) := by
  intro a1 a2 a3
  unfold State.extWrite
  repeat' with_reducible first
    | assumption
    | (extract_lets +onlyGivenNames x
       first
       | (refine Eff.cut F s0 x ?_ ?_; unfold x; clear x; rotate_left; intro _; clear_value x; rotate_left)
       | (refine EffP.cut F s0 x ?_ ?_; unfold x; clear x; rotate_left; intro _; clear_value x; rotate_left)
       | clear_value x)
    | refine State.windowWrite_eff ?_ h_rf h_mem h_ecc h_bel h_ldg h_obs _ _ _ _ _
    | refine State.writeFor_eff ?_ h_freeCtr h_rf h_mem h_ecc h_kpr h_bel h_ldg h_obs _ _ _ _
    | refine State.spill_eff ?_ h_cat _ _ _
    | refine Eff.foldl ?_ (fun _ _ _ => ?_)
    | refine EffP.foldl ?_ (fun _ _ _ => ?_)
    | refine EffP.fst ?_
    | refine EffP.of_eq (by assumption) ?_
    | refine EffP.ite ?_ ?_
    | refine Eff.ite ?_ ?_
    | split
    | refine EffP.mk ?_ _

theorem State.spRead_eff (h : Eff F s0 s) (h_rf : F .rf = true) (h_ecc : F .ecc = true) :
    ∀ a1 a2 a3 a4 a5, EffP F s0 (State.spRead s a1 a2 a3 a4 a5) := by
  intro a1 a2 a3 a4 a5
  unfold State.spRead
  repeat' with_reducible first
    | assumption
    | refine State.storeRead_eff ?_ h_rf h_ecc _ _ _
    | refine EffP.fst ?_
    | refine EffP.of_eq (by assumption) ?_
    | refine EffP.ite ?_ ?_
    | refine Eff.ite ?_ ?_
    | split
    | refine EffP.mk ?_ _

theorem State.localRead_eff (h : Eff F s0 s) (h_rf : F .rf = true) (h_ecc : F .ecc = true) :
    ∀ a1 a2 a3 a4 a5, EffP F s0 (State.localRead s a1 a2 a3 a4 a5) := by
  intro a1 a2 a3 a4 a5
  unfold State.localRead
  repeat' with_reducible first
    | assumption
    | refine State.spRead_eff ?_ h_rf h_ecc _ _ _ _ _
    | refine EffP.fst ?_
    | refine EffP.of_eq (by assumption) ?_
    | split
    | refine EffP.mk ?_ _

theorem State.spWrite_eff (h : Eff F s0 s) (h_rf : F .rf = true) (h_mem : F .mem = true) (h_ecc : F .ecc = true) (h_shelves : F .shelves = true) :
    ∀ a1 a2 a3 a4 a5, EffP F s0 (State.spWrite s a1 a2 a3 a4 a5) := by
  intro a1 a2 a3 a4 a5
  unfold State.spWrite
  repeat' with_reducible first
    | assumption
    | refine State.storeWrite_eff ?_ h_rf h_mem h_ecc _ _ _
    | refine State.modCore_eff ?_ h_shelves _ _ _
    | refine EffP.fst ?_
    | refine EffP.of_eq (by assumption) ?_
    | refine EffP.ite ?_ ?_
    | refine Eff.ite ?_ ?_
    | split
    | refine EffP.mk ?_ _

theorem State.localWrite_eff (h : Eff F s0 s) (h_rf : F .rf = true) (h_mem : F .mem = true) (h_ecc : F .ecc = true) (h_shelves : F .shelves = true) :
    ∀ a1 a2 a3 a4 a5, EffP F s0 (State.localWrite s a1 a2 a3 a4 a5) := by
  intro a1 a2 a3 a4 a5
  unfold State.localWrite
  repeat' with_reducible first
    | assumption
    | refine State.spWrite_eff ?_ h_rf h_mem h_ecc h_shelves _ _ _ _ _
    | refine EffP.fst ?_
    | refine EffP.of_eq (by assumption) ?_
    | split
    | refine EffP.mk ?_ _

theorem State.readRows_eff (h : Eff F s0 s) (h_rf : F .rf = true) (h_ecc : F .ecc = true) :
    ∀ a1 a2 a3 a4 a5, EffP F s0 (State.readRows s a1 a2 a3 a4 a5) := by
  intro a1 a2 a3 a4 a5
  induction a5 generalizing s a1 a2 a3 a4 with
  | nil => exact EffP.mk h _
  | cons q qs ih =>
    rw [State.readRows]
    repeat' with_reducible first
      | assumption
      | refine State.localRead_eff ?_ h_rf h_ecc _ _ _ _ _
      | apply ih
      | refine EffP.fst ?_
      | refine EffP.of_eq (by assumption) ?_
      | split
      | refine EffP.mk ?_ _

theorem State.writeRows_eff (h : Eff F s0 s) (h_rf : F .rf = true) (h_mem : F .mem = true) (h_ecc : F .ecc = true) (h_shelves : F .shelves = true) :
    ∀ a1 a2 a3 a4, EffP F s0 (State.writeRows s a1 a2 a3 a4) := by
  intro a1 a2 a3 a4
  induction a4 generalizing s a1 a2 a3 with
  | nil => exact EffP.mk h _
  | cons q qs ih =>
    rw [State.writeRows]
    repeat' with_reducible first
      | assumption
      | refine State.localWrite_eff ?_ h_rf h_mem h_ecc h_shelves _ _ _ _ _
      | apply ih
      | refine EffP.fst ?_
      | refine EffP.of_eq (by assumption) ?_
      | split
      | refine EffP.mk ?_ _

end Sys2Proof.Machine
end

