-- ==== Sys2Proof/Laws/FrameStreams.lean ====
section
/-! SUPPORT. Frames of the operations of Machine/Streams.lean: what each may change. -/

namespace Sys2Proof.Machine

variable {F : Comp → Bool} {s0 s : State}

theorem State.modStream_eff (h : Eff F s0 s) (h_shelves : F .shelves = true) :
    ∀ a1 a2 a3 a4, Eff F s0 (State.modStream s a1 a2 a3 a4) := by
  intro a1 a2 a3 a4
  unfold State.modStream
  repeat' with_reducible first
    | assumption
    | refine State.modCore_eff ?_ h_shelves _ _ _
    | split

theorem State.bisectRelease_eff (h : Eff F s0 s) (h_shelves : F .shelves = true) :
    ∀ a1, Eff F s0 (State.bisectRelease s a1) := by
  intro a1
  unfold State.bisectRelease
  repeat' with_reducible first
    | assumption
    | refine State.modStream_eff ?_ h_shelves _ _ _ _
    | refine Eff.foldl ?_ (fun _ _ _ => ?_)
    | refine EffP.foldl ?_ (fun _ _ _ => ?_)
    | refine EffP.fst ?_
    | refine EffP.of_eq (by assumption) ?_
    | refine Eff.ite ?_ ?_
    | split

theorem State.setExec_eff (h : Eff F s0 s) (h_shelves : F .shelves = true) :
    ∀ a1 a2 a3 a4 a5 a6, Eff F s0 (State.setExec s a1 a2 a3 a4 a5 a6) := by
  intro a1 a2 a3 a4 a5 a6
  unfold State.setExec
  repeat' with_reducible first
    | assumption
    | refine State.modStream_eff ?_ h_shelves _ _ _ _
    | refine Eff.ite ?_ ?_
    | split

theorem State.fireEffects_eff (h : Eff F s0 s) (h_rf : F .rf = true) (h_shelves : F .shelves = true) (h_ldg : F .ldg = true) (h_pwr : F .pwr = true) :
    ∀ a1 a2 a3, Eff F s0 (State.fireEffects s a1 a2 a3) := by
  intro a1 a2 a3
  unfold State.fireEffects
  repeat' with_reducible first
    | assumption
    | (extract_lets +onlyGivenNames x
       first
       | (refine Eff.cut F s0 x ?_ ?_; unfold x; clear x; rotate_left; intro _; clear_value x; rotate_left)
       | (refine EffP.cut F s0 x ?_ ?_; unfold x; clear x; rotate_left; intro _; clear_value x; rotate_left)
       | clear_value x)
    | refine State.applySignal_eff ?_ h_shelves h_pwr _ _ _ _
    | refine State.deliverSignal_eff ?_ h_rf h_shelves h_ldg h_pwr _ _
    | refine Eff.ite ?_ ?_
    | split

theorem State.flushN_eff (h : Eff F s0 s) (h_rf : F .rf = true) (h_shelves : F .shelves = true) (h_ldg : F .ldg = true) (h_pwr : F .pwr = true) :
    ∀ a0 a2 a3 a4, Eff F s0 (State.flushN a0 s a2 a3 a4) := by
  intro a0 a2 a3 a4
  induction a0 generalizing s a2 a3 a4 with
  | zero => exact h
  | succ n ih =>
    rw [State.flushN]
    repeat' with_reducible first
      | assumption
      | (extract_lets +onlyGivenNames x
         first
         | (refine Eff.cut F s0 x ?_ ?_; unfold x; clear x; rotate_left; intro _; clear_value x; rotate_left)
         | (refine EffP.cut F s0 x ?_ ?_; unfold x; clear x; rotate_left; intro _; clear_value x; rotate_left)
         | clear_value x)
      | refine State.modStream_eff ?_ h_shelves _ _ _ _
      | refine State.fireEffects_eff ?_ h_rf h_shelves h_ldg h_pwr _ _ _
      | apply ih
      | refine Eff.ite ?_ ?_
      | split

theorem State.flush_eff (h : Eff F s0 s) (h_rf : F .rf = true) (h_shelves : F .shelves = true) (h_ldg : F .ldg = true) (h_pwr : F .pwr = true) :
    ∀ a1 a2 a3, Eff F s0 (State.flush s a1 a2 a3) := by
  intro a1 a2 a3
  unfold State.flush
  repeat' with_reducible first
    | assumption
    | refine State.flushN_eff ?_ h_rf h_shelves h_ldg h_pwr _ _ _ _
    | split

theorem State.progress_eff (h : Eff F s0 s) (h_shelves : F .shelves = true) :
    ∀ a1 a2 a3, Eff F s0 (State.progress s a1 a2 a3) := by
  intro a1 a2 a3
  unfold State.progress
  repeat' with_reducible first
    | assumption
    | refine State.modRun_eff ?_ h_shelves _ _
    | refine State.modStream_eff ?_ h_shelves _ _ _ _
    | split

theorem State.completeExec_eff (h : Eff F s0 s) (h_rf : F .rf = true) (h_mem : F .mem = true) (h_shelves : F .shelves = true) (h_bel : F .bel = true) (h_ldg : F .ldg = true) (h_pwr : F .pwr = true) :
    ∀ a1 a2 a3 a4, Eff F s0 (State.completeExec s a1 a2 a3 a4) := by
  intro a1 a2 a3 a4
  unfold State.completeExec
  repeat' with_reducible first
    | assumption
    | (extract_lets +onlyGivenNames x
       first
       | (refine Eff.cut F s0 x ?_ ?_; unfold x; clear x; rotate_left; intro _; clear_value x; rotate_left)
       | (refine EffP.cut F s0 x ?_ ?_; unfold x; clear x; rotate_left; intro _; clear_value x; rotate_left)
       | clear_value x)
    | refine State.jnlFolio_eff ?_ h_rf h_mem h_bel h_ldg _ _ _ _ _ _ _ _
    | refine State.setExec_eff ?_ h_shelves _ _ _ _ _ _
    | refine State.flush_eff ?_ h_rf h_shelves h_ldg h_pwr _ _ _
    | refine State.progress_eff ?_ h_shelves _ _ _
    | split

theorem State.draw_eff (h : Eff F s0 s) (h_freeCtr : F .freeCtr = true) :
    ∀ a1, Eff F s0 (State.draw s a1) := by
  intro a1
  unfold State.draw
  repeat' with_reducible first
    | assumption
    | split
    | refine Eff.set_freeCtr ?_ h_freeCtr

theorem State.coreFault_eff (h : Eff F s0 s) (h_freeCtr : F .freeCtr = true) (h_rf : F .rf = true) (h_cat : F .cat = true) (h_ldg : F .ldg = true) :
    ∀ a1 a2 a3 a4 a5 a6, Eff F s0 (State.coreFault s a1 a2 a3 a4 a5 a6) := by
  intro a1 a2 a3 a4 a5 a6
  unfold State.coreFault
  repeat' with_reducible first
    | assumption
    | (extract_lets +onlyGivenNames x
       first
       | (refine Eff.cut F s0 x ?_ ?_; unfold x; clear x; rotate_left; intro _; clear_value x; rotate_left)
       | (refine EffP.cut F s0 x ?_ ?_; unfold x; clear x; rotate_left; intro _; clear_value x; rotate_left)
       | clear_value x)
    | refine State.log_eff ?_ h_rf h_ldg _ _ _ _ _ _ _
    | refine State.draw_eff ?_ h_freeCtr _
    | refine State.slipFault_eff ?_ h_rf h_cat _ _ _
    | refine Eff.ite ?_ ?_
    | split

theorem State.countSlip_eff (h : Eff F s0 s) (h_cat : F .cat = true) :
    ∀ a1 a2, Eff F s0 (State.countSlip s a1 a2) := by
  intro a1 a2
  unfold State.countSlip
  repeat' with_reducible first
    | assumption
    | refine State.modSlip_eff ?_ h_cat _ _
    | split

theorem State.cutoff_eff (h : Eff F s0 s) (h_rf : F .rf = true) (h_shelves : F .shelves = true) :
    ∀ a1 a2 a3 a4 a5, Eff F s0 (State.cutoff s a1 a2 a3 a4 a5) := by
  intro a1 a2 a3 a4 a5
  unfold State.cutoff
  repeat' with_reducible first
    | assumption
    | (extract_lets +onlyGivenNames x
       first
       | (refine Eff.cut F s0 x ?_ ?_; unfold x; clear x; rotate_left; intro _; clear_value x; rotate_left)
       | (refine EffP.cut F s0 x ?_ ?_; unfold x; clear x; rotate_left; intro _; clear_value x; rotate_left)
       | clear_value x)
    | refine State.countSat_eff ?_ h_rf _ _ _ _
    | refine State.modStream_eff ?_ h_shelves _ _ _ _
    | refine State.setRegBit_eff ?_ h_rf _ _ _
    | refine Eff.ite ?_ ?_
    | split

theorem State.enqueueFolioCheck_eff (h : Eff F s0 s) (h_rf : F .rf = true) (h_ldg : F .ldg = true) :
    ∀ a1 a2 a3, EffP F s0 (State.enqueueFolioCheck s a1 a2 a3) := by
  intro a1 a2 a3
  unfold State.enqueueFolioCheck
  repeat' with_reducible first
    | assumption
    | (extract_lets +onlyGivenNames x
       first
       | (refine Eff.cut F s0 x ?_ ?_; unfold x; clear x; rotate_left; intro _; clear_value x; rotate_left)
       | (refine EffP.cut F s0 x ?_ ?_; unfold x; clear x; rotate_left; intro _; clear_value x; rotate_left)
       | clear_value x)
    | refine State.memRefused_eff ?_ h_rf h_ldg _ _ _
    | refine EffP.ite ?_ ?_
    | refine Eff.ite ?_ ?_
    | split
    | refine EffP.mk ?_ _

theorem State.firePosted_eff (h : Eff F s0 s) (h_rf : F .rf = true) (h_shelves : F .shelves = true) (h_ldg : F .ldg = true) (h_pwr : F .pwr = true) :
    ∀ a1 a2 a3, Eff F s0 (State.firePosted s a1 a2 a3) := by
  intro a1 a2 a3
  unfold State.firePosted
  repeat' with_reducible first
    | assumption
    | refine State.fireEffects_eff ?_ h_rf h_shelves h_ldg h_pwr _ _ _
    | refine State.setExec_eff ?_ h_shelves _ _ _ _ _ _
    | refine Eff.ite ?_ ?_
    | split

theorem State.folioComplete_eff (h : Eff F s0 s) (h_rf : F .rf = true) (h_mem : F .mem = true) (h_shelves : F .shelves = true) (h_bel : F .bel = true) (h_ldg : F .ldg = true) (h_pwr : F .pwr = true) :
    ∀ a1 a2 a3, Eff F s0 (State.folioComplete s a1 a2 a3) := by
  intro a1 a2 a3
  unfold State.folioComplete
  repeat' with_reducible first
    | assumption
    | refine State.completeExec_eff ?_ h_rf h_mem h_shelves h_bel h_ldg h_pwr _ _ _ _
    | refine State.firePosted_eff ?_ h_rf h_shelves h_ldg h_pwr _ _ _
    | split

theorem State.folioFail_eff (h : Eff F s0 s) (h_freeCtr : F .freeCtr = true) (h_rf : F .rf = true) (h_mem : F .mem = true) (h_cat : F .cat = true) (h_shelves : F .shelves = true) (h_iln : F .iln = true) (h_bel : F .bel = true) (h_ldg : F .ldg = true) (h_pwr : F .pwr = true) :
    ∀ a1 a2 a3 a4 a5 a6, Eff F s0 (State.folioFail s a1 a2 a3 a4 a5 a6) := by
  intro a1 a2 a3 a4 a5 a6
  unfold State.folioFail
  repeat' with_reducible first
    | assumption
    | (extract_lets +onlyGivenNames x
       first
       | (refine Eff.cut F s0 x ?_ ?_; unfold x; clear x; rotate_left; intro _; clear_value x; rotate_left)
       | (refine EffP.cut F s0 x ?_ ?_; unfold x; clear x; rotate_left; intro _; clear_value x; rotate_left)
       | clear_value x)
    | refine State.coreFault_eff ?_ h_freeCtr h_rf h_cat h_ldg _ _ _ _ _ _
    | refine State.jnlFolio_eff ?_ h_rf h_mem h_bel h_ldg _ _ _ _ _ _ _ _
    | refine State.modIln_eff ?_ h_iln _
    | refine State.flush_eff ?_ h_rf h_shelves h_ldg h_pwr _ _ _
    | refine State.setExec_eff ?_ h_shelves _ _ _ _ _ _
    | refine Eff.foldl ?_ (fun _ _ _ => ?_)
    | refine EffP.foldl ?_ (fun _ _ _ => ?_)
    | refine EffP.fst ?_
    | refine EffP.of_eq (by assumption) ?_
    | split

theorem State.folioErrorEnd_eff (h : Eff F s0 s) (h_freeCtr : F .freeCtr = true) (h_rf : F .rf = true) (h_mem : F .mem = true) (h_cat : F .cat = true) (h_shelves : F .shelves = true) (h_kpr : F .kpr = true) (h_iln : F .iln = true) (h_bel : F .bel = true) (h_ldg : F .ldg = true) (h_pwr : F .pwr = true) :
    ∀ a1 a2 a3 a4 a5 a6, Eff F s0 (State.folioErrorEnd s a1 a2 a3 a4 a5 a6) := by
  intro a1 a2 a3 a4 a5 a6
  unfold State.folioErrorEnd
  repeat' with_reducible first
    | assumption
    | (extract_lets +onlyGivenNames x
       first
       | (refine Eff.cut F s0 x ?_ ?_; unfold x; clear x; rotate_left; intro _; clear_value x; rotate_left)
       | (refine EffP.cut F s0 x ?_ ?_; unfold x; clear x; rotate_left; intro _; clear_value x; rotate_left)
       | clear_value x)
    | refine State.folioFail_eff ?_ h_freeCtr h_rf h_mem h_cat h_shelves h_iln h_bel h_ldg h_pwr _ _ _ _ _ _
    | refine State.memFault_eff ?_ h_rf h_kpr h_bel h_ldg _ _ _ _
    | refine Eff.ite ?_ ?_
    | split

theorem State.note_eff (h : Eff F s0 s) (h_shelves : F .shelves = true) :
    ∀ a1 a2 a3 a4 a5 a6 a7, EffP F s0 (State.note s a1 a2 a3 a4 a5 a6 a7) := by
  intro a1 a2 a3 a4 a5 a6 a7
  unfold State.note
  repeat' with_reducible first
    | assumption
    | (extract_lets +onlyGivenNames x
       first
       | (refine Eff.cut F s0 x ?_ ?_; unfold x; clear x; rotate_left; intro _; clear_value x; rotate_left)
       | (refine EffP.cut F s0 x ?_ ?_; unfold x; clear x; rotate_left; intro _; clear_value x; rotate_left)
       | clear_value x)
    | refine State.modRun_eff ?_ h_shelves _ _
    | refine EffP.ite ?_ ?_
    | refine Eff.ite ?_ ?_
    | split
    | refine EffP.mk ?_ _

theorem State.passFolio_eff (h : Eff F s0 s) (h_shelves : F .shelves = true) :
    ∀ a1 a2 a3 a4, Eff F s0 (State.passFolio s a1 a2 a3 a4) := by
  intro a1 a2 a3 a4
  unfold State.passFolio
  repeat' with_reducible first
    | assumption
    | (extract_lets +onlyGivenNames x
       first
       | (refine Eff.cut F s0 x ?_ ?_; unfold x; clear x; rotate_left; intro _; clear_value x; rotate_left)
       | (refine EffP.cut F s0 x ?_ ?_; unfold x; clear x; rotate_left; intro _; clear_value x; rotate_left)
       | clear_value x)
    | refine State.modRun_eff ?_ h_shelves _ _
    | refine State.modStream_eff ?_ h_shelves _ _ _ _
    | refine State.note_eff ?_ h_shelves _ _ _ _ _ _ _
    | refine EffP.fst ?_
    | refine EffP.of_eq (by assumption) ?_
    | refine EffP.ite ?_ ?_
    | refine Eff.ite ?_ ?_
    | split
    | refine EffP.mk ?_ _

theorem State.passDone_eff (h : Eff F s0 s) (h_rf : F .rf = true) (h_mem : F .mem = true) (h_shelves : F .shelves = true) (h_bel : F .bel = true) (h_ldg : F .ldg = true) (h_pwr : F .pwr = true) :
    ∀ a1 a2 a3 a4 a5 a6, Eff F s0 (State.passDone s a1 a2 a3 a4 a5 a6) := by
  intro a1 a2 a3 a4 a5 a6
  unfold State.passDone
  repeat' with_reducible first
    | assumption
    | (extract_lets +onlyGivenNames x
       first
       | (refine Eff.cut F s0 x ?_ ?_; unfold x; clear x; rotate_left; intro _; clear_value x; rotate_left)
       | (refine EffP.cut F s0 x ?_ ?_; unfold x; clear x; rotate_left; intro _; clear_value x; rotate_left)
       | clear_value x)
    | refine State.jnlFolio_eff ?_ h_rf h_mem h_bel h_ldg _ _ _ _ _ _ _ _
    | refine State.modStream_eff ?_ h_shelves _ _ _ _
    | refine State.flush_eff ?_ h_rf h_shelves h_ldg h_pwr _ _ _
    | refine State.progress_eff ?_ h_shelves _ _ _
    | refine State.passFolio_eff ?_ h_shelves _ _ _ _
    | split

theorem State.headFault_eff (h : Eff F s0 s) (h_freeCtr : F .freeCtr = true) (h_rf : F .rf = true) (h_mem : F .mem = true) (h_cat : F .cat = true) (h_shelves : F .shelves = true) (h_bel : F .bel = true) (h_ldg : F .ldg = true) (h_pwr : F .pwr = true) :
    ∀ a1 a2 a3 a4 a5 a6, Eff F s0 (State.headFault s a1 a2 a3 a4 a5 a6) := by
  intro a1 a2 a3 a4 a5 a6
  unfold State.headFault
  repeat' with_reducible first
    | assumption
    | (extract_lets +onlyGivenNames x
       first
       | (refine Eff.cut F s0 x ?_ ?_; unfold x; clear x; rotate_left; intro _; clear_value x; rotate_left)
       | (refine EffP.cut F s0 x ?_ ?_; unfold x; clear x; rotate_left; intro _; clear_value x; rotate_left)
       | clear_value x)
    | refine State.coreFault_eff ?_ h_freeCtr h_rf h_cat h_ldg _ _ _ _ _ _
    | refine State.jnlFolio_eff ?_ h_rf h_mem h_bel h_ldg _ _ _ _ _ _ _ _
    | refine State.modStream_eff ?_ h_shelves _ _ _ _
    | refine State.flush_eff ?_ h_rf h_shelves h_ldg h_pwr _ _ _
    | refine State.passFolio_eff ?_ h_shelves _ _ _ _
    | split

theorem State.skipRecord_eff (h : Eff F s0 s) (h_freeCtr : F .freeCtr = true) (h_rf : F .rf = true) (h_cat : F .cat = true) (h_shelves : F .shelves = true) :
    ∀ a1 a2 a3 a4 a5 a6, Eff F s0 (State.skipRecord s a1 a2 a3 a4 a5 a6) := by
  intro a1 a2 a3 a4 a5 a6
  unfold State.skipRecord
  repeat' with_reducible first
    | assumption
    | (extract_lets +onlyGivenNames x
       first
       | (refine Eff.cut F s0 x ?_ ?_; unfold x; clear x; rotate_left; intro _; clear_value x; rotate_left)
       | (refine EffP.cut F s0 x ?_ ?_; unfold x; clear x; rotate_left; intro _; clear_value x; rotate_left)
       | clear_value x)
    | refine State.note_eff ?_ h_shelves _ _ _ _ _ _ _
    | refine State.countSlip_eff ?_ h_cat _ _
    | refine State.draw_eff ?_ h_freeCtr _
    | refine State.capture_eff ?_ h_rf h_cat _ _ _ _
    | refine EffP.fst ?_
    | refine EffP.of_eq (by assumption) ?_
    | refine EffP.ite ?_ ?_
    | refine Eff.ite ?_ ?_
    | split
    | refine Eff.set_cat ?_ h_cat
    | refine EffP.mk ?_ _

theorem State.skipLogged_eff (h : Eff F s0 s) (h_freeCtr : F .freeCtr = true) (h_rf : F .rf = true) (h_mem : F .mem = true) (h_cat : F .cat = true) (h_shelves : F .shelves = true) (h_bel : F .bel = true) (h_ldg : F .ldg = true) (h_pwr : F .pwr = true) :
    ∀ a1 a2 a3 a4 a5, Eff F s0 (State.skipLogged s a1 a2 a3 a4 a5) := by
  intro a1 a2 a3 a4 a5
  unfold State.skipLogged
  repeat' with_reducible first
    | assumption
    | refine State.passDone_eff ?_ h_rf h_mem h_shelves h_bel h_ldg h_pwr _ _ _ _ _ _
    | refine State.skipRecord_eff ?_ h_freeCtr h_rf h_cat h_shelves _ _ _ _ _ _
    | split

theorem State.transferRows_eff (h : Eff F s0 s) (h_rf : F .rf = true) (h_ecc : F .ecc = true) :
    ∀ a1 a2 a3, EffP F s0 (State.transferRows s a1 a2 a3) := by
  intro a1 a2 a3
  unfold State.transferRows
  repeat' with_reducible first
    | assumption
    | refine State.localRead_eff ?_ h_rf h_ecc _ _ _ _ _
    | refine EffP.fst ?_
    | refine EffP.of_eq (by assumption) ?_
    | refine EffP.ite ?_ ?_
    | refine Eff.ite ?_ ?_
    | split
    | refine EffP.mk ?_ _

theorem State.transferCheck_eff (h : Eff F s0 s) (h_rf : F .rf = true) (h_ecc : F .ecc = true) (h_bel : F .bel = true) (h_ldg : F .ldg = true) :
    ∀ a1 a2 a3, EffP F s0 (State.transferCheck s a1 a2 a3) := by
  intro a1 a2 a3
  unfold State.transferCheck
  repeat' with_reducible first
    | assumption
    | (extract_lets +onlyGivenNames x
       first
       | (refine Eff.cut F s0 x ?_ ?_; unfold x; clear x; rotate_left; intro _; clear_value x; rotate_left)
       | (refine EffP.cut F s0 x ?_ ?_; unfold x; clear x; rotate_left; intro _; clear_value x; rotate_left)
       | clear_value x)
    | refine State.transferRows_eff ?_ h_rf h_ecc _ _ _
    | refine State.anyDenied_eff ?_ h_rf h_bel h_ldg _ _ _ _
    | refine EffP.fst ?_
    | refine EffP.of_eq (by assumption) ?_
    | refine EffP.ite ?_ ?_
    | refine Eff.ite ?_ ?_
    | split
    | refine EffP.mk ?_ _

theorem State.startCheck_eff (h : Eff F s0 s) (h_rf : F .rf = true) (h_ecc : F .ecc = true) (h_bel : F .bel = true) (h_ldg : F .ldg = true) :
    ∀ a1 a2 a3, EffP F s0 (State.startCheck s a1 a2 a3) := by
  intro a1 a2 a3
  unfold State.startCheck
  repeat' with_reducible first
    | assumption
    | (extract_lets +onlyGivenNames x
       first
       | (refine Eff.cut F s0 x ?_ ?_; unfold x; clear x; rotate_left; intro _; clear_value x; rotate_left)
       | (refine EffP.cut F s0 x ?_ ?_; unfold x; clear x; rotate_left; intro _; clear_value x; rotate_left)
       | clear_value x)
    | refine State.transferCheck_eff ?_ h_rf h_ecc h_bel h_ldg _ _ _
    | refine State.enqueueFolioCheck_eff ?_ h_rf h_ldg _ _ _
    | refine EffP.fst ?_
    | refine EffP.of_eq (by assumption) ?_
    | refine EffP.ite ?_ ?_
    | refine Eff.ite ?_ ?_
    | split
    | refine EffP.mk ?_ _

theorem State.startFolio_eff (h : Eff F s0 s) (h_rf : F .rf = true) (h_mem : F .mem = true) (h_shelves : F .shelves = true) (h_bel : F .bel = true) (h_ldg : F .ldg = true) :
    ∀ a1 a2 a3 a4 a5, Eff F s0 (State.startFolio s a1 a2 a3 a4 a5) := by
  intro a1 a2 a3 a4 a5
  unfold State.startFolio
  repeat' with_reducible first
    | assumption
    | (extract_lets +onlyGivenNames x
       first
       | (refine Eff.cut F s0 x ?_ ?_; unfold x; clear x; rotate_left; intro _; clear_value x; rotate_left)
       | (refine EffP.cut F s0 x ?_ ?_; unfold x; clear x; rotate_left; intro _; clear_value x; rotate_left)
       | clear_value x)
    | refine State.jnlFolio_eff ?_ h_rf h_mem h_bel h_ldg _ _ _ _ _ _ _ _
    | refine State.modStream_eff ?_ h_shelves _ _ _ _
    | refine State.passFolio_eff ?_ h_shelves _ _ _ _
    | split

theorem State.tryStart_eff (h : Eff F s0 s) (h_freeCtr : F .freeCtr = true) (h_rf : F .rf = true) (h_mem : F .mem = true) (h_ecc : F .ecc = true) (h_cat : F .cat = true) (h_shelves : F .shelves = true) (h_bel : F .bel = true) (h_ldg : F .ldg = true) (h_pwr : F .pwr = true) :
    ∀ a1 a2 a3 a4 a5, Eff F s0 (State.tryStart s a1 a2 a3 a4 a5) := by
  intro a1 a2 a3 a4 a5
  unfold State.tryStart
  repeat' with_reducible first
    | assumption
    | refine State.modStream_eff ?_ h_shelves _ _ _ _
    | refine State.startCheck_eff ?_ h_rf h_ecc h_bel h_ldg _ _ _
    | refine State.skipLogged_eff ?_ h_freeCtr h_rf h_mem h_cat h_shelves h_bel h_ldg h_pwr _ _ _ _ _
    | refine State.headFault_eff ?_ h_freeCtr h_rf h_mem h_cat h_shelves h_bel h_ldg h_pwr _ _ _ _ _ _
    | refine State.startFolio_eff ?_ h_rf h_mem h_shelves h_bel h_ldg _ _ _ _ _
    | refine EffP.fst ?_
    | refine EffP.of_eq (by assumption) ?_
    | split
    | refine EffP.mk ?_ _

theorem State.waitMet_eff (h : Eff F s0 s) (h_shelves : F .shelves = true) :
    ∀ a1 a2 a3, EffO F s0 (State.waitMet s a1 a2 a3) := by
  intro a1 a2 a3
  unfold State.waitMet
  repeat' with_reducible first
    | assumption
    | (extract_lets +onlyGivenNames x
       first
       | (refine Eff.cut F s0 x ?_ ?_; unfold x; clear x; rotate_left; intro _; clear_value x; rotate_left)
       | (refine EffP.cut F s0 x ?_ ?_; unfold x; clear x; rotate_left; intro _; clear_value x; rotate_left)
       | clear_value x)
    | refine State.modCore_eff ?_ h_shelves _ _ _
    | exact EffO.none
    | refine EffO.some ?_
    | refine EffO.map (fun _ => ?_)
    | refine Eff.ite ?_ ?_
    | refine EffO.ite ?_ ?_
    | split

theorem State.predicate_eff (h : Eff F s0 s) (h_rf : F .rf = true) (h_ecc : F .ecc = true) :
    ∀ a1 a2 a3, EffP F s0 (State.predicate s a1 a2 a3) := by
  intro a1 a2 a3
  unfold State.predicate
  repeat' with_reducible first
    | assumption
    | refine State.localRead_eff ?_ h_rf h_ecc _ _ _ _ _
    | refine EffP.fst ?_
    | refine EffP.of_eq (by assumption) ?_
    | refine EffP.ite ?_ ?_
    | refine Eff.ite ?_ ?_
    | split
    | refine EffP.mk ?_ _

theorem State.headRun_eff (h : Eff F s0 s) (h_freeCtr : F .freeCtr = true) (h_rf : F .rf = true) (h_mem : F .mem = true) (h_ecc : F .ecc = true) (h_cat : F .cat = true) (h_shelves : F .shelves = true) (h_bel : F .bel = true) (h_ldg : F .ldg = true) (h_pwr : F .pwr = true) :
    ∀ a1 a2 a3 a4 a5, Eff F s0 (State.headRun s a1 a2 a3 a4 a5) := by
  intro a1 a2 a3 a4 a5
  unfold State.headRun
  repeat' with_reducible first
    | assumption
    | refine State.waitMet_eff ?_ h_shelves _ _ _
    | refine State.modStream_eff ?_ h_shelves _ _ _ _
    | refine State.startFolio_eff ?_ h_rf h_mem h_shelves h_bel h_ldg _ _ _ _ _
    | refine State.predicate_eff ?_ h_rf h_ecc _ _ _
    | refine State.headFault_eff ?_ h_freeCtr h_rf h_mem h_cat h_shelves h_bel h_ldg h_pwr _ _ _ _ _ _
    | refine State.passDone_eff ?_ h_rf h_mem h_shelves h_bel h_ldg h_pwr _ _ _ _ _ _
    | refine State.tryStart_eff ?_ h_freeCtr h_rf h_mem h_ecc h_cat h_shelves h_bel h_ldg h_pwr _ _ _ _ _
    | refine EffP.fst ?_
    | refine EffP.of_eq (by assumption) ?_
    | refine EffO.of_eq (by assumption) ?_
    | refine EffP.ite ?_ ?_
    | refine Eff.ite ?_ ?_
    | refine EffO.ite ?_ ?_
    | split
    | refine EffP.mk ?_ _

theorem State.headFolio_eff (h : Eff F s0 s) (h_freeCtr : F .freeCtr = true) (h_rf : F .rf = true) (h_mem : F .mem = true) (h_ecc : F .ecc = true) (h_cat : F .cat = true) (h_shelves : F .shelves = true) (h_bel : F .bel = true) (h_ldg : F .ldg = true) (h_pwr : F .pwr = true) :
    ∀ a1 a2 a3 a4, Eff F s0 (State.headFolio s a1 a2 a3 a4) := by
  intro a1 a2 a3 a4
  unfold State.headFolio
  repeat' with_reducible first
    | assumption
    | (extract_lets +onlyGivenNames x
       first
       | (refine Eff.cut F s0 x ?_ ?_; unfold x; clear x; rotate_left; intro _; clear_value x; rotate_left)
       | (refine EffP.cut F s0 x ?_ ?_; unfold x; clear x; rotate_left; intro _; clear_value x; rotate_left)
       | clear_value x)
    | refine State.eccShelfRead_eff ?_ h_rf h_ecc _ _ _ _
    | refine State.passDone_eff ?_ h_rf h_mem h_shelves h_bel h_ldg h_pwr _ _ _ _ _ _
    | refine State.modStream_eff ?_ h_shelves _ _ _ _
    | refine State.headFault_eff ?_ h_freeCtr h_rf h_mem h_cat h_shelves h_bel h_ldg h_pwr _ _ _ _ _ _
    | refine State.skipLogged_eff ?_ h_freeCtr h_rf h_mem h_cat h_shelves h_bel h_ldg h_pwr _ _ _ _ _
    | refine State.tryStart_eff ?_ h_freeCtr h_rf h_mem h_ecc h_cat h_shelves h_bel h_ldg h_pwr _ _ _ _ _
    | refine State.headRun_eff ?_ h_freeCtr h_rf h_mem h_ecc h_cat h_shelves h_bel h_ldg h_pwr _ _ _ _ _
    | refine EffP.fst ?_
    | refine EffP.of_eq (by assumption) ?_
    | refine EffP.ite ?_ ?_
    | refine Eff.ite ?_ ?_
    | split
    | refine EffP.mk ?_ _

theorem State.folioHead_eff (h : Eff F s0 s) (h_freeCtr : F .freeCtr = true) (h_rf : F .rf = true) (h_mem : F .mem = true) (h_ecc : F .ecc = true) (h_cat : F .cat = true) (h_shelves : F .shelves = true) (h_bel : F .bel = true) (h_ldg : F .ldg = true) (h_pwr : F .pwr = true) :
    ∀ a1 a2 a3, Eff F s0 (State.folioHead s a1 a2 a3) := by
  intro a1 a2 a3
  unfold State.folioHead
  repeat' with_reducible first
    | assumption
    | (extract_lets +onlyGivenNames x
       first
       | (refine Eff.cut F s0 x ?_ ?_; unfold x; clear x; rotate_left; intro _; clear_value x; rotate_left)
       | (refine EffP.cut F s0 x ?_ ?_; unfold x; clear x; rotate_left; intro _; clear_value x; rotate_left)
       | clear_value x)
    | refine State.cutoff_eff ?_ h_rf h_shelves _ _ _ _ _
    | refine State.headFolio_eff ?_ h_freeCtr h_rf h_mem h_ecc h_cat h_shelves h_bel h_ldg h_pwr _ _ _ _
    | refine Eff.ite ?_ ?_
    | split

theorem State.perform_eff (h : Eff F s0 s) (h_freeCtr : F .freeCtr = true) (h_rf : F .rf = true) (h_mem : F .mem = true) (h_cat : F .cat = true) (h_shelves : F .shelves = true) (h_iln : F .iln = true) (h_bel : F .bel = true) (h_ldg : F .ldg = true) (h_pwr : F .pwr = true) (f0 : State →
  PassCtx →
    Exec → Folio → State × Met) (h_f0 : ∀ y0, Eff F s0 y0 → ∀ y1 y2 y3, EffP F s0 (f0 y0 y1 y2 y3)) :
    ∀ a1 a2 a3 a4, Eff F s0 (State.perform s a1 a2 a3 a4 f0) := by
  intro a1 a2 a3 a4
  unfold State.perform
  repeat' with_reducible first
    | assumption
    | refine State.setExec_eff ?_ h_shelves _ _ _ _ _ _
    | refine State.folioFail_eff ?_ h_freeCtr h_rf h_mem h_cat h_shelves h_iln h_bel h_ldg h_pwr _ _ _ _ _ _
    | refine h_f0 _ ?_ _ _ _
    | refine EffP.fst ?_
    | refine EffP.of_eq (by assumption) ?_
    | refine EffP.ite ?_ ?_
    | refine Eff.ite ?_ ?_
    | split

theorem State.refuseStarted_eff (h : Eff F s0 s) (h_freeCtr : F .freeCtr = true) (h_rf : F .rf = true) (h_mem : F .mem = true) (h_cat : F .cat = true) (h_shelves : F .shelves = true) (h_bel : F .bel = true) (h_ldg : F .ldg = true) (h_pwr : F .pwr = true) :
    ∀ a1 a2 a3 a4 a5, Eff F s0 (State.refuseStarted s a1 a2 a3 a4 a5) := by
  intro a1 a2 a3 a4 a5
  unfold State.refuseStarted
  repeat' with_reducible first
    | assumption
    | (extract_lets +onlyGivenNames x
       first
       | (refine Eff.cut F s0 x ?_ ?_; unfold x; clear x; rotate_left; intro _; clear_value x; rotate_left)
       | (refine EffP.cut F s0 x ?_ ?_; unfold x; clear x; rotate_left; intro _; clear_value x; rotate_left)
       | clear_value x)
    | refine State.skipRecord_eff ?_ h_freeCtr h_rf h_cat h_shelves _ _ _ _ _ _
    | refine State.jnlFolio_eff ?_ h_rf h_mem h_bel h_ldg _ _ _ _ _ _ _ _
    | refine State.modStream_eff ?_ h_shelves _ _ _ _
    | refine State.flush_eff ?_ h_rf h_shelves h_ldg h_pwr _ _ _
    | refine State.progress_eff ?_ h_shelves _ _ _
    | refine Eff.ite ?_ ?_
    | split

theorem State.select_eff (h : Eff F s0 s) (h_rf : F .rf = true) (h_ecc : F .ecc = true) (h_shelves : F .shelves = true) :
    ∀ a1 a2 a3 a4, EffP F s0 (State.select s a1 a2 a3 a4) := by
  intro a1 a2 a3 a4
  unfold State.select
  repeat' with_reducible first
    | assumption
    | refine State.predicate_eff ?_ h_rf h_ecc _ _ _
    | refine State.modStream_eff ?_ h_shelves _ _ _ _
    | refine EffP.fst ?_
    | refine EffP.of_eq (by assumption) ?_
    | refine EffP.ite ?_ ?_
    | refine Eff.ite ?_ ?_
    | split
    | refine EffP.mk ?_ _

theorem State.sendNotes_eff (h : Eff F s0 s) (h_rf : F .rf = true) (h_ldg : F .ldg = true) :
    ∀ a1, Eff F s0 (State.sendNotes s a1) := by
  intro a1
  unfold State.sendNotes
  repeat' with_reducible first
    | assumption
    | refine State.send_eff ?_ h_rf h_ldg _
    | refine Eff.foldl ?_ (fun _ _ _ => ?_)
    | refine EffP.foldl ?_ (fun _ _ _ => ?_)
    | refine EffP.fst ?_
    | refine EffP.of_eq (by assumption) ?_
    | split

theorem execBisectRelease_eff (h : Eff F s0 s) (h_shelves : F .shelves = true) :
    ∀ a0, EffX F s0 (execBisectRelease a0 s) := by
  intro a0
  unfold execBisectRelease
  repeat' with_reducible first
    | assumption
    | refine State.bisectRelease_eff ?_ h_shelves _
    | refine EffX.next ?_
    | refine Eff.ite ?_ ?_
    | refine EffX.ite ?_ ?_
    | split

theorem execFolioComplete_eff (h : Eff F s0 s) (h_rf : F .rf = true) (h_mem : F .mem = true) (h_shelves : F .shelves = true) (h_bel : F .bel = true) (h_ldg : F .ldg = true) (h_pwr : F .pwr = true) :
    ∀ a0 a1 a2, EffX F s0 (execFolioComplete a0 a1 a2 s) := by
  intro a0 a1 a2
  unfold execFolioComplete
  repeat' with_reducible first
    | assumption
    | refine State.folioComplete_eff ?_ h_rf h_mem h_shelves h_bel h_ldg h_pwr _ _ _
    | refine EffX.next ?_
    | refine Eff.ite ?_ ?_
    | refine EffX.ite ?_ ?_
    | split

theorem execFolioErrorEnd_eff (h : Eff F s0 s) (h_freeCtr : F .freeCtr = true) (h_rf : F .rf = true) (h_mem : F .mem = true) (h_cat : F .cat = true) (h_shelves : F .shelves = true) (h_kpr : F .kpr = true) (h_iln : F .iln = true) (h_bel : F .bel = true) (h_ldg : F .ldg = true) (h_pwr : F .pwr = true) :
    ∀ a0 a1 a2 a3 a4 a5, EffX F s0 (execFolioErrorEnd a0 a1 a2 a3 a4 a5 s) := by
  intro a0 a1 a2 a3 a4 a5
  unfold execFolioErrorEnd
  repeat' with_reducible first
    | assumption
    | refine State.folioErrorEnd_eff ?_ h_freeCtr h_rf h_mem h_cat h_shelves h_kpr h_iln h_bel h_ldg h_pwr _ _ _ _ _ _
    | refine EffX.next ?_
    | refine Eff.ite ?_ ?_
    | refine EffX.ite ?_ ?_
    | split

theorem execFolioHead_eff (h : Eff F s0 s) (h_freeCtr : F .freeCtr = true) (h_rf : F .rf = true) (h_mem : F .mem = true) (h_ecc : F .ecc = true) (h_cat : F .cat = true) (h_shelves : F .shelves = true) (h_bel : F .bel = true) (h_ldg : F .ldg = true) (h_pwr : F .pwr = true) :
    ∀ a0 a1 a2, EffX F s0 (execFolioHead a0 a1 a2 s) := by
  intro a0 a1 a2
  unfold execFolioHead
  repeat' with_reducible first
    | assumption
    | refine State.folioHead_eff ?_ h_freeCtr h_rf h_mem h_ecc h_cat h_shelves h_bel h_ldg h_pwr _ _ _
    | refine EffX.next ?_
    | refine Eff.ite ?_ ?_
    | refine EffX.ite ?_ ?_
    | split

theorem execNop_eff (h : Eff F s0 s) (h_freeCtr : F .freeCtr = true) (h_rf : F .rf = true) (h_mem : F .mem = true) (h_cat : F .cat = true) (h_shelves : F .shelves = true) (h_iln : F .iln = true) (h_bel : F .bel = true) (h_ldg : F .ldg = true) (h_pwr : F .pwr = true) :
    ∀ a0 a1 a2, EffX F s0 (execNop a0 a1 a2 s) := by
  intro a0 a1 a2
  unfold execNop
  repeat' with_reducible first
    | assumption
    | refine State.perform_eff ?_ h_freeCtr h_rf h_mem h_cat h_shelves h_iln h_bel h_ldg h_pwr _ (fun _ _ _ _ _ => ?_) _ _ _ _
    | refine EffX.next ?_
    | split
    | refine EffP.mk ?_ _

theorem execSelect_eff (h : Eff F s0 s) (h_freeCtr : F .freeCtr = true) (h_rf : F .rf = true) (h_mem : F .mem = true) (h_ecc : F .ecc = true) (h_cat : F .cat = true) (h_shelves : F .shelves = true) (h_iln : F .iln = true) (h_bel : F .bel = true) (h_ldg : F .ldg = true) (h_pwr : F .pwr = true) :
    ∀ a0 a1 a2, EffX F s0 (execSelect a0 a1 a2 s) := by
  intro a0 a1 a2
  unfold execSelect
  repeat' with_reducible first
    | assumption
    | refine State.perform_eff ?_ h_freeCtr h_rf h_mem h_cat h_shelves h_iln h_bel h_ldg h_pwr _ (fun _ _ _ _ _ => ?_) _ _ _ _
    | refine State.select_eff ?_ h_rf h_ecc h_shelves _ _ _ _
    | refine EffX.next ?_
    | refine EffP.fst ?_
    | refine EffP.of_eq (by assumption) ?_
    | split
    | refine EffP.mk ?_ _

theorem execWait_eff (h : Eff F s0 s) (h_freeCtr : F .freeCtr = true) (h_rf : F .rf = true) (h_mem : F .mem = true) (h_cat : F .cat = true) (h_shelves : F .shelves = true) (h_iln : F .iln = true) (h_bel : F .bel = true) (h_ldg : F .ldg = true) (h_pwr : F .pwr = true) :
    ∀ a0 a1 a2, EffX F s0 (execWait a0 a1 a2 s) := by
  intro a0 a1 a2
  unfold execWait
  repeat' with_reducible first
    | assumption
    | refine State.perform_eff ?_ h_freeCtr h_rf h_mem h_cat h_shelves h_iln h_bel h_ldg h_pwr _ (fun _ _ _ _ _ => ?_) _ _ _ _
    | refine EffX.next ?_
    | split
    | refine EffP.mk ?_ _

end Sys2Proof.Machine
end

