-- ==== Sys2Proof/Laws/FrameEngineM.lean ====
section
/-! SUPPORT. Frames of the operations of Machine/EngineM.lean: what each may change. -/

namespace Sys2Proof.Machine

variable {F : Comp → Bool} {s0 s : State}

theorem State.accClear_eff (h : Eff F s0 s) (h_shelves : F .shelves = true) :
    ∀ a1 a2 a3, EffP F s0 (State.accClear s a1 a2 a3) := by
  intro a1 a2 a3
  unfold State.accClear
  repeat' with_reducible first
    | assumption
    | (extract_lets +onlyGivenNames x
       first
       | (refine Eff.cut F s0 x ?_ ?_; unfold x; clear x; rotate_left; intro _; clear_value x; rotate_left)
       | (refine EffP.cut F s0 x ?_ ?_; unfold x; clear x; rotate_left; intro _; clear_value x; rotate_left)
       | clear_value x)
    | refine State.modCore_eff ?_ h_shelves _ _ _
    | refine Eff.foldl ?_ (fun _ _ _ => ?_)
    | refine EffP.foldl ?_ (fun _ _ _ => ?_)
    | refine EffP.fst ?_
    | refine EffP.of_eq (by assumption) ?_
    | split
    | refine EffP.mk ?_ _

theorem State.noteConverted_eff (h : Eff F s0 s) (h_cat : F .cat = true) (h_shelves : F .shelves = true) :
    ∀ a1 a2 a3 a4 a5 a6, Eff F s0 (State.noteConverted s a1 a2 a3 a4 a5 a6) := by
  intro a1 a2 a3 a4 a5 a6
  unfold State.noteConverted
  repeat' with_reducible first
    | assumption
    | (extract_lets +onlyGivenNames x
       first
       | (refine Eff.cut F s0 x ?_ ?_; unfold x; clear x; rotate_left; intro _; clear_value x; rotate_left)
       | (refine EffP.cut F s0 x ?_ ?_; unfold x; clear x; rotate_left; intro _; clear_value x; rotate_left)
       | clear_value x)
    | refine State.note_eff ?_ h_shelves _ _ _ _ _ _ _
    | refine State.countSlip_eff ?_ h_cat _ _
    | refine EffP.fst ?_
    | refine EffP.of_eq (by assumption) ?_
    | refine EffP.ite ?_ ?_
    | refine Eff.ite ?_ ?_
    | split
    | refine EffP.mk ?_ _

theorem State.accDrain_eff (h : Eff F s0 s) (h_rf : F .rf = true) (h_mem : F .mem = true) (h_ecc : F .ecc = true) (h_cat : F .cat = true) (h_shelves : F .shelves = true) :
    ∀ a1 a2 a3 a4, EffP F s0 (State.accDrain s a1 a2 a3 a4) := by
  intro a1 a2 a3 a4
  unfold State.accDrain
  repeat' with_reducible first
    | assumption
    | (extract_lets +onlyGivenNames x
       first
       | (refine Eff.cut F s0 x ?_ ?_; unfold x; clear x; rotate_left; intro _; clear_value x; rotate_left)
       | (refine EffP.cut F s0 x ?_ ?_; unfold x; clear x; rotate_left; intro _; clear_value x; rotate_left)
       | clear_value x)
    | refine State.localWrite_eff ?_ h_rf h_mem h_ecc h_shelves _ _ _ _ _
    | refine State.noteConverted_eff ?_ h_cat h_shelves _ _ _ _ _ _
    | refine EffP.fst ?_
    | refine EffP.of_eq (by assumption) ?_
    | split
    | refine EffP.mk ?_ _

theorem State.accLoad_eff (h : Eff F s0 s) (h_rf : F .rf = true) (h_ecc : F .ecc = true) (h_shelves : F .shelves = true) :
    ∀ a1 a2 a3, EffP F s0 (State.accLoad s a1 a2 a3) := by
  intro a1 a2 a3
  unfold State.accLoad
  repeat' with_reducible first
    | assumption
    | (extract_lets +onlyGivenNames x
       first
       | (refine Eff.cut F s0 x ?_ ?_; unfold x; clear x; rotate_left; intro _; clear_value x; rotate_left)
       | (refine EffP.cut F s0 x ?_ ?_; unfold x; clear x; rotate_left; intro _; clear_value x; rotate_left)
       | clear_value x)
    | refine State.localRead_eff ?_ h_rf h_ecc _ _ _ _ _
    | refine State.modCore_eff ?_ h_shelves _ _ _
    | refine Eff.foldl ?_ (fun _ _ _ => ?_)
    | refine EffP.foldl ?_ (fun _ _ _ => ?_)
    | refine EffP.fst ?_
    | refine EffP.of_eq (by assumption) ?_
    | split
    | refine EffP.mk ?_ _

theorem State.accStore_eff (h : Eff F s0 s) (h_rf : F .rf = true) (h_mem : F .mem = true) (h_ecc : F .ecc = true) (h_shelves : F .shelves = true) :
    ∀ a1 a2 a3, EffP F s0 (State.accStore s a1 a2 a3) := by
  intro a1 a2 a3
  unfold State.accStore
  repeat' with_reducible first
    | assumption
    | refine State.localWrite_eff ?_ h_rf h_mem h_ecc h_shelves _ _ _ _ _
    | refine EffP.fst ?_
    | refine EffP.of_eq (by assumption) ?_
    | split
    | refine EffP.mk ?_ _

theorem State.mma_eff (h : Eff F s0 s) (h_rf : F .rf = true) (h_ecc : F .ecc = true) (h_shelves : F .shelves = true) :
    ∀ a1 a2 a3, EffP F s0 (State.mma s a1 a2 a3) := by
  intro a1 a2 a3
  unfold State.mma
  repeat' with_reducible first
    | assumption
    | (extract_lets +onlyGivenNames x
       first
       | (refine Eff.cut F s0 x ?_ ?_; unfold x; clear x; rotate_left; intro _; clear_value x; rotate_left)
       | (refine EffP.cut F s0 x ?_ ?_; unfold x; clear x; rotate_left; intro _; clear_value x; rotate_left)
       | clear_value x)
    | refine State.readRows_eff ?_ h_rf h_ecc _ _ _ _ _
    | refine State.modCore_eff ?_ h_shelves _ _ _
    | refine Eff.foldl ?_ (fun _ _ _ => ?_)
    | refine EffP.foldl ?_ (fun _ _ _ => ?_)
    | refine EffP.fst ?_
    | refine EffP.of_eq (by assumption) ?_
    | refine EffP.ite ?_ ?_
    | refine Eff.ite ?_ ?_
    | split
    | refine EffP.mk ?_ _

theorem execAccClear_eff (h : Eff F s0 s) (h_freeCtr : F .freeCtr = true) (h_rf : F .rf = true) (h_mem : F .mem = true) (h_cat : F .cat = true) (h_shelves : F .shelves = true) (h_iln : F .iln = true) (h_bel : F .bel = true) (h_ldg : F .ldg = true) (h_pwr : F .pwr = true) :
    ∀ a0 a1, EffX F s0 (execAccClear a0 a1 s) := by
  intro a0 a1
  unfold execAccClear
  repeat' with_reducible first
    | assumption
    | refine State.perform_eff ?_ h_freeCtr h_rf h_mem h_cat h_shelves h_iln h_bel h_ldg h_pwr _ (fun _ _ _ _ _ => ?_) _ _ _ _
    | refine State.accClear_eff ?_ h_shelves _ _ _
    | refine EffX.next ?_
    | refine EffP.fst ?_
    | refine EffP.of_eq (by assumption) ?_
    | split
    | refine EffP.mk ?_ _

theorem execAccDrain_eff (h : Eff F s0 s) (h_freeCtr : F .freeCtr = true) (h_rf : F .rf = true) (h_mem : F .mem = true) (h_ecc : F .ecc = true) (h_cat : F .cat = true) (h_shelves : F .shelves = true) (h_iln : F .iln = true) (h_bel : F .bel = true) (h_ldg : F .ldg = true) (h_pwr : F .pwr = true) :
    ∀ a0 a1, EffX F s0 (execAccDrain a0 a1 s) := by
  intro a0 a1
  unfold execAccDrain
  repeat' with_reducible first
    | assumption
    | refine State.perform_eff ?_ h_freeCtr h_rf h_mem h_cat h_shelves h_iln h_bel h_ldg h_pwr _ (fun _ _ _ _ _ => ?_) _ _ _ _
    | refine State.accDrain_eff ?_ h_rf h_mem h_ecc h_cat h_shelves _ _ _ _
    | refine EffX.next ?_
    | refine EffP.fst ?_
    | refine EffP.of_eq (by assumption) ?_
    | split
    | refine EffP.mk ?_ _

theorem execAccLoad_eff (h : Eff F s0 s) (h_freeCtr : F .freeCtr = true) (h_rf : F .rf = true) (h_mem : F .mem = true) (h_ecc : F .ecc = true) (h_cat : F .cat = true) (h_shelves : F .shelves = true) (h_iln : F .iln = true) (h_bel : F .bel = true) (h_ldg : F .ldg = true) (h_pwr : F .pwr = true) :
    ∀ a0 a1, EffX F s0 (execAccLoad a0 a1 s) := by
  intro a0 a1
  unfold execAccLoad
  repeat' with_reducible first
    | assumption
    | refine State.perform_eff ?_ h_freeCtr h_rf h_mem h_cat h_shelves h_iln h_bel h_ldg h_pwr _ (fun _ _ _ _ _ => ?_) _ _ _ _
    | refine State.accLoad_eff ?_ h_rf h_ecc h_shelves _ _ _
    | refine EffX.next ?_
    | refine EffP.fst ?_
    | refine EffP.of_eq (by assumption) ?_
    | split
    | refine EffP.mk ?_ _

theorem execAccStore_eff (h : Eff F s0 s) (h_freeCtr : F .freeCtr = true) (h_rf : F .rf = true) (h_mem : F .mem = true) (h_ecc : F .ecc = true) (h_cat : F .cat = true) (h_shelves : F .shelves = true) (h_iln : F .iln = true) (h_bel : F .bel = true) (h_ldg : F .ldg = true) (h_pwr : F .pwr = true) :
    ∀ a0 a1, EffX F s0 (execAccStore a0 a1 s) := by
  intro a0 a1
  unfold execAccStore
  repeat' with_reducible first
    | assumption
    | refine State.perform_eff ?_ h_freeCtr h_rf h_mem h_cat h_shelves h_iln h_bel h_ldg h_pwr _ (fun _ _ _ _ _ => ?_) _ _ _ _
    | refine State.accStore_eff ?_ h_rf h_mem h_ecc h_shelves _ _ _
    | refine EffX.next ?_
    | refine EffP.fst ?_
    | refine EffP.of_eq (by assumption) ?_
    | split
    | refine EffP.mk ?_ _

theorem execMma_eff (h : Eff F s0 s) (h_freeCtr : F .freeCtr = true) (h_rf : F .rf = true) (h_mem : F .mem = true) (h_ecc : F .ecc = true) (h_cat : F .cat = true) (h_shelves : F .shelves = true) (h_iln : F .iln = true) (h_bel : F .bel = true) (h_ldg : F .ldg = true) (h_pwr : F .pwr = true) :
    ∀ a0 a1, EffX F s0 (execMma a0 a1 s) := by
  intro a0 a1
  unfold execMma
  repeat' with_reducible first
    | assumption
    | refine State.perform_eff ?_ h_freeCtr h_rf h_mem h_cat h_shelves h_iln h_bel h_ldg h_pwr _ (fun _ _ _ _ _ => ?_) _ _ _ _
    | refine State.mma_eff ?_ h_rf h_ecc h_shelves _ _ _
    | refine EffX.next ?_
    | refine EffP.fst ?_
    | refine EffP.of_eq (by assumption) ?_
    | split
    | refine EffP.mk ?_ _

theorem execMmaSparse_eff (h : Eff F s0 s) (h_freeCtr : F .freeCtr = true) (h_rf : F .rf = true) (h_mem : F .mem = true) (h_ecc : F .ecc = true) (h_cat : F .cat = true) (h_shelves : F .shelves = true) (h_iln : F .iln = true) (h_bel : F .bel = true) (h_ldg : F .ldg = true) (h_pwr : F .pwr = true) :
    ∀ a0 a1, EffX F s0 (execMmaSparse a0 a1 s) := by
  intro a0 a1
  unfold execMmaSparse
  repeat' with_reducible first
    | assumption
    | refine State.perform_eff ?_ h_freeCtr h_rf h_mem h_cat h_shelves h_iln h_bel h_ldg h_pwr _ (fun _ _ _ _ _ => ?_) _ _ _ _
    | refine State.mma_eff ?_ h_rf h_ecc h_shelves _ _ _
    | refine EffX.next ?_
    | refine EffP.fst ?_
    | refine EffP.of_eq (by assumption) ?_
    | split
    | refine EffP.mk ?_ _

end Sys2Proof.Machine
end

