-- ==== Sys2Proof/Laws/FrameEngineV.lean ====
section
/-! SUPPORT. Frames of the operations of Machine/EngineV.lean: what each may change. -/

namespace Sys2Proof.Machine

variable {F : Comp → Bool} {s0 s : State}

theorem State.unaryRows_eff (h : Eff F s0 s) (h_rf : F .rf = true) (h_mem : F .mem = true) (h_ecc : F .ecc = true) (h_cat : F .cat = true) (h_shelves : F .shelves = true) :
    ∀ a1 a2 a3 a4 a5 a6 a7, EffP F s0 (State.unaryRows s a1 a2 a3 a4 a5 a6 a7) := by
  intro a1 a2 a3 a4 a5 a6 a7
  induction a7 generalizing s a1 a2 a3 a4 a5 a6 with
  | nil => exact EffP.mk h _
  | cons q qs ih =>
    rw [State.unaryRows]
    repeat' with_reducible first
      | assumption
      | (extract_lets +onlyGivenNames x
         first
         | (refine Eff.cut F s0 x ?_ ?_; unfold x; clear x; rotate_left; intro _; clear_value x; rotate_left)
         | (refine EffP.cut F s0 x ?_ ?_; unfold x; clear x; rotate_left; intro _; clear_value x; rotate_left)
         | clear_value x)
      | refine State.localRead_eff ?_ h_rf h_ecc _ _ _ _ _
      | refine State.localWrite_eff ?_ h_rf h_mem h_ecc h_shelves _ _ _ _ _
      | refine State.noteConverted_eff ?_ h_cat h_shelves _ _ _ _ _ _
      | apply ih
      | refine EffP.fst ?_
      | refine EffP.of_eq (by assumption) ?_
      | split
      | refine EffP.mk ?_ _

theorem State.convert_eff (h : Eff F s0 s) (h_rf : F .rf = true) (h_mem : F .mem = true) (h_ecc : F .ecc = true) (h_cat : F .cat = true) (h_shelves : F .shelves = true) :
    ∀ a1 a2 a3 a4, EffP F s0 (State.convert s a1 a2 a3 a4) := by
  intro a1 a2 a3 a4
  unfold State.convert
  repeat' with_reducible first
    | assumption
    | (extract_lets +onlyGivenNames x
       first
       | (refine Eff.cut F s0 x ?_ ?_; unfold x; clear x; rotate_left; intro _; clear_value x; rotate_left)
       | (refine EffP.cut F s0 x ?_ ?_; unfold x; clear x; rotate_left; intro _; clear_value x; rotate_left)
       | clear_value x)
    | refine State.unaryRows_eff ?_ h_rf h_mem h_ecc h_cat h_shelves _ _ _ _ _ _ _
    | refine EffP.fst ?_
    | refine EffP.of_eq (by assumption) ?_
    | refine EffP.ite ?_ ?_
    | refine Eff.ite ?_ ?_
    | split
    | refine EffP.mk ?_ _

theorem State.elemRows_eff (h : Eff F s0 s) (h_rf : F .rf = true) (h_mem : F .mem = true) (h_ecc : F .ecc = true) (h_shelves : F .shelves = true) :
    ∀ a1 a2 a3 a4 a5 a6 a7, EffP F s0 (State.elemRows s a1 a2 a3 a4 a5 a6 a7) := by
  intro a1 a2 a3 a4 a5 a6 a7
  induction a7 generalizing s a1 a2 a3 a4 a5 a6 with
  | nil => exact EffP.mk h _
  | cons q qs ih =>
    rw [State.elemRows]
    repeat' with_reducible first
      | assumption
      | (extract_lets +onlyGivenNames x
         first
         | (refine Eff.cut F s0 x ?_ ?_; unfold x; clear x; rotate_left; intro _; clear_value x; rotate_left)
         | (refine EffP.cut F s0 x ?_ ?_; unfold x; clear x; rotate_left; intro _; clear_value x; rotate_left)
         | clear_value x)
      | refine State.localRead_eff ?_ h_rf h_ecc _ _ _ _ _
      | refine State.localWrite_eff ?_ h_rf h_mem h_ecc h_shelves _ _ _ _ _
      | apply ih
      | refine EffP.fst ?_
      | refine EffP.of_eq (by assumption) ?_
      | refine EffP.ite ?_ ?_
      | refine Eff.ite ?_ ?_
      | split
      | refine EffP.mk ?_ _

theorem State.elemwise_eff (h : Eff F s0 s) (h_rf : F .rf = true) (h_mem : F .mem = true) (h_ecc : F .ecc = true) (h_shelves : F .shelves = true) :
    ∀ a1 a2 a3 a4 a5 a6 a7, EffP F s0 (State.elemwise s a1 a2 a3 a4 a5 a6 a7) := by
  intro a1 a2 a3 a4 a5 a6 a7
  unfold State.elemwise
  repeat' with_reducible first
    | assumption
    | refine State.elemRows_eff ?_ h_rf h_mem h_ecc h_shelves _ _ _ _ _ _ _
    | refine EffP.fst ?_
    | refine EffP.of_eq (by assumption) ?_
    | refine EffP.ite ?_ ?_
    | refine Eff.ite ?_ ?_
    | split
    | refine EffP.mk ?_ _

theorem State.reduce_eff (h : Eff F s0 s) (h_rf : F .rf = true) (h_mem : F .mem = true) (h_ecc : F .ecc = true) (h_shelves : F .shelves = true) :
    ∀ a1 a2 a3 a4 a5 a6, EffP F s0 (State.reduce s a1 a2 a3 a4 a5 a6) := by
  intro a1 a2 a3 a4 a5 a6
  unfold State.reduce
  repeat' with_reducible first
    | assumption
    | (extract_lets +onlyGivenNames x
       first
       | (refine Eff.cut F s0 x ?_ ?_; unfold x; clear x; rotate_left; intro _; clear_value x; rotate_left)
       | (refine EffP.cut F s0 x ?_ ?_; unfold x; clear x; rotate_left; intro _; clear_value x; rotate_left)
       | clear_value x)
    | refine State.localRead_eff ?_ h_rf h_ecc _ _ _ _ _
    | refine State.localWrite_eff ?_ h_rf h_mem h_ecc h_shelves _ _ _ _ _
    | refine Eff.foldl ?_ (fun _ _ _ => ?_)
    | refine EffP.foldl ?_ (fun _ _ _ => ?_)
    | refine EffP.fst ?_
    | refine EffP.of_eq (by assumption) ?_
    | refine EffP.ite ?_ ?_
    | refine Eff.ite ?_ ?_
    | split
    | refine EffP.mk ?_ _

theorem State.unary_eff (h : Eff F s0 s) (h_rf : F .rf = true) (h_mem : F .mem = true) (h_ecc : F .ecc = true) (h_cat : F .cat = true) (h_shelves : F .shelves = true) :
    ∀ a1 a2 a3 a4 a5, EffP F s0 (State.unary s a1 a2 a3 a4 a5) := by
  intro a1 a2 a3 a4 a5
  unfold State.unary
  repeat' with_reducible first
    | assumption
    | (extract_lets +onlyGivenNames x
       first
       | (refine Eff.cut F s0 x ?_ ?_; unfold x; clear x; rotate_left; intro _; clear_value x; rotate_left)
       | (refine EffP.cut F s0 x ?_ ?_; unfold x; clear x; rotate_left; intro _; clear_value x; rotate_left)
       | clear_value x)
    | refine State.unaryRows_eff ?_ h_rf h_mem h_ecc h_cat h_shelves _ _ _ _ _ _ _
    | refine EffP.fst ?_
    | refine EffP.of_eq (by assumption) ?_
    | refine EffP.ite ?_ ?_
    | refine Eff.ite ?_ ?_
    | split
    | refine EffP.mk ?_ _

theorem execConvert_eff (h : Eff F s0 s) (h_freeCtr : F .freeCtr = true) (h_rf : F .rf = true) (h_mem : F .mem = true) (h_ecc : F .ecc = true) (h_cat : F .cat = true) (h_shelves : F .shelves = true) (h_iln : F .iln = true) (h_bel : F .bel = true) (h_ldg : F .ldg = true) (h_pwr : F .pwr = true) :
    ∀ a0 a1, EffX F s0 (execConvert a0 a1 s) := by
  intro a0 a1
  unfold execConvert
  repeat' with_reducible first
    | assumption
    | refine State.perform_eff ?_ h_freeCtr h_rf h_mem h_cat h_shelves h_iln h_bel h_ldg h_pwr _ (fun _ _ _ _ _ => ?_) _ _ _ _
    | refine State.convert_eff ?_ h_rf h_mem h_ecc h_cat h_shelves _ _ _ _
    | refine EffX.next ?_
    | refine EffP.fst ?_
    | refine EffP.of_eq (by assumption) ?_
    | split
    | refine EffP.mk ?_ _

theorem execElemwiseAdd_eff (h : Eff F s0 s) (h_freeCtr : F .freeCtr = true) (h_rf : F .rf = true) (h_mem : F .mem = true) (h_ecc : F .ecc = true) (h_cat : F .cat = true) (h_shelves : F .shelves = true) (h_iln : F .iln = true) (h_bel : F .bel = true) (h_ldg : F .ldg = true) (h_pwr : F .pwr = true) :
    ∀ a0 a1, EffX F s0 (execElemwiseAdd a0 a1 s) := by
  intro a0 a1
  unfold execElemwiseAdd
  repeat' with_reducible first
    | assumption
    | refine State.perform_eff ?_ h_freeCtr h_rf h_mem h_cat h_shelves h_iln h_bel h_ldg h_pwr _ (fun _ _ _ _ _ => ?_) _ _ _ _
    | refine State.elemwise_eff ?_ h_rf h_mem h_ecc h_shelves _ _ _ _ _ _ _
    | refine EffX.next ?_
    | refine EffP.fst ?_
    | refine EffP.of_eq (by assumption) ?_
    | split
    | refine EffP.mk ?_ _

theorem execElemwiseFma_eff (h : Eff F s0 s) (h_freeCtr : F .freeCtr = true) (h_rf : F .rf = true) (h_mem : F .mem = true) (h_ecc : F .ecc = true) (h_cat : F .cat = true) (h_shelves : F .shelves = true) (h_iln : F .iln = true) (h_bel : F .bel = true) (h_ldg : F .ldg = true) (h_pwr : F .pwr = true) :
    ∀ a0 a1, EffX F s0 (execElemwiseFma a0 a1 s) := by
  intro a0 a1
  unfold execElemwiseFma
  repeat' with_reducible first
    | assumption
    | refine State.perform_eff ?_ h_freeCtr h_rf h_mem h_cat h_shelves h_iln h_bel h_ldg h_pwr _ (fun _ _ _ _ _ => ?_) _ _ _ _
    | refine State.elemwise_eff ?_ h_rf h_mem h_ecc h_shelves _ _ _ _ _ _ _
    | refine EffX.next ?_
    | refine EffP.fst ?_
    | refine EffP.of_eq (by assumption) ?_
    | split
    | refine EffP.mk ?_ _

theorem execElemwiseMax_eff (h : Eff F s0 s) (h_freeCtr : F .freeCtr = true) (h_rf : F .rf = true) (h_mem : F .mem = true) (h_ecc : F .ecc = true) (h_cat : F .cat = true) (h_shelves : F .shelves = true) (h_iln : F .iln = true) (h_bel : F .bel = true) (h_ldg : F .ldg = true) (h_pwr : F .pwr = true) :
    ∀ a0 a1, EffX F s0 (execElemwiseMax a0 a1 s) := by
  intro a0 a1
  unfold execElemwiseMax
  repeat' with_reducible first
    | assumption
    | refine State.perform_eff ?_ h_freeCtr h_rf h_mem h_cat h_shelves h_iln h_bel h_ldg h_pwr _ (fun _ _ _ _ _ => ?_) _ _ _ _
    | refine State.elemwise_eff ?_ h_rf h_mem h_ecc h_shelves _ _ _ _ _ _ _
    | refine EffX.next ?_
    | refine EffP.fst ?_
    | refine EffP.of_eq (by assumption) ?_
    | split
    | refine EffP.mk ?_ _

theorem execElemwiseMin_eff (h : Eff F s0 s) (h_freeCtr : F .freeCtr = true) (h_rf : F .rf = true) (h_mem : F .mem = true) (h_ecc : F .ecc = true) (h_cat : F .cat = true) (h_shelves : F .shelves = true) (h_iln : F .iln = true) (h_bel : F .bel = true) (h_ldg : F .ldg = true) (h_pwr : F .pwr = true) :
    ∀ a0 a1, EffX F s0 (execElemwiseMin a0 a1 s) := by
  intro a0 a1
  unfold execElemwiseMin
  repeat' with_reducible first
    | assumption
    | refine State.perform_eff ?_ h_freeCtr h_rf h_mem h_cat h_shelves h_iln h_bel h_ldg h_pwr _ (fun _ _ _ _ _ => ?_) _ _ _ _
    | refine State.elemwise_eff ?_ h_rf h_mem h_ecc h_shelves _ _ _ _ _ _ _
    | refine EffX.next ?_
    | refine EffP.fst ?_
    | refine EffP.of_eq (by assumption) ?_
    | split
    | refine EffP.mk ?_ _

theorem execElemwiseMul_eff (h : Eff F s0 s) (h_freeCtr : F .freeCtr = true) (h_rf : F .rf = true) (h_mem : F .mem = true) (h_ecc : F .ecc = true) (h_cat : F .cat = true) (h_shelves : F .shelves = true) (h_iln : F .iln = true) (h_bel : F .bel = true) (h_ldg : F .ldg = true) (h_pwr : F .pwr = true) :
    ∀ a0 a1, EffX F s0 (execElemwiseMul a0 a1 s) := by
  intro a0 a1
  unfold execElemwiseMul
  repeat' with_reducible first
    | assumption
    | refine State.perform_eff ?_ h_freeCtr h_rf h_mem h_cat h_shelves h_iln h_bel h_ldg h_pwr _ (fun _ _ _ _ _ => ?_) _ _ _ _
    | refine State.elemwise_eff ?_ h_rf h_mem h_ecc h_shelves _ _ _ _ _ _ _
    | refine EffX.next ?_
    | refine EffP.fst ?_
    | refine EffP.of_eq (by assumption) ?_
    | split
    | refine EffP.mk ?_ _

theorem execElemwiseSub_eff (h : Eff F s0 s) (h_freeCtr : F .freeCtr = true) (h_rf : F .rf = true) (h_mem : F .mem = true) (h_ecc : F .ecc = true) (h_cat : F .cat = true) (h_shelves : F .shelves = true) (h_iln : F .iln = true) (h_bel : F .bel = true) (h_ldg : F .ldg = true) (h_pwr : F .pwr = true) :
    ∀ a0 a1, EffX F s0 (execElemwiseSub a0 a1 s) := by
  intro a0 a1
  unfold execElemwiseSub
  repeat' with_reducible first
    | assumption
    | refine State.perform_eff ?_ h_freeCtr h_rf h_mem h_cat h_shelves h_iln h_bel h_ldg h_pwr _ (fun _ _ _ _ _ => ?_) _ _ _ _
    | refine State.elemwise_eff ?_ h_rf h_mem h_ecc h_shelves _ _ _ _ _ _ _
    | refine EffX.next ?_
    | refine EffP.fst ?_
    | refine EffP.of_eq (by assumption) ?_
    | split
    | refine EffP.mk ?_ _

theorem execExp_eff (h : Eff F s0 s) (h_freeCtr : F .freeCtr = true) (h_rf : F .rf = true) (h_mem : F .mem = true) (h_ecc : F .ecc = true) (h_cat : F .cat = true) (h_shelves : F .shelves = true) (h_iln : F .iln = true) (h_bel : F .bel = true) (h_ldg : F .ldg = true) (h_pwr : F .pwr = true) :
    ∀ a0 a1, EffX F s0 (execExp a0 a1 s) := by
  intro a0 a1
  unfold execExp
  repeat' with_reducible first
    | assumption
    | refine State.perform_eff ?_ h_freeCtr h_rf h_mem h_cat h_shelves h_iln h_bel h_ldg h_pwr _ (fun _ _ _ _ _ => ?_) _ _ _ _
    | refine State.unary_eff ?_ h_rf h_mem h_ecc h_cat h_shelves _ _ _ _ _
    | refine EffX.next ?_
    | refine EffP.fst ?_
    | refine EffP.of_eq (by assumption) ?_
    | split
    | refine EffP.mk ?_ _

theorem execRecip_eff (h : Eff F s0 s) (h_freeCtr : F .freeCtr = true) (h_rf : F .rf = true) (h_mem : F .mem = true) (h_ecc : F .ecc = true) (h_cat : F .cat = true) (h_shelves : F .shelves = true) (h_iln : F .iln = true) (h_bel : F .bel = true) (h_ldg : F .ldg = true) (h_pwr : F .pwr = true) :
    ∀ a0 a1, EffX F s0 (execRecip a0 a1 s) := by
  intro a0 a1
  unfold execRecip
  repeat' with_reducible first
    | assumption
    | refine State.perform_eff ?_ h_freeCtr h_rf h_mem h_cat h_shelves h_iln h_bel h_ldg h_pwr _ (fun _ _ _ _ _ => ?_) _ _ _ _
    | refine State.unary_eff ?_ h_rf h_mem h_ecc h_cat h_shelves _ _ _ _ _
    | refine EffX.next ?_
    | refine EffP.fst ?_
    | refine EffP.of_eq (by assumption) ?_
    | split
    | refine EffP.mk ?_ _

theorem execReduceMax_eff (h : Eff F s0 s) (h_freeCtr : F .freeCtr = true) (h_rf : F .rf = true) (h_mem : F .mem = true) (h_ecc : F .ecc = true) (h_cat : F .cat = true) (h_shelves : F .shelves = true) (h_iln : F .iln = true) (h_bel : F .bel = true) (h_ldg : F .ldg = true) (h_pwr : F .pwr = true) :
    ∀ a0 a1, EffX F s0 (execReduceMax a0 a1 s) := by
  intro a0 a1
  unfold execReduceMax
  repeat' with_reducible first
    | assumption
    | refine State.perform_eff ?_ h_freeCtr h_rf h_mem h_cat h_shelves h_iln h_bel h_ldg h_pwr _ (fun _ _ _ _ _ => ?_) _ _ _ _
    | refine State.reduce_eff ?_ h_rf h_mem h_ecc h_shelves _ _ _ _ _ _
    | refine EffX.next ?_
    | refine EffP.fst ?_
    | refine EffP.of_eq (by assumption) ?_
    | split
    | refine EffP.mk ?_ _

theorem execReduceMin_eff (h : Eff F s0 s) (h_freeCtr : F .freeCtr = true) (h_rf : F .rf = true) (h_mem : F .mem = true) (h_ecc : F .ecc = true) (h_cat : F .cat = true) (h_shelves : F .shelves = true) (h_iln : F .iln = true) (h_bel : F .bel = true) (h_ldg : F .ldg = true) (h_pwr : F .pwr = true) :
    ∀ a0 a1, EffX F s0 (execReduceMin a0 a1 s) := by
  intro a0 a1
  unfold execReduceMin
  repeat' with_reducible first
    | assumption
    | refine State.perform_eff ?_ h_freeCtr h_rf h_mem h_cat h_shelves h_iln h_bel h_ldg h_pwr _ (fun _ _ _ _ _ => ?_) _ _ _ _
    | refine State.reduce_eff ?_ h_rf h_mem h_ecc h_shelves _ _ _ _ _ _
    | refine EffX.next ?_
    | refine EffP.fst ?_
    | refine EffP.of_eq (by assumption) ?_
    | split
    | refine EffP.mk ?_ _

theorem execReduceSum_eff (h : Eff F s0 s) (h_freeCtr : F .freeCtr = true) (h_rf : F .rf = true) (h_mem : F .mem = true) (h_ecc : F .ecc = true) (h_cat : F .cat = true) (h_shelves : F .shelves = true) (h_iln : F .iln = true) (h_bel : F .bel = true) (h_ldg : F .ldg = true) (h_pwr : F .pwr = true) :
    ∀ a0 a1, EffX F s0 (execReduceSum a0 a1 s) := by
  intro a0 a1
  unfold execReduceSum
  repeat' with_reducible first
    | assumption
    | refine State.perform_eff ?_ h_freeCtr h_rf h_mem h_cat h_shelves h_iln h_bel h_ldg h_pwr _ (fun _ _ _ _ _ => ?_) _ _ _ _
    | refine State.reduce_eff ?_ h_rf h_mem h_ecc h_shelves _ _ _ _ _ _
    | refine EffX.next ?_
    | refine EffP.fst ?_
    | refine EffP.of_eq (by assumption) ?_
    | split
    | refine EffP.mk ?_ _

theorem execReduceSumsq_eff (h : Eff F s0 s) (h_freeCtr : F .freeCtr = true) (h_rf : F .rf = true) (h_mem : F .mem = true) (h_ecc : F .ecc = true) (h_cat : F .cat = true) (h_shelves : F .shelves = true) (h_iln : F .iln = true) (h_bel : F .bel = true) (h_ldg : F .ldg = true) (h_pwr : F .pwr = true) :
    ∀ a0 a1, EffX F s0 (execReduceSumsq a0 a1 s) := by
  intro a0 a1
  unfold execReduceSumsq
  repeat' with_reducible first
    | assumption
    | refine State.perform_eff ?_ h_freeCtr h_rf h_mem h_cat h_shelves h_iln h_bel h_ldg h_pwr _ (fun _ _ _ _ _ => ?_) _ _ _ _
    | refine State.reduce_eff ?_ h_rf h_mem h_ecc h_shelves _ _ _ _ _ _
    | refine EffX.next ?_
    | refine EffP.fst ?_
    | refine EffP.of_eq (by assumption) ?_
    | split
    | refine EffP.mk ?_ _

theorem execRsqrt_eff (h : Eff F s0 s) (h_freeCtr : F .freeCtr = true) (h_rf : F .rf = true) (h_mem : F .mem = true) (h_ecc : F .ecc = true) (h_cat : F .cat = true) (h_shelves : F .shelves = true) (h_iln : F .iln = true) (h_bel : F .bel = true) (h_ldg : F .ldg = true) (h_pwr : F .pwr = true) :
    ∀ a0 a1, EffX F s0 (execRsqrt a0 a1 s) := by
  intro a0 a1
  unfold execRsqrt
  repeat' with_reducible first
    | assumption
    | refine State.perform_eff ?_ h_freeCtr h_rf h_mem h_cat h_shelves h_iln h_bel h_ldg h_pwr _ (fun _ _ _ _ _ => ?_) _ _ _ _
    | refine State.unary_eff ?_ h_rf h_mem h_ecc h_cat h_shelves _ _ _ _ _
    | refine EffX.next ?_
    | refine EffP.fst ?_
    | refine EffP.of_eq (by assumption) ?_
    | split
    | refine EffP.mk ?_ _

theorem execScale_eff (h : Eff F s0 s) (h_freeCtr : F .freeCtr = true) (h_rf : F .rf = true) (h_mem : F .mem = true) (h_ecc : F .ecc = true) (h_cat : F .cat = true) (h_shelves : F .shelves = true) (h_iln : F .iln = true) (h_bel : F .bel = true) (h_ldg : F .ldg = true) (h_pwr : F .pwr = true) :
    ∀ a0 a1, EffX F s0 (execScale a0 a1 s) := by
  intro a0 a1
  unfold execScale
  repeat' with_reducible first
    | assumption
    | refine State.perform_eff ?_ h_freeCtr h_rf h_mem h_cat h_shelves h_iln h_bel h_ldg h_pwr _ (fun _ _ _ _ _ => ?_) _ _ _ _
    | refine State.unary_eff ?_ h_rf h_mem h_ecc h_cat h_shelves _ _ _ _ _
    | refine EffX.next ?_
    | refine EffP.fst ?_
    | refine EffP.of_eq (by assumption) ?_
    | split
    | refine EffP.mk ?_ _

end Sys2Proof.Machine
end

