-- ==== Sys2Proof/Laws/FrameEngineS.lean ====
section
/-! SUPPORT. Frames of the operations of Machine/EngineS.lean: what each may change. -/

namespace Sys2Proof.Machine

variable {F : Comp → Bool} {s0 s : State}

theorem State.appendRefused_eff (h : Eff F s0 s) (h_freeCtr : F .freeCtr = true) (h_rf : F .rf = true) (h_mem : F .mem = true) (h_cat : F .cat = true) (h_shelves : F .shelves = true) (h_bel : F .bel = true) (h_ldg : F .ldg = true) (h_pwr : F .pwr = true) :
    ∀ a1 a2, Eff F s0 (State.appendRefused s a1 a2) := by
  intro a1 a2
  unfold State.appendRefused
  repeat' with_reducible first
    | assumption
    | refine State.refuseStarted_eff ?_ h_freeCtr h_rf h_mem h_cat h_shelves h_bel h_ldg h_pwr _ _ _ _ _
    | split

theorem State.askPeer_eff (h : Eff F s0 s) (h_rf : F .rf = true) (h_iln : F .iln = true) (h_bel : F .bel = true) (h_ldg : F .ldg = true) :
    ∀ a1 a2 a3 a4 a5 a6 a7, EffP F s0 (State.askPeer s a1 a2 a3 a4 a5 a6 a7) := by
  intro a1 a2 a3 a4 a5 a6 a7
  unfold State.askPeer
  repeat' with_reducible first
    | assumption
    | (extract_lets +onlyGivenNames x
       first
       | (refine Eff.cut F s0 x ?_ ?_; unfold x; clear x; rotate_left; intro _; clear_value x; rotate_left)
       | (refine EffP.cut F s0 x ?_ ?_; unfold x; clear x; rotate_left; intro _; clear_value x; rotate_left)
       | clear_value x)
    | refine State.reachPeer_eff ?_ h_rf h_iln h_bel h_ldg _ _ _ _
    | refine State.ilnRequest_eff ?_ h_rf h_iln _ _ _ _ _ _ _ _ _
    | refine Eff.foldl ?_ (fun _ _ _ => ?_)
    | refine EffP.foldl ?_ (fun _ _ _ => ?_)
    | refine EffP.fst ?_
    | refine EffP.of_eq (by assumption) ?_
    | split
    | refine EffP.mk ?_ _

theorem State.awaitReqs_eff (h : Eff F s0 s) (h_shelves : F .shelves = true) :
    ∀ a1 a2 a3 a4 a5, Eff F s0 (State.awaitReqs s a1 a2 a3 a4 a5) := by
  intro a1 a2 a3 a4 a5
  unfold State.awaitReqs
  repeat' with_reducible first
    | assumption
    | refine State.modStream_eff ?_ h_shelves _ _ _ _
    | refine State.setExec_eff ?_ h_shelves _ _ _ _ _ _
    | split

theorem State.enqueueFolio_eff (h : Eff F s0 s) (h_freeCtr : F .freeCtr = true) (h_rf : F .rf = true) (h_mem : F .mem = true) (h_cir : F .cir = true) (h_cat : F .cat = true) (h_shelves : F .shelves = true) (h_bel : F .bel = true) (h_ldg : F .ldg = true) (h_pwr : F .pwr = true) :
    ∀ a1 a2 a3 a4, EffP F s0 (State.enqueueFolio s a1 a2 a3 a4) := by
  intro a1 a2 a3 a4
  unfold State.enqueueFolio
  repeat' with_reducible first
    | assumption
    | refine State.appendRefused_eff ?_ h_freeCtr h_rf h_mem h_cat h_shelves h_bel h_ldg h_pwr _ _
    | refine EffP.ite ?_ ?_
    | refine Eff.ite ?_ ?_
    | split
    | refine Eff.set_cir ?_ h_cir
    | refine EffP.mk ?_ _

theorem State.fillRows_eff (h : Eff F s0 s) (h_rf : F .rf = true) (h_mem : F .mem = true) (h_ecc : F .ecc = true) (h_shelves : F .shelves = true) :
    ∀ a1 a2 a3, EffP F s0 (State.fillRows s a1 a2 a3) := by
  intro a1 a2 a3
  unfold State.fillRows
  repeat' with_reducible first
    | assumption
    | (extract_lets +onlyGivenNames x
       first
       | (refine Eff.cut F s0 x ?_ ?_; unfold x; clear x; rotate_left; intro _; clear_value x; rotate_left)
       | (refine EffP.cut F s0 x ?_ ?_; unfold x; clear x; rotate_left; intro _; clear_value x; rotate_left)
       | clear_value x)
    | refine State.writeRows_eff ?_ h_rf h_mem h_ecc h_shelves _ _ _ _
    | refine EffP.fst ?_
    | refine EffP.of_eq (by assumption) ?_
    | split
    | refine EffP.mk ?_ _

theorem State.performWait_eff (h : Eff F s0 s) (h_freeCtr : F .freeCtr = true) (h_rf : F .rf = true) (h_mem : F .mem = true) (h_cat : F .cat = true) (h_shelves : F .shelves = true) (h_iln : F .iln = true) (h_bel : F .bel = true) (h_ldg : F .ldg = true) (h_pwr : F .pwr = true) (f0 : State →
  PassCtx →
    Exec → Folio → State × Option Met) (h_f0 : ∀ y0, Eff F s0 y0 → ∀ y1 y2 y3, EffP F s0 (f0 y0 y1 y2 y3)) :
    ∀ a1 a2 a3, Eff F s0 (State.performWait s a1 a2 a3 f0) := by
  intro a1 a2 a3
  unfold State.performWait
  repeat' with_reducible first
    | assumption
    | refine State.modStream_eff ?_ h_shelves _ _ _ _
    | refine State.setExec_eff ?_ h_shelves _ _ _ _ _ _
    | refine State.folioFail_eff ?_ h_freeCtr h_rf h_mem h_cat h_shelves h_iln h_bel h_ldg h_pwr _ _ _ _ _ _
    | refine h_f0 _ ?_ _ _ _
    | refine EffP.fst ?_
    | refine EffP.of_eq (by assumption) ?_
    | refine EffP.ite ?_ ?_
    | refine Eff.ite ?_ ?_
    | split

theorem State.rowLand_eff (h : Eff F s0 s) (h_freeCtr : F .freeCtr = true) (h_rf : F .rf = true) (h_mem : F .mem = true) (h_ecc : F .ecc = true) (h_cat : F .cat = true) (h_shelves : F .shelves = true) (h_kpr : F .kpr = true) (h_iln : F .iln = true) (h_bel : F .bel = true) (h_ldg : F .ldg = true) (h_obs : F .obs = true) :
    ∀ a1 a2 a3 a4 a5 a6 a7 a8, EffP F s0 (State.rowLand s a1 a2 a3 a4 a5 a6 a7 a8) := by
  intro a1 a2 a3 a4 a5 a6 a7 a8
  unfold State.rowLand
  repeat' with_reducible first
    | assumption
    | (extract_lets +onlyGivenNames x
       first
       | (refine Eff.cut F s0 x ?_ ?_; unfold x; clear x; rotate_left; intro _; clear_value x; rotate_left)
       | (refine EffP.cut F s0 x ?_ ?_; unfold x; clear x; rotate_left; intro _; clear_value x; rotate_left)
       | clear_value x)
    | refine State.askPeer_eff ?_ h_rf h_iln h_bel h_ldg _ _ _ _ _ _ _
    | refine State.awaitReqs_eff ?_ h_shelves _ _ _ _ _
    | refine State.extAdd_eff ?_ h_rf h_mem h_ecc h_cat h_kpr h_bel h_ldg h_obs _ _ _ _
    | refine State.extWrite_eff ?_ h_freeCtr h_rf h_mem h_ecc h_cat h_kpr h_bel h_ldg h_obs _ _ _
    | refine State.localWrite_eff ?_ h_rf h_mem h_ecc h_shelves _ _ _ _ _
    | refine EffP.fst ?_
    | refine EffP.of_eq (by assumption) ?_
    | refine EffP.ite ?_ ?_
    | refine Eff.ite ?_ ?_
    | split
    | refine EffP.mk ?_ _

theorem State.rowSource_eff (h : Eff F s0 s) (h_rf : F .rf = true) (h_ecc : F .ecc = true) (h_cat : F .cat = true) (h_kpr : F .kpr = true) (h_bel : F .bel = true) (h_ldg : F .ldg = true) (h_obs : F .obs = true) :
    ∀ a1 a2 a3 a4 a5, EffP F s0 (State.rowSource s a1 a2 a3 a4 a5) := by
  intro a1 a2 a3 a4 a5
  unfold State.rowSource
  repeat' with_reducible first
    | assumption
    | (extract_lets +onlyGivenNames x
       first
       | (refine Eff.cut F s0 x ?_ ?_; unfold x; clear x; rotate_left; intro _; clear_value x; rotate_left)
       | (refine EffP.cut F s0 x ?_ ?_; unfold x; clear x; rotate_left; intro _; clear_value x; rotate_left)
       | clear_value x)
    | refine State.extRead_eff ?_ h_rf h_ecc h_cat h_kpr h_bel h_ldg h_obs _ _ _
    | refine State.localRead_eff ?_ h_rf h_ecc _ _ _ _ _
    | refine EffP.fst ?_
    | refine EffP.of_eq (by assumption) ?_
    | refine EffP.ite ?_ ?_
    | refine Eff.ite ?_ ?_
    | split
    | refine EffP.mk ?_ _

theorem State.rowsLand_eff (h : Eff F s0 s) (h_freeCtr : F .freeCtr = true) (h_rf : F .rf = true) (h_mem : F .mem = true) (h_ecc : F .ecc = true) (h_cat : F .cat = true) (h_shelves : F .shelves = true) (h_kpr : F .kpr = true) (h_iln : F .iln = true) (h_bel : F .bel = true) (h_ldg : F .ldg = true) (h_obs : F .obs = true) :
    ∀ a1 a2 a3 a4 a5 a6 a7 a8, EffP F s0 (State.rowsLand s a1 a2 a3 a4 a5 a6 a7 a8) := by
  intro a1 a2 a3 a4 a5 a6 a7 a8
  induction a8 generalizing s a1 a2 a3 a4 a5 a6 a7 with
  | nil => exact EffP.mk h _
  | cons q qs ih =>
    rw [State.rowsLand]
    repeat' with_reducible first
      | assumption
      | refine State.rowLand_eff ?_ h_freeCtr h_rf h_mem h_ecc h_cat h_shelves h_kpr h_iln h_bel h_ldg h_obs _ _ _ _ _ _ _ _
      | apply ih
      | refine EffP.fst ?_
      | refine EffP.of_eq (by assumption) ?_
      | split
      | refine EffP.mk ?_ _

theorem State.rowsSource_eff (h : Eff F s0 s) (h_rf : F .rf = true) (h_ecc : F .ecc = true) (h_cat : F .cat = true) (h_kpr : F .kpr = true) (h_bel : F .bel = true) (h_ldg : F .ldg = true) (h_obs : F .obs = true) :
    ∀ a1 a2 a3 a4 a5, EffP F s0 (State.rowsSource s a1 a2 a3 a4 a5) := by
  intro a1 a2 a3 a4 a5
  induction a5 generalizing s a1 a2 a3 a4 with
  | nil => exact EffP.mk h _
  | cons q qs ih =>
    rw [State.rowsSource]
    repeat' with_reducible first
      | assumption
      | refine State.rowSource_eff ?_ h_rf h_ecc h_cat h_kpr h_bel h_ldg h_obs _ _ _ _ _
      | apply ih
      | refine EffP.fst ?_
      | refine EffP.of_eq (by assumption) ?_
      | split
      | refine EffP.mk ?_ _

theorem State.signalRemote_eff (h : Eff F s0 s) (h_rf : F .rf = true) (h_shelves : F .shelves = true) (h_iln : F .iln = true) (h_bel : F .bel = true) (h_ldg : F .ldg = true) (h_pwr : F .pwr = true) :
    ∀ a1 a2 a3 a4, EffP F s0 (State.signalRemote s a1 a2 a3 a4) := by
  intro a1 a2 a3 a4
  unfold State.signalRemote
  repeat' with_reducible first
    | assumption
    | (extract_lets +onlyGivenNames x
       first
       | (refine Eff.cut F s0 x ?_ ?_; unfold x; clear x; rotate_left; intro _; clear_value x; rotate_left)
       | (refine EffP.cut F s0 x ?_ ?_; unfold x; clear x; rotate_left; intro _; clear_value x; rotate_left)
       | clear_value x)
    | refine State.windowSignal_eff ?_ h_rf h_shelves h_bel h_ldg h_pwr _ _ _ _ _ _
    | refine State.reachPeer_eff ?_ h_rf h_iln h_bel h_ldg _ _ _ _
    | refine State.ilnRequest_eff ?_ h_rf h_iln _ _ _ _ _ _ _ _ _
    | refine State.awaitReqs_eff ?_ h_shelves _ _ _ _ _
    | refine EffP.fst ?_
    | refine EffP.of_eq (by assumption) ?_
    | refine EffP.ite ?_ ?_
    | refine Eff.ite ?_ ?_
    | split
    | refine EffP.mk ?_ _

theorem State.transfer_eff (h : Eff F s0 s) (h_freeCtr : F .freeCtr = true) (h_rf : F .rf = true) (h_mem : F .mem = true) (h_ecc : F .ecc = true) (h_cat : F .cat = true) (h_shelves : F .shelves = true) (h_kpr : F .kpr = true) (h_iln : F .iln = true) (h_bel : F .bel = true) (h_ldg : F .ldg = true) (h_obs : F .obs = true) :
    ∀ a1 a2 a3 a4 a5, EffP F s0 (State.transfer s a1 a2 a3 a4 a5) := by
  intro a1 a2 a3 a4 a5
  unfold State.transfer
  repeat' with_reducible first
    | assumption
    | (extract_lets +onlyGivenNames x
       first
       | (refine Eff.cut F s0 x ?_ ?_; unfold x; clear x; rotate_left; intro _; clear_value x; rotate_left)
       | (refine EffP.cut F s0 x ?_ ?_; unfold x; clear x; rotate_left; intro _; clear_value x; rotate_left)
       | clear_value x)
    | refine State.transferRows_eff ?_ h_rf h_ecc _ _ _
    | refine State.rowsSource_eff ?_ h_rf h_ecc h_cat h_kpr h_bel h_ldg h_obs _ _ _ _ _
    | refine State.rowsLand_eff ?_ h_freeCtr h_rf h_mem h_ecc h_cat h_shelves h_kpr h_iln h_bel h_ldg h_obs _ _ _ _ _ _ _ _
    | refine State.setExec_eff ?_ h_shelves _ _ _ _ _ _
    | refine EffP.fst ?_
    | refine EffP.of_eq (by assumption) ?_
    | refine EffP.ite ?_ ?_
    | refine Eff.ite ?_ ?_
    | split
    | refine EffP.mk ?_ _

theorem execAddAt_eff (h : Eff F s0 s) (h_freeCtr : F .freeCtr = true) (h_rf : F .rf = true) (h_mem : F .mem = true) (h_ecc : F .ecc = true) (h_cat : F .cat = true) (h_shelves : F .shelves = true) (h_kpr : F .kpr = true) (h_iln : F .iln = true) (h_bel : F .bel = true) (h_ldg : F .ldg = true) (h_pwr : F .pwr = true) (h_obs : F .obs = true) :
    ∀ a0 a1, EffX F s0 (execAddAt a0 a1 s) := by
  intro a0 a1
  unfold execAddAt
  repeat' with_reducible first
    | assumption
    | refine State.performWait_eff ?_ h_freeCtr h_rf h_mem h_cat h_shelves h_iln h_bel h_ldg h_pwr _ (fun _ _ _ _ _ => ?_) _ _ _
    | refine State.transfer_eff ?_ h_freeCtr h_rf h_mem h_ecc h_cat h_shelves h_kpr h_iln h_bel h_ldg h_obs _ _ _ _ _
    | refine EffX.next ?_
    | refine EffP.fst ?_
    | refine EffP.of_eq (by assumption) ?_
    | split
    | refine EffP.mk ?_ _

theorem execCopy_eff (h : Eff F s0 s) (h_freeCtr : F .freeCtr = true) (h_rf : F .rf = true) (h_mem : F .mem = true) (h_ecc : F .ecc = true) (h_cat : F .cat = true) (h_shelves : F .shelves = true) (h_kpr : F .kpr = true) (h_iln : F .iln = true) (h_bel : F .bel = true) (h_ldg : F .ldg = true) (h_pwr : F .pwr = true) (h_obs : F .obs = true) :
    ∀ a0 a1, EffX F s0 (execCopy a0 a1 s) := by
  intro a0 a1
  unfold execCopy
  repeat' with_reducible first
    | assumption
    | refine State.performWait_eff ?_ h_freeCtr h_rf h_mem h_cat h_shelves h_iln h_bel h_ldg h_pwr _ (fun _ _ _ _ _ => ?_) _ _ _
    | refine State.transfer_eff ?_ h_freeCtr h_rf h_mem h_ecc h_cat h_shelves h_kpr h_iln h_bel h_ldg h_obs _ _ _ _ _
    | refine EffX.next ?_
    | refine EffP.fst ?_
    | refine EffP.of_eq (by assumption) ?_
    | split
    | refine EffP.mk ?_ _

theorem execEnqueue_eff (h : Eff F s0 s) (h_freeCtr : F .freeCtr = true) (h_rf : F .rf = true) (h_mem : F .mem = true) (h_cir : F .cir = true) (h_cat : F .cat = true) (h_shelves : F .shelves = true) (h_iln : F .iln = true) (h_bel : F .bel = true) (h_ldg : F .ldg = true) (h_pwr : F .pwr = true) :
    ∀ a0 a1, EffX F s0 (execEnqueue a0 a1 s) := by
  intro a0 a1
  unfold execEnqueue
  repeat' with_reducible first
    | assumption
    | refine State.performWait_eff ?_ h_freeCtr h_rf h_mem h_cat h_shelves h_iln h_bel h_ldg h_pwr _ (fun _ _ _ _ _ => ?_) _ _ _
    | refine State.enqueueFolio_eff ?_ h_freeCtr h_rf h_mem h_cir h_cat h_shelves h_bel h_ldg h_pwr _ _ _ _
    | refine EffX.next ?_
    | refine EffP.fst ?_
    | refine EffP.of_eq (by assumption) ?_
    | split
    | refine EffP.mk ?_ _

theorem execFill_eff (h : Eff F s0 s) (h_freeCtr : F .freeCtr = true) (h_rf : F .rf = true) (h_mem : F .mem = true) (h_ecc : F .ecc = true) (h_cat : F .cat = true) (h_shelves : F .shelves = true) (h_iln : F .iln = true) (h_bel : F .bel = true) (h_ldg : F .ldg = true) (h_pwr : F .pwr = true) :
    ∀ a0 a1, EffX F s0 (execFill a0 a1 s) := by
  intro a0 a1
  unfold execFill
  repeat' with_reducible first
    | assumption
    | refine State.perform_eff ?_ h_freeCtr h_rf h_mem h_cat h_shelves h_iln h_bel h_ldg h_pwr _ (fun _ _ _ _ _ => ?_) _ _ _ _
    | refine State.fillRows_eff ?_ h_rf h_mem h_ecc h_shelves _ _ _
    | refine EffX.next ?_
    | refine EffP.fst ?_
    | refine EffP.of_eq (by assumption) ?_
    | split
    | refine EffP.mk ?_ _

theorem execGather_eff (h : Eff F s0 s) (h_freeCtr : F .freeCtr = true) (h_rf : F .rf = true) (h_mem : F .mem = true) (h_ecc : F .ecc = true) (h_cat : F .cat = true) (h_shelves : F .shelves = true) (h_kpr : F .kpr = true) (h_iln : F .iln = true) (h_bel : F .bel = true) (h_ldg : F .ldg = true) (h_pwr : F .pwr = true) (h_obs : F .obs = true) :
    ∀ a0 a1, EffX F s0 (execGather a0 a1 s) := by
  intro a0 a1
  unfold execGather
  repeat' with_reducible first
    | assumption
    | refine State.performWait_eff ?_ h_freeCtr h_rf h_mem h_cat h_shelves h_iln h_bel h_ldg h_pwr _ (fun _ _ _ _ _ => ?_) _ _ _
    | refine State.transfer_eff ?_ h_freeCtr h_rf h_mem h_ecc h_cat h_shelves h_kpr h_iln h_bel h_ldg h_obs _ _ _ _ _
    | refine EffX.next ?_
    | refine EffP.fst ?_
    | refine EffP.of_eq (by assumption) ?_
    | split
    | refine EffP.mk ?_ _

theorem execScatter_eff (h : Eff F s0 s) (h_freeCtr : F .freeCtr = true) (h_rf : F .rf = true) (h_mem : F .mem = true) (h_ecc : F .ecc = true) (h_cat : F .cat = true) (h_shelves : F .shelves = true) (h_kpr : F .kpr = true) (h_iln : F .iln = true) (h_bel : F .bel = true) (h_ldg : F .ldg = true) (h_pwr : F .pwr = true) (h_obs : F .obs = true) :
    ∀ a0 a1, EffX F s0 (execScatter a0 a1 s) := by
  intro a0 a1
  unfold execScatter
  repeat' with_reducible first
    | assumption
    | refine State.performWait_eff ?_ h_freeCtr h_rf h_mem h_cat h_shelves h_iln h_bel h_ldg h_pwr _ (fun _ _ _ _ _ => ?_) _ _ _
    | refine State.transfer_eff ?_ h_freeCtr h_rf h_mem h_ecc h_cat h_shelves h_kpr h_iln h_bel h_ldg h_obs _ _ _ _ _
    | refine EffX.next ?_
    | refine EffP.fst ?_
    | refine EffP.of_eq (by assumption) ?_
    | split
    | refine EffP.mk ?_ _

theorem execSignalRemote_eff (h : Eff F s0 s) (h_freeCtr : F .freeCtr = true) (h_rf : F .rf = true) (h_mem : F .mem = true) (h_cat : F .cat = true) (h_shelves : F .shelves = true) (h_iln : F .iln = true) (h_bel : F .bel = true) (h_ldg : F .ldg = true) (h_pwr : F .pwr = true) :
    ∀ a0 a1, EffX F s0 (execSignalRemote a0 a1 s) := by
  intro a0 a1
  unfold execSignalRemote
  repeat' with_reducible first
    | assumption
    | refine State.performWait_eff ?_ h_freeCtr h_rf h_mem h_cat h_shelves h_iln h_bel h_ldg h_pwr _ (fun _ _ _ _ _ => ?_) _ _ _
    | refine State.signalRemote_eff ?_ h_rf h_shelves h_iln h_bel h_ldg h_pwr _ _ _ _
    | refine EffX.next ?_
    | refine EffP.fst ?_
    | refine EffP.of_eq (by assumption) ?_
    | split
    | refine EffP.mk ?_ _

theorem execSlipWrite_eff (h : Eff F s0 s) (h_freeCtr : F .freeCtr = true) (h_rf : F .rf = true) (h_mem : F .mem = true) (h_cir : F .cir = true) (h_cat : F .cat = true) (h_shelves : F .shelves = true) (h_iln : F .iln = true) (h_bel : F .bel = true) (h_ldg : F .ldg = true) (h_pwr : F .pwr = true) :
    ∀ a0 a1, EffX F s0 (execSlipWrite a0 a1 s) := by
  intro a0 a1
  unfold execSlipWrite
  repeat' with_reducible first
    | assumption
    | refine State.performWait_eff ?_ h_freeCtr h_rf h_mem h_cat h_shelves h_iln h_bel h_ldg h_pwr _ (fun _ _ _ _ _ => ?_) _ _ _
    | refine State.enqueueFolio_eff ?_ h_freeCtr h_rf h_mem h_cir h_cat h_shelves h_bel h_ldg h_pwr _ _ _ _
    | refine EffX.next ?_
    | refine EffP.fst ?_
    | refine EffP.of_eq (by assumption) ?_
    | split
    | refine EffP.mk ?_ _

end Sys2Proof.Machine
end

