-- ==== Sys2Proof/Laws/FramePower.lean ====
section
/-! SUPPORT. Frames of the operations of Machine/Power.lean: what each may change. -/

namespace Sys2Proof.Machine

variable {F : Comp → Bool} {s0 s : State}

theorem State.setOp_eff (h : Eff F s0 s) (h_rf : F .rf = true) :
    ∀ a1 a2, Eff F s0 (State.setOp s a1 a2) := by
  intro a1 a2
  unfold State.setOp
  repeat' with_reducible first
    | assumption
    | refine State.setField_eff ?_ h_rf _ _ _ _
    | split

theorem State.applyPoints_eff (h : Eff F s0 s) (h_rf : F .rf = true) (h_pwr : F .pwr = true) :
    ∀ a1 a2, Eff F s0 (State.applyPoints s a1 a2) := by
  intro a1 a2
  unfold State.applyPoints
  repeat' with_reducible first
    | assumption
    | (extract_lets +onlyGivenNames x
       first
       | (refine Eff.cut F s0 x ?_ ?_; unfold x; clear x; rotate_left; intro _; clear_value x; rotate_left)
       | (refine EffP.cut F s0 x ?_ ?_; unfold x; clear x; rotate_left; intro _; clear_value x; rotate_left)
       | clear_value x)
    | refine State.setOp_eff ?_ h_rf _ _
    | refine Eff.foldl ?_ (fun _ _ _ => ?_)
    | refine EffP.fst ?_
    | refine EffP.of_eq (by assumption) ?_
    | refine Eff.ite ?_ ?_
    | split
    | refine Eff.set_pwr ?_ h_pwr

theorem State.setHeadroom_eff (h : Eff F s0 s) (h_rf : F .rf = true) (h_bel : F .bel = true) :
    ∀ a1 a2, Eff F s0 (State.setHeadroom s a1 a2) := by
  intro a1 a2
  unfold State.setHeadroom
  repeat' with_reducible first
    | assumption
    | (extract_lets +onlyGivenNames x
       first
       | (refine Eff.cut F s0 x ?_ ?_; unfold x; clear x; rotate_left; intro _; clear_value x; rotate_left)
       | (refine EffP.cut F s0 x ?_ ?_; unfold x; clear x; rotate_left; intro _; clear_value x; rotate_left)
       | clear_value x)
    | refine State.setReg_eff ?_ h_rf _ _
    | refine State.bell_eff ?_ h_bel _ _
    | refine Eff.ite ?_ ?_
    | split

theorem State.setNextOp_eff (h : Eff F s0 s) (h_rf : F .rf = true) :
    ∀ a1 a2, Eff F s0 (State.setNextOp s a1 a2) := by
  intro a1 a2
  unfold State.setNextOp
  repeat' with_reducible first
    | assumption
    | refine State.setField_eff ?_ h_rf _ _ _ _
    | split

theorem State.raiseVcore_eff (h : Eff F s0 s) (h_smb : F .smb = true) (h_pwr : F .pwr = true) :
    Eff F s0 (State.raiseVcore s) := by
  unfold State.raiseVcore
  repeat' with_reducible first
    | assumption
    | (extract_lets +onlyGivenNames x
       first
       | (refine Eff.cut F s0 x ?_ ?_; unfold x; clear x; rotate_left; intro _; clear_value x; rotate_left)
       | (refine EffP.cut F s0 x ?_ ?_; unfold x; clear x; rotate_left; intro _; clear_value x; rotate_left)
       | clear_value x)
    | refine State.alert_eff ?_ h_smb _
    | refine Eff.ite ?_ ?_
    | split
    | refine Eff.set_pwr ?_ h_pwr

theorem State.writePoints_eff (h : Eff F s0 s) (h_rf : F .rf = true) (h_smb : F .smb = true) (h_bel : F .bel = true) (h_pwr : F .pwr = true) :
    ∀ a1, Eff F s0 (State.writePoints s a1) := by
  intro a1
  unfold State.writePoints
  repeat' with_reducible first
    | assumption
    | (extract_lets +onlyGivenNames x
       first
       | (refine Eff.cut F s0 x ?_ ?_; unfold x; clear x; rotate_left; intro _; clear_value x; rotate_left)
       | (refine EffP.cut F s0 x ?_ ?_; unfold x; clear x; rotate_left; intro _; clear_value x; rotate_left)
       | clear_value x)
    | refine State.setHeadroom_eff ?_ h_rf h_bel _ _
    | refine State.setNextOp_eff ?_ h_rf _ _
    | refine State.orReg_eff ?_ h_rf _ _
    | refine State.raiseVcore_eff ?_ h_smb h_pwr
    | refine Eff.foldl ?_ (fun _ _ _ => ?_)
    | refine EffP.foldl ?_ (fun _ _ _ => ?_)
    | refine EffP.fst ?_
    | refine EffP.of_eq (by assumption) ?_
    | refine Eff.ite ?_ ?_
    | split

theorem State.capRerun_eff (h : Eff F s0 s) (h_rf : F .rf = true) (h_smb : F .smb = true) (h_bel : F .bel = true) (h_pwr : F .pwr = true) :
    Eff F s0 (State.capRerun s) := by
  unfold State.capRerun
  repeat' with_reducible first
    | assumption
    | (extract_lets +onlyGivenNames x
       first
       | (refine Eff.cut F s0 x ?_ ?_; unfold x; clear x; rotate_left; intro _; clear_value x; rotate_left)
       | (refine EffP.cut F s0 x ?_ ?_; unfold x; clear x; rotate_left; intro _; clear_value x; rotate_left)
       | clear_value x)
    | refine State.writePoints_eff ?_ h_rf h_smb h_bel h_pwr _
    | refine EffP.fst ?_
    | refine EffP.of_eq (by assumption) ?_
    | refine Eff.ite ?_ ?_
    | split
    | refine Eff.set_pwr ?_ h_pwr

theorem State.clearReturned_eff (h : Eff F s0 s) (h_shelves : F .shelves = true) :
    ∀ a1, Eff F s0 (State.clearReturned s a1) := by
  intro a1
  unfold State.clearReturned
  repeat' with_reducible first
    | assumption
    | refine State.setShelf_eff ?_ h_shelves _ _
    | refine Eff.foldl ?_ (fun _ _ _ => ?_)
    | refine EffP.foldl ?_ (fun _ _ _ => ?_)
    | refine EffP.fst ?_
    | refine EffP.of_eq (by assumption) ?_
    | split

theorem State.domainCmd_eff (h : Eff F s0 s) (h_rf : F .rf = true) (h_pwr : F .pwr = true) :
    ∀ a1 a2, Eff F s0 (State.domainCmd s a1 a2) := by
  intro a1 a2
  unfold State.domainCmd
  repeat' with_reducible first
    | assumption
    | refine State.setField_eff ?_ h_rf _ _ _ _
    | refine Eff.ite ?_ ?_
    | split
    | refine Eff.set_pwr ?_ h_pwr

theorem State.endThrottle_eff (h : Eff F s0 s) (h_rf : F .rf = true) (h_pins : F .pins = true) (h_bel : F .bel = true) (h_pwr : F .pwr = true) :
    ∀ a1, Eff F s0 (State.endThrottle s a1) := by
  intro a1
  unfold State.endThrottle
  repeat' with_reducible first
    | assumption
    | (extract_lets +onlyGivenNames x
       first
       | (refine Eff.cut F s0 x ?_ ?_; unfold x; clear x; rotate_left; intro _; clear_value x; rotate_left)
       | (refine EffP.cut F s0 x ?_ ?_; unfold x; clear x; rotate_left; intro _; clear_value x; rotate_left)
       | clear_value x)
    | refine State.bell_eff ?_ h_bel _ _
    | refine State.setRegBit_eff ?_ h_rf _ _ _
    | refine Eff.foldl ?_ (fun _ _ _ => ?_)
    | refine EffP.fst ?_
    | refine EffP.of_eq (by assumption) ?_
    | refine Eff.ite ?_ ?_
    | split
    | refine Eff.set_pins_pwr ?_ h_pins h_pwr

theorem State.throttle_eff (h : Eff F s0 s) (h_rf : F .rf = true) (h_bel : F .bel = true) (h_ldg : F .ldg = true) (h_pwr : F .pwr = true) :
    ∀ a1 a2, Eff F s0 (State.throttle s a1 a2) := by
  intro a1 a2
  unfold State.throttle
  repeat' with_reducible first
    | assumption
    | (extract_lets +onlyGivenNames x
       first
       | (refine Eff.cut F s0 x ?_ ?_; unfold x; clear x; rotate_left; intro _; clear_value x; rotate_left)
       | (refine EffP.cut F s0 x ?_ ?_; unfold x; clear x; rotate_left; intro _; clear_value x; rotate_left)
       | clear_value x)
    | refine State.setRegBit_eff ?_ h_rf _ _ _
    | refine State.setOp_eff ?_ h_rf _ _
    | refine State.bell_eff ?_ h_bel _ _
    | refine State.log_eff ?_ h_rf h_ldg _ _ _ _ _ _ _
    | refine State.orReg_eff ?_ h_rf _ _
    | refine Eff.foldl ?_ (fun _ _ _ => ?_)
    | refine EffP.fst ?_
    | refine EffP.of_eq (by assumption) ?_
    | refine Eff.ite ?_ ?_
    | split
    | refine Eff.set_pwr ?_ h_pwr

theorem State.thermTrip_eff (h : Eff F s0 s) (h_rf : F .rf = true) (h_pins : F .pins = true) (h_ldg : F .ldg = true) :
    ∀ a1, Eff F s0 (State.thermTrip s a1) := by
  intro a1
  unfold State.thermTrip
  repeat' with_reducible first
    | assumption
    | (extract_lets +onlyGivenNames x
       first
       | (refine Eff.cut F s0 x ?_ ?_; unfold x; clear x; rotate_left; intro _; clear_value x; rotate_left)
       | (refine EffP.cut F s0 x ?_ ?_; unfold x; clear x; rotate_left; intro _; clear_value x; rotate_left)
       | clear_value x)
    | refine State.rangesOff_eff ?_ h_rf
    | refine State.log_eff ?_ h_rf h_ldg _ _ _ _ _ _ _
    | refine Eff.ite ?_ ?_
    | split
    | refine Eff.set_pins ?_ h_pins

theorem State.levelTo_eff (h : Eff F s0 s) (h_rf : F .rf = true) (h_pins : F .pins = true) (h_smb : F .smb = true) (h_bel : F .bel = true) (h_ldg : F .ldg = true) (h_pwr : F .pwr = true) :
    ∀ a1 a2 a3 a4, Eff F s0 (State.levelTo s a1 a2 a3 a4) := by
  intro a1 a2 a3 a4
  unfold State.levelTo
  repeat' with_reducible first
    | assumption
    | (extract_lets +onlyGivenNames x
       first
       | (refine Eff.cut F s0 x ?_ ?_; unfold x; clear x; rotate_left; intro _; clear_value x; rotate_left)
       | (refine EffP.cut F s0 x ?_ ?_; unfold x; clear x; rotate_left; intro _; clear_value x; rotate_left)
       | clear_value x)
    | refine State.log_eff ?_ h_rf h_ldg _ _ _ _ _ _ _
    | refine State.alert_eff ?_ h_smb _
    | refine State.throttle_eff ?_ h_rf h_bel h_ldg h_pwr _ _
    | refine State.thermTrip_eff ?_ h_rf h_pins h_ldg _
    | refine Eff.ite ?_ ?_
    | split

theorem State.relevel_eff (h : Eff F s0 s) (h_rf : F .rf = true) (h_pins : F .pins = true) (h_smb : F .smb = true) (h_bel : F .bel = true) (h_ldg : F .ldg = true) (h_pwr : F .pwr = true) :
    ∀ a1, Eff F s0 (State.relevel s a1) := by
  intro a1
  unfold State.relevel
  repeat' with_reducible first
    | assumption
    | (extract_lets +onlyGivenNames x
       first
       | (refine Eff.cut F s0 x ?_ ?_; unfold x; clear x; rotate_left; intro _; clear_value x; rotate_left)
       | (refine EffP.cut F s0 x ?_ ?_; unfold x; clear x; rotate_left; intro _; clear_value x; rotate_left)
       | clear_value x)
    | refine State.setField_eff ?_ h_rf _ _ _ _
    | refine State.bell_eff ?_ h_bel _ _
    | refine State.levelTo_eff ?_ h_rf h_pins h_smb h_bel h_ldg h_pwr _ _ _ _
    | refine Eff.ite ?_ ?_
    | split
    | refine Eff.set_pwr ?_ h_pwr

theorem State.setLending_eff (h : Eff F s0 s) (h_rf : F .rf = true) (h_pwr : F .pwr = true) :
    ∀ a1 a2, Eff F s0 (State.setLending s a1 a2) := by
  intro a1 a2
  unfold State.setLending
  repeat' with_reducible first
    | assumption
    | (extract_lets +onlyGivenNames x
       first
       | (refine Eff.cut F s0 x ?_ ?_; unfold x; clear x; rotate_left; intro _; clear_value x; rotate_left)
       | (refine EffP.cut F s0 x ?_ ?_; unfold x; clear x; rotate_left; intro _; clear_value x; rotate_left)
       | clear_value x)
    | refine State.setField_eff ?_ h_rf _ _ _ _
    | refine Eff.ite ?_ ?_
    | split
    | refine Eff.set_pwr ?_ h_pwr

theorem State.stackTemps_eff (h : Eff F s0 s) (h_rf : F .rf = true) (h_bel : F .bel = true) (h_ldg : F .ldg = true) (h_pwr : F .pwr = true) :
    ∀ a1, Eff F s0 (State.stackTemps s a1) := by
  intro a1
  unfold State.stackTemps
  repeat' with_reducible first
    | assumption
    | (extract_lets +onlyGivenNames x
       first
       | (refine Eff.cut F s0 x ?_ ?_; unfold x; clear x; rotate_left; intro _; clear_value x; rotate_left)
       | (refine EffP.cut F s0 x ?_ ?_; unfold x; clear x; rotate_left; intro _; clear_value x; rotate_left)
       | clear_value x)
    | refine State.setReg_eff ?_ h_rf _ _
    | refine State.bell_eff ?_ h_bel _ _
    | refine State.event_eff ?_ h_rf h_bel _ _
    | refine State.log_eff ?_ h_rf h_ldg _ _ _ _ _ _ _
    | refine Eff.foldl ?_ (fun _ _ _ => ?_)
    | refine EffP.foldl ?_ (fun _ _ _ => ?_)
    | refine EffP.fst ?_
    | refine EffP.of_eq (by assumption) ?_
    | refine Eff.ite ?_ ?_
    | split
    | refine Eff.set_pwr ?_ h_pwr

theorem State.throttleNew_eff (h : Eff F s0 s) (h_rf : F .rf = true) (h_bel : F .bel = true) (h_ldg : F .ldg = true) (h_pwr : F .pwr = true) :
    ∀ a1, Eff F s0 (State.throttleNew s a1) := by
  intro a1
  unfold State.throttleNew
  repeat' with_reducible first
    | assumption
    | (extract_lets +onlyGivenNames x
       first
       | (refine Eff.cut F s0 x ?_ ?_; unfold x; clear x; rotate_left; intro _; clear_value x; rotate_left)
       | (refine EffP.cut F s0 x ?_ ?_; unfold x; clear x; rotate_left; intro _; clear_value x; rotate_left)
       | clear_value x)
    | refine State.throttle_eff ?_ h_rf h_bel h_ldg h_pwr _ _
    | refine Eff.ite ?_ ?_
    | split

theorem State.switchDone_eff (h : Eff F s0 s) (h_rf : F .rf = true) (h_mem : F .mem = true) (h_shelves : F .shelves = true) (h_bel : F .bel = true) (h_ldg : F .ldg = true) (h_pwr : F .pwr = true) :
    Eff F s0 (State.switchDone s) := by
  unfold State.switchDone
  repeat' with_reducible first
    | assumption
    | (extract_lets +onlyGivenNames x
       first
       | (refine Eff.cut F s0 x ?_ ?_; unfold x; clear x; rotate_left; intro _; clear_value x; rotate_left)
       | (refine EffP.cut F s0 x ?_ ?_; unfold x; clear x; rotate_left; intro _; clear_value x; rotate_left)
       | clear_value x)
    | refine State.setReg_eff ?_ h_rf _ _
    | refine State.setField_eff ?_ h_rf _ _ _ _
    | refine State.throttleNew_eff ?_ h_rf h_bel h_ldg h_pwr _
    | refine State.setHeadroom_eff ?_ h_rf h_bel _ _
    | refine State.setNextOp_eff ?_ h_rf _ _
    | refine State.setOp_eff ?_ h_rf _ _
    | refine State.clearReturned_eff ?_ h_shelves _
    | refine Eff.ite ?_ ?_
    | split
    | refine Eff.set_pwr ?_ h_pwr
    | refine Eff.set_mem ?_ h_mem ?_
    | intro _
    | refine Memory.wf_write _ _ ?_
    | refine Memory.wf_writeN _ _ ?_
    | refine Memory.wf_writeLe _ _ _ ?_
    | refine Memory.wf_clear _ _ ?_
    | refine Memory.wf_dropOnDie ?_
    | refine Memory.wf_copy _ _ _ ?_
    | refine RegFile.wf_set _ _ ?_
    | refine RegFile.wf_filter _ ?_

theorem execDomainOff_eff (h : Eff F s0 s) (h_rf : F .rf = true) (h_pwr : F .pwr = true) :
    ∀ a0, EffX F s0 (execDomainOff a0 s) := by
  intro a0
  unfold execDomainOff
  repeat' with_reducible first
    | assumption
    | refine State.domainCmd_eff ?_ h_rf h_pwr _ _
    | refine EffX.next ?_
    | refine Eff.ite ?_ ?_
    | refine EffX.ite ?_ ?_
    | split

theorem execDomainOn_eff (h : Eff F s0 s) (h_rf : F .rf = true) (h_pwr : F .pwr = true) :
    ∀ a0, EffX F s0 (execDomainOn a0 s) := by
  intro a0
  unfold execDomainOn
  repeat' with_reducible first
    | assumption
    | refine State.domainCmd_eff ?_ h_rf h_pwr _ _
    | refine EffX.next ?_
    | refine Eff.ite ?_ ?_
    | refine EffX.ite ?_ ?_
    | split

theorem execDomainRetain_eff (h : Eff F s0 s) (h_rf : F .rf = true) (h_pwr : F .pwr = true) :
    ∀ a0, EffX F s0 (execDomainRetain a0 s) := by
  intro a0
  unfold execDomainRetain
  repeat' with_reducible first
    | assumption
    | refine State.domainCmd_eff ?_ h_rf h_pwr _ _
    | refine EffX.next ?_
    | refine Eff.ite ?_ ?_
    | refine EffX.ite ?_ ?_
    | split

theorem execDomainSwitchDone_eff (h : Eff F s0 s) (h_rf : F .rf = true) (h_mem : F .mem = true) (h_shelves : F .shelves = true) (h_bel : F .bel = true) (h_ldg : F .ldg = true) (h_pwr : F .pwr = true) :
    EffX F s0 (execDomainSwitchDone s) := by
  unfold execDomainSwitchDone
  repeat' with_reducible first
    | assumption
    | refine State.switchDone_eff ?_ h_rf h_mem h_shelves h_bel h_ldg h_pwr
    | refine EffX.next ?_
    | refine Eff.ite ?_ ?_
    | refine EffX.ite ?_ ?_
    | split

theorem execOpFix_eff (h : Eff F s0 s) (h_rf : F .rf = true) (h_smb : F .smb = true) (h_stp : F .stp = true) (h_shelves : F .shelves = true) (h_bel : F .bel = true) (h_ldg : F .ldg = true) (h_pwr : F .pwr = true) (h_obs : F .obs = true) :
    ∀ a0, EffX F s0 (execOpFix a0 s) := by
  intro a0
  unfold execOpFix
  repeat' with_reducible first
    | assumption
    | (extract_lets +onlyGivenNames x
       first
       | (refine Eff.cut F s0 x ?_ ?_; unfold x; clear x; rotate_left; intro _; clear_value x; rotate_left)
       | (refine EffP.cut F s0 x ?_ ?_; unfold x; clear x; rotate_left; intro _; clear_value x; rotate_left)
       | clear_value x)
    | refine State.advance_eff ?_ h_stp h_shelves h_ldg h_obs _
    | refine State.bell_eff ?_ h_bel _ _
    | refine State.writePoints_eff ?_ h_rf h_smb h_bel h_pwr _
    | refine EffX.next ?_
    | refine Eff.ite ?_ ?_
    | refine EffX.ite ?_ ?_
    | split
    | refine Eff.set_pwr ?_ h_pwr

theorem execThermalSample_eff (h : Eff F s0 s) (h_rf : F .rf = true) (h_pins : F .pins = true) (h_smb : F .smb = true) (h_bel : F .bel = true) (h_ldg : F .ldg = true) (h_pwr : F .pwr = true) :
    ∀ a0 a1 a2, EffX F s0 (execThermalSample a0 a1 a2 s) := by
  intro a0 a1 a2
  unfold execThermalSample
  repeat' with_reducible first
    | assumption
    | (extract_lets +onlyGivenNames x
       first
       | (refine Eff.cut F s0 x ?_ ?_; unfold x; clear x; rotate_left; intro _; clear_value x; rotate_left)
       | (refine EffP.cut F s0 x ?_ ?_; unfold x; clear x; rotate_left; intro _; clear_value x; rotate_left)
       | clear_value x)
    | refine State.relevel_eff ?_ h_rf h_pins h_smb h_bel h_ldg h_pwr _
    | refine State.setReg_eff ?_ h_rf _ _
    | refine EffX.next ?_
    | refine Eff.ite ?_ ?_
    | refine EffX.ite ?_ ?_
    | split
    | refine Eff.set_pins ?_ h_pins

theorem execVcoreLow_eff (h : Eff F s0 s) (h_rf : F .rf = true) (h_pins : F .pins = true) (h_smb : F .smb = true) (h_bel : F .bel = true) (h_ldg : F .ldg = true) (h_pwr : F .pwr = true) :
    EffX F s0 (execVcoreLow s) := by
  unfold execVcoreLow
  repeat' with_reducible first
    | assumption
    | (extract_lets +onlyGivenNames x
       first
       | (refine Eff.cut F s0 x ?_ ?_; unfold x; clear x; rotate_left; intro _; clear_value x; rotate_left)
       | (refine EffP.cut F s0 x ?_ ?_; unfold x; clear x; rotate_left; intro _; clear_value x; rotate_left)
       | clear_value x)
    | refine State.log_eff ?_ h_rf h_ldg _ _ _ _ _ _ _
    | refine State.alert_eff ?_ h_smb _
    | refine State.throttle_eff ?_ h_rf h_bel h_ldg h_pwr _ _
    | refine EffX.next ?_
    | refine Eff.ite ?_ ?_
    | refine EffX.ite ?_ ?_
    | split
    | refine Eff.set_pins ?_ h_pins

end Sys2Proof.Machine
end

