-- ==== Sys2Proof/Laws/FramePasses.lean ====
section
/-! SUPPORT. Frames of the operations of Machine/Passes.lean: what each may change. -/

namespace Sys2Proof.Machine

variable {F : Comp → Bool} {s0 s : State}

theorem State.applyEarly_eff (h : Eff F s0 s) (h_rf : F .rf = true) (h_mem : F .mem = true) (h_ecc : F .ecc = true) (h_shelves : F .shelves = true) (h_iln : F .iln = true) (h_bel : F .bel = true) (h_ldg : F .ldg = true) (h_pwr : F .pwr = true) (h_obs : F .obs = true) :
    ∀ a1 a2, Eff F s0 (State.applyEarly s a1 a2) := by
  intro a1 a2
  unfold State.applyEarly
  repeat' with_reducible first
    | assumption
    | (extract_lets +onlyGivenNames x
       first
       | (refine Eff.cut F s0 x ?_ ?_; unfold x; clear x; rotate_left; intro _; clear_value x; rotate_left)
       | (refine EffP.cut F s0 x ?_ ?_; unfold x; clear x; rotate_left; intro _; clear_value x; rotate_left)
       | clear_value x)
    | refine State.applySignal_eff ?_ h_shelves h_pwr _ _ _ _
    | refine State.dropEarly_eff ?_ h_rf h_mem h_ecc h_shelves h_iln h_bel h_ldg h_pwr h_obs _ _
    | refine Eff.foldl ?_ (fun _ _ _ => ?_)
    | refine EffP.fst ?_
    | refine EffP.of_eq (by assumption) ?_
    | split

theorem State.carryQueue_eff (h : Eff F s0 s) (h_rf : F .rf = true) (h_cat : F .cat = true) (h_shelves : F .shelves = true) (h_ldg : F .ldg = true) :
    ∀ a1 a2, Eff F s0 (State.carryQueue s a1 a2) := by
  intro a1 a2
  unfold State.carryQueue
  repeat' with_reducible first
    | assumption
    | (extract_lets +onlyGivenNames x
       first
       | (refine Eff.cut F s0 x ?_ ?_; unfold x; clear x; rotate_left; intro _; clear_value x; rotate_left)
       | (refine EffP.cut F s0 x ?_ ?_; unfold x; clear x; rotate_left; intro _; clear_value x; rotate_left)
       | clear_value x)
    | refine State.setShelf_eff ?_ h_shelves _ _
    | refine State.modSlip_eff ?_ h_cat _ _
    | refine State.log_eff ?_ h_rf h_ldg _ _ _ _ _ _ _
    | refine Eff.foldl ?_ (fun _ _ _ => ?_)
    | refine EffP.foldl ?_ (fun _ _ _ => ?_)
    | refine EffP.fst ?_
    | refine EffP.of_eq (by assumption) ?_
    | refine Eff.ite ?_ ?_
    | split

theorem State.countCc_eff (h : Eff F s0 s) (h_cat : F .cat = true) :
    ∀ a1, Eff F s0 (State.countCc s a1) := by
  intro a1
  unfold State.countCc
  repeat' with_reducible first
    | assumption
    | refine State.modSlip_eff ?_ h_cat _ _
    | split

theorem State.dropReqs_eff (h : Eff F s0 s) (h_iln : F .iln = true) :
    ∀ a1 a2, Eff F s0 (State.dropReqs s a1 a2) := by
  intro a1 a2
  unfold State.dropReqs
  repeat' with_reducible first
    | assumption
    | (extract_lets +onlyGivenNames x
       first
       | (refine Eff.cut F s0 x ?_ ?_; unfold x; clear x; rotate_left; intro _; clear_value x; rotate_left)
       | (refine EffP.cut F s0 x ?_ ?_; unfold x; clear x; rotate_left; intro _; clear_value x; rotate_left)
       | clear_value x)
    | refine State.modIln_eff ?_ h_iln _
    | refine Eff.foldl ?_ (fun _ _ _ => ?_)
    | refine EffP.fst ?_
    | refine EffP.of_eq (by assumption) ?_
    | refine Eff.ite ?_ ?_
    | split

theorem State.returnRefused_eff (h : Eff F s0 s) (h_rf : F .rf = true) (h_bel : F .bel = true) (h_ldg : F .ldg = true) :
    ∀ a1 a2 a3 a4 a5 a6 a7 a8, Eff F s0 (State.returnRefused s a1 a2 a3 a4 a5 a6 a7 a8) := by
  intro a1 a2 a3 a4 a5 a6 a7 a8
  unfold State.returnRefused
  repeat' with_reducible first
    | assumption
    | (extract_lets +onlyGivenNames x
       first
       | (refine Eff.cut F s0 x ?_ ?_; unfold x; clear x; rotate_left; intro _; clear_value x; rotate_left)
       | (refine EffP.cut F s0 x ?_ ?_; unfold x; clear x; rotate_left; intro _; clear_value x; rotate_left)
       | clear_value x)
    | refine State.log_eff ?_ h_rf h_ldg _ _ _ _ _ _ _
    | refine State.event_eff ?_ h_rf h_bel _ _
    | refine State.countSat_eff ?_ h_rf _ _ _ _
    | split

theorem State.loanReturn_eff (h : Eff F s0 s) (h_rf : F .rf = true) (h_shelves : F .shelves = true) (h_bel : F .bel = true) (h_ldg : F .ldg = true) :
    ∀ a1 a2 a3 a4 a5 a6, Eff F s0 (State.loanReturn s a1 a2 a3 a4 a5 a6) := by
  intro a1 a2 a3 a4 a5 a6
  unfold State.loanReturn
  repeat' with_reducible first
    | assumption
    | (extract_lets +onlyGivenNames x
       first
       | (refine Eff.cut F s0 x ?_ ?_; unfold x; clear x; rotate_left; intro _; clear_value x; rotate_left)
       | (refine EffP.cut F s0 x ?_ ?_; unfold x; clear x; rotate_left; intro _; clear_value x; rotate_left)
       | clear_value x)
    | refine State.returnRefused_eff ?_ h_rf h_bel h_ldg _ _ _ _ _ _ _ _
    | refine State.setShelf_eff ?_ h_shelves _ _
    | refine Eff.ite ?_ ?_
    | split

theorem State.entryReturn_eff (h : Eff F s0 s) (h_rf : F .rf = true) (h_shelves : F .shelves = true) (h_bel : F .bel = true) (h_ldg : F .ldg = true) :
    ∀ a1 a2 a3, Eff F s0 (State.entryReturn s a1 a2 a3) := by
  intro a1 a2 a3
  unfold State.entryReturn
  repeat' with_reducible first
    | assumption
    | refine State.loanReturn_eff ?_ h_rf h_shelves h_bel h_ldg _ _ _ _ _ _
    | refine Eff.ite ?_ ?_
    | split

theorem State.quietFrom_eff (h : Eff F s0 s) (h_pwr : F .pwr = true) :
    ∀ a1, Eff F s0 (State.quietFrom s a1) := by
  intro a1
  unfold State.quietFrom
  repeat' with_reducible first
    | assumption
    | split
    | refine Eff.set_pwr ?_ h_pwr

theorem State.tryLeave_eff (h : Eff F s0 s) (h_rf : F .rf = true) (h_shelves : F .shelves = true) :
    ∀ a1, Eff F s0 (State.tryLeave s a1) := by
  intro a1
  unfold State.tryLeave
  repeat' with_reducible first
    | assumption
    | (extract_lets +onlyGivenNames x
       first
       | (refine Eff.cut F s0 x ?_ ?_; unfold x; clear x; rotate_left; intro _; clear_value x; rotate_left)
       | (refine EffP.cut F s0 x ?_ ?_; unfold x; clear x; rotate_left; intro _; clear_value x; rotate_left)
       | clear_value x)
    | refine State.setShelf_eff ?_ h_shelves _ _
    | refine State.orReg_eff ?_ h_rf _ _
    | refine Eff.ite ?_ ?_
    | split

theorem State.shelfNext_eff (h : Eff F s0 s) (h_rf : F .rf = true) (h_shelves : F .shelves = true) :
    ∀ a1, Eff F s0 (State.shelfNext s a1) := by
  intro a1
  unfold State.shelfNext
  repeat' with_reducible first
    | assumption
    | refine State.tryLeave_eff ?_ h_rf h_shelves _
    | refine State.setShelf_eff ?_ h_shelves _ _
    | split

theorem State.discardOn_eff (h : Eff F s0 s) (h_rf : F .rf = true) (h_mem : F .mem = true) (h_ecc : F .ecc = true) (h_cir : F .cir = true) (h_cat : F .cat = true) (h_shelves : F .shelves = true) (h_iln : F .iln = true) (h_bel : F .bel = true) (h_ldg : F .ldg = true) (h_pwr : F .pwr = true) (h_obs : F .obs = true) :
    ∀ a1 a2 a3, Eff F s0 (State.discardOn s a1 a2 a3) := by
  intro a1 a2 a3
  unfold State.discardOn
  repeat' with_reducible first
    | assumption
    | (extract_lets +onlyGivenNames x
       first
       | (refine Eff.cut F s0 x ?_ ?_; unfold x; clear x; rotate_left; intro _; clear_value x; rotate_left)
       | (refine EffP.cut F s0 x ?_ ?_; unfold x; clear x; rotate_left; intro _; clear_value x; rotate_left)
       | clear_value x)
    | refine State.countCc_eff ?_ h_cat _
    | refine State.sendNotes_eff ?_ h_rf h_ldg _
    | refine State.dropReqs_eff ?_ h_iln _ _
    | refine State.entryReturn_eff ?_ h_rf h_shelves h_bel h_ldg _ _ _
    | refine State.quietFrom_eff ?_ h_pwr _
    | refine State.setShelf_eff ?_ h_shelves _ _
    | refine State.dropEarly_eff ?_ h_rf h_mem h_ecc h_shelves h_iln h_bel h_ldg h_pwr h_obs _ _
    | refine State.shelfNext_eff ?_ h_rf h_shelves _
    | refine Eff.foldl ?_ (fun _ _ _ => ?_)
    | refine EffP.foldl ?_ (fun _ _ _ => ?_)
    | refine EffP.fst ?_
    | refine EffP.of_eq (by assumption) ?_
    | refine Eff.ite ?_ ?_
    | split
    | refine Eff.set_cir ?_ h_cir

theorem State.discardSlip_eff (h : Eff F s0 s) (h_rf : F .rf = true) (h_mem : F .mem = true) (h_ecc : F .ecc = true) (h_cir : F .cir = true) (h_cat : F .cat = true) (h_shelves : F .shelves = true) (h_iln : F .iln = true) (h_bel : F .bel = true) (h_ldg : F .ldg = true) (h_pwr : F .pwr = true) (h_obs : F .obs = true) :
    ∀ a1 a2, Eff F s0 (State.discardSlip s a1 a2) := by
  intro a1 a2
  unfold State.discardSlip
  repeat' with_reducible first
    | assumption
    | refine State.discardOn_eff ?_ h_rf h_mem h_ecc h_cir h_cat h_shelves h_iln h_bel h_ldg h_pwr h_obs _ _ _
    | refine Eff.foldl ?_ (fun _ _ _ => ?_)
    | refine EffP.foldl ?_ (fun _ _ _ => ?_)
    | refine EffP.fst ?_
    | refine EffP.of_eq (by assumption) ?_
    | split

theorem State.endPass_eff (h : Eff F s0 s) (h_rf : F .rf = true) (h_mem : F .mem = true) (h_ecc : F .ecc = true) (h_cat : F .cat = true) (h_shelves : F .shelves = true) (h_iln : F .iln = true) (h_bel : F .bel = true) (h_ldg : F .ldg = true) (h_pwr : F .pwr = true) (h_obs : F .obs = true) :
    ∀ a1 a2, Eff F s0 (State.endPass s a1 a2) := by
  intro a1 a2
  unfold State.endPass
  repeat' with_reducible first
    | assumption
    | (extract_lets +onlyGivenNames x
       first
       | (refine Eff.cut F s0 x ?_ ?_; unfold x; clear x; rotate_left; intro _; clear_value x; rotate_left)
       | (refine EffP.cut F s0 x ?_ ?_; unfold x; clear x; rotate_left; intro _; clear_value x; rotate_left)
       | clear_value x)
    | refine State.jnlPass_eff ?_ h_rf h_mem h_bel h_ldg _ _ _ _
    | refine State.countCc_eff ?_ h_cat _
    | refine State.entryReturn_eff ?_ h_rf h_shelves h_bel h_ldg _ _ _
    | refine State.sendNotes_eff ?_ h_rf h_ldg _
    | refine State.quietFrom_eff ?_ h_pwr _
    | refine State.setShelf_eff ?_ h_shelves _ _
    | refine State.dropEarly_eff ?_ h_rf h_mem h_ecc h_shelves h_iln h_bel h_ldg h_pwr h_obs _ _
    | refine State.shelfNext_eff ?_ h_rf h_shelves _
    | split

theorem State.halt_eff (h : Eff F s0 s) (h_shelves : F .shelves = true) :
    ∀ a1, Eff F s0 (State.halt s a1) := by
  intro a1
  unfold State.halt
  repeat' with_reducible first
    | assumption
    | refine State.setShelf_eff ?_ h_shelves _ _
    | split

theorem State.lastPass_eff (h : Eff F s0 s) (h_rf : F .rf = true) (h_ecc : F .ecc = true) (h_cir : F .cir = true) (h_cat : F .cat = true) (h_bind : F .bind = true) (h_kpr : F .kpr = true) (h_bel : F .bel = true) (h_ldg : F .ldg = true) (h_obs : F .obs = true) :
    ∀ a1, Eff F s0 (State.lastPass s a1) := by
  intro a1
  unfold State.lastPass
  repeat' with_reducible first
    | assumption
    | refine State.finish_eff ?_ h_rf h_ecc h_cir h_cat h_bind h_kpr h_bel h_ldg h_obs _ _
    | refine Eff.ite ?_ ?_
    | split

theorem State.loanGrant_eff (h : Eff F s0 s) (h_shelves : F .shelves = true) :
    ∀ a1 a2 a3 a4 a5 a6, Eff F s0 (State.loanGrant s a1 a2 a3 a4 a5 a6) := by
  intro a1 a2 a3 a4 a5 a6
  unfold State.loanGrant
  repeat' with_reducible first
    | assumption
    | (extract_lets +onlyGivenNames x
       first
       | (refine Eff.cut F s0 x ?_ ?_; unfold x; clear x; rotate_left; intro _; clear_value x; rotate_left)
       | (refine EffP.cut F s0 x ?_ ?_; unfold x; clear x; rotate_left; intro _; clear_value x; rotate_left)
       | clear_value x)
    | refine State.setShelf_eff ?_ h_shelves _ _
    | refine Eff.ite ?_ ?_
    | split

theorem State.modPre_eff (h : Eff F s0 s) (h_shelves : F .shelves = true) :
    ∀ a1 a2, Eff F s0 (State.modPre s a1 a2) := by
  intro a1 a2
  unfold State.modPre
  repeat' with_reducible first
    | assumption
    | refine State.setShelf_eff ?_ h_shelves _ _
    | split

theorem State.overrun_eff (h : Eff F s0 s) (h_rf : F .rf = true) (h_cat : F .cat = true) (h_shelves : F .shelves = true) (h_ldg : F .ldg = true) :
    ∀ a1, Eff F s0 (State.overrun s a1) := by
  intro a1
  unfold State.overrun
  repeat' with_reducible first
    | assumption
    | (extract_lets +onlyGivenNames x
       first
       | (refine Eff.cut F s0 x ?_ ?_; unfold x; clear x; rotate_left; intro _; clear_value x; rotate_left)
       | (refine EffP.cut F s0 x ?_ ?_; unfold x; clear x; rotate_left; intro _; clear_value x; rotate_left)
       | clear_value x)
    | refine State.modRun_eff ?_ h_shelves _ _
    | refine State.log_eff ?_ h_rf h_ldg _ _ _ _ _ _ _
    | refine State.modSlip_eff ?_ h_cat _ _
    | refine State.halt_eff ?_ h_shelves _
    | refine State.carryQueue_eff ?_ h_rf h_cat h_shelves h_ldg _ _
    | refine Eff.ite ?_ ?_
    | split

theorem State.overrunDue_eff (h : Eff F s0 s) (h_rf : F .rf = true) (h_cat : F .cat = true) (h_shelves : F .shelves = true) (h_ldg : F .ldg = true) :
    ∀ a1, Eff F s0 (State.overrunDue s a1) := by
  intro a1
  unfold State.overrunDue
  repeat' with_reducible first
    | assumption
    | refine State.overrun_eff ?_ h_rf h_cat h_shelves h_ldg _
    | refine Eff.ite ?_ ?_
    | split

theorem State.passEnd_eff (h : Eff F s0 s) (h_rf : F .rf = true) (h_mem : F .mem = true) (h_ecc : F .ecc = true) (h_cir : F .cir = true) (h_cat : F .cat = true) (h_bind : F .bind = true) (h_shelves : F .shelves = true) (h_kpr : F .kpr = true) (h_iln : F .iln = true) (h_bel : F .bel = true) (h_ldg : F .ldg = true) (h_pwr : F .pwr = true) (h_obs : F .obs = true) :
    ∀ a1, Eff F s0 (State.passEnd s a1) := by
  intro a1
  unfold State.passEnd
  repeat' with_reducible first
    | assumption
    | (extract_lets +onlyGivenNames x
       first
       | (refine Eff.cut F s0 x ?_ ?_; unfold x; clear x; rotate_left; intro _; clear_value x; rotate_left)
       | (refine EffP.cut F s0 x ?_ ?_; unfold x; clear x; rotate_left; intro _; clear_value x; rotate_left)
       | clear_value x)
    | refine State.overrunDue_eff ?_ h_rf h_cat h_shelves h_ldg _
    | refine State.lastPass_eff ?_ h_rf h_ecc h_cir h_cat h_bind h_kpr h_bel h_ldg h_obs _
    | refine State.modSlip_eff ?_ h_cat _ _
    | refine State.endPass_eff ?_ h_rf h_mem h_ecc h_cat h_shelves h_iln h_bel h_ldg h_pwr h_obs _ _
    | refine Eff.ite ?_ ?_
    | split

theorem State.startPass_eff (h : Eff F s0 s) (h_freeCtr : F .freeCtr = true) (h_rf : F .rf = true) (h_mem : F .mem = true) (h_ecc : F .ecc = true) (h_cat : F .cat = true) (h_shelves : F .shelves = true) (h_iln : F .iln = true) (h_bel : F .bel = true) (h_ldg : F .ldg = true) (h_pwr : F .pwr = true) (h_obs : F .obs = true) :
    ∀ a1 a2 a3, Eff F s0 (State.startPass s a1 a2 a3) := by
  intro a1 a2 a3
  unfold State.startPass
  repeat' with_reducible first
    | assumption
    | (extract_lets +onlyGivenNames x
       first
       | (refine Eff.cut F s0 x ?_ ?_; unfold x; clear x; rotate_left; intro _; clear_value x; rotate_left)
       | (refine EffP.cut F s0 x ?_ ?_; unfold x; clear x; rotate_left; intro _; clear_value x; rotate_left)
       | clear_value x)
    | refine State.folioWrite_eff ?_ h_rf h_mem h_ecc _ _ _
    | refine State.setShelf_eff ?_ h_shelves _ _
    | refine State.setLending_eff ?_ h_rf h_pwr _ _
    | refine State.modSlip_eff ?_ h_cat _ _
    | refine State.jnlPass_eff ?_ h_rf h_mem h_bel h_ldg _ _ _ _
    | refine State.applyEarly_eff ?_ h_rf h_mem h_ecc h_shelves h_iln h_bel h_ldg h_pwr h_obs _ _
    | refine State.draw_eff ?_ h_freeCtr _
    | refine State.slipFault_eff ?_ h_rf h_cat _ _ _
    | refine State.shelfNext_eff ?_ h_rf h_shelves _
    | refine Eff.ite ?_ ?_
    | split

theorem State.passStart_eff (h : Eff F s0 s) (h_freeCtr : F .freeCtr = true) (h_rf : F .rf = true) (h_mem : F .mem = true) (h_ecc : F .ecc = true) (h_stp : F .stp = true) (h_cat : F .cat = true) (h_shelves : F .shelves = true) (h_iln : F .iln = true) (h_bel : F .bel = true) (h_ldg : F .ldg = true) (h_pwr : F .pwr = true) (h_obs : F .obs = true) :
    ∀ a1, Eff F s0 (State.passStart s a1) := by
  intro a1
  unfold State.passStart
  repeat' with_reducible first
    | assumption
    | (extract_lets +onlyGivenNames x
       first
       | (refine Eff.cut F s0 x ?_ ?_; unfold x; clear x; rotate_left; intro _; clear_value x; rotate_left)
       | (refine EffP.cut F s0 x ?_ ?_; unfold x; clear x; rotate_left; intro _; clear_value x; rotate_left)
       | clear_value x)
    | refine State.advance_eff ?_ h_stp h_shelves h_ldg h_obs _
    | refine State.startPass_eff ?_ h_freeCtr h_rf h_mem h_ecc h_cat h_shelves h_iln h_bel h_ldg h_pwr h_obs _ _ _
    | refine State.halt_eff ?_ h_shelves _
    | refine State.carryQueue_eff ?_ h_rf h_cat h_shelves h_ldg _ _
    | refine Eff.ite ?_ ?_
    | split

theorem State.preFail_eff (h : Eff F s0 s) (h_shelves : F .shelves = true) :
    ∀ a1 a2 a3, Eff F s0 (State.preFail s a1 a2 a3) := by
  intro a1 a2 a3
  unfold State.preFail
  repeat' with_reducible first
    | assumption
    | refine State.modPre_eff ?_ h_shelves _ _
    | split

theorem State.preAsk_eff (h : Eff F s0 s) (h_rf : F .rf = true) (h_shelves : F .shelves = true) (h_iln : F .iln = true) (h_bel : F .bel = true) (h_ldg : F .ldg = true) :
    ∀ a1 a2, Eff F s0 (State.preAsk s a1 a2) := by
  intro a1 a2
  induction a2 generalizing s a1 with
  | nil => exact h
  | cons q qs ih =>
    rw [State.preAsk]
    repeat' with_reducible first
      | assumption
      | (extract_lets +onlyGivenNames x
         first
         | (refine Eff.cut F s0 x ?_ ?_; unfold x; clear x; rotate_left; intro _; clear_value x; rotate_left)
         | (refine EffP.cut F s0 x ?_ ?_; unfold x; clear x; rotate_left; intro _; clear_value x; rotate_left)
         | clear_value x)
      | refine State.askPeer_eff ?_ h_rf h_iln h_bel h_ldg _ _ _ _ _ _ _
      | refine State.modPre_eff ?_ h_shelves _ _
      | refine State.preFail_eff ?_ h_shelves _ _ _
      | apply ih
      | refine EffP.fst ?_
      | refine EffP.of_eq (by assumption) ?_
      | refine EffP.ite ?_ ?_
      | refine Eff.ite ?_ ?_
      | split
      | refine EffP.mk ?_ _

theorem State.preFolio_eff (h : Eff F s0 s) (h_freeCtr : F .freeCtr = true) (h_rf : F .rf = true) (h_mem : F .mem = true) (h_ecc : F .ecc = true) (h_cat : F .cat = true) (h_shelves : F .shelves = true) (h_kpr : F .kpr = true) (h_iln : F .iln = true) (h_bel : F .bel = true) (h_ldg : F .ldg = true) (h_obs : F .obs = true) :
    ∀ a1 a2, Eff F s0 (State.preFolio s a1 a2) := by
  intro a1 a2
  unfold State.preFolio
  repeat' with_reducible first
    | assumption
    | (extract_lets +onlyGivenNames x
       first
       | (refine Eff.cut F s0 x ?_ ?_; unfold x; clear x; rotate_left; intro _; clear_value x; rotate_left)
       | (refine EffP.cut F s0 x ?_ ?_; unfold x; clear x; rotate_left; intro _; clear_value x; rotate_left)
       | clear_value x)
    | refine State.eccShelfRead_eff ?_ h_rf h_ecc _ _ _ _
    | refine State.transferCheck_eff ?_ h_rf h_ecc h_bel h_ldg _ _ _
    | refine State.modPre_eff ?_ h_shelves _ _
    | refine State.preFail_eff ?_ h_shelves _ _ _
    | refine State.rowsSource_eff ?_ h_rf h_ecc h_cat h_kpr h_bel h_ldg h_obs _ _ _ _ _
    | refine State.rowsLand_eff ?_ h_freeCtr h_rf h_mem h_ecc h_cat h_shelves h_kpr h_iln h_bel h_ldg h_obs _ _ _ _ _ _ _ _
    | refine EffP.fst ?_
    | refine EffP.of_eq (by assumption) ?_
    | refine EffP.ite ?_ ?_
    | refine Eff.ite ?_ ?_
    | split
    | refine EffP.mk ?_ _

theorem State.preLoad_eff (h : Eff F s0 s) (h_freeCtr : F .freeCtr = true) (h_rf : F .rf = true) (h_mem : F .mem = true) (h_ecc : F .ecc = true) (h_cat : F .cat = true) (h_shelves : F .shelves = true) (h_kpr : F .kpr = true) (h_iln : F .iln = true) (h_bel : F .bel = true) (h_ldg : F .ldg = true) (h_obs : F .obs = true) :
    ∀ a1 a2, Eff F s0 (State.preLoad s a1 a2) := by
  intro a1 a2
  unfold State.preLoad
  repeat' with_reducible first
    | assumption
    | (extract_lets +onlyGivenNames x
       first
       | (refine Eff.cut F s0 x ?_ ?_; unfold x; clear x; rotate_left; intro _; clear_value x; rotate_left)
       | (refine EffP.cut F s0 x ?_ ?_; unfold x; clear x; rotate_left; intro _; clear_value x; rotate_left)
       | clear_value x)
    | refine State.readFor_eff ?_ h_rf h_ecc h_kpr h_bel h_ldg h_obs _ _ _ _
    | refine State.spill_eff ?_ h_cat _ _ _
    | refine State.preFail_eff ?_ h_shelves _ _ _
    | refine State.folioWrite_eff ?_ h_rf h_mem h_ecc _ _ _
    | refine State.modPre_eff ?_ h_shelves _ _
    | refine State.preFolio_eff ?_ h_freeCtr h_rf h_mem h_ecc h_cat h_shelves h_kpr h_iln h_bel h_ldg h_obs _ _
    | refine Eff.foldl ?_ (fun _ _ _ => ?_)
    | refine EffP.foldl ?_ (fun _ _ _ => ?_)
    | refine EffP.fst ?_
    | refine EffP.of_eq (by assumption) ?_
    | refine EffP.ite ?_ ?_
    | refine Eff.ite ?_ ?_
    | split
    | refine EffP.mk ?_ _

theorem State.preloadDone_eff (h : Eff F s0 s) (h_freeCtr : F .freeCtr = true) (h_rf : F .rf = true) (h_mem : F .mem = true) (h_ecc : F .ecc = true) (h_cat : F .cat = true) (h_shelves : F .shelves = true) (h_kpr : F .kpr = true) (h_iln : F .iln = true) (h_bel : F .bel = true) (h_ldg : F .ldg = true) (h_obs : F .obs = true) :
    ∀ a1 a2, Eff F s0 (State.preloadDone s a1 a2) := by
  intro a1 a2
  unfold State.preloadDone
  repeat' with_reducible first
    | assumption
    | (extract_lets +onlyGivenNames x
       first
       | (refine Eff.cut F s0 x ?_ ?_; unfold x; clear x; rotate_left; intro _; clear_value x; rotate_left)
       | (refine EffP.cut F s0 x ?_ ?_; unfold x; clear x; rotate_left; intro _; clear_value x; rotate_left)
       | clear_value x)
    | refine State.preLoad_eff ?_ h_freeCtr h_rf h_mem h_ecc h_cat h_shelves h_kpr h_iln h_bel h_ldg h_obs _ _
    | refine State.preAsk_eff ?_ h_rf h_shelves h_iln h_bel h_ldg _ _
    | refine State.shelfNext_eff ?_ h_rf h_shelves _
    | refine State.modPre_eff ?_ h_shelves _ _
    | refine Eff.ite ?_ ?_
    | split

theorem State.preloadStart_eff (h : Eff F s0 s) (h_shelves : F .shelves = true) :
    ∀ a1, Eff F s0 (State.preloadStart s a1) := by
  intro a1
  unfold State.preloadStart
  repeat' with_reducible first
    | assumption
    | (extract_lets +onlyGivenNames x
       first
       | (refine Eff.cut F s0 x ?_ ?_; unfold x; clear x; rotate_left; intro _; clear_value x; rotate_left)
       | (refine EffP.cut F s0 x ?_ ?_; unfold x; clear x; rotate_left; intro _; clear_value x; rotate_left)
       | clear_value x)
    | refine State.setShelf_eff ?_ h_shelves _ _
    | refine State.loanGrant_eff ?_ h_shelves _ _ _ _ _ _
    | refine Eff.ite ?_ ?_
    | split

theorem State.queueForm_eff (h : Eff F s0 s) (h_rf : F .rf = true) (h_cat : F .cat = true) (h_shelves : F .shelves = true) (h_ldg : F .ldg = true) :
    ∀ a1, Eff F s0 (State.queueForm s a1) := by
  intro a1
  unfold State.queueForm
  repeat' with_reducible first
    | assumption
    | (extract_lets +onlyGivenNames x
       first
       | (refine Eff.cut F s0 x ?_ ?_; unfold x; clear x; rotate_left; intro _; clear_value x; rotate_left)
       | (refine EffP.cut F s0 x ?_ ?_; unfold x; clear x; rotate_left; intro _; clear_value x; rotate_left)
       | clear_value x)
    | refine State.carryQueue_eff ?_ h_rf h_cat h_shelves h_ldg _ _
    | refine State.modSlip_eff ?_ h_cat _ _
    | refine State.setShelf_eff ?_ h_shelves _ _
    | split

theorem State.queuesForm_eff (h : Eff F s0 s) (h_rf : F .rf = true) (h_cat : F .cat = true) (h_shelves : F .shelves = true) (h_ldg : F .ldg = true) :
    Eff F s0 (State.queuesForm s) := by
  unfold State.queuesForm
  repeat' with_reducible first
    | assumption
    | refine State.queueForm_eff ?_ h_rf h_cat h_shelves h_ldg _
    | refine Eff.foldl ?_ (fun _ _ _ => ?_)
    | refine EffP.fst ?_
    | refine EffP.of_eq (by assumption) ?_
    | split

theorem execPassEnd_eff (h : Eff F s0 s) (h_rf : F .rf = true) (h_mem : F .mem = true) (h_ecc : F .ecc = true) (h_cir : F .cir = true) (h_cat : F .cat = true) (h_bind : F .bind = true) (h_shelves : F .shelves = true) (h_kpr : F .kpr = true) (h_iln : F .iln = true) (h_bel : F .bel = true) (h_ldg : F .ldg = true) (h_pwr : F .pwr = true) (h_obs : F .obs = true) :
    ∀ a0, EffX F s0 (execPassEnd a0 s) := by
  intro a0
  unfold execPassEnd
  repeat' with_reducible first
    | assumption
    | refine State.passEnd_eff ?_ h_rf h_mem h_ecc h_cir h_cat h_bind h_shelves h_kpr h_iln h_bel h_ldg h_pwr h_obs _
    | refine EffX.next ?_
    | refine Eff.ite ?_ ?_
    | refine EffX.ite ?_ ?_
    | split

theorem execPassStart_eff (h : Eff F s0 s) (h_freeCtr : F .freeCtr = true) (h_rf : F .rf = true) (h_mem : F .mem = true) (h_ecc : F .ecc = true) (h_stp : F .stp = true) (h_cat : F .cat = true) (h_shelves : F .shelves = true) (h_iln : F .iln = true) (h_bel : F .bel = true) (h_ldg : F .ldg = true) (h_pwr : F .pwr = true) (h_obs : F .obs = true) :
    ∀ a0, EffX F s0 (execPassStart a0 s) := by
  intro a0
  unfold execPassStart
  repeat' with_reducible first
    | assumption
    | refine State.passStart_eff ?_ h_freeCtr h_rf h_mem h_ecc h_stp h_cat h_shelves h_iln h_bel h_ldg h_pwr h_obs _
    | refine EffX.next ?_
    | refine Eff.ite ?_ ?_
    | refine EffX.ite ?_ ?_
    | split

theorem execPeriodOverrun_eff (h : Eff F s0 s) (h_rf : F .rf = true) (h_stp : F .stp = true) (h_cat : F .cat = true) (h_shelves : F .shelves = true) (h_ldg : F .ldg = true) (h_obs : F .obs = true) :
    ∀ a0, EffX F s0 (execPeriodOverrun a0 s) := by
  intro a0
  unfold execPeriodOverrun
  repeat' with_reducible first
    | assumption
    | refine State.overrun_eff ?_ h_rf h_cat h_shelves h_ldg _
    | refine State.advance_eff ?_ h_stp h_shelves h_ldg h_obs _
    | refine EffX.next ?_
    | refine Eff.ite ?_ ?_
    | refine EffX.ite ?_ ?_
    | split

theorem execPreloadDone_eff (h : Eff F s0 s) (h_freeCtr : F .freeCtr = true) (h_rf : F .rf = true) (h_mem : F .mem = true) (h_ecc : F .ecc = true) (h_cat : F .cat = true) (h_shelves : F .shelves = true) (h_kpr : F .kpr = true) (h_iln : F .iln = true) (h_bel : F .bel = true) (h_ldg : F .ldg = true) (h_obs : F .obs = true) :
    ∀ a0 a1, EffX F s0 (execPreloadDone a0 a1 s) := by
  intro a0 a1
  unfold execPreloadDone
  repeat' with_reducible first
    | assumption
    | refine State.preloadDone_eff ?_ h_freeCtr h_rf h_mem h_ecc h_cat h_shelves h_kpr h_iln h_bel h_ldg h_obs _ _
    | refine EffX.next ?_
    | refine Eff.ite ?_ ?_
    | refine EffX.ite ?_ ?_
    | split

theorem execPreloadStart_eff (h : Eff F s0 s) (h_shelves : F .shelves = true) :
    ∀ a0, EffX F s0 (execPreloadStart a0 s) := by
  intro a0
  unfold execPreloadStart
  repeat' with_reducible first
    | assumption
    | refine State.preloadStart_eff ?_ h_shelves _
    | refine EffX.next ?_
    | refine Eff.ite ?_ ?_
    | refine EffX.ite ?_ ?_
    | split

end Sys2Proof.Machine
end

