-- ==== Sys2Proof/Laws/FrameCirculation.lean ====
section
/-! SUPPORT. Frames of the operations of Machine/Circulation.lean: what each may change. -/

namespace Sys2Proof.Machine

variable {F : Comp → Bool} {s0 s : State}

theorem State.setCredit_eff (h : Eff F s0 s) (h_cir : F .cir = true) :
    ∀ a1 a2, Eff F s0 (State.setCredit s a1 a2) := by
  intro a1 a2
  unfold State.setCredit
  repeat' with_reducible first
    | assumption
    | split
    | refine Eff.set_cir ?_ h_cir

theorem State.addCredits_eff (h : Eff F s0 s) (h_cir : F .cir = true) :
    Eff F s0 (State.addCredits s) := by
  unfold State.addCredits
  repeat' with_reducible first
    | assumption
    | (extract_lets +onlyGivenNames x
       first
       | (refine Eff.cut F s0 x ?_ ?_; unfold x; clear x; rotate_left; intro _; clear_value x; rotate_left)
       | (refine EffP.cut F s0 x ?_ ?_; unfold x; clear x; rotate_left; intro _; clear_value x; rotate_left)
       | clear_value x)
    | refine State.setCredit_eff ?_ h_cir _ _
    | refine Eff.foldl ?_ (fun _ _ _ => ?_)
    | refine EffP.fst ?_
    | refine EffP.of_eq (by assumption) ?_
    | split

theorem State.nearSlips_eff (h : Eff F s0 s) (h_rf : F .rf = true) (h_ecc : F .ecc = true) (h_kpr : F .kpr = true) (h_bel : F .bel = true) (h_ldg : F .ldg = true) (h_obs : F .obs = true) :
    ∀ a1 a2 a3 a4, EffP F s0 (State.nearSlips s a1 a2 a3 a4) := by
  intro a1 a2 a3 a4
  induction a4 generalizing s a1 a2 a3 with
  | zero => exact EffP.mk h _
  | succ n ih =>
    rw [State.nearSlips]
    repeat' with_reducible first
      | assumption
      | refine State.readMay_eff ?_ h_rf h_ecc h_kpr h_bel h_ldg h_obs _ _ _ _ _
      | apply ih
      | refine EffP.fst ?_
      | refine EffP.of_eq (by assumption) ?_
      | split
      | refine EffP.mk ?_ _

theorem State.burstRead_eff (h : Eff F s0 s) (h_rf : F .rf = true) (h_ecc : F .ecc = true) (h_kpr : F .kpr = true) (h_bel : F .bel = true) (h_ldg : F .ldg = true) (h_obs : F .obs = true) :
    ∀ a1 a2 a3, EffP F s0 (State.burstRead s a1 a2 a3) := by
  intro a1 a2 a3
  unfold State.burstRead
  repeat' with_reducible first
    | assumption
    | refine State.nearSlips_eff ?_ h_rf h_ecc h_kpr h_bel h_ldg h_obs _ _ _ _
    | refine EffP.fst ?_
    | refine EffP.of_eq (by assumption) ?_
    | refine EffP.ite ?_ ?_
    | refine Eff.ite ?_ ?_
    | split
    | refine EffP.mk ?_ _

theorem State.waitTags_eff (h : Eff F s0 s) (h_rf : F .rf = true) (h_ecc : F .ecc = true) (h_kpr : F .kpr = true) (h_bel : F .bel = true) (h_ldg : F .ldg = true) (h_obs : F .obs = true) :
    ∀ a1 a2, EffP F s0 (State.waitTags s a1 a2) := by
  intro a1 a2
  unfold State.waitTags
  repeat' with_reducible first
    | assumption
    | (extract_lets +onlyGivenNames x
       first
       | (refine Eff.cut F s0 x ?_ ?_; unfold x; clear x; rotate_left; intro _; clear_value x; rotate_left)
       | (refine EffP.cut F s0 x ?_ ?_; unfold x; clear x; rotate_left; intro _; clear_value x; rotate_left)
       | clear_value x)
    | refine State.memRefused_eff ?_ h_rf h_ldg _ _ _
    | refine State.readFor_eff ?_ h_rf h_ecc h_kpr h_bel h_ldg h_obs _ _ _ _
    | refine EffP.fst ?_
    | refine EffP.of_eq (by assumption) ?_
    | refine EffP.ite ?_ ?_
    | refine Eff.ite ?_ ?_
    | split
    | refine EffP.mk ?_ _

theorem State.entryRefusal_eff (h : Eff F s0 s) (h_rf : F .rf = true) (h_ecc : F .ecc = true) (h_kpr : F .kpr = true) (h_bel : F .bel = true) (h_ldg : F .ldg = true) (h_obs : F .obs = true) :
    ∀ a1 a2, EffP F s0 (State.entryRefusal s a1 a2) := by
  intro a1 a2
  unfold State.entryRefusal
  repeat' with_reducible first
    | assumption
    | (extract_lets +onlyGivenNames x
       first
       | (refine Eff.cut F s0 x ?_ ?_; unfold x; clear x; rotate_left; intro _; clear_value x; rotate_left)
       | (refine EffP.cut F s0 x ?_ ?_; unfold x; clear x; rotate_left; intro _; clear_value x; rotate_left)
       | clear_value x)
    | refine State.waitTags_eff ?_ h_rf h_ecc h_kpr h_bel h_ldg h_obs _ _
    | refine EffP.fst ?_
    | refine EffP.of_eq (by assumption) ?_
    | refine EffP.ite ?_ ?_
    | refine Eff.ite ?_ ?_
    | split
    | refine EffP.mk ?_ _

theorem State.passSlip_eff (h : Eff F s0 s) (h_rf : F .rf = true) (h_cir : F .cir = true) (h_iln : F .iln = true) (h_hostOut : F .hostOut = true) :
    ∀ a1, Eff F s0 (State.passSlip s a1) := by
  intro a1
  unfold State.passSlip
  repeat' with_reducible first
    | assumption
    | refine State.setRingCount_eff ?_ h_rf h_cir h_iln h_hostOut _ _ _
    | refine State.setReg_eff ?_ h_rf _ _
    | split

theorem State.enterSlip_eff (h : Eff F s0 s) (h_rf : F .rf = true) (h_ecc : F .ecc = true) (h_cir : F .cir = true) (h_cat : F .cat = true) (h_kpr : F .kpr = true) (h_iln : F .iln = true) (h_bel : F .bel = true) (h_ldg : F .ldg = true) (h_obs : F .obs = true) (h_hostOut : F .hostOut = true) :
    ∀ a1 a2, EffP F s0 (State.enterSlip s a1 a2) := by
  intro a1 a2
  unfold State.enterSlip
  repeat' with_reducible first
    | assumption
    | (extract_lets +onlyGivenNames x
       first
       | (refine Eff.cut F s0 x ?_ ?_; unfold x; clear x; rotate_left; intro _; clear_value x; rotate_left)
       | (refine EffP.cut F s0 x ?_ ?_; unfold x; clear x; rotate_left; intro _; clear_value x; rotate_left)
       | clear_value x)
    | refine State.entryRefusal_eff ?_ h_rf h_ecc h_kpr h_bel h_ldg h_obs _ _
    | refine State.ringRecord_eff ?_ h_rf h_cir h_cat _ _ _ _ _ _
    | refine State.passSlip_eff ?_ h_rf h_cir h_iln h_hostOut _
    | refine EffP.fst ?_
    | refine EffP.of_eq (by assumption) ?_
    | refine EffP.ite ?_ ?_
    | refine Eff.ite ?_ ?_
    | split
    | refine Eff.set_cir ?_ h_cir
    | refine Eff.set_cat ?_ h_cat
    | refine EffP.mk ?_ _

theorem State.enterSlips_eff (h : Eff F s0 s) (h_rf : F .rf = true) (h_ecc : F .ecc = true) (h_cir : F .cir = true) (h_cat : F .cat = true) (h_kpr : F .kpr = true) (h_iln : F .iln = true) (h_bel : F .bel = true) (h_ldg : F .ldg = true) (h_obs : F .obs = true) (h_hostOut : F .hostOut = true) :
    ∀ a1 a2, Eff F s0 (State.enterSlips s a1 a2) := by
  intro a1 a2
  induction a2 generalizing s a1 with
  | nil => exact h
  | cons q qs ih =>
    rw [State.enterSlips]
    repeat' with_reducible first
      | assumption
      | refine State.enterSlip_eff ?_ h_rf h_ecc h_cir h_cat h_kpr h_iln h_bel h_ldg h_obs h_hostOut _ _
      | apply ih
      | refine EffP.fst ?_
      | refine EffP.of_eq (by assumption) ?_
      | split
      | refine EffP.mk ?_ _

theorem State.burstEnd_eff (h : Eff F s0 s) (h_rf : F .rf = true) (h_ecc : F .ecc = true) (h_cir : F .cir = true) (h_cat : F .cat = true) (h_bind : F .bind = true) (h_kpr : F .kpr = true) (h_iln : F .iln = true) (h_bel : F .bel = true) (h_ldg : F .ldg = true) (h_obs : F .obs = true) (h_hostOut : F .hostOut = true) :
    ∀ a1 a2 a3, Eff F s0 (State.burstEnd s a1 a2 a3) := by
  intro a1 a2 a3
  unfold State.burstEnd
  repeat' with_reducible first
    | assumption
    | (extract_lets +onlyGivenNames x
       first
       | (refine Eff.cut F s0 x ?_ ?_; unfold x; clear x; rotate_left; intro _; clear_value x; rotate_left)
       | (refine EffP.cut F s0 x ?_ ?_; unfold x; clear x; rotate_left; intro _; clear_value x; rotate_left)
       | clear_value x)
    | refine State.burstRead_eff ?_ h_rf h_ecc h_kpr h_bel h_ldg h_obs _ _ _
    | refine State.ringStop_eff ?_ h_rf h_cir h_cat h_ldg _ _ _
    | refine State.enterSlips_eff ?_ h_rf h_ecc h_cir h_cat h_kpr h_iln h_bel h_ldg h_obs h_hostOut _ _
    | refine State.countWrap_eff ?_ h_rf _ _ _ _
    | refine State.setField_eff ?_ h_rf _ _ _ _
    | refine State.settle_eff ?_ h_rf h_ecc h_cir h_cat h_bind h_kpr h_bel h_ldg h_obs
    | refine EffP.fst ?_
    | refine EffP.of_eq (by assumption) ?_
    | refine EffP.ite ?_ ?_
    | refine Eff.ite ?_ ?_
    | split
    | refine Eff.set_cir ?_ h_cir
    | refine EffP.mk ?_ _

theorem State.grant_eff (h : Eff F s0 s) (h_crl : F .crl = true) :
    ∀ a1 a2, EffP F s0 (State.grant s a1 a2) := by
  intro a1 a2
  unfold State.grant
  repeat' with_reducible first
    | assumption
    | (extract_lets +onlyGivenNames x
       first
       | (refine Eff.cut F s0 x ?_ ?_; unfold x; clear x; rotate_left; intro _; clear_value x; rotate_left)
       | (refine EffP.cut F s0 x ?_ ?_; unfold x; clear x; rotate_left; intro _; clear_value x; rotate_left)
       | clear_value x)
    | refine EffP.fst ?_
    | refine EffP.of_eq (by assumption) ?_
    | refine EffP.ite ?_ ?_
    | refine Eff.ite ?_ ?_
    | split
    | refine Eff.set_crl ?_ h_crl
    | refine EffP.mk ?_ _

theorem State.deskGrant_eff (h : Eff F s0 s) (h_rf : F .rf = true) (h_cir : F .cir = true) (h_crl : F .crl = true) :
    Eff F s0 (State.deskGrant s) := by
  unfold State.deskGrant
  repeat' with_reducible first
    | assumption
    | (extract_lets +onlyGivenNames x
       first
       | (refine Eff.cut F s0 x ?_ ?_; unfold x; clear x; rotate_left; intro _; clear_value x; rotate_left)
       | (refine EffP.cut F s0 x ?_ ?_; unfold x; clear x; rotate_left; intro _; clear_value x; rotate_left)
       | clear_value x)
    | refine State.grant_eff ?_ h_crl _ _
    | refine State.setField_eff ?_ h_rf _ _ _ _
    | refine EffP.fst ?_
    | refine EffP.of_eq (by assumption) ?_
    | split
    | refine Eff.set_cir ?_ h_cir
    | refine EffP.mk ?_ _

theorem State.enqDone_eff (h : Eff F s0 s) (h_freeCtr : F .freeCtr = true) (h_rf : F .rf = true) (h_mem : F .mem = true) (h_ecc : F .ecc = true) (h_cir : F .cir = true) (h_cat : F .cat = true) (h_bind : F .bind = true) (h_shelves : F .shelves = true) (h_kpr : F .kpr = true) (h_iln : F .iln = true) (h_bel : F .bel = true) (h_ldg : F .ldg = true) (h_pwr : F .pwr = true) (h_obs : F .obs = true) :
    ∀ a1 a2, Eff F s0 (State.enqDone s a1 a2) := by
  intro a1 a2
  unfold State.enqDone
  repeat' with_reducible first
    | assumption
    | (extract_lets +onlyGivenNames x
       first
       | (refine Eff.cut F s0 x ?_ ?_; unfold x; clear x; rotate_left; intro _; clear_value x; rotate_left)
       | (refine EffP.cut F s0 x ?_ ?_; unfold x; clear x; rotate_left; intro _; clear_value x; rotate_left)
       | clear_value x)
    | refine State.finish_eff ?_ h_rf h_ecc h_cir h_cat h_bind h_kpr h_bel h_ldg h_obs _ _
    | refine State.modSlip_eff ?_ h_cat _ _
    | refine State.setExec_eff ?_ h_shelves _ _ _ _ _ _
    | refine State.folioFail_eff ?_ h_freeCtr h_rf h_mem h_cat h_shelves h_iln h_bel h_ldg h_pwr _ _ _ _ _ _
    | split
    | refine Eff.set_cir ?_ h_cir

theorem State.enqLimit_eff (h : Eff F s0 s) (h_rf : F .rf = true) (h_cir : F .cir = true) :
    ∀ a1 a2, Eff F s0 (State.enqLimit s a1 a2) := by
  intro a1 a2
  unfold State.enqLimit
  repeat' with_reducible first
    | assumption
    | (extract_lets +onlyGivenNames x
       first
       | (refine Eff.cut F s0 x ?_ ?_; unfold x; clear x; rotate_left; intro _; clear_value x; rotate_left)
       | (refine EffP.cut F s0 x ?_ ?_; unfold x; clear x; rotate_left; intro _; clear_value x; rotate_left)
       | clear_value x)
    | refine State.setReg_eff ?_ h_rf _ _
    | refine State.setCredit_eff ?_ h_cir _ _
    | refine Eff.ite ?_ ?_
    | split

theorem State.enqRead_eff (h : Eff F s0 s) (h_rf : F .rf = true) (h_ecc : F .ecc = true) (h_kpr : F .kpr = true) (h_bel : F .bel = true) (h_ldg : F .ldg = true) (h_obs : F .obs = true) :
    ∀ a1 a2, EffP F s0 (State.enqRead s a1 a2) := by
  intro a1 a2
  unfold State.enqRead
  repeat' with_reducible first
    | assumption
    | (extract_lets +onlyGivenNames x
       first
       | (refine Eff.cut F s0 x ?_ ?_; unfold x; clear x; rotate_left; intro _; clear_value x; rotate_left)
       | (refine EffP.cut F s0 x ?_ ?_; unfold x; clear x; rotate_left; intro _; clear_value x; rotate_left)
       | clear_value x)
    | refine State.readMay_eff ?_ h_rf h_ecc h_kpr h_bel h_ldg h_obs _ _ _ _ _
    | refine State.storeRead_eff ?_ h_rf h_ecc _ _ _
    | refine EffP.fst ?_
    | refine EffP.of_eq (by assumption) ?_
    | refine EffP.ite ?_ ?_
    | refine Eff.ite ?_ ?_
    | split
    | refine EffP.mk ?_ _

theorem State.slotsWrite_eff (h : Eff F s0 s) (h_freeCtr : F .freeCtr = true) (h_rf : F .rf = true) (h_mem : F .mem = true) (h_ecc : F .ecc = true) (h_kpr : F .kpr = true) (h_iln : F .iln = true) (h_bel : F .bel = true) (h_ldg : F .ldg = true) (h_obs : F .obs = true) (h_hostOut : F .hostOut = true) :
    ∀ a1 a2 a3 a4, EffP F s0 (State.slotsWrite s a1 a2 a3 a4) := by
  intro a1 a2 a3 a4
  induction a4 generalizing s a1 a2 a3 with
  | nil => exact EffP.mk h _
  | cons q qs ih =>
    rw [State.slotsWrite]
    repeat' with_reducible first
      | assumption
      | (extract_lets +onlyGivenNames x
         first
         | (refine Eff.cut F s0 x ?_ ?_; unfold x; clear x; rotate_left; intro _; clear_value x; rotate_left)
         | (refine EffP.cut F s0 x ?_ ?_; unfold x; clear x; rotate_left; intro _; clear_value x; rotate_left)
         | clear_value x)
      | refine State.hostWrite_eff ?_ h_iln h_hostOut _ _ _ _
      | refine State.writeMay_eff ?_ h_freeCtr h_rf h_mem h_ecc h_kpr h_bel h_ldg h_obs _ _ _ _ _
      | apply ih
      | refine EffP.fst ?_
      | refine EffP.of_eq (by assumption) ?_
      | refine EffP.ite ?_ ?_
      | refine Eff.ite ?_ ?_
      | split
      | refine EffP.mk ?_ _

theorem State.enqueueAppend_eff (h : Eff F s0 s) (h_freeCtr : F .freeCtr = true) (h_rf : F .rf = true) (h_mem : F .mem = true) (h_ecc : F .ecc = true) (h_cir : F .cir = true) (h_cat : F .cat = true) (h_bind : F .bind = true) (h_shelves : F .shelves = true) (h_kpr : F .kpr = true) (h_iln : F .iln = true) (h_bel : F .bel = true) (h_ldg : F .ldg = true) (h_pwr : F .pwr = true) (h_obs : F .obs = true) (h_hostOut : F .hostOut = true) :
    ∀ a1 a2, Eff F s0 (State.enqueueAppend s a1 a2) := by
  intro a1 a2
  unfold State.enqueueAppend
  repeat' with_reducible first
    | assumption
    | refine State.enqRead_eff ?_ h_rf h_ecc h_kpr h_bel h_ldg h_obs _ _
    | refine State.enqDone_eff ?_ h_freeCtr h_rf h_mem h_ecc h_cir h_cat h_bind h_shelves h_kpr h_iln h_bel h_ldg h_pwr h_obs _ _
    | refine State.slotsWrite_eff ?_ h_freeCtr h_rf h_mem h_ecc h_kpr h_iln h_bel h_ldg h_obs h_hostOut _ _ _ _
    | refine State.ringStop_eff ?_ h_rf h_cir h_cat h_ldg _ _ _
    | refine State.setRingCount_eff ?_ h_rf h_cir h_iln h_hostOut _ _ _
    | refine State.setCredit_eff ?_ h_cir _ _
    | refine EffP.fst ?_
    | refine EffP.of_eq (by assumption) ?_
    | refine EffP.ite ?_ ?_
    | refine Eff.ite ?_ ?_
    | split
    | refine EffP.mk ?_ _

theorem State.holdoffEnd_eff (h : Eff F s0 s) (h_cir : F .cir = true) (h_iln : F .iln = true) (h_hostOut : F .hostOut = true) :
    ∀ a1, Eff F s0 (State.holdoffEnd s a1) := by
  intro a1
  unfold State.holdoffEnd
  repeat' with_reducible first
    | assumption
    | (extract_lets +onlyGivenNames x
       first
       | (refine Eff.cut F s0 x ?_ ?_; unfold x; clear x; rotate_left; intro _; clear_value x; rotate_left)
       | (refine EffP.cut F s0 x ?_ ?_; unfold x; clear x; rotate_left; intro _; clear_value x; rotate_left)
       | clear_value x)
    | refine State.notify_eff ?_ h_cir h_iln h_hostOut _
    | refine Eff.ite ?_ ?_
    | split
    | refine Eff.set_cir ?_ h_cir

theorem State.receiptBytes_eff (h : Eff F s0 s) (h_freeCtr : F .freeCtr = true) (h_rf : F .rf = true) (h_mem : F .mem = true) (h_ecc : F .ecc = true) (h_kpr : F .kpr = true) (h_iln : F .iln = true) (h_bel : F .bel = true) (h_ldg : F .ldg = true) (h_obs : F .obs = true) (h_hostOut : F .hostOut = true) :
    ∀ a1 a2 a3, EffP F s0 (State.receiptBytes s a1 a2 a3) := by
  intro a1 a2 a3
  unfold State.receiptBytes
  repeat' with_reducible first
    | assumption
    | (extract_lets +onlyGivenNames x
       first
       | (refine Eff.cut F s0 x ?_ ?_; unfold x; clear x; rotate_left; intro _; clear_value x; rotate_left)
       | (refine EffP.cut F s0 x ?_ ?_; unfold x; clear x; rotate_left; intro _; clear_value x; rotate_left)
       | clear_value x)
    | refine State.hostWrite_eff ?_ h_iln h_hostOut _ _ _ _
    | refine State.writeMay_eff ?_ h_freeCtr h_rf h_mem h_ecc h_kpr h_bel h_ldg h_obs _ _ _ _ _
    | refine State.writeFor_eff ?_ h_freeCtr h_rf h_mem h_ecc h_kpr h_bel h_ldg h_obs _ _ _ _
    | refine EffP.fst ?_
    | refine EffP.of_eq (by assumption) ?_
    | refine EffP.ite ?_ ?_
    | refine Eff.ite ?_ ?_
    | split
    | refine EffP.mk ?_ _

theorem State.receiptWritten_eff (h : Eff F s0 s) (h_rf : F .rf = true) (h_cir : F .cir = true) (h_cat : F .cat = true) (h_iln : F .iln = true) (h_hostOut : F .hostOut = true) :
    ∀ a1 a2, Eff F s0 (State.receiptWritten s a1 a2) := by
  intro a1 a2
  unfold State.receiptWritten
  repeat' with_reducible first
    | assumption
    | (extract_lets +onlyGivenNames x
       first
       | (refine Eff.cut F s0 x ?_ ?_; unfold x; clear x; rotate_left; intro _; clear_value x; rotate_left)
       | (refine EffP.cut F s0 x ?_ ?_; unfold x; clear x; rotate_left; intro _; clear_value x; rotate_left)
       | clear_value x)
    | refine State.setRingCount_eff ?_ h_rf h_cir h_iln h_hostOut _ _ _
    | refine State.setReg_eff ?_ h_rf _ _
    | refine State.notify_eff ?_ h_cir h_iln h_hostOut _
    | refine Eff.ite ?_ ?_
    | split
    | refine Eff.set_cir_cat ?_ h_cir h_cat

theorem State.receiptWrite_eff (h : Eff F s0 s) (h_freeCtr : F .freeCtr = true) (h_rf : F .rf = true) (h_mem : F .mem = true) (h_ecc : F .ecc = true) (h_cir : F .cir = true) (h_cat : F .cat = true) (h_kpr : F .kpr = true) (h_iln : F .iln = true) (h_bel : F .bel = true) (h_ldg : F .ldg = true) (h_obs : F .obs = true) (h_hostOut : F .hostOut = true) :
    ∀ a1 a2, Eff F s0 (State.receiptWrite s a1 a2) := by
  intro a1 a2
  unfold State.receiptWrite
  repeat' with_reducible first
    | assumption
    | refine State.receiptBytes_eff ?_ h_freeCtr h_rf h_mem h_ecc h_kpr h_iln h_bel h_ldg h_obs h_hostOut _ _ _
    | refine State.ringStop_eff ?_ h_rf h_cir h_cat h_ldg _ _ _
    | refine State.receiptWritten_eff ?_ h_rf h_cir h_cat h_iln h_hostOut _ _
    | refine EffP.fst ?_
    | refine EffP.of_eq (by assumption) ?_
    | refine EffP.ite ?_ ?_
    | refine Eff.ite ?_ ?_
    | split
    | refine EffP.mk ?_ _

theorem State.ringOff_eff (h : Eff F s0 s) (h_freeCtr : F .freeCtr = true) (h_rf : F .rf = true) (h_mem : F .mem = true) (h_ecc : F .ecc = true) (h_cir : F .cir = true) (h_cat : F .cat = true) (h_bind : F .bind = true) (h_shelves : F .shelves = true) (h_kpr : F .kpr = true) (h_bel : F .bel = true) (h_ldg : F .ldg = true) (h_pwr : F .pwr = true) (h_obs : F .obs = true) :
    ∀ a1, Eff F s0 (State.ringOff s a1) := by
  intro a1
  unfold State.ringOff
  repeat' with_reducible first
    | assumption
    | (extract_lets +onlyGivenNames x
       first
       | (refine Eff.cut F s0 x ?_ ?_; unfold x; clear x; rotate_left; intro _; clear_value x; rotate_left)
       | (refine EffP.cut F s0 x ?_ ?_; unfold x; clear x; rotate_left; intro _; clear_value x; rotate_left)
       | clear_value x)
    | refine State.setRegBit_eff ?_ h_rf _ _ _
    | refine State.overSettle_eff ?_ h_kpr
    | refine State.receiptDrop_eff ?_ h_rf h_cat _
    | refine State.finish_eff ?_ h_rf h_ecc h_cir h_cat h_bind h_kpr h_bel h_ldg h_obs _ _
    | refine State.appendRefused_eff ?_ h_freeCtr h_rf h_mem h_cat h_shelves h_bel h_ldg h_pwr _ _
    | refine Eff.foldl ?_ (fun _ _ _ => ?_)
    | refine EffP.foldl ?_ (fun _ _ _ => ?_)
    | refine EffP.fst ?_
    | refine EffP.of_eq (by assumption) ?_
    | refine Eff.ite ?_ ?_
    | split
    | refine Eff.set_cir ?_ h_cir

theorem State.ringDisable_eff (h : Eff F s0 s) (h_freeCtr : F .freeCtr = true) (h_rf : F .rf = true) (h_mem : F .mem = true) (h_ecc : F .ecc = true) (h_cir : F .cir = true) (h_cat : F .cat = true) (h_bind : F .bind = true) (h_shelves : F .shelves = true) (h_kpr : F .kpr = true) (h_bel : F .bel = true) (h_ldg : F .ldg = true) (h_pwr : F .pwr = true) (h_obs : F .obs = true) :
    ∀ a1 a2, Eff F s0 (State.ringDisable s a1 a2) := by
  intro a1 a2
  unfold State.ringDisable
  repeat' with_reducible first
    | assumption
    | refine State.setReg_eff ?_ h_rf _ _
    | refine State.setRegBit_eff ?_ h_rf _ _ _
    | refine State.ringOff_eff ?_ h_freeCtr h_rf h_mem h_ecc h_cir h_cat h_bind h_shelves h_kpr h_bel h_ldg h_pwr h_obs _
    | refine Eff.ite ?_ ?_
    | split
    | refine Eff.set_cir ?_ h_cir

theorem execBurstEnd_eff (h : Eff F s0 s) (h_rf : F .rf = true) (h_ecc : F .ecc = true) (h_cir : F .cir = true) (h_cat : F .cat = true) (h_bind : F .bind = true) (h_kpr : F .kpr = true) (h_iln : F .iln = true) (h_bel : F .bel = true) (h_ldg : F .ldg = true) (h_obs : F .obs = true) (h_hostOut : F .hostOut = true) :
    ∀ a0 a1 a2, EffX F s0 (execBurstEnd a0 a1 a2 s) := by
  intro a0 a1 a2
  unfold execBurstEnd
  repeat' with_reducible first
    | assumption
    | refine State.burstEnd_eff ?_ h_rf h_ecc h_cir h_cat h_bind h_kpr h_iln h_bel h_ldg h_obs h_hostOut _ _ _
    | refine EffX.next ?_
    | refine Eff.ite ?_ ?_
    | refine EffX.ite ?_ ?_
    | split

theorem execDeskGrant_eff (h : Eff F s0 s) (h_rf : F .rf = true) (h_cir : F .cir = true) (h_crl : F .crl = true) :
    EffX F s0 (execDeskGrant s) := by
  unfold execDeskGrant
  repeat' with_reducible first
    | assumption
    | refine State.deskGrant_eff ?_ h_rf h_cir h_crl
    | refine EffX.next ?_
    | refine Eff.ite ?_ ?_
    | refine EffX.ite ?_ ?_
    | split

theorem execEnqLimitWrite_eff (h : Eff F s0 s) (h_rf : F .rf = true) (h_cir : F .cir = true) :
    ∀ a0 a1, EffX F s0 (execEnqLimitWrite a0 a1 s) := by
  intro a0 a1
  unfold execEnqLimitWrite
  repeat' with_reducible first
    | assumption
    | refine State.enqLimit_eff ?_ h_rf h_cir _ _
    | refine EffX.next ?_
    | refine Eff.ite ?_ ?_
    | refine EffX.ite ?_ ?_
    | split

theorem execEnqueueAppend_eff (h : Eff F s0 s) (h_freeCtr : F .freeCtr = true) (h_rf : F .rf = true) (h_mem : F .mem = true) (h_ecc : F .ecc = true) (h_cir : F .cir = true) (h_cat : F .cat = true) (h_bind : F .bind = true) (h_shelves : F .shelves = true) (h_kpr : F .kpr = true) (h_iln : F .iln = true) (h_bel : F .bel = true) (h_ldg : F .ldg = true) (h_pwr : F .pwr = true) (h_obs : F .obs = true) (h_hostOut : F .hostOut = true) :
    ∀ a0, EffX F s0 (execEnqueueAppend a0 s) := by
  intro a0
  unfold execEnqueueAppend
  repeat' with_reducible first
    | assumption
    | refine State.enqueueAppend_eff ?_ h_freeCtr h_rf h_mem h_ecc h_cir h_cat h_bind h_shelves h_kpr h_iln h_bel h_ldg h_pwr h_obs h_hostOut _ _
    | refine EffX.next ?_
    | refine Eff.ite ?_ ?_
    | refine EffX.ite ?_ ?_
    | split

theorem execNotifyHoldoffEnd_eff (h : Eff F s0 s) (h_cir : F .cir = true) (h_iln : F .iln = true) (h_hostOut : F .hostOut = true) :
    ∀ a0, EffX F s0 (execNotifyHoldoffEnd a0 s) := by
  intro a0
  unfold execNotifyHoldoffEnd
  repeat' with_reducible first
    | assumption
    | refine State.holdoffEnd_eff ?_ h_cir h_iln h_hostOut _
    | refine EffX.next ?_
    | refine Eff.ite ?_ ?_
    | refine EffX.ite ?_ ?_
    | split

theorem execReceiptWrite_eff (h : Eff F s0 s) (h_freeCtr : F .freeCtr = true) (h_rf : F .rf = true) (h_mem : F .mem = true) (h_ecc : F .ecc = true) (h_cir : F .cir = true) (h_cat : F .cat = true) (h_kpr : F .kpr = true) (h_iln : F .iln = true) (h_bel : F .bel = true) (h_ldg : F .ldg = true) (h_obs : F .obs = true) (h_hostOut : F .hostOut = true) :
    ∀ a0 a1, EffX F s0 (execReceiptWrite a0 a1 s) := by
  intro a0 a1
  unfold execReceiptWrite
  repeat' with_reducible first
    | assumption
    | refine State.receiptWrite_eff ?_ h_freeCtr h_rf h_mem h_ecc h_cir h_cat h_kpr h_iln h_bel h_ldg h_obs h_hostOut _ _
    | refine EffX.next ?_
    | refine Eff.ite ?_ ?_
    | refine EffX.ite ?_ ?_
    | split

theorem execRingDisable_eff (h : Eff F s0 s) (h_freeCtr : F .freeCtr = true) (h_rf : F .rf = true) (h_mem : F .mem = true) (h_ecc : F .ecc = true) (h_cir : F .cir = true) (h_cat : F .cat = true) (h_bind : F .bind = true) (h_shelves : F .shelves = true) (h_kpr : F .kpr = true) (h_bel : F .bel = true) (h_ldg : F .ldg = true) (h_pwr : F .pwr = true) (h_obs : F .obs = true) :
    ∀ a0 a1, EffX F s0 (execRingDisable a0 a1 s) := by
  intro a0 a1
  unfold execRingDisable
  repeat' with_reducible first
    | assumption
    | refine State.ringDisable_eff ?_ h_freeCtr h_rf h_mem h_ecc h_cir h_cat h_bind h_shelves h_kpr h_bel h_ldg h_pwr h_obs _ _
    | refine EffX.next ?_
    | refine Eff.ite ?_ ?_
    | refine EffX.ite ?_ ?_
    | split

theorem execRingDisableEffect_eff (h : Eff F s0 s) (h_freeCtr : F .freeCtr = true) (h_rf : F .rf = true) (h_mem : F .mem = true) (h_ecc : F .ecc = true) (h_cir : F .cir = true) (h_cat : F .cat = true) (h_bind : F .bind = true) (h_shelves : F .shelves = true) (h_kpr : F .kpr = true) (h_bel : F .bel = true) (h_ldg : F .ldg = true) (h_pwr : F .pwr = true) (h_obs : F .obs = true) :
    ∀ a0, EffX F s0 (execRingDisableEffect a0 s) := by
  intro a0
  unfold execRingDisableEffect
  repeat' with_reducible first
    | assumption
    | refine State.ringOff_eff ?_ h_freeCtr h_rf h_mem h_ecc h_cir h_cat h_bind h_shelves h_kpr h_bel h_ldg h_pwr h_obs _
    | refine EffX.next ?_
    | refine Eff.ite ?_ ?_
    | refine EffX.ite ?_ ?_
    | split

end Sys2Proof.Machine
end

