-- ==== Sys2Proof/Laws/FrameKeeper.lean ====
section
/-! SUPPORT. Frames of the operations of Machine/Keeper.lean: what each may change. -/

namespace Sys2Proof.Machine

variable {F : Comp → Bool} {s0 s : State}

theorem State.queueMove_eff (h : Eff F s0 s) (h_kpr : F .kpr = true) :
    ∀ a1 a2 a3 a4, Eff F s0 (State.queueMove s a1 a2 a3 a4) := by
  intro a1 a2 a3 a4
  unfold State.queueMove
  repeat' with_reducible first
    | assumption
    | refine State.modKpr_eff ?_ h_kpr _
    | split

theorem State.sendHome_eff (h : Eff F s0 s) (h_kpr : F .kpr = true) :
    ∀ a1 a2 a3, Eff F s0 (State.sendHome s a1 a2 a3) := by
  intro a1 a2 a3
  unfold State.sendHome
  repeat' with_reducible first
    | assumption
    | refine State.queueMove_eff ?_ h_kpr _ _ _ _
    | refine State.overSettle_eff ?_ h_kpr
    | refine State.modLeaf_eff ?_ h_kpr _ _ _
    | refine Eff.ite ?_ ?_
    | split

theorem State.bringVictim_eff (h : Eff F s0 s) (h_kpr : F .kpr = true) :
    ∀ a1 a2 a3 a4, EffP F s0 (State.bringVictim s a1 a2 a3 a4) := by
  intro a1 a2 a3 a4
  unfold State.bringVictim
  repeat' with_reducible first
    | assumption
    | (extract_lets +onlyGivenNames x
       first
       | (refine Eff.cut F s0 x ?_ ?_; unfold x; clear x; rotate_left; intro _; clear_value x; rotate_left)
       | (refine EffP.cut F s0 x ?_ ?_; unfold x; clear x; rotate_left; intro _; clear_value x; rotate_left)
       | clear_value x)
    | refine State.sendHome_eff ?_ h_kpr _ _ _
    | refine State.queueMove_eff ?_ h_kpr _ _ _ _
    | refine EffP.fst ?_
    | refine EffP.of_eq (by assumption) ?_
    | split
    | refine EffP.mk ?_ _

theorem State.bringNear_eff (h : Eff F s0 s) (h_kpr : F .kpr = true) :
    ∀ a1 a2 a3 a4, EffP F s0 (State.bringNear s a1 a2 a3 a4) := by
  intro a1 a2 a3 a4
  unfold State.bringNear
  repeat' with_reducible first
    | assumption
    | refine State.queueMove_eff ?_ h_kpr _ _ _ _
    | refine State.bringVictim_eff ?_ h_kpr _ _ _ _
    | refine EffP.fst ?_
    | refine EffP.of_eq (by assumption) ?_
    | split
    | refine EffP.mk ?_ _

theorem State.freshen_eff (h : Eff F s0 s) (h_ecc : F .ecc = true) (h_kpr : F .kpr = true) :
    ∀ a1 a2, Eff F s0 (State.freshen s a1 a2) := by
  intro a1 a2
  unfold State.freshen
  repeat' with_reducible first
    | assumption
    | (extract_lets +onlyGivenNames x
       first
       | (refine Eff.cut F s0 x ?_ ?_; unfold x; clear x; rotate_left; intro _; clear_value x; rotate_left)
       | (refine EffP.cut F s0 x ?_ ?_; unfold x; clear x; rotate_left; intro _; clear_value x; rotate_left)
       | clear_value x)
    | refine State.modKpr_eff ?_ h_kpr _
    | refine EffP.fst ?_
    | refine EffP.of_eq (by assumption) ?_
    | split
    | refine Eff.set_ecc ?_ h_ecc

theorem State.copyLeaf_eff (h : Eff F s0 s) (h_rf : F .rf = true) (h_mem : F .mem = true) (h_ecc : F .ecc = true) (h_kpr : F .kpr = true) (h_bel : F .bel = true) (h_ldg : F .ldg = true) :
    ∀ a1 a2 a3, Eff F s0 (State.copyLeaf s a1 a2 a3) := by
  intro a1 a2 a3
  unfold State.copyLeaf
  repeat' with_reducible first
    | assumption
    | (extract_lets +onlyGivenNames x
       first
       | (refine Eff.cut F s0 x ?_ ?_; unfold x; clear x; rotate_left; intro _; clear_value x; rotate_left)
       | (refine EffP.cut F s0 x ?_ ?_; unfold x; clear x; rotate_left; intro _; clear_value x; rotate_left)
       | clear_value x)
    | refine State.eccRead_eff ?_ h_rf h_ecc h_kpr h_ldg _
    | refine State.freshen_eff ?_ h_ecc h_kpr _ _
    | refine State.modKpr_eff ?_ h_kpr _
    | refine State.log_eff ?_ h_rf h_ldg _ _ _ _ _ _ _
    | refine State.event_eff ?_ h_rf h_bel _ _
    | refine Eff.foldl ?_ (fun _ _ _ => ?_)
    | refine EffP.fst ?_
    | refine EffP.of_eq (by assumption) ?_
    | refine Eff.ite ?_ ?_
    | split
    | refine Eff.set_mem ?_ h_mem ?_
    | intro _
    | refine Memory.wf_write _ _ ?_
    | refine Memory.wf_writeN _ _ ?_
    | refine Memory.wf_writeLe _ _ _ ?_
    | refine Memory.wf_clear _ _ ?_
    | refine Memory.wf_dropOnDie ?_
    | refine Memory.wf_copy _ _ _ ?_
    | refine RegFile.wf_set _ _ ?_
    | refine RegFile.wf_filter _ ?_

theorem State.moveAgain_eff (h : Eff F s0 s) (h_rf : F .rf = true) (h_cat : F .cat = true) (h_kpr : F .kpr = true) :
    ∀ a1 a2, Eff F s0 (State.moveAgain s a1 a2) := by
  intro a1 a2
  unfold State.moveAgain
  repeat' with_reducible first
    | assumption
    | (extract_lets +onlyGivenNames x
       first
       | (refine Eff.cut F s0 x ?_ ?_; unfold x; clear x; rotate_left; intro _; clear_value x; rotate_left)
       | (refine EffP.cut F s0 x ?_ ?_; unfold x; clear x; rotate_left; intro _; clear_value x; rotate_left)
       | clear_value x)
    | refine State.modKpr_eff ?_ h_kpr _
    | refine State.queueMove_eff ?_ h_kpr _ _ _ _
    | refine State.bringNear_eff ?_ h_kpr _ _ _ _
    | refine State.slipFault_eff ?_ h_rf h_cat _ _ _
    | refine EffP.fst ?_
    | refine EffP.of_eq (by assumption) ?_
    | refine EffP.ite ?_ ?_
    | refine Eff.ite ?_ ?_
    | split
    | refine EffP.mk ?_ _

theorem State.portRun_eff (h : Eff F s0 s) (h_kpr : F .kpr = true) (h_crl : F .crl = true) :
    ∀ a1 a2 a3, Eff F s0 (State.portRun s a1 a2 a3) := by
  intro a1 a2 a3
  induction a3 generalizing s a1 a2 with
  | zero => exact h
  | succ n ih =>
    rw [State.portRun]
    repeat' with_reducible first
      | assumption
      | refine State.grant_eff ?_ h_crl _ _
      | refine State.modKpr_eff ?_ h_kpr _
      | apply ih
      | refine EffP.fst ?_
      | refine EffP.of_eq (by assumption) ?_
      | refine EffP.ite ?_ ?_
      | refine Eff.ite ?_ ?_
      | split
      | refine EffP.mk ?_ _

theorem State.moveFails_eff (h : Eff F s0 s) (h_rf : F .rf = true) (h_cat : F .cat = true) (h_kpr : F .kpr = true) (h_ldg : F .ldg = true) :
    ∀ a1 a2, Eff F s0 (State.moveFails s a1 a2) := by
  intro a1 a2
  unfold State.moveFails
  repeat' with_reducible first
    | assumption
    | (extract_lets +onlyGivenNames x
       first
       | (refine Eff.cut F s0 x ?_ ?_; unfold x; clear x; rotate_left; intro _; clear_value x; rotate_left)
       | (refine EffP.cut F s0 x ?_ ?_; unfold x; clear x; rotate_left; intro _; clear_value x; rotate_left)
       | clear_value x)
    | refine State.log_eff ?_ h_rf h_ldg _ _ _ _ _ _ _
    | refine State.modKpr_eff ?_ h_kpr _
    | refine State.slipFault_eff ?_ h_rf h_cat _ _ _
    | refine Eff.foldl ?_ (fun _ _ _ => ?_)
    | refine EffP.foldl ?_ (fun _ _ _ => ?_)
    | refine EffP.fst ?_
    | refine EffP.of_eq (by assumption) ?_
    | split

theorem State.moveEnds_eff (h : Eff F s0 s) (h_rf : F .rf = true) (h_mem : F .mem = true) (h_ecc : F .ecc = true) (h_cat : F .cat = true) (h_kpr : F .kpr = true) (h_bel : F .bel = true) (h_ldg : F .ldg = true) :
    ∀ a1 a2, Eff F s0 (State.moveEnds s a1 a2) := by
  intro a1 a2
  unfold State.moveEnds
  repeat' with_reducible first
    | assumption
    | (extract_lets +onlyGivenNames x
       first
       | (refine Eff.cut F s0 x ?_ ?_; unfold x; clear x; rotate_left; intro _; clear_value x; rotate_left)
       | (refine EffP.cut F s0 x ?_ ?_; unfold x; clear x; rotate_left; intro _; clear_value x; rotate_left)
       | clear_value x)
    | refine State.copyLeaf_eff ?_ h_rf h_mem h_ecc h_kpr h_bel h_ldg _ _ _
    | refine State.modLeaf_eff ?_ h_kpr _ _ _
    | refine State.modSlip_eff ?_ h_cat _ _
    | refine Eff.ite ?_ ?_
    | split

theorem State.moveDone_eff (h : Eff F s0 s) (h_rf : F .rf = true) (h_mem : F .mem = true) (h_ecc : F .ecc = true) (h_cat : F .cat = true) (h_kpr : F .kpr = true) (h_crl : F .crl = true) (h_bel : F .bel = true) (h_ldg : F .ldg = true) :
    ∀ a1 a2, Eff F s0 (State.moveDone s a1 a2) := by
  intro a1 a2
  unfold State.moveDone
  repeat' with_reducible first
    | assumption
    | (extract_lets +onlyGivenNames x
       first
       | (refine Eff.cut F s0 x ?_ ?_; unfold x; clear x; rotate_left; intro _; clear_value x; rotate_left)
       | (refine EffP.cut F s0 x ?_ ?_; unfold x; clear x; rotate_left; intro _; clear_value x; rotate_left)
       | clear_value x)
    | refine State.modKpr_eff ?_ h_kpr _
    | refine State.portRun_eff ?_ h_kpr h_crl _ _ _
    | refine State.moveFails_eff ?_ h_rf h_cat h_kpr h_ldg _ _
    | refine State.moveEnds_eff ?_ h_rf h_mem h_ecc h_cat h_kpr h_bel h_ldg _ _
    | refine Eff.foldl ?_ (fun _ _ _ => ?_)
    | refine EffP.fst ?_
    | refine EffP.of_eq (by assumption) ?_
    | refine Eff.ite ?_ ?_
    | split

theorem State.startGrants_eff (h : Eff F s0 s) (h_crl : F .crl = true) :
    ∀ a1 a2, EffO F s0 (State.startGrants s a1 a2) := by
  intro a1 a2
  induction a2 generalizing s a1 with
  | nil => exact EffO.some h
  | cons q qs ih =>
    rw [State.startGrants]
    repeat' with_reducible first
      | assumption
      | refine State.grant_eff ?_ h_crl _ _
      | apply ih
      | exact EffO.none
      | refine EffO.some ?_
      | refine EffO.map (fun _ => ?_)
      | refine EffP.fst ?_
      | refine EffP.of_eq (by assumption) ?_
      | refine EffP.ite ?_ ?_
      | refine Eff.ite ?_ ?_
      | refine EffO.ite ?_ ?_
      | split
      | refine EffP.mk ?_ _

theorem State.moveStart_eff (h : Eff F s0 s) (h_rf : F .rf = true) (h_cat : F .cat = true) (h_kpr : F .kpr = true) (h_crl : F .crl = true) :
    ∀ a1, Eff F s0 (State.moveStart s a1) := by
  intro a1
  unfold State.moveStart
  repeat' with_reducible first
    | assumption
    | refine State.moveAgain_eff ?_ h_rf h_cat h_kpr _ _
    | refine State.startGrants_eff ?_ h_crl _ _
    | refine State.modKpr_eff ?_ h_kpr _
    | refine EffO.of_eq (by assumption) ?_
    | refine Eff.ite ?_ ?_
    | refine EffO.ite ?_ ?_
    | split

theorem State.prefetchPlans_eff (h : Eff F s0 s) (h_kpr : F .kpr = true) :
    ∀ a1, Eff F s0 (State.prefetchPlans s a1) := by
  intro a1
  unfold State.prefetchPlans
  repeat' with_reducible first
    | assumption
    | refine State.bringNear_eff ?_ h_kpr _ _ _ _
    | refine Eff.foldl ?_ (fun _ _ _ => ?_)
    | refine EffP.foldl ?_ (fun _ _ _ => ?_)
    | refine EffP.fst ?_
    | refine EffP.of_eq (by assumption) ?_
    | refine EffP.ite ?_ ?_
    | refine Eff.ite ?_ ?_
    | split
    | refine EffP.mk ?_ _

theorem State.quotaMove_eff (h : Eff F s0 s) (h_kpr : F .kpr = true) :
    ∀ a1, Eff F s0 (State.quotaMove s a1) := by
  intro a1
  unfold State.quotaMove
  repeat' with_reducible first
    | assumption
    | refine State.sendHome_eff ?_ h_kpr _ _ _
    | refine State.queueMove_eff ?_ h_kpr _ _ _ _
    | refine EffP.fst ?_
    | refine EffP.of_eq (by assumption) ?_
    | refine Eff.ite ?_ ?_
    | split

theorem State.quotaMoves_eff (h : Eff F s0 s) (h_kpr : F .kpr = true) :
    ∀ a1 a2, Eff F s0 (State.quotaMoves s a1 a2) := by
  intro a1 a2
  induction a2 generalizing s a1 with
  | nil => exact h
  | cons q qs ih =>
    rw [State.quotaMoves]
    repeat' with_reducible first
      | assumption
      | refine State.quotaMove_eff ?_ h_kpr _
      | apply ih
      | refine Eff.ite ?_ ?_
      | split

theorem State.quotaEviction_eff (h : Eff F s0 s) (h_kpr : F .kpr = true) :
    Eff F s0 (State.quotaEviction s) := by
  unfold State.quotaEviction
  repeat' with_reducible first
    | assumption
    | (extract_lets +onlyGivenNames x
       first
       | (refine Eff.cut F s0 x ?_ ?_; unfold x; clear x; rotate_left; intro _; clear_value x; rotate_left)
       | (refine EffP.cut F s0 x ?_ ?_; unfold x; clear x; rotate_left; intro _; clear_value x; rotate_left)
       | clear_value x)
    | refine State.overSettle_eff ?_ h_kpr
    | refine State.quotaMoves_eff ?_ h_kpr _ _
    | refine Eff.foldl ?_ (fun _ _ _ => ?_)
    | refine EffP.fst ?_
    | refine EffP.of_eq (by assumption) ?_
    | refine Eff.ite ?_ ?_
    | split

theorem execLeafMoveStart_eff (h : Eff F s0 s) (h_rf : F .rf = true) (h_cat : F .cat = true) (h_kpr : F .kpr = true) (h_crl : F .crl = true) :
    ∀ a0, EffX F s0 (execLeafMoveStart a0 s) := by
  intro a0
  unfold execLeafMoveStart
  repeat' with_reducible first
    | assumption
    | refine State.moveStart_eff ?_ h_rf h_cat h_kpr h_crl _
    | refine EffX.next ?_
    | refine Eff.ite ?_ ?_
    | refine EffX.ite ?_ ?_
    | split

end Sys2Proof.Machine
end

