-- ==== Sys2Proof/Laws/FrameShelver.lean ====
section
/-! SUPPORT. Frames of the operations of Machine/Shelver.lean: what each may change. -/

namespace Sys2Proof.Machine

variable {F : Comp → Bool} {s0 s : State}

theorem State.endPlacing_eff (h : Eff F s0 s) (h_rf : F .rf = true) (h_cat : F .cat = true) :
    ∀ a1 a2, Eff F s0 (State.endPlacing s a1 a2) := by
  intro a1 a2
  unfold State.endPlacing
  repeat' with_reducible first
    | assumption
    | refine State.modSlip_eff ?_ h_cat _ _
    | refine State.slipFault_eff ?_ h_rf h_cat _ _ _
    | split

theorem State.tellHeld_eff (h : Eff F s0 s) (h_rf : F .rf = true) (h_cat : F .cat = true) (h_bel : F .bel = true) (h_ldg : F .ldg = true) :
    ∀ a1 a2 a3, Eff F s0 (State.tellHeld s a1 a2 a3) := by
  intro a1 a2 a3
  unfold State.tellHeld
  repeat' with_reducible first
    | assumption
    | refine State.modSlip_eff ?_ h_cat _ _
    | refine State.log_eff ?_ h_rf h_ldg _ _ _ _ _ _ _
    | refine State.event_eff ?_ h_rf h_bel _ _
    | refine Eff.ite ?_ ?_
    | split

theorem State.starve_eff (h : Eff F s0 s) (h_rf : F .rf = true) (h_cat : F .cat = true) (h_bel : F .bel = true) (h_ldg : F .ldg = true) :
    ∀ a1 a2 a3, Eff F s0 (State.starve s a1 a2 a3) := by
  intro a1 a2 a3
  unfold State.starve
  repeat' with_reducible first
    | assumption
    | (extract_lets +onlyGivenNames x
       first
       | (refine Eff.cut F s0 x ?_ ?_; unfold x; clear x; rotate_left; intro _; clear_value x; rotate_left)
       | (refine EffP.cut F s0 x ?_ ?_; unfold x; clear x; rotate_left; intro _; clear_value x; rotate_left)
       | clear_value x)
    | refine State.setSlip_eff ?_ h_cat _ _
    | refine State.log_eff ?_ h_rf h_ldg _ _ _ _ _ _ _
    | refine State.countSat_eff ?_ h_rf _ _ _ _
    | refine State.event_eff ?_ h_rf h_bel _ _
    | refine Eff.ite ?_ ?_
    | split
    | refine Eff.set_cat ?_ h_cat

theorem State.cutoffLaunch_eff (h : Eff F s0 s) (h_rf : F .rf = true) (h_cir : F .cir = true) (h_cat : F .cat = true) (h_bel : F .bel = true) (h_ldg : F .ldg = true) :
    ∀ a1 a2, EffP F s0 (State.cutoffLaunch s a1 a2) := by
  intro a1 a2
  unfold State.cutoffLaunch
  repeat' with_reducible first
    | assumption
    | (extract_lets +onlyGivenNames x
       first
       | (refine Eff.cut F s0 x ?_ ?_; unfold x; clear x; rotate_left; intro _; clear_value x; rotate_left)
       | (refine EffP.cut F s0 x ?_ ?_; unfold x; clear x; rotate_left; intro _; clear_value x; rotate_left)
       | clear_value x)
    | refine State.retire_eff ?_ h_rf h_cir h_cat _ _ _
    | refine State.endPlacing_eff ?_ h_rf h_cat _ _
    | refine State.tellHeld_eff ?_ h_rf h_cat h_bel h_ldg _ _ _
    | refine State.starve_eff ?_ h_rf h_cat h_bel h_ldg _ _ _
    | refine State.setSlip_eff ?_ h_cat _ _
    | refine EffP.ite ?_ ?_
    | refine Eff.ite ?_ ?_
    | split
    | refine EffP.mk ?_ _

theorem State.cutoffLaunches_eff (h : Eff F s0 s) (h_rf : F .rf = true) (h_cir : F .cir = true) (h_cat : F .cat = true) (h_bel : F .bel = true) (h_ldg : F .ldg = true) :
    ∀ a1 a2, EffP F s0 (State.cutoffLaunches s a1 a2) := by
  intro a1 a2
  induction a2 generalizing s a1 with
  | nil => exact EffP.mk h _
  | cons q qs ih =>
    rw [State.cutoffLaunches]
    repeat' with_reducible first
      | assumption
      | refine State.cutoffLaunch_eff ?_ h_rf h_cir h_cat h_bel h_ldg _ _
      | apply ih
      | refine EffP.fst ?_
      | refine EffP.of_eq (by assumption) ?_
      | split
      | refine EffP.mk ?_ _

theorem State.tellOverfull_eff (h : Eff F s0 s) (h_rf : F .rf = true) (h_bel : F .bel = true) (h_ldg : F .ldg = true) :
    ∀ a1 a2, Eff F s0 (State.tellOverfull s a1 a2) := by
  intro a1 a2
  unfold State.tellOverfull
  repeat' with_reducible first
    | assumption
    | refine State.log_eff ?_ h_rf h_ldg _ _ _ _ _ _ _
    | refine State.event_eff ?_ h_rf h_bel _ _
    | refine Eff.foldl ?_ (fun _ _ _ => ?_)
    | refine EffP.fst ?_
    | refine EffP.of_eq (by assumption) ?_
    | split

theorem State.cutoffRoom_eff (h : Eff F s0 s) (h_rf : F .rf = true) (h_cir : F .cir = true) (h_cat : F .cat = true) (h_bel : F .bel = true) (h_ldg : F .ldg = true) :
    ∀ a1, EffP F s0 (State.cutoffRoom s a1) := by
  intro a1
  unfold State.cutoffRoom
  repeat' with_reducible first
    | assumption
    | (extract_lets +onlyGivenNames x
       first
       | (refine Eff.cut F s0 x ?_ ?_; unfold x; clear x; rotate_left; intro _; clear_value x; rotate_left)
       | (refine EffP.cut F s0 x ?_ ?_; unfold x; clear x; rotate_left; intro _; clear_value x; rotate_left)
       | clear_value x)
    | refine State.tellOverfull_eff ?_ h_rf h_bel h_ldg _ _
    | refine State.cutoffLaunches_eff ?_ h_rf h_cir h_cat h_bel h_ldg _ _
    | refine State.setField_eff ?_ h_rf _ _ _ _
    | refine EffP.fst ?_
    | refine EffP.of_eq (by assumption) ?_
    | split
    | refine EffP.mk ?_ _

theorem State.cutoffRooms_eff (h : Eff F s0 s) (h_rf : F .rf = true) (h_cir : F .cir = true) (h_cat : F .cat = true) (h_bel : F .bel = true) (h_ldg : F .ldg = true) :
    ∀ a1, EffP F s0 (State.cutoffRooms s a1) := by
  intro a1
  induction a1 generalizing s with
  | nil => exact EffP.mk h _
  | cons q qs ih =>
    rw [State.cutoffRooms]
    repeat' with_reducible first
      | assumption
      | refine State.cutoffRoom_eff ?_ h_rf h_cir h_cat h_bel h_ldg _
      | apply ih
      | refine EffP.fst ?_
      | refine EffP.of_eq (by assumption) ?_
      | split
      | refine EffP.mk ?_ _

theorem State.draftPrefetch_eff (h : Eff F s0 s) (h_kpr : F .kpr = true) :
    ∀ a1, Eff F s0 (State.draftPrefetch s a1) := by
  intro a1
  unfold State.draftPrefetch
  repeat' with_reducible first
    | assumption
    | refine State.prefetchPlans_eff ?_ h_kpr _
    | refine Eff.ite ?_ ?_
    | split

theorem State.nameLeaves_eff (h : Eff F s0 s) (h_kpr : F .kpr = true) :
    ∀ a1, Eff F s0 (State.nameLeaves s a1) := by
  intro a1
  unfold State.nameLeaves
  repeat' with_reducible first
    | assumption
    | refine State.modLeaf_eff ?_ h_kpr _ _ _
    | refine Eff.foldl ?_ (fun _ _ _ => ?_)
    | refine EffP.fst ?_
    | refine EffP.of_eq (by assumption) ?_
    | split

theorem State.freeze_eff (h : Eff F s0 s) (h_rf : F .rf = true) (h_shelves : F .shelves = true) (h_kpr : F .kpr = true) :
    ∀ a1 a2, Eff F s0 (State.freeze s a1 a2) := by
  intro a1 a2
  unfold State.freeze
  repeat' with_reducible first
    | assumption
    | (extract_lets +onlyGivenNames x
       first
       | (refine Eff.cut F s0 x ?_ ?_; unfold x; clear x; rotate_left; intro _; clear_value x; rotate_left)
       | (refine EffP.cut F s0 x ?_ ?_; unfold x; clear x; rotate_left; intro _; clear_value x; rotate_left)
       | clear_value x)
    | refine State.setShelf_eff ?_ h_shelves _ _
    | refine State.setReg_eff ?_ h_rf _ _
    | refine State.prefetchPlans_eff ?_ h_kpr _
    | refine State.nameLeaves_eff ?_ h_kpr _
    | refine Eff.foldl ?_ (fun _ _ _ => ?_)
    | refine EffP.foldl ?_ (fun _ _ _ => ?_)
    | refine EffP.fst ?_
    | refine EffP.of_eq (by assumption) ?_
    | split

theorem State.planCutoff_eff (h : Eff F s0 s) (h_rf : F .rf = true) (h_ecc : F .ecc = true) (h_stp : F .stp = true) (h_cir : F .cir = true) (h_cat : F .cat = true) (h_bind : F .bind = true) (h_shelves : F .shelves = true) (h_kpr : F .kpr = true) (h_bel : F .bel = true) (h_ldg : F .ldg = true) (h_obs : F .obs = true) :
    Eff F s0 (State.planCutoff s) := by
  unfold State.planCutoff
  repeat' with_reducible first
    | assumption
    | (extract_lets +onlyGivenNames x
       first
       | (refine Eff.cut F s0 x ?_ ?_; unfold x; clear x; rotate_left; intro _; clear_value x; rotate_left)
       | (refine EffP.cut F s0 x ?_ ?_; unfold x; clear x; rotate_left; intro _; clear_value x; rotate_left)
       | clear_value x)
    | refine State.advance_eff ?_ h_stp h_shelves h_ldg h_obs _
    | refine State.overrunDue_eff ?_ h_rf h_cat h_shelves h_ldg _
    | refine State.modKpr_eff ?_ h_kpr _
    | refine State.settle_eff ?_ h_rf h_ecc h_cir h_cat h_bind h_kpr h_bel h_ldg h_obs
    | refine State.cutoffRooms_eff ?_ h_rf h_cir h_cat h_bel h_ldg _
    | refine State.freeze_eff ?_ h_rf h_shelves h_kpr _ _
    | refine Eff.foldl ?_ (fun _ _ _ => ?_)
    | refine EffP.foldl ?_ (fun _ _ _ => ?_)
    | refine EffP.fst ?_
    | refine EffP.of_eq (by assumption) ?_
    | refine EffP.ite ?_ ?_
    | refine Eff.ite ?_ ?_
    | split
    | refine Eff.set_stp ?_ h_stp
    | refine EffP.mk ?_ _

theorem State.planDelivery_eff (h : Eff F s0 s) (h_rf : F .rf = true) (h_stp : F .stp = true) (h_shelves : F .shelves = true) (h_ldg : F .ldg = true) (h_obs : F .obs = true) :
    Eff F s0 (State.planDelivery s) := by
  unfold State.planDelivery
  repeat' with_reducible first
    | assumption
    | (extract_lets +onlyGivenNames x
       first
       | (refine Eff.cut F s0 x ?_ ?_; unfold x; clear x; rotate_left; intro _; clear_value x; rotate_left)
       | (refine EffP.cut F s0 x ?_ ?_; unfold x; clear x; rotate_left; intro _; clear_value x; rotate_left)
       | clear_value x)
    | refine State.advance_eff ?_ h_stp h_shelves h_ldg h_obs _
    | refine State.shelfNext_eff ?_ h_rf h_shelves _
    | refine State.setShelf_eff ?_ h_shelves _ _
    | refine Eff.foldl ?_ (fun _ _ _ => ?_)
    | refine EffP.fst ?_
    | refine EffP.of_eq (by assumption) ?_
    | split

theorem execPlanCutoff_eff (h : Eff F s0 s) (h_rf : F .rf = true) (h_ecc : F .ecc = true) (h_stp : F .stp = true) (h_cir : F .cir = true) (h_cat : F .cat = true) (h_bind : F .bind = true) (h_shelves : F .shelves = true) (h_kpr : F .kpr = true) (h_bel : F .bel = true) (h_ldg : F .ldg = true) (h_obs : F .obs = true) :
    EffX F s0 (execPlanCutoff s) := by
  unfold execPlanCutoff
  repeat' with_reducible first
    | assumption
    | refine State.planCutoff_eff ?_ h_rf h_ecc h_stp h_cir h_cat h_bind h_shelves h_kpr h_bel h_ldg h_obs
    | refine EffX.next ?_
    | refine Eff.ite ?_ ?_
    | refine EffX.ite ?_ ?_
    | split

theorem execPlanDelivery_eff (h : Eff F s0 s) (h_rf : F .rf = true) (h_stp : F .stp = true) (h_shelves : F .shelves = true) (h_ldg : F .ldg = true) (h_obs : F .obs = true) :
    EffX F s0 (execPlanDelivery s) := by
  unfold execPlanDelivery
  repeat' with_reducible first
    | assumption
    | refine State.planDelivery_eff ?_ h_rf h_stp h_shelves h_ldg h_obs
    | refine EffX.next ?_
    | refine Eff.ite ?_ ?_
    | refine EffX.ite ?_ ?_
    | split

end Sys2Proof.Machine
end

