-- ==== Sys2Proof/Laws/FrameCatalogue.lean ====
section
/-! SUPPORT. Frames of the operations of Machine/Catalogue.lean: what each may change. -/

namespace Sys2Proof.Machine

variable {F : Comp → Bool} {s0 s : State}

theorem State.captureStall_eff (h : Eff F s0 s) (h_freeCtr : F .freeCtr = true) (h_rf : F .rf = true) (h_cat : F .cat = true) :
    ∀ a1, Eff F s0 (State.captureStall s a1) := by
  intro a1
  unfold State.captureStall
  repeat' with_reducible first
    | assumption
    | (extract_lets +onlyGivenNames x
       first
       | (refine Eff.cut F s0 x ?_ ?_; unfold x; clear x; rotate_left; intro _; clear_value x; rotate_left)
       | (refine EffP.cut F s0 x ?_ ?_; unfold x; clear x; rotate_left; intro _; clear_value x; rotate_left)
       | clear_value x)
    | refine State.capture_eff ?_ h_rf h_cat _ _ _ _
    | refine State.draw_eff ?_ h_freeCtr _
    | refine Eff.ite ?_ ?_
    | split

theorem State.goneSettle_eff (h : Eff F s0 s) (h_kpr : F .kpr = true) :
    Eff F s0 (State.goneSettle s) := by
  unfold State.goneSettle
  repeat' with_reducible first
    | assumption
    | (extract_lets +onlyGivenNames x
       first
       | (refine Eff.cut F s0 x ?_ ?_; unfold x; clear x; rotate_left; intro _; clear_value x; rotate_left)
       | (refine EffP.cut F s0 x ?_ ?_; unfold x; clear x; rotate_left; intro _; clear_value x; rotate_left)
       | clear_value x)
    | refine State.modKpr_eff ?_ h_kpr _
    | refine Eff.ite ?_ ?_
    | split

theorem State.stopSlip_eff (h : Eff F s0 s) (h_rf : F .rf = true) (h_mem : F .mem = true) (h_ecc : F .ecc = true) (h_cir : F .cir = true) (h_cat : F .cat = true) (h_shelves : F .shelves = true) (h_kpr : F .kpr = true) (h_iln : F .iln = true) (h_bel : F .bel = true) (h_ldg : F .ldg = true) (h_pwr : F .pwr = true) (h_obs : F .obs = true) :
    ∀ a1 a2, Eff F s0 (State.stopSlip s a1 a2) := by
  intro a1 a2
  unfold State.stopSlip
  repeat' with_reducible first
    | assumption
    | (extract_lets +onlyGivenNames x
       first
       | (refine Eff.cut F s0 x ?_ ?_; unfold x; clear x; rotate_left; intro _; clear_value x; rotate_left)
       | (refine EffP.cut F s0 x ?_ ?_; unfold x; clear x; rotate_left; intro _; clear_value x; rotate_left)
       | clear_value x)
    | refine State.discardSlip_eff ?_ h_rf h_mem h_ecc h_cir h_cat h_shelves h_iln h_bel h_ldg h_pwr h_obs _ _
    | refine State.modIln_eff ?_ h_iln _
    | refine State.modKpr_eff ?_ h_kpr _
    | refine Eff.foldl ?_ (fun _ _ _ => ?_)
    | refine EffP.foldl ?_ (fun _ _ _ => ?_)
    | refine EffP.fst ?_
    | refine EffP.of_eq (by assumption) ?_
    | refine Eff.ite ?_ ?_
    | split

theorem State.abandon_eff (h : Eff F s0 s) (h_freeCtr : F .freeCtr = true) (h_rf : F .rf = true) (h_mem : F .mem = true) (h_ecc : F .ecc = true) (h_cir : F .cir = true) (h_cat : F .cat = true) (h_bind : F .bind = true) (h_shelves : F .shelves = true) (h_kpr : F .kpr = true) (h_iln : F .iln = true) (h_bel : F .bel = true) (h_ldg : F .ldg = true) (h_pwr : F .pwr = true) (h_obs : F .obs = true) :
    ∀ a1 a2, Eff F s0 (State.abandon s a1 a2) := by
  intro a1 a2
  unfold State.abandon
  repeat' with_reducible first
    | assumption
    | refine State.modSlip_eff ?_ h_cat _ _
    | refine State.captureStall_eff ?_ h_freeCtr h_rf h_cat _
    | refine State.goneSettle_eff ?_ h_kpr
    | refine State.finish_eff ?_ h_rf h_ecc h_cir h_cat h_bind h_kpr h_bel h_ldg h_obs _ _
    | refine State.stopSlip_eff ?_ h_rf h_mem h_ecc h_cir h_cat h_shelves h_kpr h_iln h_bel h_ldg h_pwr h_obs _ _
    | refine Eff.ite ?_ ?_
    | split

theorem State.cancel_eff (h : Eff F s0 s) (h_rf : F .rf = true) (h_ecc : F .ecc = true) (h_cir : F .cir = true) (h_cat : F .cat = true) (h_bind : F .bind = true) (h_kpr : F .kpr = true) (h_bel : F .bel = true) (h_ldg : F .ldg = true) (h_obs : F .obs = true) :
    ∀ a1, Eff F s0 (State.cancel s a1) := by
  intro a1
  unfold State.cancel
  repeat' with_reducible first
    | assumption
    | (extract_lets +onlyGivenNames x
       first
       | (refine Eff.cut F s0 x ?_ ?_; unfold x; clear x; rotate_left; intro _; clear_value x; rotate_left)
       | (refine EffP.cut F s0 x ?_ ?_; unfold x; clear x; rotate_left; intro _; clear_value x; rotate_left)
       | clear_value x)
    | refine State.retire_eff ?_ h_rf h_cir h_cat _ _ _
    | refine State.settle_eff ?_ h_rf h_ecc h_cir h_cat h_bind h_kpr h_bel h_ldg h_obs
    | refine State.setReg_eff ?_ h_rf _ _
    | refine Eff.foldl ?_ (fun _ _ _ => ?_)
    | refine EffP.fst ?_
    | refine EffP.of_eq (by assumption) ?_
    | refine Eff.ite ?_ ?_
    | split

theorem State.cancelCarrel_eff (h : Eff F s0 s) (h_rf : F .rf = true) (h_ecc : F .ecc = true) (h_cir : F .cir = true) (h_cat : F .cat = true) (h_bind : F .bind = true) (h_kpr : F .kpr = true) (h_bel : F .bel = true) (h_ldg : F .ldg = true) (h_obs : F .obs = true) :
    ∀ a1, Eff F s0 (State.cancelCarrel s a1) := by
  intro a1
  unfold State.cancelCarrel
  repeat' with_reducible first
    | assumption
    | refine State.cancel_eff ?_ h_rf h_ecc h_cir h_cat h_bind h_kpr h_bel h_ldg h_obs _
    | split

theorem State.cancelRing_eff (h : Eff F s0 s) (h_rf : F .rf = true) (h_ecc : F .ecc = true) (h_cir : F .cir = true) (h_cat : F .cat = true) (h_bind : F .bind = true) (h_kpr : F .kpr = true) (h_bel : F .bel = true) (h_ldg : F .ldg = true) (h_obs : F .obs = true) :
    ∀ a1, Eff F s0 (State.cancelRing s a1) := by
  intro a1
  unfold State.cancelRing
  repeat' with_reducible first
    | assumption
    | refine State.cancel_eff ?_ h_rf h_ecc h_cir h_cat h_bind h_kpr h_bel h_ldg h_obs _
    | split

theorem State.cancelTag_eff (h : Eff F s0 s) (h_rf : F .rf = true) (h_ecc : F .ecc = true) (h_cir : F .cir = true) (h_cat : F .cat = true) (h_bind : F .bind = true) (h_kpr : F .kpr = true) (h_bel : F .bel = true) (h_ldg : F .ldg = true) (h_obs : F .obs = true) :
    ∀ a1 a2, Eff F s0 (State.cancelTag s a1 a2) := by
  intro a1 a2
  unfold State.cancelTag
  repeat' with_reducible first
    | assumption
    | refine State.cancel_eff ?_ h_rf h_ecc h_cir h_cat h_bind h_kpr h_bel h_ldg h_obs _
    | split

theorem State.imageSlot_eff (h : Eff F s0 s) (h_rf : F .rf = true) (h_ecc : F .ecc = true) :
    ∀ a1 a2 a3, EffP F s0 (State.imageSlot s a1 a2 a3) := by
  intro a1 a2 a3
  unfold State.imageSlot
  repeat' with_reducible first
    | assumption
    | refine State.eccShelfRead_eff ?_ h_rf h_ecc _ _ _ _
    | refine EffP.fst ?_
    | refine EffP.of_eq (by assumption) ?_
    | split
    | refine EffP.mk ?_ _

theorem State.imageSlots_eff (h : Eff F s0 s) (h_rf : F .rf = true) (h_ecc : F .ecc = true) :
    ∀ a1 a2 a3 a4, EffP F s0 (State.imageSlots s a1 a2 a3 a4) := by
  intro a1 a2 a3 a4
  induction a4 generalizing s a1 a2 a3 with
  | zero => exact EffP.mk h _
  | succ n ih =>
    rw [State.imageSlots]
    repeat' with_reducible first
      | assumption
      | refine State.imageSlot_eff ?_ h_rf h_ecc _ _ _
      | apply ih
      | refine EffP.fst ?_
      | refine EffP.of_eq (by assumption) ?_
      | split
      | refine EffP.mk ?_ _

theorem State.noProgress_eff (h : Eff F s0 s) (h_freeCtr : F .freeCtr = true) (h_rf : F .rf = true) (h_mem : F .mem = true) (h_ecc : F .ecc = true) (h_cir : F .cir = true) (h_cat : F .cat = true) (h_bind : F .bind = true) (h_shelves : F .shelves = true) (h_kpr : F .kpr = true) (h_iln : F .iln = true) (h_bel : F .bel = true) (h_ldg : F .ldg = true) (h_pwr : F .pwr = true) (h_obs : F .obs = true) :
    ∀ a1 a2, Eff F s0 (State.noProgress s a1 a2) := by
  intro a1 a2
  unfold State.noProgress
  repeat' with_reducible first
    | assumption
    | (extract_lets +onlyGivenNames x
       first
       | (refine Eff.cut F s0 x ?_ ?_; unfold x; clear x; rotate_left; intro _; clear_value x; rotate_left)
       | (refine EffP.cut F s0 x ?_ ?_; unfold x; clear x; rotate_left; intro _; clear_value x; rotate_left)
       | clear_value x)
    | refine State.modSlip_eff ?_ h_cat _ _
    | refine State.bell_eff ?_ h_bel _ _
    | refine State.log_eff ?_ h_rf h_ldg _ _ _ _ _ _ _
    | refine State.setRegBit_eff ?_ h_rf _ _ _
    | refine State.abandon_eff ?_ h_freeCtr h_rf h_mem h_ecc h_cir h_cat h_bind h_shelves h_kpr h_iln h_bel h_ldg h_pwr h_obs _ _
    | refine Eff.ite ?_ ?_
    | split

theorem State.noProgressDue_eff (h : Eff F s0 s) (h_freeCtr : F .freeCtr = true) (h_rf : F .rf = true) (h_mem : F .mem = true) (h_ecc : F .ecc = true) (h_cir : F .cir = true) (h_cat : F .cat = true) (h_bind : F .bind = true) (h_shelves : F .shelves = true) (h_kpr : F .kpr = true) (h_iln : F .iln = true) (h_bel : F .bel = true) (h_ldg : F .ldg = true) (h_pwr : F .pwr = true) (h_obs : F .obs = true) :
    Eff F s0 (State.noProgressDue s) := by
  unfold State.noProgressDue
  repeat' with_reducible first
    | assumption
    | refine State.noProgress_eff ?_ h_freeCtr h_rf h_mem h_ecc h_cir h_cat h_bind h_shelves h_kpr h_iln h_bel h_ldg h_pwr h_obs _ _
    | refine Eff.foldl ?_ (fun _ _ _ => ?_)
    | refine EffP.foldl ?_ (fun _ _ _ => ?_)
    | refine EffP.fst ?_
    | refine EffP.of_eq (by assumption) ?_
    | split

theorem State.tableError_eff (h : Eff F s0 s) (h_rf : F .rf = true) (h_ldg : F .ldg = true) :
    ∀ a1 a2 a3, EffP F s0 (State.tableError s a1 a2 a3) := by
  intro a1 a2 a3
  unfold State.tableError
  repeat' with_reducible first
    | assumption
    | refine State.log_eff ?_ h_rf h_ldg _ _ _ _ _ _ _
    | split
    | refine EffP.mk ?_ _

theorem State.resolveCalls_eff (h : Eff F s0 s) (h_rf : F .rf = true) (h_ecc : F .ecc = true) (h_kpr : F .kpr = true) (h_bel : F .bel = true) (h_ldg : F .ldg = true) (h_obs : F .obs = true) :
    ∀ a1 a2, EffP F s0 (State.resolveCalls s a1 a2) := by
  intro a1 a2
  induction a2 generalizing s a1 with
  | nil => exact EffP.mk h _
  | cons q qs ih =>
    rw [State.resolveCalls]
    repeat' with_reducible first
      | assumption
      | (extract_lets +onlyGivenNames x
         first
         | (refine Eff.cut F s0 x ?_ ?_; unfold x; clear x; rotate_left; intro _; clear_value x; rotate_left)
         | (refine EffP.cut F s0 x ?_ ?_; unfold x; clear x; rotate_left; intro _; clear_value x; rotate_left)
         | clear_value x)
      | refine State.readFor_eff ?_ h_rf h_ecc h_kpr h_bel h_ldg h_obs _ _ _ _
      | apply ih
      | refine EffP.fst ?_
      | refine EffP.of_eq (by assumption) ?_
      | refine EffP.ite ?_ ?_
      | refine Eff.ite ?_ ?_
      | split
      | refine EffP.mk ?_ _

theorem State.readKernel_eff (h : Eff F s0 s) (h_rf : F .rf = true) (h_ecc : F .ecc = true) (h_kpr : F .kpr = true) (h_bel : F .bel = true) (h_ldg : F .ldg = true) (h_obs : F .obs = true) :
    ∀ a1, EffP F s0 (State.readKernel s a1) := by
  intro a1
  unfold State.readKernel
  repeat' with_reducible first
    | assumption
    | (extract_lets +onlyGivenNames x
       first
       | (refine Eff.cut F s0 x ?_ ?_; unfold x; clear x; rotate_left; intro _; clear_value x; rotate_left)
       | (refine EffP.cut F s0 x ?_ ?_; unfold x; clear x; rotate_left; intro _; clear_value x; rotate_left)
       | clear_value x)
    | refine State.memRefused_eff ?_ h_rf h_ldg _ _ _
    | refine State.imageSlot_eff ?_ h_rf h_ecc _ _ _
    | refine State.imageSlots_eff ?_ h_rf h_ecc _ _ _ _
    | refine State.tableError_eff ?_ h_rf h_ldg _ _ _
    | refine State.resolveCalls_eff ?_ h_rf h_ecc h_kpr h_bel h_ldg h_obs _ _
    | refine EffP.fst ?_
    | refine EffP.of_eq (by assumption) ?_
    | refine EffP.ite ?_ ?_
    | refine Eff.ite ?_ ?_
    | split
    | refine EffP.mk ?_ _

theorem State.passTableRead_eff (h : Eff F s0 s) (h_rf : F .rf = true) (h_ecc : F .ecc = true) (h_cir : F .cir = true) (h_cat : F .cat = true) (h_bind : F .bind = true) (h_kpr : F .kpr = true) (h_bel : F .bel = true) (h_ldg : F .ldg = true) (h_obs : F .obs = true) :
    ∀ a1 a2, Eff F s0 (State.passTableRead s a1 a2) := by
  intro a1 a2
  unfold State.passTableRead
  repeat' with_reducible first
    | assumption
    | (extract_lets +onlyGivenNames x
       first
       | (refine Eff.cut F s0 x ?_ ?_; unfold x; clear x; rotate_left; intro _; clear_value x; rotate_left)
       | (refine EffP.cut F s0 x ?_ ?_; unfold x; clear x; rotate_left; intro _; clear_value x; rotate_left)
       | clear_value x)
    | refine State.readKernel_eff ?_ h_rf h_ecc h_kpr h_bel h_ldg h_obs _
    | refine State.finish_eff ?_ h_rf h_ecc h_cir h_cat h_bind h_kpr h_bel h_ldg h_obs _ _
    | refine State.setSlip_eff ?_ h_cat _ _
    | refine State.event_eff ?_ h_rf h_bel _ _
    | refine State.draftPrefetch_eff ?_ h_kpr _
    | refine EffP.fst ?_
    | refine EffP.of_eq (by assumption) ?_
    | refine EffP.ite ?_ ?_
    | refine Eff.ite ?_ ?_
    | split
    | refine EffP.mk ?_ _

theorem State.shareWrite_eff (h : Eff F s0 s) (h_rf : F .rf = true) :
    ∀ a1 a2, Eff F s0 (State.shareWrite s a1 a2) := by
  intro a1 a2
  unfold State.shareWrite
  repeat' with_reducible first
    | assumption
    | (extract_lets +onlyGivenNames x
       first
       | (refine Eff.cut F s0 x ?_ ?_; unfold x; clear x; rotate_left; intro _; clear_value x; rotate_left)
       | (refine EffP.cut F s0 x ?_ ?_; unfold x; clear x; rotate_left; intro _; clear_value x; rotate_left)
       | clear_value x)
    | refine State.setRegBit_eff ?_ h_rf _ _ _
    | refine State.setReg_eff ?_ h_rf _ _
    | refine EffP.fst ?_
    | refine EffP.of_eq (by assumption) ?_
    | refine Eff.ite ?_ ?_
    | split

theorem State.snapClear_eff (h : Eff F s0 s) (h_rf : F .rf = true) (h_cat : F .cat = true) :
    ∀ a1, Eff F s0 (State.snapClear s a1) := by
  intro a1
  unfold State.snapClear
  repeat' with_reducible first
    | assumption
    | refine State.setField_eff ?_ h_rf _ _ _ _
    | refine Eff.ite ?_ ?_
    | split
    | refine Eff.set_cat ?_ h_cat

theorem State.stallUpdate_eff (h : Eff F s0 s) (h_cat : F .cat = true) (h_shelves : F .shelves = true) :
    Eff F s0 (State.stallUpdate s) := by
  unfold State.stallUpdate
  repeat' with_reducible first
    | assumption
    | (extract_lets +onlyGivenNames x
       first
       | (refine Eff.cut F s0 x ?_ ?_; unfold x; clear x; rotate_left; intro _; clear_value x; rotate_left)
       | (refine EffP.cut F s0 x ?_ ?_; unfold x; clear x; rotate_left; intro _; clear_value x; rotate_left)
       | clear_value x)
    | refine EffP.fst ?_
    | refine EffP.of_eq (by assumption) ?_
    | refine Eff.ite ?_ ?_
    | split
    | refine Eff.set_cat_shelves ?_ h_cat h_shelves

theorem execCatCancelCarrel_eff (h : Eff F s0 s) (h_rf : F .rf = true) (h_ecc : F .ecc = true) (h_cir : F .cir = true) (h_cat : F .cat = true) (h_bind : F .bind = true) (h_kpr : F .kpr = true) (h_bel : F .bel = true) (h_ldg : F .ldg = true) (h_obs : F .obs = true) :
    ∀ a0, EffX F s0 (execCatCancelCarrel a0 s) := by
  intro a0
  unfold execCatCancelCarrel
  repeat' with_reducible first
    | assumption
    | refine State.cancelCarrel_eff ?_ h_rf h_ecc h_cir h_cat h_bind h_kpr h_bel h_ldg h_obs _
    | refine EffX.next ?_
    | refine Eff.ite ?_ ?_
    | refine EffX.ite ?_ ?_
    | split

theorem execCatCancelRing_eff (h : Eff F s0 s) (h_rf : F .rf = true) (h_ecc : F .ecc = true) (h_cir : F .cir = true) (h_cat : F .cat = true) (h_bind : F .bind = true) (h_kpr : F .kpr = true) (h_bel : F .bel = true) (h_ldg : F .ldg = true) (h_obs : F .obs = true) :
    ∀ a0, EffX F s0 (execCatCancelRing a0 s) := by
  intro a0
  unfold execCatCancelRing
  repeat' with_reducible first
    | assumption
    | refine State.cancelRing_eff ?_ h_rf h_ecc h_cir h_cat h_bind h_kpr h_bel h_ldg h_obs _
    | refine EffX.next ?_
    | refine Eff.ite ?_ ?_
    | refine EffX.ite ?_ ?_
    | split

theorem execCatCancelSlip_eff (h : Eff F s0 s) (h_rf : F .rf = true) (h_ecc : F .ecc = true) (h_cir : F .cir = true) (h_cat : F .cat = true) (h_bind : F .bind = true) (h_kpr : F .kpr = true) (h_bel : F .bel = true) (h_ldg : F .ldg = true) (h_obs : F .obs = true) :
    ∀ a0 a1, EffX F s0 (execCatCancelSlip a0 a1 s) := by
  intro a0 a1
  unfold execCatCancelSlip
  repeat' with_reducible first
    | assumption
    | refine State.cancelTag_eff ?_ h_rf h_ecc h_cir h_cat h_bind h_kpr h_bel h_ldg h_obs _ _
    | refine EffX.next ?_
    | refine Eff.ite ?_ ?_
    | refine EffX.ite ?_ ?_
    | split

theorem execCatShareWrite_eff (h : Eff F s0 s) (h_rf : F .rf = true) :
    ∀ a0 a1, EffX F s0 (execCatShareWrite a0 a1 s) := by
  intro a0 a1
  unfold execCatShareWrite
  repeat' with_reducible first
    | assumption
    | refine State.shareWrite_eff ?_ h_rf _ _
    | refine EffX.next ?_
    | refine Eff.ite ?_ ?_
    | refine EffX.ite ?_ ?_
    | split

theorem execCatSnapClear_eff (h : Eff F s0 s) (h_rf : F .rf = true) (h_cat : F .cat = true) :
    ∀ a0, EffX F s0 (execCatSnapClear a0 s) := by
  intro a0
  unfold execCatSnapClear
  repeat' with_reducible first
    | assumption
    | refine State.snapClear_eff ?_ h_rf h_cat _
    | refine EffX.next ?_
    | refine Eff.ite ?_ ?_
    | refine EffX.ite ?_ ?_
    | split

theorem execNoProgress_eff (h : Eff F s0 s) (h_freeCtr : F .freeCtr = true) (h_rf : F .rf = true) (h_mem : F .mem = true) (h_ecc : F .ecc = true) (h_cir : F .cir = true) (h_cat : F .cat = true) (h_bind : F .bind = true) (h_shelves : F .shelves = true) (h_kpr : F .kpr = true) (h_iln : F .iln = true) (h_bel : F .bel = true) (h_ldg : F .ldg = true) (h_pwr : F .pwr = true) (h_obs : F .obs = true) :
    ∀ a0 a1, EffX F s0 (execNoProgress a0 a1 s) := by
  intro a0 a1
  unfold execNoProgress
  repeat' with_reducible first
    | assumption
    | refine State.noProgress_eff ?_ h_freeCtr h_rf h_mem h_ecc h_cir h_cat h_bind h_shelves h_kpr h_iln h_bel h_ldg h_pwr h_obs _ _
    | refine EffX.next ?_
    | refine Eff.ite ?_ ?_
    | refine EffX.ite ?_ ?_
    | split

theorem execPassTableRead_eff (h : Eff F s0 s) (h_rf : F .rf = true) (h_ecc : F .ecc = true) (h_cir : F .cir = true) (h_cat : F .cat = true) (h_bind : F .bind = true) (h_kpr : F .kpr = true) (h_bel : F .bel = true) (h_ldg : F .ldg = true) (h_obs : F .obs = true) :
    ∀ a0 a1, EffX F s0 (execPassTableRead a0 a1 s) := by
  intro a0 a1
  unfold execPassTableRead
  repeat' with_reducible first
    | assumption
    | refine State.passTableRead_eff ?_ h_rf h_ecc h_cir h_cat h_bind h_kpr h_bel h_ldg h_obs _ _
    | refine EffX.next ?_
    | refine Eff.ite ?_ ?_
    | refine EffX.ite ?_ ?_
    | split

end Sys2Proof.Machine
end

