-- ==== Sys2Proof/Laws/FrameBindery.lean ====
section
/-! SUPPORT. Frames of the operations of Machine/Bindery.lean: what each may change. -/

namespace Sys2Proof.Machine

variable {F : Comp → Bool} {s0 s : State}

theorem State.setJob_eff (h : Eff F s0 s) (h_bind : F .bind = true) :
    ∀ a1 a2, Eff F s0 (State.setJob s a1 a2) := by
  intro a1 a2
  unfold State.setJob
  repeat' with_reducible first
    | assumption
    | refine Eff.ite ?_ ?_
    | split
    | refine Eff.set_bind ?_ h_bind

theorem State.bindFail_eff (h : Eff F s0 s) (h_rf : F .rf = true) (h_ecc : F .ecc = true) (h_cir : F .cir = true) (h_cat : F .cat = true) (h_bind : F .bind = true) (h_kpr : F .kpr = true) (h_bel : F .bel = true) (h_ldg : F .ldg = true) (h_obs : F .obs = true) :
    ∀ a1 a2 a3, Eff F s0 (State.bindFail s a1 a2 a3) := by
  intro a1 a2 a3
  unfold State.bindFail
  repeat' with_reducible first
    | assumption
    | (extract_lets +onlyGivenNames x
       first
       | (refine Eff.cut F s0 x ?_ ?_; unfold x; clear x; rotate_left; intro _; clear_value x; rotate_left)
       | (refine EffP.cut F s0 x ?_ ?_; unfold x; clear x; rotate_left; intro _; clear_value x; rotate_left)
       | clear_value x)
    | refine State.setJob_eff ?_ h_bind _ _
    | refine State.finish_eff ?_ h_rf h_ecc h_cir h_cat h_bind h_kpr h_bel h_ldg h_obs _ _
    | split
    | refine Eff.set_bind ?_ h_bind

theorem State.bindPlace_eff (h : Eff F s0 s) (h_freeCtr : F .freeCtr = true) (h_rf : F .rf = true) (h_mem : F .mem = true) (h_ecc : F .ecc = true) (h_cir : F .cir = true) (h_cat : F .cat = true) (h_bind : F .bind = true) (h_kpr : F .kpr = true) (h_bel : F .bel = true) (h_ldg : F .ldg = true) (h_obs : F .obs = true) :
    ∀ a1 a2 a3 a4, Eff F s0 (State.bindPlace s a1 a2 a3 a4) := by
  intro a1 a2 a3 a4
  unfold State.bindPlace
  repeat' with_reducible first
    | assumption
    | (extract_lets +onlyGivenNames x
       first
       | (refine Eff.cut F s0 x ?_ ?_; unfold x; clear x; rotate_left; intro _; clear_value x; rotate_left)
       | (refine EffP.cut F s0 x ?_ ?_; unfold x; clear x; rotate_left; intro _; clear_value x; rotate_left)
       | clear_value x)
    | refine State.bindFail_eff ?_ h_rf h_ecc h_cir h_cat h_bind h_kpr h_bel h_ldg h_obs _ _ _
    | refine State.setJob_eff ?_ h_bind _ _
    | refine State.writeMem_eff ?_ h_freeCtr h_rf h_mem h_ecc h_kpr h_bel h_ldg h_obs _ _ _ _ _
    | refine Eff.foldl ?_ (fun _ _ _ => ?_)
    | refine EffP.foldl ?_ (fun _ _ _ => ?_)
    | refine EffP.fst ?_
    | refine EffP.of_eq (by assumption) ?_
    | split
    | refine EffP.mk ?_ _

theorem State.accession_eff (h : Eff F s0 s) (h_freeCtr : F .freeCtr = true) (h_rf : F .rf = true) (h_mem : F .mem = true) (h_ecc : F .ecc = true) (h_cir : F .cir = true) (h_cat : F .cat = true) (h_bind : F .bind = true) (h_kpr : F .kpr = true) (h_bel : F .bel = true) (h_ldg : F .ldg = true) (h_obs : F .obs = true) :
    ∀ a1 a2, Eff F s0 (State.accession s a1 a2) := by
  intro a1 a2
  unfold State.accession
  repeat' with_reducible first
    | assumption
    | (extract_lets +onlyGivenNames x
       first
       | (refine Eff.cut F s0 x ?_ ?_; unfold x; clear x; rotate_left; intro _; clear_value x; rotate_left)
       | (refine EffP.cut F s0 x ?_ ?_; unfold x; clear x; rotate_left; intro _; clear_value x; rotate_left)
       | clear_value x)
    | refine State.bindFail_eff ?_ h_rf h_ecc h_cir h_cat h_bind h_kpr h_bel h_ldg h_obs _ _ _
    | refine State.readFor_eff ?_ h_rf h_ecc h_kpr h_bel h_ldg h_obs _ _ _ _
    | refine State.bindPlace_eff ?_ h_freeCtr h_rf h_mem h_ecc h_cir h_cat h_bind h_kpr h_bel h_ldg h_obs _ _ _ _
    | refine EffP.fst ?_
    | refine EffP.of_eq (by assumption) ?_
    | refine EffP.ite ?_ ?_
    | refine Eff.ite ?_ ?_
    | split
    | refine EffP.mk ?_ _

theorem State.onShelves_eff (h : Eff F s0 s) (f0 : State → Nat → State × Option Sys2Proof.Code) (h_f0 : ∀ y0, Eff F s0 y0 → ∀ y1, EffP F s0 (f0 y0 y1)) :
    ∀ a2, EffP F s0 (State.onShelves f0 s a2) := by
  intro a2
  unfold State.onShelves
  repeat' with_reducible first
    | assumption
    | refine h_f0 _ ?_ _
    | refine Eff.foldl ?_ (fun _ _ _ => ?_)
    | refine EffP.foldl ?_ (fun _ _ _ => ?_)
    | refine EffP.fst ?_
    | refine EffP.of_eq (by assumption) ?_
    | split
    | refine EffP.mk ?_ _

theorem State.loadFromCopy_eff (h : Eff F s0 s) (h_rf : F .rf = true) (h_mem : F .mem = true) (h_ecc : F .ecc = true) (h_kpr : F .kpr = true) (h_bel : F .bel = true) (h_ldg : F .ldg = true) (h_obs : F .obs = true) :
    ∀ a1 a2 a3, EffP F s0 (State.loadFromCopy s a1 a2 a3) := by
  intro a1 a2 a3
  unfold State.loadFromCopy
  repeat' with_reducible first
    | assumption
    | refine State.readMem_eff ?_ h_rf h_ecc h_kpr h_bel h_ldg h_obs _ _ _ _
    | refine State.folioWrite_eff ?_ h_rf h_mem h_ecc _ _ _
    | refine EffP.fst ?_
    | refine EffP.of_eq (by assumption) ?_
    | split
    | refine EffP.mk ?_ _

theorem State.headerBack_eff (h : Eff F s0 s) (h_rf : F .rf = true) (h_ecc : F .ecc = true) :
    ∀ a1 a2, EffP F s0 (State.headerBack s a1 a2) := by
  intro a1 a2
  unfold State.headerBack
  repeat' with_reducible first
    | assumption
    | refine State.eccShelfRead_eff ?_ h_rf h_ecc _ _ _ _
    | refine EffP.fst ?_
    | refine EffP.of_eq (by assumption) ?_
    | refine EffP.ite ?_ ?_
    | refine Eff.ite ?_ ?_
    | split
    | refine EffP.mk ?_ _

theorem State.accessionDone_eff (h : Eff F s0 s) (h_rf : F .rf = true) (h_mem : F .mem = true) (h_ecc : F .ecc = true) (h_cir : F .cir = true) (h_cat : F .cat = true) (h_bind : F .bind = true) (h_kpr : F .kpr = true) (h_bel : F .bel = true) (h_ldg : F .ldg = true) (h_obs : F .obs = true) :
    ∀ a1 a2, Eff F s0 (State.accessionDone s a1 a2) := by
  intro a1 a2
  unfold State.accessionDone
  repeat' with_reducible first
    | assumption
    | (extract_lets +onlyGivenNames x
       first
       | (refine Eff.cut F s0 x ?_ ?_; unfold x; clear x; rotate_left; intro _; clear_value x; rotate_left)
       | (refine EffP.cut F s0 x ?_ ?_; unfold x; clear x; rotate_left; intro _; clear_value x; rotate_left)
       | clear_value x)
    | refine State.bindFail_eff ?_ h_rf h_ecc h_cir h_cat h_bind h_kpr h_bel h_ldg h_obs _ _ _
    | refine State.onShelves_eff ?_ _ (fun _ _ _ => ?_) _
    | refine State.loadFromCopy_eff ?_ h_rf h_mem h_ecc h_kpr h_bel h_ldg h_obs _ _ _
    | refine State.headerBack_eff ?_ h_rf h_ecc _ _
    | refine State.setJob_eff ?_ h_bind _ _
    | refine State.finish_eff ?_ h_rf h_ecc h_cir h_cat h_bind h_kpr h_bel h_ldg h_obs _ _
    | refine EffP.fst ?_
    | refine EffP.of_eq (by assumption) ?_
    | refine EffP.ite ?_ ?_
    | refine Eff.ite ?_ ?_
    | split
    | refine Eff.set_bind ?_ h_bind
    | refine EffP.mk ?_ _

theorem State.loadVolume_eff (h : Eff F s0 s) (h_rf : F .rf = true) (h_mem : F .mem = true) (h_ecc : F .ecc = true) :
    ∀ a1 a2, Eff F s0 (State.loadVolume s a1 a2) := by
  intro a1 a2
  unfold State.loadVolume
  repeat' with_reducible first
    | assumption
    | refine State.folioWrite_eff ?_ h_rf h_mem h_ecc _ _ _
    | split

theorem execAccession_eff (h : Eff F s0 s) (h_freeCtr : F .freeCtr = true) (h_rf : F .rf = true) (h_mem : F .mem = true) (h_ecc : F .ecc = true) (h_cir : F .cir = true) (h_cat : F .cat = true) (h_bind : F .bind = true) (h_kpr : F .kpr = true) (h_bel : F .bel = true) (h_ldg : F .ldg = true) (h_obs : F .obs = true) :
    ∀ a0 a1, EffX F s0 (execAccession a0 a1 s) := by
  intro a0 a1
  unfold execAccession
  repeat' with_reducible first
    | assumption
    | refine State.accession_eff ?_ h_freeCtr h_rf h_mem h_ecc h_cir h_cat h_bind h_kpr h_bel h_ldg h_obs _ _
    | refine EffX.next ?_
    | refine Eff.ite ?_ ?_
    | refine EffX.ite ?_ ?_
    | split

theorem execAccessionDone_eff (h : Eff F s0 s) (h_rf : F .rf = true) (h_mem : F .mem = true) (h_ecc : F .ecc = true) (h_cir : F .cir = true) (h_cat : F .cat = true) (h_bind : F .bind = true) (h_kpr : F .kpr = true) (h_bel : F .bel = true) (h_ldg : F .ldg = true) (h_obs : F .obs = true) :
    ∀ a0 a1, EffX F s0 (execAccessionDone a0 a1 s) := by
  intro a0 a1
  unfold execAccessionDone
  repeat' with_reducible first
    | assumption
    | refine State.accessionDone_eff ?_ h_rf h_mem h_ecc h_cir h_cat h_bind h_kpr h_bel h_ldg h_obs _ _
    | refine EffX.next ?_
    | refine Eff.ite ?_ ?_
    | refine EffX.ite ?_ ?_
    | split

end Sys2Proof.Machine
end

