-- ==== Sys2Proof/Laws/FrameCopies.lean ====
section
/-! SUPPORT. Frames of the operations of Machine/Copies.lean: what each may change. -/

namespace Sys2Proof.Machine

variable {F : Comp → Bool} {s0 s : State}

theorem State.copyAdd_eff (h : Eff F s0 s) (h_rf : F .rf = true) (h_mem : F .mem = true) (h_ecc : F .ecc = true) (h_kpr : F .kpr = true) (h_bel : F .bel = true) (h_ldg : F .ldg = true) (h_obs : F .obs = true) :
    ∀ a1 a2 a3 a4 a5, EffP F s0 (State.copyAdd s a1 a2 a3 a4 a5) := by
  intro a1 a2 a3 a4 a5
  unfold State.copyAdd
  repeat' with_reducible first
    | assumption
    | (extract_lets +onlyGivenNames x
       first
       | (refine Eff.cut F s0 x ?_ ?_; unfold x; clear x; rotate_left; intro _; clear_value x; rotate_left)
       | (refine EffP.cut F s0 x ?_ ?_; unfold x; clear x; rotate_left; intro _; clear_value x; rotate_left)
       | clear_value x)
    | refine State.addMay_eff ?_ h_rf h_mem h_ecc h_kpr h_bel h_ldg h_obs _ _ _ _ _ _
    | refine State.holdAdd_eff ?_ h_kpr _
    | refine EffP.fst ?_
    | refine EffP.of_eq (by assumption) ?_
    | refine EffP.ite ?_ ?_
    | refine Eff.ite ?_ ?_
    | split
    | refine EffP.mk ?_ _

theorem State.copyAsk_eff (h : Eff F s0 s) (h_rf : F .rf = true) (h_iln : F .iln = true) (h_bel : F .bel = true) (h_ldg : F .ldg = true) :
    ∀ a1 a2 a3 a4 a5 a6 a7, EffP F s0 (State.copyAsk s a1 a2 a3 a4 a5 a6 a7) := by
  intro a1 a2 a3 a4 a5 a6 a7
  unfold State.copyAsk
  repeat' with_reducible first
    | assumption
    | refine State.reachPeer_eff ?_ h_rf h_iln h_bel h_ldg _ _ _ _
    | refine State.ilnRequest_eff ?_ h_rf h_iln _ _ _ _ _ _ _ _ _
    | refine Eff.foldl ?_ (fun _ _ _ => ?_)
    | refine EffP.foldl ?_ (fun _ _ _ => ?_)
    | refine EffP.fst ?_
    | refine EffP.of_eq (by assumption) ?_
    | refine EffP.ite ?_ ?_
    | refine Eff.ite ?_ ?_
    | split
    | refine EffP.mk ?_ _

theorem State.holdWrites_eff (h : Eff F s0 s) (h_shelves : F .shelves = true) :
    ∀ a1 a2 a3, Eff F s0 (State.holdWrites s a1 a2 a3) := by
  intro a1 a2 a3
  unfold State.holdWrites
  repeat' with_reducible first
    | assumption
    | (extract_lets +onlyGivenNames x
       first
       | (refine Eff.cut F s0 x ?_ ?_; unfold x; clear x; rotate_left; intro _; clear_value x; rotate_left)
       | (refine EffP.cut F s0 x ?_ ?_; unfold x; clear x; rotate_left; intro _; clear_value x; rotate_left)
       | clear_value x)
    | refine State.holdBack_eff ?_ h_shelves _ _
    | refine Eff.foldl ?_ (fun _ _ _ => ?_)
    | refine EffP.foldl ?_ (fun _ _ _ => ?_)
    | refine EffP.fst ?_
    | refine EffP.of_eq (by assumption) ?_
    | split

theorem State.copyLand_eff (h : Eff F s0 s) (h_freeCtr : F .freeCtr = true) (h_rf : F .rf = true) (h_mem : F .mem = true) (h_ecc : F .ecc = true) (h_shelves : F .shelves = true) (h_kpr : F .kpr = true) (h_iln : F .iln = true) (h_bel : F .bel = true) (h_ldg : F .ldg = true) (h_obs : F .obs = true) (h_hostOut : F .hostOut = true) :
    ∀ a1 a2 a3 a4 a5, EffP F s0 (State.copyLand s a1 a2 a3 a4 a5) := by
  intro a1 a2 a3 a4 a5
  unfold State.copyLand
  repeat' with_reducible first
    | assumption
    | (extract_lets +onlyGivenNames x
       first
       | (refine Eff.cut F s0 x ?_ ?_; unfold x; clear x; rotate_left; intro _; clear_value x; rotate_left)
       | (refine EffP.cut F s0 x ?_ ?_; unfold x; clear x; rotate_left; intro _; clear_value x; rotate_left)
       | clear_value x)
    | refine State.hostWrite_eff ?_ h_iln h_hostOut _ _ _ _
    | refine State.copyAsk_eff ?_ h_rf h_iln h_bel h_ldg _ _ _ _ _ _ _
    | refine State.holdWrites_eff ?_ h_shelves _ _ _
    | refine State.windowRange_eff ?_ h_rf h_mem h_ecc h_bel h_ldg h_obs _ _ _ _
    | refine State.copyAdd_eff ?_ h_rf h_mem h_ecc h_kpr h_bel h_ldg h_obs _ _ _ _ _
    | refine State.writeMay_eff ?_ h_freeCtr h_rf h_mem h_ecc h_kpr h_bel h_ldg h_obs _ _ _ _ _
    | refine EffP.fst ?_
    | refine EffP.of_eq (by assumption) ?_
    | refine EffP.ite ?_ ?_
    | refine Eff.ite ?_ ?_
    | split
    | refine EffP.mk ?_ _

theorem State.copyChunkRun_eff (h : Eff F s0 s) (h_freeCtr : F .freeCtr = true) (h_rf : F .rf = true) (h_mem : F .mem = true) (h_ecc : F .ecc = true) (h_shelves : F .shelves = true) (h_kpr : F .kpr = true) (h_iln : F .iln = true) (h_bel : F .bel = true) (h_ldg : F .ldg = true) (h_obs : F .obs = true) (h_hostOut : F .hostOut = true) :
    ∀ a1 a2 a3 a4 a5 a6, EffP F s0 (State.copyChunkRun s a1 a2 a3 a4 a5 a6) := by
  intro a1 a2 a3 a4 a5 a6
  unfold State.copyChunkRun
  repeat' with_reducible first
    | assumption
    | (extract_lets +onlyGivenNames x
       first
       | (refine Eff.cut F s0 x ?_ ?_; unfold x; clear x; rotate_left; intro _; clear_value x; rotate_left)
       | (refine EffP.cut F s0 x ?_ ?_; unfold x; clear x; rotate_left; intro _; clear_value x; rotate_left)
       | clear_value x)
    | refine State.copyLand_eff ?_ h_freeCtr h_rf h_mem h_ecc h_shelves h_kpr h_iln h_bel h_ldg h_obs h_hostOut _ _ _ _ _
    | refine State.copyAsk_eff ?_ h_rf h_iln h_bel h_ldg _ _ _ _ _ _ _
    | refine State.readMay_eff ?_ h_rf h_ecc h_kpr h_bel h_ldg h_obs _ _ _ _ _
    | refine EffP.fst ?_
    | refine EffP.of_eq (by assumption) ?_
    | refine EffP.ite ?_ ?_
    | refine Eff.ite ?_ ?_
    | split
    | refine EffP.mk ?_ _

theorem State.copyFail_eff (h : Eff F s0 s) (h_rf : F .rf = true) (h_mem : F .mem = true) (h_ecc : F .ecc = true) (h_cir : F .cir = true) (h_cat : F .cat = true) (h_bind : F .bind = true) (h_shelves : F .shelves = true) (h_kpr : F .kpr = true) (h_iln : F .iln = true) (h_bel : F .bel = true) (h_ldg : F .ldg = true) (h_pwr : F .pwr = true) (h_obs : F .obs = true) :
    ∀ a1 a2 a3, Eff F s0 (State.copyFail s a1 a2 a3) := by
  intro a1 a2 a3
  unfold State.copyFail
  repeat' with_reducible first
    | assumption
    | (extract_lets +onlyGivenNames x
       first
       | (refine Eff.cut F s0 x ?_ ?_; unfold x; clear x; rotate_left; intro _; clear_value x; rotate_left)
       | (refine EffP.cut F s0 x ?_ ?_; unfold x; clear x; rotate_left; intro _; clear_value x; rotate_left)
       | clear_value x)
    | refine State.stopSlip_eff ?_ h_rf h_mem h_ecc h_cir h_cat h_shelves h_kpr h_iln h_bel h_ldg h_pwr h_obs _ _
    | refine State.finish_eff ?_ h_rf h_ecc h_cir h_cat h_bind h_kpr h_bel h_ldg h_obs _ _
    | refine State.slipFault_eff ?_ h_rf h_cat _ _ _
    | refine State.modSlip_eff ?_ h_cat _ _
    | refine Eff.ite ?_ ?_
    | split

theorem State.copySettle_eff (h : Eff F s0 s) (h_rf : F .rf = true) (h_ecc : F .ecc = true) (h_cir : F .cir = true) (h_cat : F .cat = true) (h_bind : F .bind = true) (h_kpr : F .kpr = true) (h_bel : F .bel = true) (h_ldg : F .ldg = true) (h_obs : F .obs = true) :
    ∀ a1, Eff F s0 (State.copySettle s a1) := by
  intro a1
  unfold State.copySettle
  repeat' with_reducible first
    | assumption
    | (extract_lets +onlyGivenNames x
       first
       | (refine Eff.cut F s0 x ?_ ?_; unfold x; clear x; rotate_left; intro _; clear_value x; rotate_left)
       | (refine EffP.cut F s0 x ?_ ?_; unfold x; clear x; rotate_left; intro _; clear_value x; rotate_left)
       | clear_value x)
    | refine State.setSlip_eff ?_ h_cat _ _
    | refine State.finish_eff ?_ h_rf h_ecc h_cir h_cat h_bind h_kpr h_bel h_ldg h_obs _ _
    | refine Eff.ite ?_ ?_
    | split

theorem State.copyChunk_eff (h : Eff F s0 s) (h_freeCtr : F .freeCtr = true) (h_rf : F .rf = true) (h_mem : F .mem = true) (h_ecc : F .ecc = true) (h_cir : F .cir = true) (h_cat : F .cat = true) (h_bind : F .bind = true) (h_shelves : F .shelves = true) (h_kpr : F .kpr = true) (h_iln : F .iln = true) (h_crl : F .crl = true) (h_bel : F .bel = true) (h_ldg : F .ldg = true) (h_pwr : F .pwr = true) (h_obs : F .obs = true) (h_hostOut : F .hostOut = true) :
    ∀ a1 a2 a3 a4, Eff F s0 (State.copyChunk s a1 a2 a3 a4) := by
  intro a1 a2 a3 a4
  unfold State.copyChunk
  repeat' with_reducible first
    | assumption
    | (extract_lets +onlyGivenNames x
       first
       | (refine Eff.cut F s0 x ?_ ?_; unfold x; clear x; rotate_left; intro _; clear_value x; rotate_left)
       | (refine EffP.cut F s0 x ?_ ?_; unfold x; clear x; rotate_left; intro _; clear_value x; rotate_left)
       | clear_value x)
    | refine State.grant_eff ?_ h_crl _ _
    | refine State.copyChunkRun_eff ?_ h_freeCtr h_rf h_mem h_ecc h_shelves h_kpr h_iln h_bel h_ldg h_obs h_hostOut _ _ _ _ _ _
    | refine State.setSlip_eff ?_ h_cat _ _
    | refine State.copyFail_eff ?_ h_rf h_mem h_ecc h_cir h_cat h_bind h_shelves h_kpr h_iln h_bel h_ldg h_pwr h_obs _ _ _
    | refine State.copySettle_eff ?_ h_rf h_ecc h_cir h_cat h_bind h_kpr h_bel h_ldg h_obs _
    | refine EffP.fst ?_
    | refine EffP.of_eq (by assumption) ?_
    | refine EffP.ite ?_ ?_
    | refine Eff.ite ?_ ?_
    | split
    | refine EffP.mk ?_ _

theorem execCopyChunk_eff (h : Eff F s0 s) (h_freeCtr : F .freeCtr = true) (h_rf : F .rf = true) (h_mem : F .mem = true) (h_ecc : F .ecc = true) (h_cir : F .cir = true) (h_cat : F .cat = true) (h_bind : F .bind = true) (h_shelves : F .shelves = true) (h_kpr : F .kpr = true) (h_iln : F .iln = true) (h_crl : F .crl = true) (h_bel : F .bel = true) (h_ldg : F .ldg = true) (h_pwr : F .pwr = true) (h_obs : F .obs = true) (h_hostOut : F .hostOut = true) :
    ∀ a0 a1 a2 a3, EffX F s0 (execCopyChunk a0 a1 a2 a3 s) := by
  intro a0 a1 a2 a3
  unfold execCopyChunk
  repeat' with_reducible first
    | assumption
    | refine State.copyChunk_eff ?_ h_freeCtr h_rf h_mem h_ecc h_cir h_cat h_bind h_shelves h_kpr h_iln h_crl h_bel h_ldg h_pwr h_obs h_hostOut _ _ _ _
    | refine EffX.next ?_
    | refine Eff.ite ?_ ?_
    | refine EffX.ite ?_ ?_
    | split

end Sys2Proof.Machine
end

