-- ==== Sys2Proof/Laws/FrameHoldings.lean ====
section
/-! SUPPORT. Frames of the operations of Machine/Holdings.lean: what each may change. -/

namespace Sys2Proof.Machine

variable {F : Comp → Bool} {s0 s : State}

theorem State.assignFrame_eff (h : Eff F s0 s) (h_kpr : F .kpr = true) :
    ∀ a1 a2, Eff F s0 (State.assignFrame s a1 a2) := by
  intro a1 a2
  unfold State.assignFrame
  repeat' with_reducible first
    | assumption
    | (extract_lets +onlyGivenNames x
       first
       | (refine Eff.cut F s0 x ?_ ?_; unfold x; clear x; rotate_left; intro _; clear_value x; rotate_left)
       | (refine EffP.cut F s0 x ?_ ?_; unfold x; clear x; rotate_left; intro _; clear_value x; rotate_left)
       | clear_value x)
    | refine State.modLeaf_eff ?_ h_kpr _ _ _
    | split

theorem State.evictBusy_eff (h : Eff F s0 s) (h_rf : F .rf = true) (h_cir : F .cir = true) (h_cat : F .cat = true) :
    ∀ a1 a2, Eff F s0 (State.evictBusy s a1 a2) := by
  intro a1 a2
  unfold State.evictBusy
  repeat' with_reducible first
    | assumption
    | refine State.retire_eff ?_ h_rf h_cir h_cat _ _ _
    | refine Eff.foldl ?_ (fun _ _ _ => ?_)
    | refine EffP.fst ?_
    | refine EffP.of_eq (by assumption) ?_
    | split

theorem State.evictRun_eff (h : Eff F s0 s) (h_kpr : F .kpr = true) :
    ∀ a1 a2, Eff F s0 (State.evictRun s a1 a2) := by
  intro a1 a2
  unfold State.evictRun
  repeat' with_reducible first
    | assumption
    | refine State.sendHome_eff ?_ h_kpr _ _ _
    | refine Eff.foldl ?_ (fun _ _ _ => ?_)
    | refine EffP.fst ?_
    | refine EffP.of_eq (by assumption) ?_
    | refine Eff.ite ?_ ?_
    | split

theorem State.registerRun_eff (h : Eff F s0 s) (h_kpr : F .kpr = true) :
    ∀ a1 a2, Eff F s0 (State.registerRun s a1 a2) := by
  intro a1 a2
  unfold State.registerRun
  repeat' with_reducible first
    | assumption
    | (extract_lets +onlyGivenNames x
       first
       | (refine Eff.cut F s0 x ?_ ?_; unfold x; clear x; rotate_left; intro _; clear_value x; rotate_left)
       | (refine EffP.cut F s0 x ?_ ?_; unfold x; clear x; rotate_left; intro _; clear_value x; rotate_left)
       | clear_value x)
    | refine State.assignFrame_eff ?_ h_kpr _ _
    | refine State.setHolding_eff ?_ h_kpr _
    | refine State.modKpr_eff ?_ h_kpr _
    | refine Eff.foldl ?_ (fun _ _ _ => ?_)
    | refine EffP.fst ?_
    | refine EffP.of_eq (by assumption) ?_
    | refine Eff.ite ?_ ?_
    | split

theorem State.holdBegin_eff (h : Eff F s0 s) (h_kpr : F .kpr = true) :
    ∀ a1 a2, Eff F s0 (State.holdBegin s a1 a2) := by
  intro a1 a2
  unfold State.holdBegin
  repeat' with_reducible first
    | assumption
    | refine State.registerRun_eff ?_ h_kpr _ _
    | refine State.setHolding_eff ?_ h_kpr _
    | refine Eff.ite ?_ ?_
    | split

theorem State.holdFinish_eff (h : Eff F s0 s) (h_rf : F .rf = true) (h_ecc : F .ecc = true) (h_cir : F .cir = true) (h_cat : F .cat = true) (h_bind : F .bind = true) (h_kpr : F .kpr = true) (h_bel : F .bel = true) (h_ldg : F .ldg = true) (h_obs : F .obs = true) :
    ∀ a1, Eff F s0 (State.holdFinish s a1) := by
  intro a1
  unfold State.holdFinish
  repeat' with_reducible first
    | assumption
    | refine State.finish_eff ?_ h_rf h_ecc h_cir h_cat h_bind h_kpr h_bel h_ldg h_obs _ _
    | refine State.modKpr_eff ?_ h_kpr _
    | refine EffP.fst ?_
    | refine EffP.of_eq (by assumption) ?_
    | split

theorem State.releaseLeaf_eff (h : Eff F s0 s) (h_kpr : F .kpr = true) :
    ∀ a1 a2 a3 a4, Eff F s0 (State.releaseLeaf s a1 a2 a3 a4) := by
  intro a1 a2 a3 a4
  unfold State.releaseLeaf
  repeat' with_reducible first
    | assumption
    | refine State.queueMove_eff ?_ h_kpr _ _ _ _
    | refine State.modLeaf_eff ?_ h_kpr _ _ _
    | refine Eff.ite ?_ ?_
    | split

theorem State.releaseRun_eff (h : Eff F s0 s) (h_kpr : F .kpr = true) :
    ∀ a1 a2, Eff F s0 (State.releaseRun s a1 a2) := by
  intro a1 a2
  unfold State.releaseRun
  repeat' with_reducible first
    | assumption
    | (extract_lets +onlyGivenNames x
       first
       | (refine Eff.cut F s0 x ?_ ?_; unfold x; clear x; rotate_left; intro _; clear_value x; rotate_left)
       | (refine EffP.cut F s0 x ?_ ?_; unfold x; clear x; rotate_left; intro _; clear_value x; rotate_left)
       | clear_value x)
    | refine State.modKpr_eff ?_ h_kpr _
    | refine State.setHolding_eff ?_ h_kpr _
    | refine State.releaseLeaf_eff ?_ h_kpr _ _ _ _
    | refine Eff.foldl ?_ (fun _ _ _ => ?_)
    | refine EffP.fst ?_
    | refine EffP.of_eq (by assumption) ?_
    | split

theorem State.pinRun_eff (h : Eff F s0 s) (h_kpr : F .kpr = true) :
    ∀ a1 a2, Eff F s0 (State.pinRun s a1 a2) := by
  intro a1 a2
  unfold State.pinRun
  repeat' with_reducible first
    | assumption
    | (extract_lets +onlyGivenNames x
       first
       | (refine Eff.cut F s0 x ?_ ?_; unfold x; clear x; rotate_left; intro _; clear_value x; rotate_left)
       | (refine EffP.cut F s0 x ?_ ?_; unfold x; clear x; rotate_left; intro _; clear_value x; rotate_left)
       | clear_value x)
    | refine State.sendHome_eff ?_ h_kpr _ _ _
    | refine State.queueMove_eff ?_ h_kpr _ _ _ _
    | refine Eff.foldl ?_ (fun _ _ _ => ?_)
    | refine EffP.fst ?_
    | refine EffP.of_eq (by assumption) ?_
    | refine Eff.ite ?_ ?_
    | split

theorem State.prefetchRun_eff (h : Eff F s0 s) (h_rf : F .rf = true) (h_cat : F .cat = true) (h_kpr : F .kpr = true) :
    ∀ a1 a2, Eff F s0 (State.prefetchRun s a1 a2) := by
  intro a1 a2
  unfold State.prefetchRun
  repeat' with_reducible first
    | assumption
    | (extract_lets +onlyGivenNames x
       first
       | (refine Eff.cut F s0 x ?_ ?_; unfold x; clear x; rotate_left; intro _; clear_value x; rotate_left)
       | (refine EffP.cut F s0 x ?_ ?_; unfold x; clear x; rotate_left; intro _; clear_value x; rotate_left)
       | clear_value x)
    | refine State.bringNear_eff ?_ h_kpr _ _ _ _
    | refine State.modKpr_eff ?_ h_kpr _
    | refine State.slipFault_eff ?_ h_rf h_cat _ _ _
    | refine Eff.foldl ?_ (fun _ _ _ => ?_)
    | refine EffP.foldl ?_ (fun _ _ _ => ?_)
    | refine EffP.fst ?_
    | refine EffP.of_eq (by assumption) ?_
    | refine EffP.ite ?_ ?_
    | refine Eff.ite ?_ ?_
    | split
    | refine EffP.mk ?_ _

theorem State.holdGo_eff (h : Eff F s0 s) (h_rf : F .rf = true) (h_ecc : F .ecc = true) (h_cir : F .cir = true) (h_cat : F .cat = true) (h_bind : F .bind = true) (h_kpr : F .kpr = true) (h_bel : F .bel = true) (h_ldg : F .ldg = true) (h_obs : F .obs = true) :
    ∀ a1 a2, Eff F s0 (State.holdGo s a1 a2) := by
  intro a1 a2
  unfold State.holdGo
  repeat' with_reducible first
    | assumption
    | (extract_lets +onlyGivenNames x
       first
       | (refine Eff.cut F s0 x ?_ ?_; unfold x; clear x; rotate_left; intro _; clear_value x; rotate_left)
       | (refine EffP.cut F s0 x ?_ ?_; unfold x; clear x; rotate_left; intro _; clear_value x; rotate_left)
       | clear_value x)
    | refine State.holdFinish_eff ?_ h_rf h_ecc h_cir h_cat h_bind h_kpr h_bel h_ldg h_obs _
    | refine State.releaseRun_eff ?_ h_kpr _ _
    | refine State.overSettle_eff ?_ h_kpr
    | refine State.modKpr_eff ?_ h_kpr _
    | refine State.pinRun_eff ?_ h_kpr _ _
    | refine State.prefetchRun_eff ?_ h_rf h_cat h_kpr _ _
    | refine State.evictRun_eff ?_ h_kpr _ _
    | refine State.evictBusy_eff ?_ h_rf h_cir h_cat _ _
    | refine Eff.ite ?_ ?_
    | split

theorem State.holdStart_eff (h : Eff F s0 s) (h_rf : F .rf = true) (h_ecc : F .ecc = true) (h_cir : F .cir = true) (h_cat : F .cat = true) (h_bind : F .bind = true) (h_kpr : F .kpr = true) (h_bel : F .bel = true) (h_ldg : F .ldg = true) (h_obs : F .obs = true) :
    ∀ a1 a2, Eff F s0 (State.holdStart s a1 a2) := by
  intro a1 a2
  unfold State.holdStart
  repeat' with_reducible first
    | assumption
    | (extract_lets +onlyGivenNames x
       first
       | (refine Eff.cut F s0 x ?_ ?_; unfold x; clear x; rotate_left; intro _; clear_value x; rotate_left)
       | (refine EffP.cut F s0 x ?_ ?_; unfold x; clear x; rotate_left; intro _; clear_value x; rotate_left)
       | clear_value x)
    | refine State.finish_eff ?_ h_rf h_ecc h_cir h_cat h_bind h_kpr h_bel h_ldg h_obs _ _
    | refine State.holdGo_eff ?_ h_rf h_ecc h_cir h_cat h_bind h_kpr h_bel h_ldg h_obs _ _
    | refine State.holdBegin_eff ?_ h_kpr _ _
    | refine State.setSlip_eff ?_ h_cat _ _
    | refine Eff.ite ?_ ?_
    | split

theorem State.holdCmd_eff (h : Eff F s0 s) (h_rf : F .rf = true) (h_ecc : F .ecc = true) (h_cir : F .cir = true) (h_cat : F .cat = true) (h_bind : F .bind = true) (h_kpr : F .kpr = true) (h_bel : F .bel = true) (h_ldg : F .ldg = true) (h_obs : F .obs = true) :
    ∀ a1 a2 a3, Eff F s0 (State.holdCmd s a1 a2 a3) := by
  intro a1 a2 a3
  unfold State.holdCmd
  repeat' with_reducible first
    | assumption
    | (extract_lets +onlyGivenNames x
       first
       | (refine Eff.cut F s0 x ?_ ?_; unfold x; clear x; rotate_left; intro _; clear_value x; rotate_left)
       | (refine EffP.cut F s0 x ?_ ?_; unfold x; clear x; rotate_left; intro _; clear_value x; rotate_left)
       | clear_value x)
    | refine State.holdGo_eff ?_ h_rf h_ecc h_cir h_cat h_bind h_kpr h_bel h_ldg h_obs _ _
    | refine State.finish_eff ?_ h_rf h_ecc h_cir h_cat h_bind h_kpr h_bel h_ldg h_obs _ _
    | refine State.holdStart_eff ?_ h_rf h_ecc h_cir h_cat h_bind h_kpr h_bel h_ldg h_obs _ _
    | refine Eff.ite ?_ ?_
    | split

theorem State.holdsGo_eff (h : Eff F s0 s) (h_rf : F .rf = true) (h_ecc : F .ecc = true) (h_cir : F .cir = true) (h_cat : F .cat = true) (h_bind : F .bind = true) (h_kpr : F .kpr = true) (h_bel : F .bel = true) (h_ldg : F .ldg = true) (h_obs : F .obs = true) :
    Eff F s0 (State.holdsGo s) := by
  unfold State.holdsGo
  repeat' with_reducible first
    | assumption
    | refine State.holdGo_eff ?_ h_rf h_ecc h_cir h_cat h_bind h_kpr h_bel h_ldg h_obs _ _
    | refine Eff.foldl ?_ (fun _ _ _ => ?_)
    | refine EffP.fst ?_
    | refine EffP.of_eq (by assumption) ?_
    | refine Eff.ite ?_ ?_
    | split

theorem State.releaseAdd_eff (h : Eff F s0 s) (h_rf : F .rf = true) (h_ecc : F .ecc = true) (h_cir : F .cir = true) (h_cat : F .cat = true) (h_bind : F .bind = true) (h_kpr : F .kpr = true) (h_iln : F .iln = true) (h_bel : F .bel = true) (h_ldg : F .ldg = true) (h_obs : F .obs = true) :
    ∀ a1, Eff F s0 (State.releaseAdd s a1) := by
  intro a1
  unfold State.releaseAdd
  repeat' with_reducible first
    | assumption
    | (extract_lets +onlyGivenNames x
       first
       | (refine Eff.cut F s0 x ?_ ?_; unfold x; clear x; rotate_left; intro _; clear_value x; rotate_left)
       | (refine EffP.cut F s0 x ?_ ?_; unfold x; clear x; rotate_left; intro _; clear_value x; rotate_left)
       | clear_value x)
    | refine State.touchLeaves_eff ?_ h_kpr _ _ _ _
    | refine State.modKpr_eff ?_ h_kpr _
    | refine State.adderAnswer_eff ?_ h_kpr _ _
    | refine State.respond_eff ?_ h_rf h_iln _ _ _
    | refine State.copySettle_eff ?_ h_rf h_ecc h_cir h_cat h_bind h_kpr h_bel h_ldg h_obs _
    | split

theorem State.releaseAdds_eff (h : Eff F s0 s) (h_rf : F .rf = true) (h_ecc : F .ecc = true) (h_cir : F .cir = true) (h_cat : F .cat = true) (h_bind : F .bind = true) (h_kpr : F .kpr = true) (h_iln : F .iln = true) (h_bel : F .bel = true) (h_ldg : F .ldg = true) (h_obs : F .obs = true) :
    Eff F s0 (State.releaseAdds s) := by
  unfold State.releaseAdds
  repeat' with_reducible first
    | assumption
    | refine State.releaseAdd_eff ?_ h_rf h_ecc h_cir h_cat h_bind h_kpr h_iln h_bel h_ldg h_obs _
    | refine Eff.foldl ?_ (fun _ _ _ => ?_)
    | refine EffP.fst ?_
    | refine EffP.of_eq (by assumption) ?_
    | split

theorem State.zeroLeaf_eff (h : Eff F s0 s) (h_rf : F .rf = true) (h_mem : F .mem = true) (h_ecc : F .ecc = true) (h_cat : F .cat = true) (h_kpr : F .kpr = true) (h_bel : F .bel = true) (h_ldg : F .ldg = true) :
    ∀ a1 a2 a3 a4, Eff F s0 (State.zeroLeaf s a1 a2 a3 a4) := by
  intro a1 a2 a3 a4
  unfold State.zeroLeaf
  repeat' with_reducible first
    | assumption
    | (extract_lets +onlyGivenNames x
       first
       | (refine Eff.cut F s0 x ?_ ?_; unfold x; clear x; rotate_left; intro _; clear_value x; rotate_left)
       | (refine EffP.cut F s0 x ?_ ?_; unfold x; clear x; rotate_left; intro _; clear_value x; rotate_left)
       | clear_value x)
    | refine State.freshen_eff ?_ h_ecc h_kpr _ _
    | refine State.modLeaf_eff ?_ h_kpr _ _ _
    | refine State.slipFault_eff ?_ h_rf h_cat _ _ _
    | refine State.logBad_eff ?_ h_rf h_kpr h_bel h_ldg _ _ _ _
    | refine State.memFault_eff ?_ h_rf h_kpr h_bel h_ldg _ _ _ _
    | refine Eff.foldl ?_ (fun _ _ _ => ?_)
    | refine EffP.foldl ?_ (fun _ _ _ => ?_)
    | refine EffP.fst ?_
    | refine EffP.of_eq (by assumption) ?_
    | refine Eff.ite ?_ ?_
    | split
    | refine Eff.set_mem ?_ h_mem ?_
    | intro _
    | refine Memory.wf_write _ _ ?_
    | refine Memory.wf_writeN _ _ ?_
    | refine Memory.wf_writeLe _ _ _ ?_
    | refine Memory.wf_clear _ _ ?_
    | refine Memory.wf_dropOnDie ?_
    | refine Memory.wf_copy _ _ _ ?_
    | refine RegFile.wf_set _ _ ?_
    | refine RegFile.wf_filter _ ?_

theorem State.zeroWriteDone_eff (h : Eff F s0 s) (h_rf : F .rf = true) (h_mem : F .mem = true) (h_ecc : F .ecc = true) (h_cir : F .cir = true) (h_cat : F .cat = true) (h_bind : F .bind = true) (h_kpr : F .kpr = true) (h_bel : F .bel = true) (h_ldg : F .ldg = true) (h_obs : F .obs = true) :
    ∀ a1 a2 a3, Eff F s0 (State.zeroWriteDone s a1 a2 a3) := by
  intro a1 a2 a3
  unfold State.zeroWriteDone
  repeat' with_reducible first
    | assumption
    | (extract_lets +onlyGivenNames x
       first
       | (refine Eff.cut F s0 x ?_ ?_; unfold x; clear x; rotate_left; intro _; clear_value x; rotate_left)
       | (refine EffP.cut F s0 x ?_ ?_; unfold x; clear x; rotate_left; intro _; clear_value x; rotate_left)
       | clear_value x)
    | refine State.zeroLeaf_eff ?_ h_rf h_mem h_ecc h_cat h_kpr h_bel h_ldg _ _ _ _
    | refine State.modKpr_eff ?_ h_kpr _
    | refine State.holdFinish_eff ?_ h_rf h_ecc h_cir h_cat h_bind h_kpr h_bel h_ldg h_obs _
    | refine Eff.foldl ?_ (fun _ _ _ => ?_)
    | refine EffP.foldl ?_ (fun _ _ _ => ?_)
    | refine EffP.fst ?_
    | refine EffP.of_eq (by assumption) ?_
    | refine Eff.ite ?_ ?_
    | split

theorem execEvict_eff (h : Eff F s0 s) (h_rf : F .rf = true) (h_ecc : F .ecc = true) (h_cir : F .cir = true) (h_cat : F .cat = true) (h_bind : F .bind = true) (h_kpr : F .kpr = true) (h_bel : F .bel = true) (h_ldg : F .ldg = true) (h_obs : F .obs = true) :
    ∀ a0 a1, EffX F s0 (execEvict a0 a1 s) := by
  intro a0 a1
  unfold execEvict
  repeat' with_reducible first
    | assumption
    | refine State.holdCmd_eff ?_ h_rf h_ecc h_cir h_cat h_bind h_kpr h_bel h_ldg h_obs _ _ _
    | refine EffX.next ?_
    | refine Eff.ite ?_ ?_
    | refine EffX.ite ?_ ?_
    | split

theorem execLeafMoveDone_eff (h : Eff F s0 s) (h_rf : F .rf = true) (h_mem : F .mem = true) (h_ecc : F .ecc = true) (h_cir : F .cir = true) (h_cat : F .cat = true) (h_bind : F .bind = true) (h_kpr : F .kpr = true) (h_iln : F .iln = true) (h_crl : F .crl = true) (h_bel : F .bel = true) (h_ldg : F .ldg = true) (h_obs : F .obs = true) :
    ∀ a0 a1, EffX F s0 (execLeafMoveDone a0 a1 s) := by
  intro a0 a1
  unfold execLeafMoveDone
  repeat' with_reducible first
    | assumption
    | refine State.holdsGo_eff ?_ h_rf h_ecc h_cir h_cat h_bind h_kpr h_bel h_ldg h_obs
    | refine State.goneSettle_eff ?_ h_kpr
    | refine State.overSettle_eff ?_ h_kpr
    | refine State.releaseAdds_eff ?_ h_rf h_ecc h_cir h_cat h_bind h_kpr h_iln h_bel h_ldg h_obs
    | refine State.moveDone_eff ?_ h_rf h_mem h_ecc h_cat h_kpr h_crl h_bel h_ldg _ _
    | refine EffX.next ?_
    | refine Eff.ite ?_ ?_
    | refine EffX.ite ?_ ?_
    | split

theorem execPin_eff (h : Eff F s0 s) (h_rf : F .rf = true) (h_ecc : F .ecc = true) (h_cir : F .cir = true) (h_cat : F .cat = true) (h_bind : F .bind = true) (h_kpr : F .kpr = true) (h_bel : F .bel = true) (h_ldg : F .ldg = true) (h_obs : F .obs = true) :
    ∀ a0 a1, EffX F s0 (execPin a0 a1 s) := by
  intro a0 a1
  unfold execPin
  repeat' with_reducible first
    | assumption
    | refine State.holdCmd_eff ?_ h_rf h_ecc h_cir h_cat h_bind h_kpr h_bel h_ldg h_obs _ _ _
    | refine EffX.next ?_
    | refine Eff.ite ?_ ?_
    | refine EffX.ite ?_ ?_
    | split

theorem execPrefetch_eff (h : Eff F s0 s) (h_rf : F .rf = true) (h_ecc : F .ecc = true) (h_cir : F .cir = true) (h_cat : F .cat = true) (h_bind : F .bind = true) (h_kpr : F .kpr = true) (h_bel : F .bel = true) (h_ldg : F .ldg = true) (h_obs : F .obs = true) :
    ∀ a0 a1, EffX F s0 (execPrefetch a0 a1 s) := by
  intro a0 a1
  unfold execPrefetch
  repeat' with_reducible first
    | assumption
    | refine State.holdCmd_eff ?_ h_rf h_ecc h_cir h_cat h_bind h_kpr h_bel h_ldg h_obs _ _ _
    | refine EffX.next ?_
    | refine Eff.ite ?_ ?_
    | refine EffX.ite ?_ ?_
    | split

theorem execRegister_eff (h : Eff F s0 s) (h_rf : F .rf = true) (h_ecc : F .ecc = true) (h_cir : F .cir = true) (h_cat : F .cat = true) (h_bind : F .bind = true) (h_kpr : F .kpr = true) (h_bel : F .bel = true) (h_ldg : F .ldg = true) (h_obs : F .obs = true) :
    ∀ a0 a1, EffX F s0 (execRegister a0 a1 s) := by
  intro a0 a1
  unfold execRegister
  repeat' with_reducible first
    | assumption
    | refine State.holdCmd_eff ?_ h_rf h_ecc h_cir h_cat h_bind h_kpr h_bel h_ldg h_obs _ _ _
    | refine EffX.next ?_
    | refine Eff.ite ?_ ?_
    | refine EffX.ite ?_ ?_
    | split

theorem execRelease_eff (h : Eff F s0 s) (h_rf : F .rf = true) (h_ecc : F .ecc = true) (h_cir : F .cir = true) (h_cat : F .cat = true) (h_bind : F .bind = true) (h_kpr : F .kpr = true) (h_bel : F .bel = true) (h_ldg : F .ldg = true) (h_obs : F .obs = true) :
    ∀ a0 a1, EffX F s0 (execRelease a0 a1 s) := by
  intro a0 a1
  unfold execRelease
  repeat' with_reducible first
    | assumption
    | refine State.holdCmd_eff ?_ h_rf h_ecc h_cir h_cat h_bind h_kpr h_bel h_ldg h_obs _ _ _
    | refine EffX.next ?_
    | refine Eff.ite ?_ ?_
    | refine EffX.ite ?_ ?_
    | split

theorem execUnpin_eff (h : Eff F s0 s) (h_rf : F .rf = true) (h_ecc : F .ecc = true) (h_cir : F .cir = true) (h_cat : F .cat = true) (h_bind : F .bind = true) (h_kpr : F .kpr = true) (h_bel : F .bel = true) (h_ldg : F .ldg = true) (h_obs : F .obs = true) :
    ∀ a0 a1, EffX F s0 (execUnpin a0 a1 s) := by
  intro a0 a1
  unfold execUnpin
  repeat' with_reducible first
    | assumption
    | refine State.holdCmd_eff ?_ h_rf h_ecc h_cir h_cat h_bind h_kpr h_bel h_ldg h_obs _ _ _
    | refine EffX.next ?_
    | refine Eff.ite ?_ ?_
    | refine EffX.ite ?_ ?_
    | split

theorem execZeroWriteDone_eff (h : Eff F s0 s) (h_rf : F .rf = true) (h_mem : F .mem = true) (h_ecc : F .ecc = true) (h_cir : F .cir = true) (h_cat : F .cat = true) (h_bind : F .bind = true) (h_kpr : F .kpr = true) (h_bel : F .bel = true) (h_ldg : F .ldg = true) (h_obs : F .obs = true) :
    ∀ a0 a1, EffX F s0 (execZeroWriteDone a0 a1 s) := by
  intro a0 a1
  unfold execZeroWriteDone
  repeat' with_reducible first
    | assumption
    | refine State.zeroWriteDone_eff ?_ h_rf h_mem h_ecc h_cir h_cat h_bind h_kpr h_bel h_ldg h_obs _ _ _
    | refine EffX.next ?_
    | refine Eff.ite ?_ ?_
    | refine EffX.ite ?_ ?_
    | split

end Sys2Proof.Machine
end

