-- ==== Sys2Proof/Laws/FrameShelves.lean ====
section
/-! SUPPORT. Frames of the operations of Machine/Shelves.lean: what each may change. -/

namespace Sys2Proof.Machine

variable {F : Comp → Bool} {s0 s : State}

theorem State.zeroShelf_eff (h : Eff F s0 s) (h_mem : F .mem = true) (h_ecc : F .ecc = true) :
    ∀ a1, Eff F s0 (State.zeroShelf s a1) := by
  intro a1
  unfold State.zeroShelf
  repeat' with_reducible first
    | assumption
    | (extract_lets +onlyGivenNames x
       first
       | (refine Eff.cut F s0 x ?_ ?_; unfold x; clear x; rotate_left; intro _; clear_value x; rotate_left)
       | (refine EffP.cut F s0 x ?_ ?_; unfold x; clear x; rotate_left; intro _; clear_value x; rotate_left)
       | clear_value x)
    | refine EffP.fst ?_
    | refine EffP.of_eq (by assumption) ?_
    | split
    | refine Eff.set_mem_ecc ?_ h_mem h_ecc ?_
    | intro _
    | refine Memory.wf_write _ _ ?_
    | refine Memory.wf_writeN _ _ ?_
    | refine Memory.wf_writeLe _ _ _ ?_
    | refine Memory.wf_clear _ _ ?_
    | refine Memory.wf_dropOnDie ?_
    | refine Memory.wf_copy _ _ _ ?_
    | refine RegFile.wf_set _ _ ?_
    | refine RegFile.wf_filter _ ?_

theorem State.shelfLost_eff (h : Eff F s0 s) (h_rf : F .rf = true) (h_mem : F .mem = true) (h_ecc : F .ecc = true) (h_cir : F .cir = true) (h_cat : F .cat = true) (h_bind : F .bind = true) (h_shelves : F .shelves = true) (h_kpr : F .kpr = true) (h_iln : F .iln = true) (h_bel : F .bel = true) (h_ldg : F .ldg = true) (h_pwr : F .pwr = true) (h_obs : F .obs = true) :
    ∀ a1, Eff F s0 (State.shelfLost s a1) := by
  intro a1
  unfold State.shelfLost
  repeat' with_reducible first
    | assumption
    | refine State.finish_eff ?_ h_rf h_ecc h_cir h_cat h_bind h_kpr h_bel h_ldg h_obs _ _
    | refine State.stopSlip_eff ?_ h_rf h_mem h_ecc h_cir h_cat h_shelves h_kpr h_iln h_bel h_ldg h_pwr h_obs _ _
    | split

theorem State.takePass_eff (h : Eff F s0 s) (h_rf : F .rf = true) (h_mem : F .mem = true) (h_ecc : F .ecc = true) (h_shelves : F .shelves = true) (h_iln : F .iln = true) (h_bel : F .bel = true) (h_ldg : F .ldg = true) (h_pwr : F .pwr = true) (h_obs : F .obs = true) :
    ∀ a1 a2 a3, Eff F s0 (State.takePass s a1 a2 a3) := by
  intro a1 a2 a3
  unfold State.takePass
  repeat' with_reducible first
    | assumption
    | (extract_lets +onlyGivenNames x
       first
       | (refine Eff.cut F s0 x ?_ ?_; unfold x; clear x; rotate_left; intro _; clear_value x; rotate_left)
       | (refine EffP.cut F s0 x ?_ ?_; unfold x; clear x; rotate_left; intro _; clear_value x; rotate_left)
       | clear_value x)
    | refine State.entryReturn_eff ?_ h_rf h_shelves h_bel h_ldg _ _ _
    | refine State.dropReqs_eff ?_ h_iln _ _
    | refine State.setShelf_eff ?_ h_shelves _ _
    | refine State.shelfNext_eff ?_ h_rf h_shelves _
    | refine State.dropEarly_eff ?_ h_rf h_mem h_ecc h_shelves h_iln h_bel h_ldg h_pwr h_obs _ _
    | refine Eff.foldl ?_ (fun _ _ _ => ?_)
    | refine EffP.foldl ?_ (fun _ _ _ => ?_)
    | refine EffP.fst ?_
    | refine EffP.of_eq (by assumption) ?_
    | split

theorem State.returnGroup_eff (h : Eff F s0 s) (h_rf : F .rf = true) (h_mem : F .mem = true) (h_ecc : F .ecc = true) (h_cat : F .cat = true) (h_shelves : F .shelves = true) (h_iln : F .iln = true) (h_bel : F .bel = true) (h_ldg : F .ldg = true) (h_pwr : F .pwr = true) (h_obs : F .obs = true) :
    ∀ a1, Eff F s0 (State.returnGroup s a1) := by
  intro a1
  unfold State.returnGroup
  repeat' with_reducible first
    | assumption
    | (extract_lets +onlyGivenNames x
       first
       | (refine Eff.cut F s0 x ?_ ?_; unfold x; clear x; rotate_left; intro _; clear_value x; rotate_left)
       | (refine EffP.cut F s0 x ?_ ?_; unfold x; clear x; rotate_left; intro _; clear_value x; rotate_left)
       | clear_value x)
    | refine State.takePass_eff ?_ h_rf h_mem h_ecc h_shelves h_iln h_bel h_ldg h_pwr h_obs _ _ _
    | refine State.modSlip_eff ?_ h_cat _ _
    | refine Eff.foldl ?_ (fun _ _ _ => ?_)
    | refine EffP.fst ?_
    | refine EffP.of_eq (by assumption) ?_
    | split

theorem State.lostEntry_eff (h : Eff F s0 s) (h_rf : F .rf = true) (h_mem : F .mem = true) (h_ecc : F .ecc = true) (h_cir : F .cir = true) (h_cat : F .cat = true) (h_bind : F .bind = true) (h_shelves : F .shelves = true) (h_kpr : F .kpr = true) (h_iln : F .iln = true) (h_bel : F .bel = true) (h_ldg : F .ldg = true) (h_pwr : F .pwr = true) (h_obs : F .obs = true) :
    ∀ a1 a2, Eff F s0 (State.lostEntry s a1 a2) := by
  intro a1 a2
  unfold State.lostEntry
  repeat' with_reducible first
    | assumption
    | (extract_lets +onlyGivenNames x
       first
       | (refine Eff.cut F s0 x ?_ ?_; unfold x; clear x; rotate_left; intro _; clear_value x; rotate_left)
       | (refine EffP.cut F s0 x ?_ ?_; unfold x; clear x; rotate_left; intro _; clear_value x; rotate_left)
       | clear_value x)
    | refine State.returnGroup_eff ?_ h_rf h_mem h_ecc h_cat h_shelves h_iln h_bel h_ldg h_pwr h_obs _
    | refine State.shelfLost_eff ?_ h_rf h_mem h_ecc h_cir h_cat h_bind h_shelves h_kpr h_iln h_bel h_ldg h_pwr h_obs _
    | refine Eff.ite ?_ ?_
    | split

theorem State.mgrNotify_eff (h : Eff F s0 s) (h_iln : F .iln = true) (h_hostOut : F .hostOut = true) :
    Eff F s0 (State.mgrNotify s) := by
  unfold State.mgrNotify
  repeat' with_reducible first
    | assumption
    | refine State.hostWrite_eff ?_ h_iln h_hostOut _ _ _ _
    | split

theorem State.cmdDone_eff (h : Eff F s0 s) (h_rf : F .rf = true) (h_iln : F .iln = true) (h_crl : F .crl = true) (h_hostOut : F .hostOut = true) :
    ∀ a1, Eff F s0 (State.cmdDone s a1) := by
  intro a1
  unfold State.cmdDone
  repeat' with_reducible first
    | assumption
    | (extract_lets +onlyGivenNames x
       first
       | (refine Eff.cut F s0 x ?_ ?_; unfold x; clear x; rotate_left; intro _; clear_value x; rotate_left)
       | (refine EffP.cut F s0 x ?_ ?_; unfold x; clear x; rotate_left; intro _; clear_value x; rotate_left)
       | clear_value x)
    | refine State.orReg_eff ?_ h_rf _ _
    | refine State.setField_eff ?_ h_rf _ _ _ _
    | refine State.mgrNotify_eff ?_ h_iln h_hostOut
    | refine Eff.ite ?_ ?_
    | split
    | refine Eff.set_crl ?_ h_crl

theorem State.cmdEnds_eff (h : Eff F s0 s) (h_rf : F .rf = true) (h_iln : F .iln = true) (h_crl : F .crl = true) (h_hostOut : F .hostOut = true) :
    ∀ a1 a2, Eff F s0 (State.cmdEnds s a1 a2) := by
  intro a1 a2
  unfold State.cmdEnds
  repeat' with_reducible first
    | assumption
    | refine State.cmdDone_eff ?_ h_rf h_iln h_crl h_hostOut _
    | refine Eff.ite ?_ ?_
    | split

theorem State.resetCarrelRegs_eff (h : Eff F s0 s) (h_rf : F .rf = true) (h_cir : F .cir = true) (h_cat : F .cat = true) (h_kpr : F .kpr = true) (h_crl : F .crl = true) :
    ∀ a1, Eff F s0 (State.resetCarrelRegs s a1) := by
  intro a1
  unfold State.resetCarrelRegs
  repeat' with_reducible first
    | assumption
    | (extract_lets +onlyGivenNames x
       first
       | (refine Eff.cut F s0 x ?_ ?_; unfold x; clear x; rotate_left; intro _; clear_value x; rotate_left)
       | (refine EffP.cut F s0 x ?_ ?_; unfold x; clear x; rotate_left; intro _; clear_value x; rotate_left)
       | clear_value x)
    | refine State.setReg_eff ?_ h_rf _ _
    | refine State.setRegBit_eff ?_ h_rf _ _ _
    | refine Eff.foldl ?_ (fun _ _ _ => ?_)
    | refine EffP.foldl ?_ (fun _ _ _ => ?_)
    | refine EffP.fst ?_
    | refine EffP.of_eq (by assumption) ?_
    | split
    | refine Eff.set_cir_cat_kpr_crl ?_ h_cir h_cat h_kpr h_crl

theorem State.destroyEnds_eff (h : Eff F s0 s) (h_rf : F .rf = true) (h_cir : F .cir = true) (h_cat : F .cat = true) (h_kpr : F .kpr = true) (h_iln : F .iln = true) (h_crl : F .crl = true) (h_hostOut : F .hostOut = true) :
    ∀ a1, Eff F s0 (State.destroyEnds s a1) := by
  intro a1
  unfold State.destroyEnds
  repeat' with_reducible first
    | assumption
    | refine State.cmdEnds_eff ?_ h_rf h_iln h_crl h_hostOut _ _
    | refine State.setReg_eff ?_ h_rf _ _
    | refine State.resetCarrelRegs_eff ?_ h_rf h_cir h_cat h_kpr h_crl _
    | refine Eff.ite ?_ ?_
    | split

theorem State.leaveWithdrawn_eff (h : Eff F s0 s) (h_rf : F .rf = true) (h_cir : F .cir = true) (h_cat : F .cat = true) (h_shelves : F .shelves = true) (h_kpr : F .kpr = true) (h_iln : F .iln = true) (h_crl : F .crl = true) (h_hostOut : F .hostOut = true) :
    ∀ a1, Eff F s0 (State.leaveWithdrawn s a1) := by
  intro a1
  unfold State.leaveWithdrawn
  repeat' with_reducible first
    | assumption
    | (extract_lets +onlyGivenNames x
       first
       | (refine Eff.cut F s0 x ?_ ?_; unfold x; clear x; rotate_left; intro _; clear_value x; rotate_left)
       | (refine EffP.cut F s0 x ?_ ?_; unfold x; clear x; rotate_left; intro _; clear_value x; rotate_left)
       | clear_value x)
    | refine State.setShelf_eff ?_ h_shelves _ _
    | refine State.orReg_eff ?_ h_rf _ _
    | refine State.destroyEnds_eff ?_ h_rf h_cir h_cat h_kpr h_iln h_crl h_hostOut _
    | refine State.cmdEnds_eff ?_ h_rf h_iln h_crl h_hostOut _ _
    | refine Eff.ite ?_ ?_
    | split

theorem State.withdrawOne_eff (h : Eff F s0 s) (h_rf : F .rf = true) (h_mem : F .mem = true) (h_ecc : F .ecc = true) (h_cir : F .cir = true) (h_cat : F .cat = true) (h_bind : F .bind = true) (h_shelves : F .shelves = true) (h_kpr : F .kpr = true) (h_iln : F .iln = true) (h_crl : F .crl = true) (h_bel : F .bel = true) (h_ldg : F .ldg = true) (h_pwr : F .pwr = true) (h_obs : F .obs = true) (h_hostOut : F .hostOut = true) :
    ∀ a1, Eff F s0 (State.withdrawOne s a1) := by
  intro a1
  unfold State.withdrawOne
  repeat' with_reducible first
    | assumption
    | (extract_lets +onlyGivenNames x
       first
       | (refine Eff.cut F s0 x ?_ ?_; unfold x; clear x; rotate_left; intro _; clear_value x; rotate_left)
       | (refine EffP.cut F s0 x ?_ ?_; unfold x; clear x; rotate_left; intro _; clear_value x; rotate_left)
       | clear_value x)
    | refine State.setRegBit_eff ?_ h_rf _ _ _
    | refine State.log_eff ?_ h_rf h_ldg _ _ _ _ _ _ _
    | refine State.shelfLost_eff ?_ h_rf h_mem h_ecc h_cir h_cat h_bind h_shelves h_kpr h_iln h_bel h_ldg h_pwr h_obs _
    | refine State.lostEntry_eff ?_ h_rf h_mem h_ecc h_cir h_cat h_bind h_shelves h_kpr h_iln h_bel h_ldg h_pwr h_obs _ _
    | refine State.leaveWithdrawn_eff ?_ h_rf h_cir h_cat h_shelves h_kpr h_iln h_crl h_hostOut _
    | refine State.setLending_eff ?_ h_rf h_pwr _ _
    | refine Eff.foldl ?_ (fun _ _ _ => ?_)
    | refine EffP.fst ?_
    | refine EffP.of_eq (by assumption) ?_
    | refine Eff.ite ?_ ?_
    | split

theorem State.withdraw_eff (h : Eff F s0 s) (h_rf : F .rf = true) (h_mem : F .mem = true) (h_ecc : F .ecc = true) (h_cir : F .cir = true) (h_cat : F .cat = true) (h_bind : F .bind = true) (h_shelves : F .shelves = true) (h_kpr : F .kpr = true) (h_iln : F .iln = true) (h_crl : F .crl = true) (h_bel : F .bel = true) (h_ldg : F .ldg = true) (h_pwr : F .pwr = true) (h_obs : F .obs = true) (h_hostOut : F .hostOut = true) :
    ∀ a1, Eff F s0 (State.withdraw s a1) := by
  intro a1
  unfold State.withdraw
  repeat' with_reducible first
    | assumption
    | (extract_lets +onlyGivenNames x
       first
       | (refine Eff.cut F s0 x ?_ ?_; unfold x; clear x; rotate_left; intro _; clear_value x; rotate_left)
       | (refine EffP.cut F s0 x ?_ ?_; unfold x; clear x; rotate_left; intro _; clear_value x; rotate_left)
       | clear_value x)
    | refine State.withdrawOne_eff ?_ h_rf h_mem h_ecc h_cir h_cat h_bind h_shelves h_kpr h_iln h_crl h_bel h_ldg h_pwr h_obs h_hostOut _
    | refine State.setField_eff ?_ h_rf _ _ _ _
    | refine Eff.foldl ?_ (fun _ _ _ => ?_)
    | refine EffP.foldl ?_ (fun _ _ _ => ?_)
    | refine EffP.fst ?_
    | refine EffP.of_eq (by assumption) ?_
    | refine Eff.ite ?_ ?_
    | split
    | refine Eff.set_pwr ?_ h_pwr

theorem State.clearDone_eff (h : Eff F s0 s) (h_rf : F .rf = true) (h_mem : F .mem = true) (h_ecc : F .ecc = true) (h_cir : F .cir = true) (h_cat : F .cat = true) (h_bind : F .bind = true) (h_shelves : F .shelves = true) (h_kpr : F .kpr = true) (h_iln : F .iln = true) (h_crl : F .crl = true) (h_bel : F .bel = true) (h_ldg : F .ldg = true) (h_pwr : F .pwr = true) (h_obs : F .obs = true) (h_hostOut : F .hostOut = true) :
    ∀ a1 a2, Eff F s0 (State.clearDone s a1 a2) := by
  intro a1 a2
  unfold State.clearDone
  repeat' with_reducible first
    | assumption
    | (extract_lets +onlyGivenNames x
       first
       | (refine Eff.cut F s0 x ?_ ?_; unfold x; clear x; rotate_left; intro _; clear_value x; rotate_left)
       | (refine EffP.cut F s0 x ?_ ?_; unfold x; clear x; rotate_left; intro _; clear_value x; rotate_left)
       | clear_value x)
    | refine State.setShelf_eff ?_ h_shelves _ _
    | refine State.zeroShelf_eff ?_ h_mem h_ecc _
    | refine State.withdraw_eff ?_ h_rf h_mem h_ecc h_cir h_cat h_bind h_shelves h_kpr h_iln h_crl h_bel h_ldg h_pwr h_obs h_hostOut _
    | refine State.log_eff ?_ h_rf h_ldg _ _ _ _ _ _ _
    | refine State.event_eff ?_ h_rf h_bel _ _
    | refine State.destroyEnds_eff ?_ h_rf h_cir h_cat h_kpr h_iln h_crl h_hostOut _
    | refine Eff.ite ?_ ?_
    | split

theorem State.cmdBusy_eff (h : Eff F s0 s) (h_rf : F .rf = true) (h_crl : F .crl = true) :
    ∀ a1, Eff F s0 (State.cmdBusy s a1) := by
  intro a1
  unfold State.cmdBusy
  repeat' with_reducible first
    | assumption
    | refine State.setField_eff ?_ h_rf _ _ _ _
    | split
    | refine Eff.set_crl ?_ h_crl

theorem State.lendEnd_eff (h : Eff F s0 s) (h_rf : F .rf = true) (h_stp : F .stp = true) (h_shelves : F .shelves = true) (h_ldg : F .ldg = true) (h_pwr : F .pwr = true) (h_obs : F .obs = true) :
    ∀ a1, Eff F s0 (State.lendEnd s a1) := by
  intro a1
  unfold State.lendEnd
  repeat' with_reducible first
    | assumption
    | refine State.setLending_eff ?_ h_rf h_pwr _ _
    | refine State.advance_eff ?_ h_stp h_shelves h_ldg h_obs _
    | split

theorem State.reachLend_eff (h : Eff F s0 s) (h_stp : F .stp = true) (h_shelves : F .shelves = true) (h_ldg : F .ldg = true) (h_obs : F .obs = true) :
    ∀ a1, Eff F s0 (State.reachLend s a1) := by
  intro a1
  unfold State.reachLend
  repeat' with_reducible first
    | assumption
    | refine State.advance_eff ?_ h_stp h_shelves h_ldg h_obs _
    | split

theorem State.setCarrelState_eff (h : Eff F s0 s) (h_rf : F .rf = true) :
    ∀ a1 a2, Eff F s0 (State.setCarrelState s a1 a2) := by
  intro a1 a2
  unfold State.setCarrelState
  repeat' with_reducible first
    | assumption
    | refine State.setField_eff ?_ h_rf _ _ _ _
    | split

theorem execClearDone_eff (h : Eff F s0 s) (h_rf : F .rf = true) (h_mem : F .mem = true) (h_ecc : F .ecc = true) (h_cir : F .cir = true) (h_cat : F .cat = true) (h_bind : F .bind = true) (h_shelves : F .shelves = true) (h_kpr : F .kpr = true) (h_iln : F .iln = true) (h_crl : F .crl = true) (h_bel : F .bel = true) (h_ldg : F .ldg = true) (h_pwr : F .pwr = true) (h_obs : F .obs = true) (h_hostOut : F .hostOut = true) :
    ∀ a0 a1, EffX F s0 (execClearDone a0 a1 s) := by
  intro a0 a1
  unfold execClearDone
  repeat' with_reducible first
    | assumption
    | refine State.clearDone_eff ?_ h_rf h_mem h_ecc h_cir h_cat h_bind h_shelves h_kpr h_iln h_crl h_bel h_ldg h_pwr h_obs h_hostOut _ _
    | refine EffX.next ?_
    | refine Eff.ite ?_ ?_
    | refine EffX.ite ?_ ?_
    | split

theorem execClearStart_eff (h : Eff F s0 s) (h_shelves : F .shelves = true) :
    ∀ a0, EffX F s0 (execClearStart a0 s) := by
  intro a0
  unfold execClearStart
  repeat' with_reducible first
    | assumption
    | (extract_lets +onlyGivenNames x
       first
       | (refine Eff.cut F s0 x ?_ ?_; unfold x; clear x; rotate_left; intro _; clear_value x; rotate_left)
       | (refine EffP.cut F s0 x ?_ ?_; unfold x; clear x; rotate_left; intro _; clear_value x; rotate_left)
       | clear_value x)
    | refine State.setShelf_eff ?_ h_shelves _ _
    | refine EffX.next ?_
    | refine Eff.ite ?_ ?_
    | refine EffX.ite ?_ ?_
    | split

theorem execLendEnd_eff (h : Eff F s0 s) (h_rf : F .rf = true) (h_stp : F .stp = true) (h_shelves : F .shelves = true) (h_ldg : F .ldg = true) (h_pwr : F .pwr = true) (h_obs : F .obs = true) :
    ∀ a0, EffX F s0 (execLendEnd a0 s) := by
  intro a0
  unfold execLendEnd
  repeat' with_reducible first
    | assumption
    | refine State.lendEnd_eff ?_ h_rf h_stp h_shelves h_ldg h_pwr h_obs _
    | refine EffX.next ?_
    | refine Eff.ite ?_ ?_
    | refine EffX.ite ?_ ?_
    | split

theorem execLendStart_eff (h : Eff F s0 s) (h_rf : F .rf = true) (h_stp : F .stp = true) (h_shelves : F .shelves = true) (h_ldg : F .ldg = true) (h_pwr : F .pwr = true) (h_obs : F .obs = true) :
    ∀ a0, EffX F s0 (execLendStart a0 s) := by
  intro a0
  unfold execLendStart
  repeat' with_reducible first
    | assumption
    | (extract_lets +onlyGivenNames x
       first
       | (refine Eff.cut F s0 x ?_ ?_; unfold x; clear x; rotate_left; intro _; clear_value x; rotate_left)
       | (refine EffP.cut F s0 x ?_ ?_; unfold x; clear x; rotate_left; intro _; clear_value x; rotate_left)
       | clear_value x)
    | refine State.setLending_eff ?_ h_rf h_pwr _ _
    | refine State.reachLend_eff ?_ h_stp h_shelves h_ldg h_obs _
    | refine EffX.next ?_
    | refine Eff.ite ?_ ?_
    | refine EffX.ite ?_ ?_
    | split

theorem execShelfWithdrawn_eff (h : Eff F s0 s) (h_rf : F .rf = true) (h_mem : F .mem = true) (h_ecc : F .ecc = true) (h_cir : F .cir = true) (h_cat : F .cat = true) (h_bind : F .bind = true) (h_shelves : F .shelves = true) (h_kpr : F .kpr = true) (h_iln : F .iln = true) (h_crl : F .crl = true) (h_bel : F .bel = true) (h_ldg : F .ldg = true) (h_pwr : F .pwr = true) (h_obs : F .obs = true) (h_hostOut : F .hostOut = true) :
    ∀ a0, EffX F s0 (execShelfWithdrawn a0 s) := by
  intro a0
  unfold execShelfWithdrawn
  repeat' with_reducible first
    | assumption
    | refine State.withdraw_eff ?_ h_rf h_mem h_ecc h_cir h_cat h_bind h_shelves h_kpr h_iln h_crl h_bel h_ldg h_pwr h_obs h_hostOut _
    | refine EffX.next ?_
    | refine Eff.ite ?_ ?_
    | refine EffX.ite ?_ ?_
    | split

end Sys2Proof.Machine
end

