-- ==== Sys2Proof/Laws/FrameCarrels.lean ====
section
/-! SUPPORT. Frames of the operations of Machine/Carrels.lean: what each may change. -/

namespace Sys2Proof.Machine

variable {F : Comp → Bool} {s0 s : State}

theorem State.stopFetch_eff (h : Eff F s0 s) (h_rf : F .rf = true) (h_cir : F .cir = true) :
    ∀ a1, Eff F s0 (State.stopFetch s a1) := by
  intro a1
  unfold State.stopFetch
  repeat' with_reducible first
    | assumption
    | (extract_lets +onlyGivenNames x
       first
       | (refine Eff.cut F s0 x ?_ ?_; unfold x; clear x; rotate_left; intro _; clear_value x; rotate_left)
       | (refine EffP.cut F s0 x ?_ ?_; unfold x; clear x; rotate_left; intro _; clear_value x; rotate_left)
       | clear_value x)
    | refine State.setField_eff ?_ h_rf _ _ _ _
    | refine Eff.foldl ?_ (fun _ _ _ => ?_)
    | refine EffP.foldl ?_ (fun _ _ _ => ?_)
    | refine EffP.fst ?_
    | refine EffP.of_eq (by assumption) ?_
    | split
    | refine Eff.set_cir ?_ h_cir

theorem State.resetWork_eff (h : Eff F s0 s) (h_rf : F .rf = true) (h_mem : F .mem = true) (h_ecc : F .ecc = true) (h_cir : F .cir = true) (h_cat : F .cat = true) (h_bind : F .bind = true) (h_shelves : F .shelves = true) (h_kpr : F .kpr = true) (h_iln : F .iln = true) (h_bel : F .bel = true) (h_ldg : F .ldg = true) (h_pwr : F .pwr = true) (h_obs : F .obs = true) :
    ∀ a1, Eff F s0 (State.resetWork s a1) := by
  intro a1
  unfold State.resetWork
  repeat' with_reducible first
    | assumption
    | (extract_lets +onlyGivenNames x
       first
       | (refine Eff.cut F s0 x ?_ ?_; unfold x; clear x; rotate_left; intro _; clear_value x; rotate_left)
       | (refine EffP.cut F s0 x ?_ ?_; unfold x; clear x; rotate_left; intro _; clear_value x; rotate_left)
       | clear_value x)
    | refine State.stopFetch_eff ?_ h_rf h_cir _
    | refine State.discardSlip_eff ?_ h_rf h_mem h_ecc h_cir h_cat h_shelves h_iln h_bel h_ldg h_pwr h_obs _ _
    | refine Eff.foldl ?_ (fun _ _ _ => ?_)
    | refine EffP.foldl ?_ (fun _ _ _ => ?_)
    | refine EffP.fst ?_
    | refine EffP.of_eq (by assumption) ?_
    | split
    | refine Eff.set_cir_bind_kpr ?_ h_cir h_bind h_kpr

theorem State.squash_eff (h : Eff F s0 s) (h_kpr : F .kpr = true) (h_iln : F .iln = true) (h_crl : F .crl = true) :
    ∀ a1, Eff F s0 (State.squash s a1) := by
  intro a1
  unfold State.squash
  repeat' with_reducible first
    | assumption
    | (extract_lets +onlyGivenNames x
       first
       | (refine Eff.cut F s0 x ?_ ?_; unfold x; clear x; rotate_left; intro _; clear_value x; rotate_left)
       | (refine EffP.cut F s0 x ?_ ?_; unfold x; clear x; rotate_left; intro _; clear_value x; rotate_left)
       | clear_value x)
    | refine EffP.fst ?_
    | refine EffP.of_eq (by assumption) ?_
    | refine Eff.ite ?_ ?_
    | split
    | refine Eff.set_kpr_iln_crl ?_ h_kpr h_iln h_crl

theorem State.carrelReset_eff (h : Eff F s0 s) (h_rf : F .rf = true) (h_mem : F .mem = true) (h_ecc : F .ecc = true) (h_cir : F .cir = true) (h_cat : F .cat = true) (h_bind : F .bind = true) (h_shelves : F .shelves = true) (h_kpr : F .kpr = true) (h_iln : F .iln = true) (h_crl : F .crl = true) (h_bel : F .bel = true) (h_ldg : F .ldg = true) (h_pwr : F .pwr = true) (h_obs : F .obs = true) :
    ∀ a1 a2, Eff F s0 (State.carrelReset s a1 a2) := by
  intro a1 a2
  unfold State.carrelReset
  repeat' with_reducible first
    | assumption
    | (extract_lets +onlyGivenNames x
       first
       | (refine Eff.cut F s0 x ?_ ?_; unfold x; clear x; rotate_left; intro _; clear_value x; rotate_left)
       | (refine EffP.cut F s0 x ?_ ?_; unfold x; clear x; rotate_left; intro _; clear_value x; rotate_left)
       | clear_value x)
    | refine State.setCarrelState_eff ?_ h_rf _ _
    | refine State.resetWork_eff ?_ h_rf h_mem h_ecc h_cir h_cat h_bind h_shelves h_kpr h_iln h_bel h_ldg h_pwr h_obs _
    | refine State.squash_eff ?_ h_kpr h_iln h_crl _
    | refine Eff.ite ?_ ?_
    | split
    | refine Eff.set_crl ?_ h_crl

theorem State.clearMailbox_eff (h : Eff F s0 s) (h_rf : F .rf = true) :
    ∀ a1, Eff F s0 (State.clearMailbox s a1) := by
  intro a1
  unfold State.clearMailbox
  repeat' with_reducible first
    | assumption
    | refine State.setRegBit_eff ?_ h_rf _ _ _
    | refine State.setReg_eff ?_ h_rf _ _
    | refine Eff.foldl ?_ (fun _ _ _ => ?_)
    | refine EffP.fst ?_
    | refine EffP.of_eq (by assumption) ?_
    | split

theorem State.create_eff (h : Eff F s0 s) (h_rf : F .rf = true) (h_cir : F .cir = true) (h_cat : F .cat = true) (h_kpr : F .kpr = true) (h_iln : F .iln = true) (h_crl : F .crl = true) (h_hostOut : F .hostOut = true) :
    ∀ a1 a2, Eff F s0 (State.create s a1 a2) := by
  intro a1 a2
  unfold State.create
  repeat' with_reducible first
    | assumption
    | refine State.cmdDone_eff ?_ h_rf h_iln h_crl h_hostOut _
    | refine State.setReg_eff ?_ h_rf _ _
    | refine State.resetCarrelRegs_eff ?_ h_rf h_cir h_cat h_kpr h_crl _
    | refine Eff.ite ?_ ?_
    | split

theorem State.crlCmd_eff (h : Eff F s0 s) (h_rf : F .rf = true) (h_iln : F .iln = true) (h_crl : F .crl = true) (h_bel : F .bel = true) (h_hostOut : F .hostOut = true) (f0 : State → State) (h_f0 : ∀ y0, Eff F s0 y0 → Eff F s0 (f0 y0)) :
    ∀ a1 a2, Eff F s0 (State.crlCmd s a1 a2 f0) := by
  intro a1 a2
  unfold State.crlCmd
  repeat' with_reducible first
    | assumption
    | (extract_lets +onlyGivenNames x
       first
       | (refine Eff.cut F s0 x ?_ ?_; unfold x; clear x; rotate_left; intro _; clear_value x; rotate_left)
       | (refine EffP.cut F s0 x ?_ ?_; unfold x; clear x; rotate_left; intro _; clear_value x; rotate_left)
       | clear_value x)
    | refine State.bell_eff ?_ h_bel _ _
    | refine State.cmdDone_eff ?_ h_rf h_iln h_crl h_hostOut _
    | refine h_f0 _ ?_ 
    | refine EffP.fst ?_
    | refine EffP.of_eq (by assumption) ?_
    | refine EffP.ite ?_ ?_
    | refine Eff.ite ?_ ?_
    | split

theorem State.destroy_eff (h : Eff F s0 s) (h_freeCtr : F .freeCtr = true) (h_rf : F .rf = true) (h_mem : F .mem = true) (h_ecc : F .ecc = true) (h_cir : F .cir = true) (h_cat : F .cat = true) (h_bind : F .bind = true) (h_shelves : F .shelves = true) (h_kpr : F .kpr = true) (h_iln : F .iln = true) (h_crl : F .crl = true) (h_bel : F .bel = true) (h_ldg : F .ldg = true) (h_pwr : F .pwr = true) (h_obs : F .obs = true) (h_hostOut : F .hostOut = true) :
    ∀ a1, Eff F s0 (State.destroy s a1) := by
  intro a1
  unfold State.destroy
  repeat' with_reducible first
    | assumption
    | (extract_lets +onlyGivenNames x
       first
       | (refine Eff.cut F s0 x ?_ ?_; unfold x; clear x; rotate_left; intro _; clear_value x; rotate_left)
       | (refine EffP.cut F s0 x ?_ ?_; unfold x; clear x; rotate_left; intro _; clear_value x; rotate_left)
       | clear_value x)
    | refine State.setShelf_eff ?_ h_shelves _ _
    | refine State.ringOff_eff ?_ h_freeCtr h_rf h_mem h_ecc h_cir h_cat h_bind h_shelves h_kpr h_bel h_ldg h_pwr h_obs _
    | refine State.setReg_eff ?_ h_rf _ _
    | refine State.modKpr_eff ?_ h_kpr _
    | refine State.resetCarrelRegs_eff ?_ h_rf h_cir h_cat h_kpr h_crl _
    | refine State.destroyEnds_eff ?_ h_rf h_cir h_cat h_kpr h_iln h_crl h_hostOut _
    | refine State.cmdBusy_eff ?_ h_rf h_crl _
    | refine Eff.foldl ?_ (fun _ _ _ => ?_)
    | refine EffP.foldl ?_ (fun _ _ _ => ?_)
    | refine EffP.fst ?_
    | refine EffP.of_eq (by assumption) ?_
    | split
    | refine Eff.set_bind ?_ h_bind

theorem State.drainLimits_eff (h : Eff F s0 s) (h_kpr : F .kpr = true) (h_iln : F .iln = true) (h_crl : F .crl = true) :
    Eff F s0 (State.drainLimits s) := by
  unfold State.drainLimits
  repeat' with_reducible first
    | assumption
    | refine State.squash_eff ?_ h_kpr h_iln h_crl _
    | refine Eff.foldl ?_ (fun _ _ _ => ?_)
    | refine EffP.fst ?_
    | refine EffP.of_eq (by assumption) ?_
    | split

theorem State.dropDue_eff (h : Eff F s0 s) (h_rf : F .rf = true) (h_cir : F .cir = true) (h_cat : F .cat = true) :
    ∀ a1, Eff F s0 (State.dropDue s a1) := by
  intro a1
  unfold State.dropDue
  repeat' with_reducible first
    | assumption
    | refine State.receiptDrop_eff ?_ h_rf h_cat _
    | split
    | refine Eff.set_cir ?_ h_cir

theorem State.flushDue_eff (h : Eff F s0 s) (h_freeCtr : F .freeCtr = true) (h_rf : F .rf = true) (h_mem : F .mem = true) (h_ecc : F .ecc = true) (h_cir : F .cir = true) (h_cat : F .cat = true) (h_kpr : F .kpr = true) (h_iln : F .iln = true) (h_bel : F .bel = true) (h_ldg : F .ldg = true) (h_obs : F .obs = true) (h_hostOut : F .hostOut = true) :
    ∀ a1, Eff F s0 (State.flushDue s a1) := by
  intro a1
  unfold State.flushDue
  repeat' with_reducible first
    | assumption
    | refine State.dropDue_eff ?_ h_rf h_cir h_cat _
    | refine State.receiptBytes_eff ?_ h_freeCtr h_rf h_mem h_ecc h_kpr h_iln h_bel h_ldg h_obs h_hostOut _ _ _
    | refine State.ringStop_eff ?_ h_rf h_cir h_cat h_ldg _ _ _
    | refine State.receiptWritten_eff ?_ h_rf h_cir h_cat h_iln h_hostOut _ _
    | refine Eff.foldl ?_ (fun _ _ _ => ?_)
    | refine EffP.foldl ?_ (fun _ _ _ => ?_)
    | refine EffP.fst ?_
    | refine EffP.of_eq (by assumption) ?_
    | refine EffP.ite ?_ ?_
    | refine Eff.ite ?_ ?_
    | split
    | refine EffP.mk ?_ _

theorem State.resetSlips_eff (h : Eff F s0 s) (h_rf : F .rf = true) (h_cir : F .cir = true) (h_cat : F .cat = true) :
    ∀ a1 a2, Eff F s0 (State.resetSlips s a1 a2) := by
  intro a1 a2
  unfold State.resetSlips
  repeat' with_reducible first
    | assumption
    | refine State.retire_eff ?_ h_rf h_cir h_cat _ _ _
    | refine Eff.foldl ?_ (fun _ _ _ => ?_)
    | refine EffP.fst ?_
    | refine EffP.of_eq (by assumption) ?_
    | split

theorem State.resetRing_eff (h : Eff F s0 s) (h_freeCtr : F .freeCtr = true) (h_rf : F .rf = true) (h_mem : F .mem = true) (h_ecc : F .ecc = true) (h_cir : F .cir = true) (h_cat : F .cat = true) (h_bind : F .bind = true) (h_shelves : F .shelves = true) (h_kpr : F .kpr = true) (h_bel : F .bel = true) (h_ldg : F .ldg = true) (h_pwr : F .pwr = true) (h_obs : F .obs = true) :
    ∀ a1, Eff F s0 (State.resetRing s a1) := by
  intro a1
  unfold State.resetRing
  repeat' with_reducible first
    | assumption
    | refine State.setRegBit_eff ?_ h_rf _ _ _
    | refine State.ringOff_eff ?_ h_freeCtr h_rf h_mem h_ecc h_cir h_cat h_bind h_shelves h_kpr h_bel h_ldg h_pwr h_obs _
    | split

theorem State.resetEnds_eff (h : Eff F s0 s) (h_freeCtr : F .freeCtr = true) (h_rf : F .rf = true) (h_mem : F .mem = true) (h_ecc : F .ecc = true) (h_cir : F .cir = true) (h_cat : F .cat = true) (h_bind : F .bind = true) (h_shelves : F .shelves = true) (h_kpr : F .kpr = true) (h_iln : F .iln = true) (h_crl : F .crl = true) (h_bel : F .bel = true) (h_ldg : F .ldg = true) (h_pwr : F .pwr = true) (h_obs : F .obs = true) (h_hostOut : F .hostOut = true) :
    ∀ a1 a2, Eff F s0 (State.resetEnds s a1 a2) := by
  intro a1 a2
  unfold State.resetEnds
  repeat' with_reducible first
    | assumption
    | (extract_lets +onlyGivenNames x
       first
       | (refine Eff.cut F s0 x ?_ ?_; unfold x; clear x; rotate_left; intro _; clear_value x; rotate_left)
       | (refine EffP.cut F s0 x ?_ ?_; unfold x; clear x; rotate_left; intro _; clear_value x; rotate_left)
       | clear_value x)
    | refine State.flushDue_eff ?_ h_freeCtr h_rf h_mem h_ecc h_cir h_cat h_kpr h_iln h_bel h_ldg h_obs h_hostOut _
    | refine State.resetSlips_eff ?_ h_rf h_cir h_cat _ _
    | refine State.clearMailbox_eff ?_ h_rf _
    | refine State.resetRing_eff ?_ h_freeCtr h_rf h_mem h_ecc h_cir h_cat h_bind h_shelves h_kpr h_bel h_ldg h_pwr h_obs _
    | refine State.setCarrelState_eff ?_ h_rf _ _
    | refine State.countSat_eff ?_ h_rf _ _ _ _
    | refine State.settle_eff ?_ h_rf h_ecc h_cir h_cat h_bind h_kpr h_bel h_ldg h_obs
    | refine State.cmdEnds_eff ?_ h_rf h_iln h_crl h_hostOut _ _
    | refine State.goneSettle_eff ?_ h_kpr
    | refine State.log_eff ?_ h_rf h_ldg _ _ _ _ _ _ _
    | refine Eff.foldl ?_ (fun _ _ _ => ?_)
    | refine EffP.fst ?_
    | refine EffP.of_eq (by assumption) ?_
    | refine Eff.ite ?_ ?_
    | split
    | refine Eff.set_bind_crl ?_ h_bind h_crl

theorem State.drainComplete_eff (h : Eff F s0 s) (h_freeCtr : F .freeCtr = true) (h_rf : F .rf = true) (h_mem : F .mem = true) (h_ecc : F .ecc = true) (h_cir : F .cir = true) (h_cat : F .cat = true) (h_bind : F .bind = true) (h_shelves : F .shelves = true) (h_kpr : F .kpr = true) (h_iln : F .iln = true) (h_crl : F .crl = true) (h_bel : F .bel = true) (h_ldg : F .ldg = true) (h_pwr : F .pwr = true) (h_obs : F .obs = true) (h_hostOut : F .hostOut = true) :
    ∀ a1, Eff F s0 (State.drainComplete s a1) := by
  intro a1
  unfold State.drainComplete
  repeat' with_reducible first
    | assumption
    | (extract_lets +onlyGivenNames x
       first
       | (refine Eff.cut F s0 x ?_ ?_; unfold x; clear x; rotate_left; intro _; clear_value x; rotate_left)
       | (refine EffP.cut F s0 x ?_ ?_; unfold x; clear x; rotate_left; intro _; clear_value x; rotate_left)
       | clear_value x)
    | refine State.drainLimits_eff ?_ h_kpr h_iln h_crl
    | refine State.resetEnds_eff ?_ h_freeCtr h_rf h_mem h_ecc h_cir h_cat h_bind h_shelves h_kpr h_iln h_crl h_bel h_ldg h_pwr h_obs h_hostOut _ _
    | refine Eff.ite ?_ ?_
    | split

theorem State.drainLimit_eff (h : Eff F s0 s) (h_stp : F .stp = true) (h_shelves : F .shelves = true) (h_kpr : F .kpr = true) (h_iln : F .iln = true) (h_crl : F .crl = true) (h_ldg : F .ldg = true) (h_obs : F .obs = true) :
    ∀ a1, Eff F s0 (State.drainLimit s a1) := by
  intro a1
  unfold State.drainLimit
  repeat' with_reducible first
    | assumption
    | refine State.squash_eff ?_ h_kpr h_iln h_crl _
    | refine State.advance_eff ?_ h_stp h_shelves h_ldg h_obs _
    | refine Eff.ite ?_ ?_
    | split

theorem State.roomAdd_eff (h : Eff F s0 s) (h_rf : F .rf = true) (h_shelves : F .shelves = true) (h_iln : F .iln = true) (h_crl : F .crl = true) (h_hostOut : F .hostOut = true) :
    ∀ a1 a2, Eff F s0 (State.roomAdd s a1 a2) := by
  intro a1 a2
  unfold State.roomAdd
  repeat' with_reducible first
    | assumption
    | (extract_lets +onlyGivenNames x
       first
       | (refine Eff.cut F s0 x ?_ ?_; unfold x; clear x; rotate_left; intro _; clear_value x; rotate_left)
       | (refine EffP.cut F s0 x ?_ ?_; unfold x; clear x; rotate_left; intro _; clear_value x; rotate_left)
       | clear_value x)
    | refine State.cmdDone_eff ?_ h_rf h_iln h_crl h_hostOut _
    | refine State.cmdBusy_eff ?_ h_rf h_crl _
    | refine State.setShelf_eff ?_ h_shelves _ _
    | refine Eff.foldl ?_ (fun _ _ _ => ?_)
    | refine EffP.foldl ?_ (fun _ _ _ => ?_)
    | refine EffP.fst ?_
    | refine EffP.of_eq (by assumption) ?_
    | refine Eff.ite ?_ ?_
    | split

theorem State.roomCmd_eff (h : Eff F s0 s) (h_rf : F .rf = true) (h_iln : F .iln = true) (h_crl : F .crl = true) (h_bel : F .bel = true) (h_hostOut : F .hostOut = true) (f0 : State → State) (h_f0 : ∀ y0, Eff F s0 y0 → Eff F s0 (f0 y0)) :
    ∀ a1, Eff F s0 (State.roomCmd s a1 f0) := by
  intro a1
  unfold State.roomCmd
  repeat' with_reducible first
    | assumption
    | refine State.crlCmd_eff ?_ h_rf h_iln h_crl h_bel h_hostOut _ (fun _ _ => ?_) _ _
    | refine State.cmdDone_eff ?_ h_rf h_iln h_crl h_hostOut _
    | refine h_f0 _ ?_ 
    | refine EffP.fst ?_
    | refine EffP.of_eq (by assumption) ?_
    | refine EffP.ite ?_ ?_
    | refine Eff.ite ?_ ?_
    | split

theorem State.roomRemove_eff (h : Eff F s0 s) (h_rf : F .rf = true) (h_shelves : F .shelves = true) (h_iln : F .iln = true) (h_crl : F .crl = true) (h_hostOut : F .hostOut = true) :
    ∀ a1 a2, Eff F s0 (State.roomRemove s a1 a2) := by
  intro a1 a2
  unfold State.roomRemove
  repeat' with_reducible first
    | assumption
    | (extract_lets +onlyGivenNames x
       first
       | (refine Eff.cut F s0 x ?_ ?_; unfold x; clear x; rotate_left; intro _; clear_value x; rotate_left)
       | (refine EffP.cut F s0 x ?_ ?_; unfold x; clear x; rotate_left; intro _; clear_value x; rotate_left)
       | clear_value x)
    | refine State.cmdDone_eff ?_ h_rf h_iln h_crl h_hostOut _
    | refine State.setShelf_eff ?_ h_shelves _ _
    | refine State.tryLeave_eff ?_ h_rf h_shelves _
    | refine Eff.foldl ?_ (fun _ _ _ => ?_)
    | refine EffP.foldl ?_ (fun _ _ _ => ?_)
    | refine EffP.fst ?_
    | refine EffP.of_eq (by assumption) ?_
    | refine Eff.ite ?_ ?_
    | split

theorem State.shelfJoin_eff (h : Eff F s0 s) (h_rf : F .rf = true) (h_mem : F .mem = true) (h_ecc : F .ecc = true) (h_shelves : F .shelves = true) (h_iln : F .iln = true) (h_crl : F .crl = true) (h_hostOut : F .hostOut = true) :
    ∀ a1, Eff F s0 (State.shelfJoin s a1) := by
  intro a1
  unfold State.shelfJoin
  repeat' with_reducible first
    | assumption
    | (extract_lets +onlyGivenNames x
       first
       | (refine Eff.cut F s0 x ?_ ?_; unfold x; clear x; rotate_left; intro _; clear_value x; rotate_left)
       | (refine EffP.cut F s0 x ?_ ?_; unfold x; clear x; rotate_left; intro _; clear_value x; rotate_left)
       | clear_value x)
    | refine State.loadVolume_eff ?_ h_rf h_mem h_ecc _ _
    | refine State.setShelf_eff ?_ h_shelves _ _
    | refine State.cmdEnds_eff ?_ h_rf h_iln h_crl h_hostOut _ _
    | refine Eff.foldl ?_ (fun _ _ _ => ?_)
    | refine EffP.foldl ?_ (fun _ _ _ => ?_)
    | refine EffP.fst ?_
    | refine EffP.of_eq (by assumption) ?_
    | refine Eff.ite ?_ ?_
    | split

theorem execCarrelFrozen_eff (h : Eff F s0 s) (h_rf : F .rf = true) :
    ∀ a0, EffX F s0 (execCarrelFrozen a0 s) := by
  intro a0
  unfold execCarrelFrozen
  repeat' with_reducible first
    | assumption
    | refine State.orReg_eff ?_ h_rf _ _
    | refine State.setCarrelState_eff ?_ h_rf _ _
    | refine EffX.next ?_
    | refine Eff.ite ?_ ?_
    | refine EffX.ite ?_ ?_
    | split

theorem execCreate_eff (h : Eff F s0 s) (h_rf : F .rf = true) (h_cir : F .cir = true) (h_cat : F .cat = true) (h_kpr : F .kpr = true) (h_iln : F .iln = true) (h_crl : F .crl = true) (h_bel : F .bel = true) (h_hostOut : F .hostOut = true) :
    ∀ a0 a1, EffX F s0 (execCreate a0 a1 s) := by
  intro a0 a1
  unfold execCreate
  repeat' with_reducible first
    | assumption
    | refine State.crlCmd_eff ?_ h_rf h_iln h_crl h_bel h_hostOut _ (fun _ _ => ?_) _ _
    | refine State.create_eff ?_ h_rf h_cir h_cat h_kpr h_iln h_crl h_hostOut _ _
    | refine EffX.next ?_
    | split

theorem execDestroy_eff (h : Eff F s0 s) (h_freeCtr : F .freeCtr = true) (h_rf : F .rf = true) (h_mem : F .mem = true) (h_ecc : F .ecc = true) (h_cir : F .cir = true) (h_cat : F .cat = true) (h_bind : F .bind = true) (h_shelves : F .shelves = true) (h_kpr : F .kpr = true) (h_iln : F .iln = true) (h_crl : F .crl = true) (h_bel : F .bel = true) (h_ldg : F .ldg = true) (h_pwr : F .pwr = true) (h_obs : F .obs = true) (h_hostOut : F .hostOut = true) :
    ∀ a0, EffX F s0 (execDestroy a0 s) := by
  intro a0
  unfold execDestroy
  repeat' with_reducible first
    | assumption
    | refine State.crlCmd_eff ?_ h_rf h_iln h_crl h_bel h_hostOut _ (fun _ _ => ?_) _ _
    | refine State.destroy_eff ?_ h_freeCtr h_rf h_mem h_ecc h_cir h_cat h_bind h_shelves h_kpr h_iln h_crl h_bel h_ldg h_pwr h_obs h_hostOut _
    | refine EffX.next ?_
    | split

theorem execDrainComplete_eff (h : Eff F s0 s) (h_freeCtr : F .freeCtr = true) (h_rf : F .rf = true) (h_mem : F .mem = true) (h_ecc : F .ecc = true) (h_cir : F .cir = true) (h_cat : F .cat = true) (h_bind : F .bind = true) (h_shelves : F .shelves = true) (h_kpr : F .kpr = true) (h_iln : F .iln = true) (h_crl : F .crl = true) (h_bel : F .bel = true) (h_ldg : F .ldg = true) (h_pwr : F .pwr = true) (h_obs : F .obs = true) (h_hostOut : F .hostOut = true) :
    ∀ a0, EffX F s0 (execDrainComplete a0 s) := by
  intro a0
  unfold execDrainComplete
  repeat' with_reducible first
    | assumption
    | refine State.drainComplete_eff ?_ h_freeCtr h_rf h_mem h_ecc h_cir h_cat h_bind h_shelves h_kpr h_iln h_crl h_bel h_ldg h_pwr h_obs h_hostOut _
    | refine EffX.next ?_
    | refine Eff.ite ?_ ?_
    | refine EffX.ite ?_ ?_
    | split

theorem execDrainLimit_eff (h : Eff F s0 s) (h_stp : F .stp = true) (h_shelves : F .shelves = true) (h_kpr : F .kpr = true) (h_iln : F .iln = true) (h_crl : F .crl = true) (h_ldg : F .ldg = true) (h_obs : F .obs = true) :
    ∀ a0, EffX F s0 (execDrainLimit a0 s) := by
  intro a0
  unfold execDrainLimit
  repeat' with_reducible first
    | assumption
    | refine State.drainLimit_eff ?_ h_stp h_shelves h_kpr h_iln h_crl h_ldg h_obs _
    | refine EffX.next ?_
    | refine Eff.ite ?_ ?_
    | refine EffX.ite ?_ ?_
    | split

theorem execFreeze_eff (h : Eff F s0 s) (h_rf : F .rf = true) (h_iln : F .iln = true) (h_crl : F .crl = true) (h_bel : F .bel = true) (h_hostOut : F .hostOut = true) :
    ∀ a0, EffX F s0 (execFreeze a0 s) := by
  intro a0
  unfold execFreeze
  repeat' with_reducible first
    | assumption
    | refine State.crlCmd_eff ?_ h_rf h_iln h_crl h_bel h_hostOut _ (fun _ _ => ?_) _ _
    | refine State.cmdDone_eff ?_ h_rf h_iln h_crl h_hostOut _
    | refine State.setCarrelState_eff ?_ h_rf _ _
    | refine EffX.next ?_
    | refine Eff.ite ?_ ?_
    | refine EffX.ite ?_ ?_
    | split

theorem execOpenCarrel_eff (h : Eff F s0 s) (h_rf : F .rf = true) (h_ecc : F .ecc = true) (h_cir : F .cir = true) (h_cat : F .cat = true) (h_bind : F .bind = true) (h_kpr : F .kpr = true) (h_iln : F .iln = true) (h_crl : F .crl = true) (h_bel : F .bel = true) (h_ldg : F .ldg = true) (h_obs : F .obs = true) (h_hostOut : F .hostOut = true) :
    ∀ a0, EffX F s0 (execOpenCarrel a0 s) := by
  intro a0
  unfold execOpenCarrel
  repeat' with_reducible first
    | assumption
    | refine State.crlCmd_eff ?_ h_rf h_iln h_crl h_bel h_hostOut _ (fun _ _ => ?_) _ _
    | refine State.cmdDone_eff ?_ h_rf h_iln h_crl h_hostOut _
    | refine State.settle_eff ?_ h_rf h_ecc h_cir h_cat h_bind h_kpr h_bel h_ldg h_obs
    | refine State.setCarrelState_eff ?_ h_rf _ _
    | refine EffX.next ?_
    | split

theorem execReset_eff (h : Eff F s0 s) (h_rf : F .rf = true) (h_mem : F .mem = true) (h_ecc : F .ecc = true) (h_cir : F .cir = true) (h_cat : F .cat = true) (h_bind : F .bind = true) (h_shelves : F .shelves = true) (h_kpr : F .kpr = true) (h_iln : F .iln = true) (h_crl : F .crl = true) (h_bel : F .bel = true) (h_ldg : F .ldg = true) (h_pwr : F .pwr = true) (h_obs : F .obs = true) (h_hostOut : F .hostOut = true) :
    ∀ a0 a1, EffX F s0 (execReset a0 a1 s) := by
  intro a0 a1
  unfold execReset
  repeat' with_reducible first
    | assumption
    | refine State.crlCmd_eff ?_ h_rf h_iln h_crl h_bel h_hostOut _ (fun _ _ => ?_) _ _
    | refine State.carrelReset_eff ?_ h_rf h_mem h_ecc h_cir h_cat h_bind h_shelves h_kpr h_iln h_crl h_bel h_ldg h_pwr h_obs _ _
    | refine State.cmdBusy_eff ?_ h_rf h_crl _
    | refine EffX.next ?_
    | split

theorem execRoomAdd_eff (h : Eff F s0 s) (h_rf : F .rf = true) (h_shelves : F .shelves = true) (h_iln : F .iln = true) (h_crl : F .crl = true) (h_bel : F .bel = true) (h_hostOut : F .hostOut = true) :
    ∀ a0 a1, EffX F s0 (execRoomAdd a0 a1 s) := by
  intro a0 a1
  unfold execRoomAdd
  repeat' with_reducible first
    | assumption
    | refine State.roomCmd_eff ?_ h_rf h_iln h_crl h_bel h_hostOut _ (fun _ _ => ?_) _
    | refine State.roomAdd_eff ?_ h_rf h_shelves h_iln h_crl h_hostOut _ _
    | refine EffX.next ?_
    | split

theorem execRoomRemove_eff (h : Eff F s0 s) (h_rf : F .rf = true) (h_shelves : F .shelves = true) (h_iln : F .iln = true) (h_crl : F .crl = true) (h_bel : F .bel = true) (h_hostOut : F .hostOut = true) :
    ∀ a0 a1, EffX F s0 (execRoomRemove a0 a1 s) := by
  intro a0 a1
  unfold execRoomRemove
  repeat' with_reducible first
    | assumption
    | refine State.roomCmd_eff ?_ h_rf h_iln h_crl h_bel h_hostOut _ (fun _ _ => ?_) _
    | refine State.roomRemove_eff ?_ h_rf h_shelves h_iln h_crl h_hostOut _ _
    | refine EffX.next ?_
    | split

theorem execShelfJoin_eff (h : Eff F s0 s) (h_rf : F .rf = true) (h_mem : F .mem = true) (h_ecc : F .ecc = true) (h_shelves : F .shelves = true) (h_iln : F .iln = true) (h_crl : F .crl = true) (h_hostOut : F .hostOut = true) :
    ∀ a0, EffX F s0 (execShelfJoin a0 s) := by
  intro a0
  unfold execShelfJoin
  repeat' with_reducible first
    | assumption
    | refine State.shelfJoin_eff ?_ h_rf h_mem h_ecc h_shelves h_iln h_crl h_hostOut _
    | refine EffX.next ?_
    | refine Eff.ite ?_ ?_
    | refine EffX.ite ?_ ?_
    | split

theorem execThaw_eff (h : Eff F s0 s) (h_rf : F .rf = true) (h_ecc : F .ecc = true) (h_cir : F .cir = true) (h_cat : F .cat = true) (h_bind : F .bind = true) (h_kpr : F .kpr = true) (h_iln : F .iln = true) (h_crl : F .crl = true) (h_bel : F .bel = true) (h_ldg : F .ldg = true) (h_obs : F .obs = true) (h_hostOut : F .hostOut = true) :
    ∀ a0, EffX F s0 (execThaw a0 s) := by
  intro a0
  unfold execThaw
  repeat' with_reducible first
    | assumption
    | refine State.crlCmd_eff ?_ h_rf h_iln h_crl h_bel h_hostOut _ (fun _ _ => ?_) _ _
    | refine State.cmdDone_eff ?_ h_rf h_iln h_crl h_hostOut _
    | refine State.settle_eff ?_ h_rf h_ecc h_cir h_cat h_bind h_kpr h_bel h_ldg h_obs
    | refine State.setCarrelState_eff ?_ h_rf _ _
    | refine EffX.next ?_
    | split

end Sys2Proof.Machine
end

