-- ==== Sys2Proof/Laws/FrameImage.lean ====
section
/-! SUPPORT. Frames of the operations of Machine/Image.lean: what each may change. -/

namespace Sys2Proof.Machine

variable {F : Comp → Bool} {s0 s : State}

theorem State.applySetting_eff (h : Eff F s0 s) (h_rf : F .rf = true) (h_cir : F .cir = true) :
    ∀ a1 a2 a3, Eff F s0 (State.applySetting s a1 a2 a3) := by
  intro a1 a2 a3
  unfold State.applySetting
  repeat' with_reducible first
    | assumption
    | refine State.shareWrite_eff ?_ h_rf _ _
    | refine State.enqLimit_eff ?_ h_rf h_cir _ _
    | refine State.setReg_eff ?_ h_rf _ _
    | refine Eff.ite ?_ ?_
    | split

theorem State.readImage_eff (h : Eff F s0 s) (h_rf : F .rf = true) (h_ecc : F .ecc = true) (h_kpr : F .kpr = true) (h_bel : F .bel = true) (h_ldg : F .ldg = true) (h_obs : F .obs = true) :
    ∀ a1, EffP F s0 (State.readImage s a1) := by
  intro a1
  unfold State.readImage
  repeat' with_reducible first
    | assumption
    | (extract_lets +onlyGivenNames x
       first
       | (refine Eff.cut F s0 x ?_ ?_; unfold x; clear x; rotate_left; intro _; clear_value x; rotate_left)
       | (refine EffP.cut F s0 x ?_ ?_; unfold x; clear x; rotate_left; intro _; clear_value x; rotate_left)
       | clear_value x)
    | refine State.readFor_eff ?_ h_rf h_ecc h_kpr h_bel h_ldg h_obs _ _ _ _
    | refine EffP.fst ?_
    | refine EffP.of_eq (by assumption) ?_
    | refine EffP.ite ?_ ?_
    | refine Eff.ite ?_ ?_
    | split
    | refine EffP.mk ?_ _

theorem State.restoreHolding_eff (h : Eff F s0 s) (h_kpr : F .kpr = true) :
    ∀ a1, Eff F s0 (State.restoreHolding s a1) := by
  intro a1
  unfold State.restoreHolding
  repeat' with_reducible first
    | assumption
    | (extract_lets +onlyGivenNames x
       first
       | (refine Eff.cut F s0 x ?_ ?_; unfold x; clear x; rotate_left; intro _; clear_value x; rotate_left)
       | (refine EffP.cut F s0 x ?_ ?_; unfold x; clear x; rotate_left; intro _; clear_value x; rotate_left)
       | clear_value x)
    | refine State.setHolding_eff ?_ h_kpr _
    | refine State.modLeaf_eff ?_ h_kpr _ _ _
    | refine Eff.foldl ?_ (fun _ _ _ => ?_)
    | refine EffP.fst ?_
    | refine EffP.of_eq (by assumption) ?_
    | refine Eff.ite ?_ ?_
    | split

theorem State.restoreRing_eff (h : Eff F s0 s) (h_rf : F .rf = true) (h_cir : F .cir = true) :
    ∀ a1 a2 a3, Eff F s0 (State.restoreRing s a1 a2 a3) := by
  intro a1 a2 a3
  unfold State.restoreRing
  repeat' with_reducible first
    | assumption
    | (extract_lets +onlyGivenNames x
       first
       | (refine Eff.cut F s0 x ?_ ?_; unfold x; clear x; rotate_left; intro _; clear_value x; rotate_left)
       | (refine EffP.cut F s0 x ?_ ?_; unfold x; clear x; rotate_left; intro _; clear_value x; rotate_left)
       | clear_value x)
    | refine State.setReg_eff ?_ h_rf _ _
    | refine Eff.foldl ?_ (fun _ _ _ => ?_)
    | refine EffP.foldl ?_ (fun _ _ _ => ?_)
    | refine EffP.fst ?_
    | refine EffP.of_eq (by assumption) ?_
    | split
    | refine Eff.set_cir ?_ h_cir

theorem State.restoreVolume_eff (h : Eff F s0 s) (h_rf : F .rf = true) (h_mem : F .mem = true) (h_ecc : F .ecc = true) (h_bind : F .bind = true) :
    ∀ a1 a2 a3, Eff F s0 (State.restoreVolume s a1 a2 a3) := by
  intro a1 a2 a3
  unfold State.restoreVolume
  repeat' with_reducible first
    | assumption
    | (extract_lets +onlyGivenNames x
       first
       | (refine Eff.cut F s0 x ?_ ?_; unfold x; clear x; rotate_left; intro _; clear_value x; rotate_left)
       | (refine EffP.cut F s0 x ?_ ?_; unfold x; clear x; rotate_left; intro _; clear_value x; rotate_left)
       | clear_value x)
    | refine State.loadVolume_eff ?_ h_rf h_mem h_ecc _ _
    | refine Eff.foldl ?_ (fun _ _ _ => ?_)
    | refine EffP.fst ?_
    | refine EffP.of_eq (by assumption) ?_
    | split
    | refine Eff.set_bind ?_ h_bind

theorem State.restoreLaunch_eff (h : Eff F s0 s) (h_rf : F .rf = true) (h_ecc : F .ecc = true) (h_cat : F .cat = true) (h_kpr : F .kpr = true) (h_bel : F .bel = true) (h_ldg : F .ldg = true) (h_obs : F .obs = true) :
    ∀ a1 a2 a3, Eff F s0 (State.restoreLaunch s a1 a2 a3) := by
  intro a1 a2 a3
  unfold State.restoreLaunch
  repeat' with_reducible first
    | assumption
    | (extract_lets +onlyGivenNames x
       first
       | (refine Eff.cut F s0 x ?_ ?_; unfold x; clear x; rotate_left; intro _; clear_value x; rotate_left)
       | (refine EffP.cut F s0 x ?_ ?_; unfold x; clear x; rotate_left; intro _; clear_value x; rotate_left)
       | clear_value x)
    | refine State.readKernel_eff ?_ h_rf h_ecc h_kpr h_bel h_ldg h_obs _
    | refine State.setSlip_eff ?_ h_cat _ _
    | refine EffP.fst ?_
    | refine EffP.of_eq (by assumption) ?_
    | refine EffP.ite ?_ ?_
    | refine Eff.ite ?_ ?_
    | split
    | refine Eff.set_cat ?_ h_cat
    | refine EffP.mk ?_ _

theorem State.restoreLaunches_eff (h : Eff F s0 s) (h_rf : F .rf = true) (h_ecc : F .ecc = true) (h_cat : F .cat = true) (h_kpr : F .kpr = true) (h_bel : F .bel = true) (h_ldg : F .ldg = true) (h_obs : F .obs = true) :
    ∀ a1 a2, Eff F s0 (State.restoreLaunches s a1 a2) := by
  intro a1 a2
  unfold State.restoreLaunches
  repeat' with_reducible first
    | assumption
    | refine State.restoreLaunch_eff ?_ h_rf h_ecc h_cat h_kpr h_bel h_ldg h_obs _ _ _
    | refine Eff.foldl ?_ (fun _ _ _ => ?_)
    | refine EffP.fst ?_
    | refine EffP.of_eq (by assumption) ?_
    | refine Eff.ite ?_ ?_
    | split

theorem State.restoreRecords_eff (h : Eff F s0 s) (h_cir : F .cir = true) (h_cat : F .cat = true) :
    ∀ a1 a2 a3 a4, Eff F s0 (State.restoreRecords s a1 a2 a3 a4) := by
  intro a1 a2 a3 a4
  induction a4 generalizing s a1 a2 a3 with
  | nil => exact h
  | cons q qs ih =>
    rw [State.restoreRecords]
    repeat' with_reducible first
      | assumption
      | (extract_lets +onlyGivenNames x
         first
         | (refine Eff.cut F s0 x ?_ ?_; unfold x; clear x; rotate_left; intro _; clear_value x; rotate_left)
         | (refine EffP.cut F s0 x ?_ ?_; unfold x; clear x; rotate_left; intro _; clear_value x; rotate_left)
         | clear_value x)
      | refine State.setSlip_eff ?_ h_cat _ _
      | apply ih
      | refine Eff.ite ?_ ?_
      | split
      | refine Eff.set_cir ?_ h_cir
      | refine Eff.set_cat ?_ h_cat

theorem State.restoreRun_eff (h : Eff F s0 s) (h_rf : F .rf = true) (h_mem : F .mem = true) (h_ecc : F .ecc = true) (h_cir : F .cir = true) (h_cat : F .cat = true) (h_bind : F .bind = true) (h_kpr : F .kpr = true) (h_iln : F .iln = true) (h_crl : F .crl = true) (h_bel : F .bel = true) (h_ldg : F .ldg = true) (h_obs : F .obs = true) (h_hostOut : F .hostOut = true) :
    ∀ a1 a2 a3, Eff F s0 (State.restoreRun s a1 a2 a3) := by
  intro a1 a2 a3
  unfold State.restoreRun
  repeat' with_reducible first
    | assumption
    | (extract_lets +onlyGivenNames x
       first
       | (refine Eff.cut F s0 x ?_ ?_; unfold x; clear x; rotate_left; intro _; clear_value x; rotate_left)
       | (refine EffP.cut F s0 x ?_ ?_; unfold x; clear x; rotate_left; intro _; clear_value x; rotate_left)
       | clear_value x)
    | refine State.applySetting_eff ?_ h_rf h_cir _ _ _
    | refine State.restoreHolding_eff ?_ h_kpr _
    | refine State.restoreRing_eff ?_ h_rf h_cir _ _ _
    | refine State.restoreVolume_eff ?_ h_rf h_mem h_ecc h_bind _ _ _
    | refine State.restoreLaunches_eff ?_ h_rf h_ecc h_cat h_kpr h_bel h_ldg h_obs _ _
    | refine State.restoreRecords_eff ?_ h_cir h_cat _ _ _ _
    | refine State.cmdDone_eff ?_ h_rf h_iln h_crl h_hostOut _
    | refine State.orReg_eff ?_ h_rf _ _
    | refine State.setCarrelState_eff ?_ h_rf _ _
    | refine Eff.foldl ?_ (fun _ _ _ => ?_)
    | refine EffP.fst ?_
    | refine EffP.of_eq (by assumption) ?_
    | split

theorem State.restore_eff (h : Eff F s0 s) (h_rf : F .rf = true) (h_mem : F .mem = true) (h_ecc : F .ecc = true) (h_cir : F .cir = true) (h_cat : F .cat = true) (h_bind : F .bind = true) (h_kpr : F .kpr = true) (h_iln : F .iln = true) (h_crl : F .crl = true) (h_bel : F .bel = true) (h_ldg : F .ldg = true) (h_obs : F .obs = true) (h_hostOut : F .hostOut = true) :
    ∀ a1, Eff F s0 (State.restore s a1) := by
  intro a1
  unfold State.restore
  repeat' with_reducible first
    | assumption
    | refine State.readImage_eff ?_ h_rf h_ecc h_kpr h_bel h_ldg h_obs _
    | refine State.cmdDone_eff ?_ h_rf h_iln h_crl h_hostOut _
    | refine State.restoreRun_eff ?_ h_rf h_mem h_ecc h_cir h_cat h_bind h_kpr h_iln h_crl h_bel h_ldg h_obs h_hostOut _ _ _
    | refine EffP.fst ?_
    | refine EffP.of_eq (by assumption) ?_
    | refine EffP.ite ?_ ?_
    | refine Eff.ite ?_ ?_
    | split
    | refine EffP.mk ?_ _

theorem State.save_eff (h : Eff F s0 s) (h_freeCtr : F .freeCtr = true) (h_rf : F .rf = true) (h_mem : F .mem = true) (h_ecc : F .ecc = true) (h_kpr : F .kpr = true) (h_iln : F .iln = true) (h_crl : F .crl = true) (h_bel : F .bel = true) (h_ldg : F .ldg = true) (h_obs : F .obs = true) (h_hostOut : F .hostOut = true) :
    ∀ a1, Eff F s0 (State.save s a1) := by
  intro a1
  unfold State.save
  repeat' with_reducible first
    | assumption
    | (extract_lets +onlyGivenNames x
       first
       | (refine Eff.cut F s0 x ?_ ?_; unfold x; clear x; rotate_left; intro _; clear_value x; rotate_left)
       | (refine EffP.cut F s0 x ?_ ?_; unfold x; clear x; rotate_left; intro _; clear_value x; rotate_left)
       | clear_value x)
    | refine State.writeFor_eff ?_ h_freeCtr h_rf h_mem h_ecc h_kpr h_bel h_ldg h_obs _ _ _ _
    | refine State.cmdDone_eff ?_ h_rf h_iln h_crl h_hostOut _
    | refine State.setField_eff ?_ h_rf _ _ _ _
    | refine EffP.fst ?_
    | refine EffP.of_eq (by assumption) ?_
    | split
    | refine EffP.mk ?_ _

theorem execRestore_eff (h : Eff F s0 s) (h_rf : F .rf = true) (h_mem : F .mem = true) (h_ecc : F .ecc = true) (h_cir : F .cir = true) (h_cat : F .cat = true) (h_bind : F .bind = true) (h_kpr : F .kpr = true) (h_iln : F .iln = true) (h_crl : F .crl = true) (h_bel : F .bel = true) (h_ldg : F .ldg = true) (h_obs : F .obs = true) (h_hostOut : F .hostOut = true) :
    ∀ a0, EffX F s0 (execRestore a0 s) := by
  intro a0
  unfold execRestore
  repeat' with_reducible first
    | assumption
    | refine State.crlCmd_eff ?_ h_rf h_iln h_crl h_bel h_hostOut _ (fun _ _ => ?_) _ _
    | refine State.restore_eff ?_ h_rf h_mem h_ecc h_cir h_cat h_bind h_kpr h_iln h_crl h_bel h_ldg h_obs h_hostOut _
    | refine EffX.next ?_
    | split

theorem execSave_eff (h : Eff F s0 s) (h_freeCtr : F .freeCtr = true) (h_rf : F .rf = true) (h_mem : F .mem = true) (h_ecc : F .ecc = true) (h_kpr : F .kpr = true) (h_iln : F .iln = true) (h_crl : F .crl = true) (h_bel : F .bel = true) (h_ldg : F .ldg = true) (h_obs : F .obs = true) (h_hostOut : F .hostOut = true) :
    ∀ a0, EffX F s0 (execSave a0 s) := by
  intro a0
  unfold execSave
  repeat' with_reducible first
    | assumption
    | refine State.crlCmd_eff ?_ h_rf h_iln h_crl h_bel h_hostOut _ (fun _ _ => ?_) _ _
    | refine State.save_eff ?_ h_freeCtr h_rf h_mem h_ecc h_kpr h_iln h_crl h_bel h_ldg h_obs h_hostOut _
    | refine EffX.next ?_
    | split

end Sys2Proof.Machine
end

