-- ==== Sys2Proof/Laws/FrameMailbox.lean ====
section
/-! SUPPORT. Frames of the operations of Machine/Mailbox.lean: what each may change. -/

namespace Sys2Proof.Machine

variable {F : Comp → Bool} {s0 s : State}

theorem State.setDown_eff (h : Eff F s0 s) (h_rf : F .rf = true) (h_iln : F .iln = true) (h_hostOut : F .hostOut = true) :
    ∀ a1, Eff F s0 (State.setDown s a1) := by
  intro a1
  unfold State.setDown
  repeat' with_reducible first
    | assumption
    | (extract_lets +onlyGivenNames x
       first
       | (refine Eff.cut F s0 x ?_ ?_; unfold x; clear x; rotate_left; intro _; clear_value x; rotate_left)
       | (refine EffP.cut F s0 x ?_ ?_; unfold x; clear x; rotate_left; intro _; clear_value x; rotate_left)
       | clear_value x)
    | refine State.setRegBit_eff ?_ h_rf _ _ _
    | refine State.hostWrite_eff ?_ h_iln h_hostOut _ _ _ _
    | refine Eff.ite ?_ ?_
    | split

theorem State.mboxReply_eff (h : Eff F s0 s) (h_rf : F .rf = true) (h_iln : F .iln = true) (h_hostOut : F .hostOut = true) :
    ∀ a1 a2, Eff F s0 (State.mboxReply s a1 a2) := by
  intro a1 a2
  unfold State.mboxReply
  repeat' with_reducible first
    | assumption
    | refine State.setRegBit_eff ?_ h_rf _ _ _
    | refine State.setDown_eff ?_ h_rf h_iln h_hostOut _
    | refine State.setReg_eff ?_ h_rf _ _
    | refine Eff.foldl ?_ (fun _ _ _ => ?_)
    | refine EffP.fst ?_
    | refine EffP.of_eq (by assumption) ?_
    | split

theorem State.badRequest_eff (h : Eff F s0 s) (h_rf : F .rf = true) (h_iln : F .iln = true) (h_hostOut : F .hostOut = true) :
    ∀ a1, Eff F s0 (State.badRequest s a1) := by
  intro a1
  unfold State.badRequest
  repeat' with_reducible first
    | assumption
    | refine State.mboxReply_eff ?_ h_rf h_iln h_hostOut _ _
    | refine Eff.ite ?_ ?_
    | split

theorem State.cancelReply_eff (h : Eff F s0 s) (h_rf : F .rf = true) (h_iln : F .iln = true) (h_hostOut : F .hostOut = true) :
    ∀ a1, Eff F s0 (State.cancelReply s a1) := by
  intro a1
  unfold State.cancelReply
  repeat' with_reducible first
    | assumption
    | refine State.mboxReply_eff ?_ h_rf h_iln h_hostOut _ _
    | split

theorem State.clearUp_eff (h : Eff F s0 s) (h_rf : F .rf = true) :
    ∀ a1, Eff F s0 (State.clearUp s a1) := by
  intro a1
  unfold State.clearUp
  repeat' with_reducible first
    | assumption
    | refine State.setRegBit_eff ?_ h_rf _ _ _
    | split

theorem State.downClear_eff (h : Eff F s0 s) (h_rf : F .rf = true) (h_iln : F .iln = true) (h_hostOut : F .hostOut = true) :
    ∀ a1, Eff F s0 (State.downClear s a1) := by
  intro a1
  unfold State.downClear
  repeat' with_reducible first
    | assumption
    | refine State.badRequest_eff ?_ h_rf h_iln h_hostOut _
    | refine State.setRegBit_eff ?_ h_rf _ _ _
    | refine Eff.ite ?_ ?_
    | split

theorem State.mboxDrop_eff (h : Eff F s0 s) (h_rf : F .rf = true) :
    ∀ a1 a2, Eff F s0 (State.mboxDrop s a1 a2) := by
  intro a1 a2
  unfold State.mboxDrop
  repeat' with_reducible first
    | assumption
    | refine State.countSat_eff ?_ h_rf _ _ _ _
    | refine Eff.ite ?_ ?_
    | split

theorem State.downSet_eff (h : Eff F s0 s) (h_rf : F .rf = true) (h_iln : F .iln = true) (h_hostOut : F .hostOut = true) :
    ∀ a1, Eff F s0 (State.downSet s a1) := by
  intro a1
  unfold State.downSet
  repeat' with_reducible first
    | assumption
    | refine State.mboxDrop_eff ?_ h_rf _ _
    | refine State.setDown_eff ?_ h_rf h_iln h_hostOut _
    | refine Eff.ite ?_ ?_
    | split

theorem State.mboxWrite_eff (h : Eff F s0 s) (h_rf : F .rf = true) :
    ∀ a1 a2 a3 a4, Eff F s0 (State.mboxWrite s a1 a2 a3 a4) := by
  intro a1 a2 a3 a4
  unfold State.mboxWrite
  repeat' with_reducible first
    | assumption
    | refine State.mboxDrop_eff ?_ h_rf _ _
    | refine State.setReg_eff ?_ h_rf _ _
    | refine Eff.ite ?_ ?_
    | split

theorem State.query_eff (h : Eff F s0 s) (h_freeCtr : F .freeCtr = true) (h_rf : F .rf = true) (h_mem : F .mem = true) (h_ecc : F .ecc = true) (h_kpr : F .kpr = true) (h_iln : F .iln = true) (h_bel : F .bel = true) (h_ldg : F .ldg = true) (h_obs : F .obs = true) (h_hostOut : F .hostOut = true) :
    ∀ a1, Eff F s0 (State.query s a1) := by
  intro a1
  unfold State.query
  repeat' with_reducible first
    | assumption
    | (extract_lets +onlyGivenNames x
       first
       | (refine Eff.cut F s0 x ?_ ?_; unfold x; clear x; rotate_left; intro _; clear_value x; rotate_left)
       | (refine EffP.cut F s0 x ?_ ?_; unfold x; clear x; rotate_left; intro _; clear_value x; rotate_left)
       | clear_value x)
    | refine State.mboxReply_eff ?_ h_rf h_iln h_hostOut _ _
    | refine State.writeFor_eff ?_ h_freeCtr h_rf h_mem h_ecc h_kpr h_bel h_ldg h_obs _ _ _ _
    | refine EffP.fst ?_
    | refine EffP.of_eq (by assumption) ?_
    | refine EffP.ite ?_ ?_
    | refine Eff.ite ?_ ?_
    | split
    | refine EffP.mk ?_ _

theorem State.upSet_eff (h : Eff F s0 s) (h_rf : F .rf = true) (h_iln : F .iln = true) (h_bel : F .bel = true) (h_hostOut : F .hostOut = true) :
    ∀ a1, Eff F s0 (State.upSet s a1) := by
  intro a1
  unfold State.upSet
  repeat' with_reducible first
    | assumption
    | (extract_lets +onlyGivenNames x
       first
       | (refine Eff.cut F s0 x ?_ ?_; unfold x; clear x; rotate_left; intro _; clear_value x; rotate_left)
       | (refine EffP.cut F s0 x ?_ ?_; unfold x; clear x; rotate_left; intro _; clear_value x; rotate_left)
       | clear_value x)
    | refine State.mboxDrop_eff ?_ h_rf _ _
    | refine State.bell_eff ?_ h_bel _ _
    | refine State.setRegBit_eff ?_ h_rf _ _ _
    | refine State.mgrNotify_eff ?_ h_iln h_hostOut
    | refine State.badRequest_eff ?_ h_rf h_iln h_hostOut _
    | refine Eff.ite ?_ ?_
    | split

theorem execCancelAll_eff (h : Eff F s0 s) (h_rf : F .rf = true) (h_ecc : F .ecc = true) (h_cir : F .cir = true) (h_cat : F .cat = true) (h_bind : F .bind = true) (h_kpr : F .kpr = true) (h_iln : F .iln = true) (h_bel : F .bel = true) (h_ldg : F .ldg = true) (h_obs : F .obs = true) (h_hostOut : F .hostOut = true) :
    ∀ a0, EffX F s0 (execCancelAll a0 s) := by
  intro a0
  unfold execCancelAll
  repeat' with_reducible first
    | assumption
    | refine State.cancelReply_eff ?_ h_rf h_iln h_hostOut _
    | refine State.cancelCarrel_eff ?_ h_rf h_ecc h_cir h_cat h_bind h_kpr h_bel h_ldg h_obs _
    | refine EffX.next ?_
    | refine Eff.ite ?_ ?_
    | refine EffX.ite ?_ ?_
    | split

theorem execCancelRing_eff (h : Eff F s0 s) (h_rf : F .rf = true) (h_ecc : F .ecc = true) (h_cir : F .cir = true) (h_cat : F .cat = true) (h_bind : F .bind = true) (h_kpr : F .kpr = true) (h_iln : F .iln = true) (h_bel : F .bel = true) (h_ldg : F .ldg = true) (h_obs : F .obs = true) (h_hostOut : F .hostOut = true) :
    ∀ a0, EffX F s0 (execCancelRing a0 s) := by
  intro a0
  unfold execCancelRing
  repeat' with_reducible first
    | assumption
    | refine State.mboxReply_eff ?_ h_rf h_iln h_hostOut _ _
    | refine State.cancelReply_eff ?_ h_rf h_iln h_hostOut _
    | refine State.cancelRing_eff ?_ h_rf h_ecc h_cir h_cat h_bind h_kpr h_bel h_ldg h_obs _
    | refine EffX.next ?_
    | refine Eff.ite ?_ ?_
    | refine EffX.ite ?_ ?_
    | split

theorem execCancelSlip_eff (h : Eff F s0 s) (h_rf : F .rf = true) (h_ecc : F .ecc = true) (h_cir : F .cir = true) (h_cat : F .cat = true) (h_bind : F .bind = true) (h_kpr : F .kpr = true) (h_iln : F .iln = true) (h_bel : F .bel = true) (h_ldg : F .ldg = true) (h_obs : F .obs = true) (h_hostOut : F .hostOut = true) :
    ∀ a0, EffX F s0 (execCancelSlip a0 s) := by
  intro a0
  unfold execCancelSlip
  repeat' with_reducible first
    | assumption
    | refine State.cancelReply_eff ?_ h_rf h_iln h_hostOut _
    | refine State.cancelTag_eff ?_ h_rf h_ecc h_cir h_cat h_bind h_kpr h_bel h_ldg h_obs _ _
    | refine EffX.next ?_
    | refine Eff.ite ?_ ?_
    | refine EffX.ite ?_ ?_
    | split

theorem execDownClear_eff (h : Eff F s0 s) (h_rf : F .rf = true) (h_iln : F .iln = true) (h_hostOut : F .hostOut = true) :
    ∀ a0, EffX F s0 (execDownClear a0 s) := by
  intro a0
  unfold execDownClear
  repeat' with_reducible first
    | assumption
    | refine State.downClear_eff ?_ h_rf h_iln h_hostOut _
    | refine EffX.next ?_
    | split

theorem execDownSet_eff (h : Eff F s0 s) (h_rf : F .rf = true) (h_iln : F .iln = true) (h_hostOut : F .hostOut = true) :
    ∀ a0, EffX F s0 (execDownSet a0 s) := by
  intro a0
  unfold execDownSet
  repeat' with_reducible first
    | assumption
    | refine State.downSet_eff ?_ h_rf h_iln h_hostOut _
    | refine EffX.next ?_
    | split

theorem execMboxWrite_eff (h : Eff F s0 s) (h_rf : F .rf = true) :
    ∀ a0 a1 a2 a3, EffX F s0 (execMboxWrite a0 a1 a2 a3 s) := by
  intro a0 a1 a2 a3
  unfold execMboxWrite
  repeat' with_reducible first
    | assumption
    | refine State.mboxWrite_eff ?_ h_rf _ _ _ _
    | refine EffX.next ?_
    | split

theorem execQuery_eff (h : Eff F s0 s) (h_freeCtr : F .freeCtr = true) (h_rf : F .rf = true) (h_mem : F .mem = true) (h_ecc : F .ecc = true) (h_kpr : F .kpr = true) (h_iln : F .iln = true) (h_bel : F .bel = true) (h_ldg : F .ldg = true) (h_obs : F .obs = true) (h_hostOut : F .hostOut = true) :
    ∀ a0, EffX F s0 (execQuery a0 s) := by
  intro a0
  unfold execQuery
  repeat' with_reducible first
    | assumption
    | refine State.query_eff ?_ h_freeCtr h_rf h_mem h_ecc h_kpr h_iln h_bel h_ldg h_obs h_hostOut _
    | refine EffX.next ?_
    | refine Eff.ite ?_ ?_
    | refine EffX.ite ?_ ?_
    | split

theorem execUpClear_eff (h : Eff F s0 s) (h_rf : F .rf = true) :
    ∀ a0, EffX F s0 (execUpClear a0 s) := by
  intro a0
  unfold execUpClear
  repeat' with_reducible first
    | assumption
    | refine State.clearUp_eff ?_ h_rf _
    | refine EffX.next ?_
    | refine Eff.ite ?_ ?_
    | refine EffX.ite ?_ ?_
    | split

theorem execUpSet_eff (h : Eff F s0 s) (h_rf : F .rf = true) (h_iln : F .iln = true) (h_bel : F .bel = true) (h_hostOut : F .hostOut = true) :
    ∀ a0, EffX F s0 (execUpSet a0 s) := by
  intro a0
  unfold execUpSet
  repeat' with_reducible first
    | assumption
    | refine State.upSet_eff ?_ h_rf h_iln h_bel h_hostOut _
    | refine EffX.next ?_
    | split

end Sys2Proof.Machine
end

