-- ==== Sys2Proof/Laws/FrameStacks.lean ====
section
/-! SUPPORT. Frames of the operations of Machine/Stacks.lean: what each may change. -/

namespace Sys2Proof.Machine

variable {F : Comp → Bool} {s0 s : State}

theorem State.clipExtent_eff (h : Eff F s0 s) (h_rf : F .rf = true) (h_cir : F .cir = true) (h_cat : F .cat = true) (h_kpr : F .kpr = true) (h_ldg : F .ldg = true) :
    ∀ a1 a2, Eff F s0 (State.clipExtent s a1 a2) := by
  intro a1 a2
  unfold State.clipExtent
  repeat' with_reducible first
    | assumption
    | (extract_lets +onlyGivenNames x
       first
       | (refine Eff.cut F s0 x ?_ ?_; unfold x; clear x; rotate_left; intro _; clear_value x; rotate_left)
       | (refine EffP.cut F s0 x ?_ ?_; unfold x; clear x; rotate_left; intro _; clear_value x; rotate_left)
       | clear_value x)
    | refine State.setField_eff ?_ h_rf _ _ _ _
    | refine State.modLeaf_eff ?_ h_kpr _ _ _
    | refine State.modKpr_eff ?_ h_kpr _
    | refine State.ringStop_eff ?_ h_rf h_cir h_cat h_ldg _ _ _
    | refine State.log_eff ?_ h_rf h_ldg _ _ _ _ _ _ _
    | refine Eff.foldl ?_ (fun _ _ _ => ?_)
    | refine EffP.fst ?_
    | refine EffP.of_eq (by assumption) ?_
    | refine Eff.ite ?_ ?_
    | split

theorem State.fetchMem_eff (h : Eff F s0 s) (h_rf : F .rf = true) (h_mem : F .mem = true) (h_ecc : F .ecc = true) (h_kpr : F .kpr = true) (h_bel : F .bel = true) (h_ldg : F .ldg = true) (h_obs : F .obs = true) :
    ∀ a1 a2 a3 a4, EffP F s0 (State.fetchMem s a1 a2 a3 a4) := by
  intro a1 a2 a3 a4
  unfold State.fetchMem
  repeat' with_reducible first
    | assumption
    | (extract_lets +onlyGivenNames x
       first
       | (refine Eff.cut F s0 x ?_ ?_; unfold x; clear x; rotate_left; intro _; clear_value x; rotate_left)
       | (refine EffP.cut F s0 x ?_ ?_; unfold x; clear x; rotate_left; intro _; clear_value x; rotate_left)
       | clear_value x)
    | refine State.watch_eff ?_ h_rf h_bel h_ldg h_obs _ _ _ _
    | refine State.eccRead_eff ?_ h_rf h_ecc h_kpr h_ldg _
    | refine State.logBad_eff ?_ h_rf h_kpr h_bel h_ldg _ _ _ _
    | refine State.touchLeaves_eff ?_ h_kpr _ _ _ _
    | split
    | refine Eff.set_mem ?_ h_mem ?_
    | intro _
    | refine Memory.wf_write _ _ ?_
    | refine Memory.wf_writeN _ _ ?_
    | refine Memory.wf_writeLe _ _ _ ?_
    | refine Memory.wf_clear _ _ ?_
    | refine Memory.wf_dropOnDie ?_
    | refine Memory.wf_copy _ _ _ ?_
    | refine RegFile.wf_set _ _ ?_
    | refine RegFile.wf_filter _ ?_
    | refine EffP.mk ?_ _

theorem State.fetchOp_eff (h : Eff F s0 s) (h_rf : F .rf = true) (h_mem : F .mem = true) (h_ecc : F .ecc = true) (h_kpr : F .kpr = true) (h_bel : F .bel = true) (h_ldg : F .ldg = true) (h_obs : F .obs = true) :
    ∀ a1 a2 a3, Eff F s0 (State.fetchOp s a1 a2 a3) := by
  intro a1 a2 a3
  unfold State.fetchOp
  repeat' with_reducible first
    | assumption
    | (extract_lets +onlyGivenNames x
       first
       | (refine Eff.cut F s0 x ?_ ?_; unfold x; clear x; rotate_left; intro _; clear_value x; rotate_left)
       | (refine EffP.cut F s0 x ?_ ?_; unfold x; clear x; rotate_left; intro _; clear_value x; rotate_left)
       | clear_value x)
    | refine State.adderAnswer_eff ?_ h_kpr _ _
    | refine State.memRefused_eff ?_ h_rf h_ldg _ _ _
    | refine State.withError_eff ?_ h_kpr _ (fun _ _ => ?_) _
    | refine State.fetchMem_eff ?_ h_rf h_mem h_ecc h_kpr h_bel h_ldg h_obs _ _ _ _
    | refine State.adderDone_eff ?_ h_kpr _ _ _ _ _ _ _
    | refine EffP.fst ?_
    | refine EffP.of_eq (by assumption) ?_
    | refine EffP.ite ?_ ?_
    | refine Eff.ite ?_ ?_
    | split
    | refine EffP.mk ?_ _

theorem State.compareSwap_eff (h : Eff F s0 s) (h_rf : F .rf = true) (h_mem : F .mem = true) (h_ecc : F .ecc = true) (h_kpr : F .kpr = true) (h_bel : F .bel = true) (h_ldg : F .ldg = true) (h_obs : F .obs = true) :
    ∀ a1 a2, Eff F s0 (State.compareSwap s a1 a2) := by
  intro a1 a2
  unfold State.compareSwap
  repeat' with_reducible first
    | assumption
    | refine State.adderAnswer_eff ?_ h_kpr _ _
    | refine State.fetchOp_eff ?_ h_rf h_mem h_ecc h_kpr h_bel h_ldg h_obs _ _ _
    | refine Eff.ite ?_ ?_
    | split

theorem State.dropRange_eff (h : Eff F s0 s) (h_mem : F .mem = true) (h_ecc : F .ecc = true) (h_kpr : F .kpr = true) :
    ∀ a1, Eff F s0 (State.dropRange s a1) := by
  intro a1
  unfold State.dropRange
  repeat' with_reducible first
    | assumption
    | (extract_lets +onlyGivenNames x
       first
       | (refine Eff.cut F s0 x ?_ ?_; unfold x; clear x; rotate_left; intro _; clear_value x; rotate_left)
       | (refine EffP.cut F s0 x ?_ ?_; unfold x; clear x; rotate_left; intro _; clear_value x; rotate_left)
       | clear_value x)
    | refine State.modKpr_eff ?_ h_kpr _
    | refine EffP.fst ?_
    | refine EffP.of_eq (by assumption) ?_
    | split
    | refine Eff.set_mem_ecc ?_ h_mem h_ecc ?_
    | intro _
    | refine Memory.wf_write _ _ ?_
    | refine Memory.wf_writeN _ _ ?_
    | refine Memory.wf_writeLe _ _ _ ?_
    | refine Memory.wf_clear _ _ ?_
    | refine Memory.wf_dropOnDie ?_
    | refine Memory.wf_copy _ _ _ ?_
    | refine RegFile.wf_set _ _ ?_
    | refine RegFile.wf_filter _ ?_

theorem State.farExtent_eff (h : Eff F s0 s) (h_rf : F .rf = true) (h_bel : F .bel = true) :
    ∀ a1 a2, Eff F s0 (State.farExtent s a1 a2) := by
  intro a1 a2
  unfold State.farExtent
  repeat' with_reducible first
    | assumption
    | (extract_lets +onlyGivenNames x
       first
       | (refine Eff.cut F s0 x ?_ ?_; unfold x; clear x; rotate_left; intro _; clear_value x; rotate_left)
       | (refine EffP.cut F s0 x ?_ ?_; unfold x; clear x; rotate_left; intro _; clear_value x; rotate_left)
       | clear_value x)
    | refine State.event_eff ?_ h_rf h_bel _ _
    | refine State.setReg_eff ?_ h_rf _ _
    | refine Eff.ite ?_ ?_
    | split

theorem State.fetchAdd_eff (h : Eff F s0 s) (h_rf : F .rf = true) (h_mem : F .mem = true) (h_ecc : F .ecc = true) (h_kpr : F .kpr = true) (h_bel : F .bel = true) (h_ldg : F .ldg = true) (h_obs : F .obs = true) :
    ∀ a1, Eff F s0 (State.fetchAdd s a1) := by
  intro a1
  unfold State.fetchAdd
  repeat' with_reducible first
    | assumption
    | (extract_lets +onlyGivenNames x
       first
       | (refine Eff.cut F s0 x ?_ ?_; unfold x; clear x; rotate_left; intro _; clear_value x; rotate_left)
       | (refine EffP.cut F s0 x ?_ ?_; unfold x; clear x; rotate_left; intro _; clear_value x; rotate_left)
       | clear_value x)
    | refine State.adderAnswer_eff ?_ h_kpr _ _
    | refine State.fetchOp_eff ?_ h_rf h_mem h_ecc h_kpr h_bel h_ldg h_obs _ _ _
    | refine Eff.ite ?_ ?_
    | split

theorem State.kprQuery_eff (h : Eff F s0 s) (h_rf : F .rf = true) :
    ∀ a1, Eff F s0 (State.kprQuery s a1) := by
  intro a1
  unfold State.kprQuery
  repeat' with_reducible first
    | assumption
    | (extract_lets +onlyGivenNames x
       first
       | (refine Eff.cut F s0 x ?_ ?_; unfold x; clear x; rotate_left; intro _; clear_value x; rotate_left)
       | (refine EffP.cut F s0 x ?_ ?_; unfold x; clear x; rotate_left; intro _; clear_value x; rotate_left)
       | clear_value x)
    | refine State.setReg_eff ?_ h_rf _ _
    | split

theorem State.nearExtent_eff (h : Eff F s0 s) (h_rf : F .rf = true) (h_kpr : F .kpr = true) (h_bel : F .bel = true) (h_ldg : F .ldg = true) :
    ∀ a1 a2 a3, Eff F s0 (State.nearExtent s a1 a2 a3) := by
  intro a1 a2 a3
  unfold State.nearExtent
  repeat' with_reducible first
    | assumption
    | (extract_lets +onlyGivenNames x
       first
       | (refine Eff.cut F s0 x ?_ ?_; unfold x; clear x; rotate_left; intro _; clear_value x; rotate_left)
       | (refine EffP.cut F s0 x ?_ ?_; unfold x; clear x; rotate_left; intro _; clear_value x; rotate_left)
       | clear_value x)
    | refine State.event_eff ?_ h_rf h_bel _ _
    | refine State.setReg_eff ?_ h_rf _ _
    | refine State.log_eff ?_ h_rf h_ldg _ _ _ _ _ _ _
    | refine State.modKpr_eff ?_ h_kpr _
    | refine State.overSettle_eff ?_ h_kpr
    | refine EffP.fst ?_
    | refine EffP.of_eq (by assumption) ?_
    | refine Eff.ite ?_ ?_
    | split

theorem State.regShare_eff (h : Eff F s0 s) (h_rf : F .rf = true) :
    ∀ a1 a2, Eff F s0 (State.regShare s a1 a2) := by
  intro a1 a2
  unfold State.regShare
  repeat' with_reducible first
    | assumption
    | refine State.orReg_eff ?_ h_rf _ _
    | refine State.setReg_eff ?_ h_rf _ _
    | refine Eff.ite ?_ ?_
    | split

theorem State.stackOff_eff (h : Eff F s0 s) (h_rf : F .rf = true) :
    ∀ a1, Eff F s0 (State.stackOff s a1) := by
  intro a1
  unfold State.stackOff
  repeat' with_reducible first
    | assumption
    | refine State.setField_eff ?_ h_rf _ _ _ _
    | refine State.setReg_eff ?_ h_rf _ _
    | split

theorem State.trainStack_eff (h : Eff F s0 s) (h_rf : F .rf = true) (h_kpr : F .kpr = true) (h_ldg : F .ldg = true) :
    ∀ a1 a2, Eff F s0 (State.trainStack s a1 a2) := by
  intro a1 a2
  unfold State.trainStack
  repeat' with_reducible first
    | assumption
    | (extract_lets +onlyGivenNames x
       first
       | (refine Eff.cut F s0 x ?_ ?_; unfold x; clear x; rotate_left; intro _; clear_value x; rotate_left)
       | (refine EffP.cut F s0 x ?_ ?_; unfold x; clear x; rotate_left; intro _; clear_value x; rotate_left)
       | clear_value x)
    | refine State.modKpr_eff ?_ h_kpr _
    | refine State.stackOff_eff ?_ h_rf _
    | refine State.log_eff ?_ h_rf h_ldg _ _ _ _ _ _ _
    | refine State.setReg_eff ?_ h_rf _ _
    | refine State.setField_eff ?_ h_rf _ _ _ _
    | refine Eff.foldl ?_ (fun _ _ _ => ?_)
    | refine EffP.fst ?_
    | refine EffP.of_eq (by assumption) ?_
    | refine Eff.ite ?_ ?_
    | split

theorem State.retrainStack_eff (h : Eff F s0 s) (h_rf : F .rf = true) (h_mem : F .mem = true) (h_ecc : F .ecc = true) (h_cir : F .cir = true) (h_cat : F .cat = true) (h_kpr : F .kpr = true) (h_ldg : F .ldg = true) :
    ∀ a1 a2, Eff F s0 (State.retrainStack s a1 a2) := by
  intro a1 a2
  unfold State.retrainStack
  repeat' with_reducible first
    | assumption
    | (extract_lets +onlyGivenNames x
       first
       | (refine Eff.cut F s0 x ?_ ?_; unfold x; clear x; rotate_left; intro _; clear_value x; rotate_left)
       | (refine EffP.cut F s0 x ?_ ?_; unfold x; clear x; rotate_left; intro _; clear_value x; rotate_left)
       | clear_value x)
    | refine State.trainStack_eff ?_ h_rf h_kpr h_ldg _ _
    | refine State.dropRange_eff ?_ h_mem h_ecc h_kpr _
    | refine State.overSettle_eff ?_ h_kpr
    | refine State.clipExtent_eff ?_ h_rf h_cir h_cat h_kpr h_ldg _ _
    | refine Eff.foldl ?_ (fun _ _ _ => ?_)
    | refine EffP.fst ?_
    | refine EffP.of_eq (by assumption) ?_
    | split

theorem State.slotsBegin_eff (h : Eff F s0 s) (h_kpr : F .kpr = true) :
    Eff F s0 (State.slotsBegin s) := by
  unfold State.slotsBegin
  repeat' with_reducible first
    | assumption
    | refine State.modKpr_eff ?_ h_kpr _
    | split

theorem State.stackAdd_eff (h : Eff F s0 s) (h_rf : F .rf = true) (h_mem : F .mem = true) (h_ecc : F .ecc = true) (h_kpr : F .kpr = true) (h_bel : F .bel = true) (h_ldg : F .ldg = true) (h_obs : F .obs = true) :
    ∀ a1, Eff F s0 (State.stackAdd s a1) := by
  intro a1
  unfold State.stackAdd
  repeat' with_reducible first
    | assumption
    | (extract_lets +onlyGivenNames x
       first
       | (refine Eff.cut F s0 x ?_ ?_; unfold x; clear x; rotate_left; intro _; clear_value x; rotate_left)
       | (refine EffP.cut F s0 x ?_ ?_; unfold x; clear x; rotate_left; intro _; clear_value x; rotate_left)
       | clear_value x)
    | refine State.adderAnswer_eff ?_ h_kpr _ _
    | refine State.addMay_eff ?_ h_rf h_mem h_ecc h_kpr h_bel h_ldg h_obs _ _ _ _ _ _
    | refine State.adderDone_eff ?_ h_kpr _ _ _ _ _ _ _
    | refine EffP.fst ?_
    | refine EffP.of_eq (by assumption) ?_
    | refine EffP.ite ?_ ?_
    | refine Eff.ite ?_ ?_
    | split
    | refine EffP.mk ?_ _

theorem State.testRequest_eff (h : Eff F s0 s) (h_rf : F .rf = true) :
    ∀ a1, Eff F s0 (State.testRequest s a1) := by
  intro a1
  unfold State.testRequest
  repeat' with_reducible first
    | assumption
    | refine State.setReg_eff ?_ h_rf _ _
    | refine Eff.ite ?_ ?_
    | split

theorem State.testWithdraw_eff (h : Eff F s0 s) (h_rf : F .rf = true) :
    ∀ a1, Eff F s0 (State.testWithdraw s a1) := by
  intro a1
  unfold State.testWithdraw
  repeat' with_reducible first
    | assumption
    | refine State.setRegBit_eff ?_ h_rf _ _ _
    | refine Eff.ite ?_ ?_
    | split

theorem State.wspShift_eff (h : Eff F s0 s) (h_rf : F .rf = true) :
    ∀ a1 a2 a3 a4, Eff F s0 (State.wspShift s a1 a2 a3 a4) := by
  intro a1 a2 a3 a4
  unfold State.wspShift
  repeat' with_reducible first
    | assumption
    | refine State.setReg_eff ?_ h_rf _ _
    | refine Eff.ite ?_ ?_
    | split

theorem execCompareSwap_eff (h : Eff F s0 s) (h_rf : F .rf = true) (h_mem : F .mem = true) (h_ecc : F .ecc = true) (h_kpr : F .kpr = true) (h_bel : F .bel = true) (h_ldg : F .ldg = true) (h_obs : F .obs = true) :
    ∀ a0 a1, EffX F s0 (execCompareSwap a0 a1 s) := by
  intro a0 a1
  unfold execCompareSwap
  repeat' with_reducible first
    | assumption
    | refine State.compareSwap_eff ?_ h_rf h_mem h_ecc h_kpr h_bel h_ldg h_obs _ _
    | refine EffX.next ?_
    | refine Eff.ite ?_ ?_
    | refine EffX.ite ?_ ?_
    | split

theorem execFarExtentWrite_eff (h : Eff F s0 s) (h_rf : F .rf = true) (h_bel : F .bel = true) :
    ∀ a0 a1, EffX F s0 (execFarExtentWrite a0 a1 s) := by
  intro a0 a1
  unfold execFarExtentWrite
  repeat' with_reducible first
    | assumption
    | refine State.farExtent_eff ?_ h_rf h_bel _ _
    | refine EffX.next ?_
    | refine Eff.ite ?_ ?_
    | refine EffX.ite ?_ ?_
    | split

theorem execFetchAdd_eff (h : Eff F s0 s) (h_rf : F .rf = true) (h_mem : F .mem = true) (h_ecc : F .ecc = true) (h_kpr : F .kpr = true) (h_bel : F .bel = true) (h_ldg : F .ldg = true) (h_obs : F .obs = true) :
    ∀ a0, EffX F s0 (execFetchAdd a0 s) := by
  intro a0
  unfold execFetchAdd
  repeat' with_reducible first
    | assumption
    | refine State.fetchAdd_eff ?_ h_rf h_mem h_ecc h_kpr h_bel h_ldg h_obs _
    | refine EffX.next ?_
    | refine Eff.ite ?_ ?_
    | refine EffX.ite ?_ ?_
    | split

theorem execKprQuery_eff (h : Eff F s0 s) (h_rf : F .rf = true) :
    ∀ a0, EffX F s0 (execKprQuery a0 s) := by
  intro a0
  unfold execKprQuery
  repeat' with_reducible first
    | assumption
    | refine State.kprQuery_eff ?_ h_rf _
    | refine EffX.next ?_
    | refine Eff.ite ?_ ?_
    | refine EffX.ite ?_ ?_
    | split

theorem execNearExtentWrite_eff (h : Eff F s0 s) (h_rf : F .rf = true) (h_kpr : F .kpr = true) (h_bel : F .bel = true) (h_ldg : F .ldg = true) :
    ∀ a0 a1 a2, EffX F s0 (execNearExtentWrite a0 a1 a2 s) := by
  intro a0 a1 a2
  unfold execNearExtentWrite
  repeat' with_reducible first
    | assumption
    | refine State.nearExtent_eff ?_ h_rf h_kpr h_bel h_ldg _ _ _
    | refine EffX.next ?_
    | refine Eff.ite ?_ ?_
    | refine EffX.ite ?_ ?_
    | split

theorem execRegShareWrite_eff (h : Eff F s0 s) (h_rf : F .rf = true) :
    ∀ a0 a1, EffX F s0 (execRegShareWrite a0 a1 s) := by
  intro a0 a1
  unfold execRegShareWrite
  repeat' with_reducible first
    | assumption
    | refine State.regShare_eff ?_ h_rf _ _
    | refine EffX.next ?_
    | refine Eff.ite ?_ ?_
    | refine EffX.ite ?_ ?_
    | split

theorem execRetrainSlotEnd_eff (h : Eff F s0 s) (h_rf : F .rf = true) (h_stp : F .stp = true) (h_shelves : F .shelves = true) (h_kpr : F .kpr = true) (h_bel : F .bel = true) (h_ldg : F .ldg = true) (h_obs : F .obs = true) :
    ∀ a0 a1, EffX F s0 (execRetrainSlotEnd a0 a1 s) := by
  intro a0 a1
  unfold execRetrainSlotEnd
  repeat' with_reducible first
    | assumption
    | (extract_lets +onlyGivenNames x
       first
       | (refine Eff.cut F s0 x ?_ ?_; unfold x; clear x; rotate_left; intro _; clear_value x; rotate_left)
       | (refine EffP.cut F s0 x ?_ ?_; unfold x; clear x; rotate_left; intro _; clear_value x; rotate_left)
       | clear_value x)
    | refine State.advance_eff ?_ h_stp h_shelves h_ldg h_obs _
    | refine State.modKpr_eff ?_ h_kpr _
    | refine State.fence_eff ?_ h_rf h_bel h_ldg _ _ _ _
    | refine EffX.next ?_
    | refine Eff.foldl ?_ (fun _ _ _ => ?_)
    | refine EffP.fst ?_
    | refine EffP.of_eq (by assumption) ?_
    | refine Eff.ite ?_ ?_
    | refine EffX.ite ?_ ?_
    | split

theorem execShiftData_eff (h : Eff F s0 s) (h_rf : F .rf = true) :
    ∀ a0 a1 a2, EffX F s0 (execShiftData a0 a1 a2 s) := by
  intro a0 a1 a2
  unfold execShiftData
  repeat' with_reducible first
    | assumption
    | refine State.wspShift_eff ?_ h_rf _ _ _ _
    | refine EffX.next ?_
    | refine Eff.ite ?_ ?_
    | refine EffX.ite ?_ ?_
    | split

theorem execShiftInstruction_eff (h : Eff F s0 s) (h_rf : F .rf = true) :
    ∀ a0 a1 a2, EffX F s0 (execShiftInstruction a0 a1 a2 s) := by
  intro a0 a1 a2
  unfold execShiftInstruction
  repeat' with_reducible first
    | assumption
    | refine State.wspShift_eff ?_ h_rf _ _ _ _
    | refine EffX.next ?_
    | refine Eff.ite ?_ ?_
    | refine EffX.ite ?_ ?_
    | split

theorem execStackAdd_eff (h : Eff F s0 s) (h_rf : F .rf = true) (h_mem : F .mem = true) (h_ecc : F .ecc = true) (h_kpr : F .kpr = true) (h_bel : F .bel = true) (h_ldg : F .ldg = true) (h_obs : F .obs = true) :
    ∀ a0, EffX F s0 (execStackAdd a0 s) := by
  intro a0
  unfold execStackAdd
  repeat' with_reducible first
    | assumption
    | refine State.stackAdd_eff ?_ h_rf h_mem h_ecc h_kpr h_bel h_ldg h_obs _
    | refine EffX.next ?_
    | refine Eff.ite ?_ ?_
    | refine EffX.ite ?_ ?_
    | split

theorem execTestStateEnter_eff (h : Eff F s0 s) (h_rf : F .rf = true) :
    ∀ a0, EffX F s0 (execTestStateEnter a0 s) := by
  intro a0
  unfold execTestStateEnter
  repeat' with_reducible first
    | assumption
    | (extract_lets +onlyGivenNames x
       first
       | (refine Eff.cut F s0 x ?_ ?_; unfold x; clear x; rotate_left; intro _; clear_value x; rotate_left)
       | (refine EffP.cut F s0 x ?_ ?_; unfold x; clear x; rotate_left; intro _; clear_value x; rotate_left)
       | clear_value x)
    | refine State.setRegBit_eff ?_ h_rf _ _ _
    | refine EffX.next ?_
    | refine Eff.ite ?_ ?_
    | refine EffX.ite ?_ ?_
    | split

theorem execTestStateLeave_eff (h : Eff F s0 s) (h_rf : F .rf = true) (h_mem : F .mem = true) (h_ecc : F .ecc = true) (h_cir : F .cir = true) (h_cat : F .cat = true) (h_kpr : F .kpr = true) (h_ldg : F .ldg = true) :
    ∀ a0 a1, EffX F s0 (execTestStateLeave a0 a1 s) := by
  intro a0 a1
  unfold execTestStateLeave
  repeat' with_reducible first
    | assumption
    | (extract_lets +onlyGivenNames x
       first
       | (refine Eff.cut F s0 x ?_ ?_; unfold x; clear x; rotate_left; intro _; clear_value x; rotate_left)
       | (refine EffP.cut F s0 x ?_ ?_; unfold x; clear x; rotate_left; intro _; clear_value x; rotate_left)
       | clear_value x)
    | refine State.retrainStack_eff ?_ h_rf h_mem h_ecc h_cir h_cat h_kpr h_ldg _ _
    | refine State.setReg_eff ?_ h_rf _ _
    | refine State.testWithdraw_eff ?_ h_rf _
    | refine EffX.next ?_
    | refine Eff.ite ?_ ?_
    | refine EffX.ite ?_ ?_
    | split

theorem execTestStateRequest_eff (h : Eff F s0 s) (h_rf : F .rf = true) :
    ∀ a0, EffX F s0 (execTestStateRequest a0 s) := by
  intro a0
  unfold execTestStateRequest
  repeat' with_reducible first
    | assumption
    | refine State.testRequest_eff ?_ h_rf _
    | refine EffX.next ?_
    | refine Eff.ite ?_ ?_
    | refine EffX.ite ?_ ?_
    | split

end Sys2Proof.Machine
end

