-- ==== Sys2Proof/Laws/FrameIlnRecv.lean ====
section
/-! SUPPORT. Frames of the operations of Machine/IlnRecv.lean: what each may change. -/

namespace Sys2Proof.Machine

variable {F : Comp → Bool} {s0 s : State}

theorem State.ackNow_eff (h : Eff F s0 s) (h_rf : F .rf = true) (h_iln : F .iln = true) :
    ∀ a1 a2, Eff F s0 (State.ackNow s a1 a2) := by
  intro a1 a2
  unfold State.ackNow
  repeat' with_reducible first
    | assumption
    | (extract_lets +onlyGivenNames x
       first
       | (refine Eff.cut F s0 x ?_ ?_; unfold x; clear x; rotate_left; intro _; clear_value x; rotate_left)
       | (refine EffP.cut F s0 x ?_ ?_; unfold x; clear x; rotate_left; intro _; clear_value x; rotate_left)
       | clear_value x)
    | refine State.link_eff ?_ h_rf h_iln _ _ _ _
    | refine State.setPeer_eff ?_ h_iln _ _
    | split

theorem State.acked_eff (h : Eff F s0 s) (h_rf : F .rf = true) (h_iln : F .iln = true) :
    ∀ a1 a2 a3, Eff F s0 (State.acked s a1 a2 a3) := by
  intro a1 a2 a3
  unfold State.acked
  repeat' with_reducible first
    | assumption
    | (extract_lets +onlyGivenNames x
       first
       | (refine Eff.cut F s0 x ?_ ?_; unfold x; clear x; rotate_left; intro _; clear_value x; rotate_left)
       | (refine EffP.cut F s0 x ?_ ?_; unfold x; clear x; rotate_left; intro _; clear_value x; rotate_left)
       | clear_value x)
    | refine State.setPeer_eff ?_ h_iln _ _
    | refine State.pump_eff ?_ h_rf h_iln _ _
    | refine State.modIln_eff ?_ h_iln _
    | refine EffP.fst ?_
    | refine EffP.of_eq (by assumption) ?_
    | refine Eff.ite ?_ ?_
    | split

theorem State.ilnDiscard_eff (h : Eff F s0 s) (h_rf : F .rf = true) :
    Eff F s0 (State.ilnDiscard s) := by
  unfold State.ilnDiscard
  repeat' with_reducible first
    | assumption
    | refine State.countSat_eff ?_ h_rf _ _ _ _
    | split

theorem State.misroute_eff (h : Eff F s0 s) (h_rf : F .rf = true) (h_iln : F .iln = true) (h_bel : F .bel = true) (h_ldg : F .ldg = true) :
    ∀ a1 a2 a3, Eff F s0 (State.misroute s a1 a2 a3) := by
  intro a1 a2 a3
  unfold State.misroute
  repeat' with_reducible first
    | assumption
    | (extract_lets +onlyGivenNames x
       first
       | (refine Eff.cut F s0 x ?_ ?_; unfold x; clear x; rotate_left; intro _; clear_value x; rotate_left)
       | (refine EffP.cut F s0 x ?_ ?_; unfold x; clear x; rotate_left; intro _; clear_value x; rotate_left)
       | clear_value x)
    | refine State.leave_eff ?_ h_rf h_iln _ _
    | refine State.log_eff ?_ h_rf h_ldg _ _ _ _ _ _ _
    | refine State.event_eff ?_ h_rf h_bel _ _
    | refine Eff.ite ?_ ?_
    | split

theorem State.heard_eff (h : Eff F s0 s) (h_rf : F .rf = true) (h_iln : F .iln = true) (h_bel : F .bel = true) (h_ldg : F .ldg = true) :
    ∀ a1, Eff F s0 (State.heard s a1) := by
  intro a1
  unfold State.heard
  repeat' with_reducible first
    | assumption
    | (extract_lets +onlyGivenNames x
       first
       | (refine Eff.cut F s0 x ?_ ?_; unfold x; clear x; rotate_left; intro _; clear_value x; rotate_left)
       | (refine EffP.cut F s0 x ?_ ?_; unfold x; clear x; rotate_left; intro _; clear_value x; rotate_left)
       | clear_value x)
    | refine State.setPeer_eff ?_ h_iln _ _
    | refine State.log_eff ?_ h_rf h_ldg _ _ _ _ _ _ _
    | refine State.event_eff ?_ h_rf h_bel _ _
    | refine Eff.ite ?_ ?_
    | split

theorem State.arrive_eff (h : Eff F s0 s) (h_rf : F .rf = true) (h_iln : F .iln = true) (h_bel : F .bel = true) (h_ldg : F .ldg = true) (f0 : State → State) (h_f0 : ∀ y0, Eff F s0 y0 → Eff F s0 (f0 y0)) :
    ∀ a1 a2 a3, Eff F s0 (State.arrive s a1 a2 a3 f0) := by
  intro a1 a2 a3
  unfold State.arrive
  repeat' with_reducible first
    | assumption
    | refine State.ilnDiscard_eff ?_ h_rf
    | refine State.log_eff ?_ h_rf h_ldg _ _ _ _ _ _ _
    | refine State.misroute_eff ?_ h_rf h_iln h_bel h_ldg _ _ _
    | refine State.heard_eff ?_ h_rf h_iln h_bel h_ldg _
    | refine h_f0 _ ?_ 
    | refine EffP.fst ?_
    | refine EffP.of_eq (by assumption) ?_
    | refine EffP.ite ?_ ?_
    | refine Eff.ite ?_ ?_
    | split

theorem State.askResend_eff (h : Eff F s0 s) (h_rf : F .rf = true) (h_iln : F .iln = true) :
    ∀ a1 a2, Eff F s0 (State.askResend s a1 a2) := by
  intro a1 a2
  unfold State.askResend
  repeat' with_reducible first
    | assumption
    | (extract_lets +onlyGivenNames x
       first
       | (refine Eff.cut F s0 x ?_ ?_; unfold x; clear x; rotate_left; intro _; clear_value x; rotate_left)
       | (refine EffP.cut F s0 x ?_ ?_; unfold x; clear x; rotate_left; intro _; clear_value x; rotate_left)
       | clear_value x)
    | refine State.link_eff ?_ h_rf h_iln _ _ _ _
    | refine State.setPeer_eff ?_ h_iln _ _
    | refine Eff.ite ?_ ?_
    | split

theorem State.folioReply_eff (h : Eff F s0 s) (h_freeCtr : F .freeCtr = true) (h_rf : F .rf = true) (h_mem : F .mem = true) (h_ecc : F .ecc = true) (h_cat : F .cat = true) (h_shelves : F .shelves = true) (h_iln : F .iln = true) (h_bel : F .bel = true) (h_ldg : F .ldg = true) (h_pwr : F .pwr = true) :
    ∀ a1 a2 a3 a4 a5 a6 a7 a8, Eff F s0 (State.folioReply s a1 a2 a3 a4 a5 a6 a7 a8) := by
  intro a1 a2 a3 a4 a5 a6 a7 a8
  unfold State.folioReply
  repeat' with_reducible first
    | assumption
    | (extract_lets +onlyGivenNames x
       first
       | (refine Eff.cut F s0 x ?_ ?_; unfold x; clear x; rotate_left; intro _; clear_value x; rotate_left)
       | (refine EffP.cut F s0 x ?_ ?_; unfold x; clear x; rotate_left; intro _; clear_value x; rotate_left)
       | clear_value x)
    | refine State.setExec_eff ?_ h_shelves _ _ _ _ _ _
    | refine State.folioFail_eff ?_ h_freeCtr h_rf h_mem h_cat h_shelves h_iln h_bel h_ldg h_pwr _ _ _ _ _ _
    | refine State.localWrite_eff ?_ h_rf h_mem h_ecc h_shelves _ _ _ _ _
    | refine EffP.fst ?_
    | refine EffP.of_eq (by assumption) ?_
    | refine EffP.ite ?_ ?_
    | refine Eff.ite ?_ ?_
    | split
    | refine EffP.mk ?_ _

theorem State.preReply_eff (h : Eff F s0 s) (h_rf : F .rf = true) (h_mem : F .mem = true) (h_ecc : F .ecc = true) (h_shelves : F .shelves = true) :
    ∀ a1 a2 a3 a4 a5 a6 a7 a8, Eff F s0 (State.preReply s a1 a2 a3 a4 a5 a6 a7 a8) := by
  intro a1 a2 a3 a4 a5 a6 a7 a8
  unfold State.preReply
  repeat' with_reducible first
    | assumption
    | (extract_lets +onlyGivenNames x
       first
       | (refine Eff.cut F s0 x ?_ ?_; unfold x; clear x; rotate_left; intro _; clear_value x; rotate_left)
       | (refine EffP.cut F s0 x ?_ ?_; unfold x; clear x; rotate_left; intro _; clear_value x; rotate_left)
       | clear_value x)
    | refine State.modPre_eff ?_ h_shelves _ _
    | refine State.preFail_eff ?_ h_shelves _ _ _
    | refine State.localWrite_eff ?_ h_rf h_mem h_ecc h_shelves _ _ _ _ _
    | refine EffP.fst ?_
    | refine EffP.of_eq (by assumption) ?_
    | refine EffP.ite ?_ ?_
    | refine Eff.ite ?_ ?_
    | split
    | refine EffP.mk ?_ _

theorem State.receiverCheck_eff (h : Eff F s0 s) (h_rf : F .rf = true) (h_bel : F .bel = true) (h_ldg : F .ldg = true) :
    ∀ a1 a2, EffP F s0 (State.receiverCheck s a1 a2) := by
  intro a1 a2
  unfold State.receiverCheck
  repeat' with_reducible first
    | assumption
    | (extract_lets +onlyGivenNames x
       first
       | (refine Eff.cut F s0 x ?_ ?_; unfold x; clear x; rotate_left; intro _; clear_value x; rotate_left)
       | (refine EffP.cut F s0 x ?_ ?_; unfold x; clear x; rotate_left; intro _; clear_value x; rotate_left)
       | clear_value x)
    | refine State.log_eff ?_ h_rf h_ldg _ _ _ _ _ _ _
    | refine State.event_eff ?_ h_rf h_bel _ _
    | refine EffP.ite ?_ ?_
    | refine Eff.ite ?_ ?_
    | split
    | refine EffP.mk ?_ _

theorem State.remoteAdd_eff (h : Eff F s0 s) (h_rf : F .rf = true) (h_mem : F .mem = true) (h_ecc : F .ecc = true) (h_kpr : F .kpr = true) (h_bel : F .bel = true) (h_ldg : F .ldg = true) (h_obs : F .obs = true) :
    ∀ a1 a2, EffP F s0 (State.remoteAdd s a1 a2) := by
  intro a1 a2
  unfold State.remoteAdd
  repeat' with_reducible first
    | assumption
    | (extract_lets +onlyGivenNames x
       first
       | (refine Eff.cut F s0 x ?_ ?_; unfold x; clear x; rotate_left; intro _; clear_value x; rotate_left)
       | (refine EffP.cut F s0 x ?_ ?_; unfold x; clear x; rotate_left; intro _; clear_value x; rotate_left)
       | clear_value x)
    | refine State.regionRefused_eff ?_ h_rf h_ldg _ _
    | refine State.memRefused_eff ?_ h_rf h_ldg _ _ _
    | refine State.addMay_eff ?_ h_rf h_mem h_ecc h_kpr h_bel h_ldg h_obs _ _ _ _ _ _
    | refine EffP.fst ?_
    | refine EffP.of_eq (by assumption) ?_
    | refine EffP.ite ?_ ?_
    | refine Eff.ite ?_ ?_
    | split
    | refine EffP.mk ?_ _

theorem State.remoteRead_eff (h : Eff F s0 s) (h_rf : F .rf = true) (h_ecc : F .ecc = true) (h_kpr : F .kpr = true) (h_bel : F .bel = true) (h_ldg : F .ldg = true) (h_obs : F .obs = true) :
    ∀ a1 a2, EffP F s0 (State.remoteRead s a1 a2) := by
  intro a1 a2
  unfold State.remoteRead
  repeat' with_reducible first
    | assumption
    | (extract_lets +onlyGivenNames x
       first
       | (refine Eff.cut F s0 x ?_ ?_; unfold x; clear x; rotate_left; intro _; clear_value x; rotate_left)
       | (refine EffP.cut F s0 x ?_ ?_; unfold x; clear x; rotate_left; intro _; clear_value x; rotate_left)
       | clear_value x)
    | refine State.regionRefused_eff ?_ h_rf h_ldg _ _
    | refine State.memRefused_eff ?_ h_rf h_ldg _ _ _
    | refine State.readMay_eff ?_ h_rf h_ecc h_kpr h_bel h_ldg h_obs _ _ _ _ _
    | refine EffP.fst ?_
    | refine EffP.of_eq (by assumption) ?_
    | refine EffP.ite ?_ ?_
    | refine Eff.ite ?_ ?_
    | split
    | refine EffP.mk ?_ _

theorem State.slipReply_eff (h : Eff F s0 s) (h_freeCtr : F .freeCtr = true) (h_rf : F .rf = true) (h_mem : F .mem = true) (h_ecc : F .ecc = true) (h_cir : F .cir = true) (h_cat : F .cat = true) (h_bind : F .bind = true) (h_shelves : F .shelves = true) (h_kpr : F .kpr = true) (h_iln : F .iln = true) (h_bel : F .bel = true) (h_ldg : F .ldg = true) (h_pwr : F .pwr = true) (h_obs : F .obs = true) (h_hostOut : F .hostOut = true) :
    ∀ a1 a2 a3 a4, Eff F s0 (State.slipReply s a1 a2 a3 a4) := by
  intro a1 a2 a3 a4
  unfold State.slipReply
  repeat' with_reducible first
    | assumption
    | refine State.copyFail_eff ?_ h_rf h_mem h_ecc h_cir h_cat h_bind h_shelves h_kpr h_iln h_bel h_ldg h_pwr h_obs _ _ _
    | refine State.copySettle_eff ?_ h_rf h_ecc h_cir h_cat h_bind h_kpr h_bel h_ldg h_obs _
    | refine State.copyLand_eff ?_ h_freeCtr h_rf h_mem h_ecc h_shelves h_kpr h_iln h_bel h_ldg h_obs h_hostOut _ _ _ _ _
    | refine EffP.fst ?_
    | refine EffP.of_eq (by assumption) ?_
    | refine EffP.ite ?_ ?_
    | refine Eff.ite ?_ ?_
    | split
    | refine EffP.mk ?_ _

theorem State.reqDone_eff (h : Eff F s0 s) (h_freeCtr : F .freeCtr = true) (h_rf : F .rf = true) (h_mem : F .mem = true) (h_ecc : F .ecc = true) (h_cir : F .cir = true) (h_cat : F .cat = true) (h_bind : F .bind = true) (h_shelves : F .shelves = true) (h_kpr : F .kpr = true) (h_iln : F .iln = true) (h_bel : F .bel = true) (h_ldg : F .ldg = true) (h_pwr : F .pwr = true) (h_obs : F .obs = true) (h_hostOut : F .hostOut = true) :
    ∀ a1 a2 a3 a4, Eff F s0 (State.reqDone s a1 a2 a3 a4) := by
  intro a1 a2 a3 a4
  unfold State.reqDone
  repeat' with_reducible first
    | assumption
    | (extract_lets +onlyGivenNames x
       first
       | (refine Eff.cut F s0 x ?_ ?_; unfold x; clear x; rotate_left; intro _; clear_value x; rotate_left)
       | (refine EffP.cut F s0 x ?_ ?_; unfold x; clear x; rotate_left; intro _; clear_value x; rotate_left)
       | clear_value x)
    | refine State.modIln_eff ?_ h_iln _
    | refine State.folioReply_eff ?_ h_freeCtr h_rf h_mem h_ecc h_cat h_shelves h_iln h_bel h_ldg h_pwr _ _ _ _ _ _ _ _
    | refine State.preReply_eff ?_ h_rf h_mem h_ecc h_shelves _ _ _ _ _ _ _ _
    | refine State.slipReply_eff ?_ h_freeCtr h_rf h_mem h_ecc h_cir h_cat h_bind h_shelves h_kpr h_iln h_bel h_ldg h_pwr h_obs h_hostOut _ _ _ _
    | split

theorem State.sequence_eff (h : Eff F s0 s) (h_rf : F .rf = true) (h_iln : F .iln = true) :
    ∀ a1, EffP F s0 (State.sequence s a1) := by
  intro a1
  unfold State.sequence
  repeat' with_reducible first
    | assumption
    | (extract_lets +onlyGivenNames x
       first
       | (refine Eff.cut F s0 x ?_ ?_; unfold x; clear x; rotate_left; intro _; clear_value x; rotate_left)
       | (refine EffP.cut F s0 x ?_ ?_; unfold x; clear x; rotate_left; intro _; clear_value x; rotate_left)
       | clear_value x)
    | refine State.modIln_eff ?_ h_iln _
    | refine State.setPeer_eff ?_ h_iln _ _
    | refine State.ackNow_eff ?_ h_rf h_iln _ _
    | refine State.askResend_eff ?_ h_rf h_iln _ _
    | refine State.ilnDiscard_eff ?_ h_rf
    | refine EffP.ite ?_ ?_
    | refine Eff.ite ?_ ?_
    | split
    | refine EffP.mk ?_ _

theorem State.request__eff (h : Eff F s0 s) (h_rf : F .rf = true) (h_iln : F .iln = true) (h_bel : F .bel = true) (h_ldg : F .ldg = true) (f0 : State → State) (h_f0 : ∀ y0, Eff F s0 y0 → Eff F s0 (f0 y0)) :
    ∀ a1 a2 a3, Eff F s0 (State.request_ s a1 a2 a3 f0) := by
  intro a1 a2 a3
  unfold State.request_
  repeat' with_reducible first
    | assumption
    | refine State.arrive_eff ?_ h_rf h_iln h_bel h_ldg _ (fun _ _ => ?_) _ _ _
    | refine State.sequence_eff ?_ h_rf h_iln _
    | refine h_f0 _ ?_ 
    | refine EffP.fst ?_
    | refine EffP.of_eq (by assumption) ?_
    | split
    | refine EffP.mk ?_ _

theorem State.response_eff (h : Eff F s0 s) (h_freeCtr : F .freeCtr = true) (h_rf : F .rf = true) (h_mem : F .mem = true) (h_ecc : F .ecc = true) (h_cir : F .cir = true) (h_cat : F .cat = true) (h_bind : F .bind = true) (h_shelves : F .shelves = true) (h_kpr : F .kpr = true) (h_iln : F .iln = true) (h_bel : F .bel = true) (h_ldg : F .ldg = true) (h_pwr : F .pwr = true) (h_obs : F .obs = true) (h_hostOut : F .hostOut = true) :
    ∀ a1, Eff F s0 (State.response s a1) := by
  intro a1
  unfold State.response
  repeat' with_reducible first
    | assumption
    | refine State.reqDone_eff ?_ h_freeCtr h_rf h_mem h_ecc h_cir h_cat h_bind h_shelves h_kpr h_iln h_bel h_ldg h_pwr h_obs h_hostOut _ _ _ _
    | refine State.countSat_eff ?_ h_rf _ _ _ _
    | refine Eff.ite ?_ ?_
    | split

theorem State.sendAgain_eff (h : Eff F s0 s) (h_rf : F .rf = true) (h_iln : F .iln = true) :
    ∀ a1 a2 a3 a4, Eff F s0 (State.sendAgain s a1 a2 a3 a4) := by
  intro a1 a2 a3 a4
  unfold State.sendAgain
  repeat' with_reducible first
    | assumption
    | (extract_lets +onlyGivenNames x
       first
       | (refine Eff.cut F s0 x ?_ ?_; unfold x; clear x; rotate_left; intro _; clear_value x; rotate_left)
       | (refine EffP.cut F s0 x ?_ ?_; unfold x; clear x; rotate_left; intro _; clear_value x; rotate_left)
       | clear_value x)
    | refine State.setPeer_eff ?_ h_iln _ _
    | refine State.transmit_eff ?_ h_rf h_iln _ _
    | refine State.countSat_eff ?_ h_rf _ _ _ _
    | refine Eff.foldl ?_ (fun _ _ _ => ?_)
    | refine EffP.foldl ?_ (fun _ _ _ => ?_)
    | refine EffP.fst ?_
    | refine EffP.of_eq (by assumption) ?_
    | refine Eff.ite ?_ ?_
    | split

theorem State.serve_eff (h : Eff F s0 s) (h_rf : F .rf = true) (h_iln : F .iln = true) (h_bel : F .bel = true) (h_ldg : F .ldg = true) (f0 : State → State × MemStatus × List Sys2Proof.Byte) (h_f0 : ∀ y0, Eff F s0 y0 → EffP F s0 (f0 y0)) :
    ∀ a1 a2, Eff F s0 (State.serve s a1 a2 f0) := by
  intro a1 a2
  unfold State.serve
  repeat' with_reducible first
    | assumption
    | refine State.receiverCheck_eff ?_ h_rf h_bel h_ldg _ _
    | refine State.respond_eff ?_ h_rf h_iln _ _ _
    | refine h_f0 _ ?_ 
    | refine EffP.fst ?_
    | refine EffP.of_eq (by assumption) ?_
    | split
    | refine EffP.mk ?_ _

theorem State.serveAdd_eff (h : Eff F s0 s) (h_rf : F .rf = true) (h_mem : F .mem = true) (h_ecc : F .ecc = true) (h_kpr : F .kpr = true) (h_iln : F .iln = true) (h_bel : F .bel = true) (h_ldg : F .ldg = true) (h_obs : F .obs = true) :
    ∀ a1 a2, Eff F s0 (State.serveAdd s a1 a2) := by
  intro a1 a2
  unfold State.serveAdd
  repeat' with_reducible first
    | assumption
    | (extract_lets +onlyGivenNames x
       first
       | (refine Eff.cut F s0 x ?_ ?_; unfold x; clear x; rotate_left; intro _; clear_value x; rotate_left)
       | (refine EffP.cut F s0 x ?_ ?_; unfold x; clear x; rotate_left; intro _; clear_value x; rotate_left)
       | clear_value x)
    | refine State.receiverCheck_eff ?_ h_rf h_bel h_ldg _ _
    | refine State.respond_eff ?_ h_rf h_iln _ _ _
    | refine State.remoteAdd_eff ?_ h_rf h_mem h_ecc h_kpr h_bel h_ldg h_obs _ _
    | refine State.holdAdd_eff ?_ h_kpr _
    | refine EffP.fst ?_
    | refine EffP.of_eq (by assumption) ?_
    | refine EffP.ite ?_ ?_
    | refine Eff.ite ?_ ?_
    | split
    | refine EffP.mk ?_ _

theorem State.syncAcked_eff (h : Eff F s0 s) (h_rf : F .rf = true) (h_iln : F .iln = true) :
    ∀ a1, Eff F s0 (State.syncAcked s a1) := by
  intro a1
  unfold State.syncAcked
  repeat' with_reducible first
    | assumption
    | (extract_lets +onlyGivenNames x
       first
       | (refine Eff.cut F s0 x ?_ ?_; unfold x; clear x; rotate_left; intro _; clear_value x; rotate_left)
       | (refine EffP.cut F s0 x ?_ ?_; unfold x; clear x; rotate_left; intro _; clear_value x; rotate_left)
       | clear_value x)
    | refine State.setPeer_eff ?_ h_iln _ _
    | refine State.pump_eff ?_ h_rf h_iln _ _
    | refine Eff.foldl ?_ (fun _ _ _ => ?_)
    | refine EffP.foldl ?_ (fun _ _ _ => ?_)
    | refine EffP.fst ?_
    | refine EffP.of_eq (by assumption) ?_
    | refine Eff.ite ?_ ?_
    | split

theorem State.synced_eff (h : Eff F s0 s) (h_rf : F .rf = true) (h_iln : F .iln = true) (h_bel : F .bel = true) (h_ldg : F .ldg = true) :
    ∀ a1 a2, Eff F s0 (State.synced s a1 a2) := by
  intro a1 a2
  unfold State.synced
  repeat' with_reducible first
    | assumption
    | (extract_lets +onlyGivenNames x
       first
       | (refine Eff.cut F s0 x ?_ ?_; unfold x; clear x; rotate_left; intro _; clear_value x; rotate_left)
       | (refine EffP.cut F s0 x ?_ ?_; unfold x; clear x; rotate_left; intro _; clear_value x; rotate_left)
       | clear_value x)
    | refine State.link_eff ?_ h_rf h_iln _ _ _ _
    | refine State.heard_eff ?_ h_rf h_iln h_bel h_ldg _
    | refine State.setPeer_eff ?_ h_iln _ _
    | refine Eff.ite ?_ ?_
    | split

theorem State.windowRequest_eff (h : Eff F s0 s) (h_rf : F .rf = true) (h_mem : F .mem = true) (h_ecc : F .ecc = true) (h_shelves : F .shelves = true) (h_iln : F .iln = true) (h_bel : F .bel = true) (h_ldg : F .ldg = true) (h_pwr : F .pwr = true) (h_obs : F .obs = true) :
    ∀ a1 a2 a3 a4, Eff F s0 (State.windowRequest s a1 a2 a3 a4) := by
  intro a1 a2 a3 a4
  unfold State.windowRequest
  repeat' with_reducible first
    | assumption
    | refine State.arrive_eff ?_ h_rf h_iln h_bel h_ldg _ (fun _ _ => ?_) _ _ _
    | refine State.sequence_eff ?_ h_rf h_iln _
    | refine State.receiverCheck_eff ?_ h_rf h_bel h_ldg _ _
    | refine State.respond_eff ?_ h_rf h_iln _ _ _
    | refine State.deliverHeld_eff ?_ h_rf h_mem h_ecc h_shelves h_iln h_bel h_ldg h_pwr h_obs _ _
    | refine EffP.fst ?_
    | refine EffP.of_eq (by assumption) ?_
    | split
    | refine EffP.mk ?_ _

theorem execIlnAck_eff (h : Eff F s0 s) (h_rf : F .rf = true) (h_iln : F .iln = true) (h_bel : F .bel = true) (h_ldg : F .ldg = true) :
    ∀ a0 a1, EffX F s0 (execIlnAck a0 a1 s) := by
  intro a0 a1
  unfold execIlnAck
  repeat' with_reducible first
    | assumption
    | refine State.arrive_eff ?_ h_rf h_iln h_bel h_ldg _ (fun _ _ => ?_) _ _ _
    | refine State.acked_eff ?_ h_rf h_iln _ _ _
    | refine EffX.next ?_
    | split

theorem execIlnAdd_eff (h : Eff F s0 s) (h_rf : F .rf = true) (h_mem : F .mem = true) (h_ecc : F .ecc = true) (h_kpr : F .kpr = true) (h_iln : F .iln = true) (h_bel : F .bel = true) (h_ldg : F .ldg = true) (h_obs : F .obs = true) :
    ∀ a0 a1, EffX F s0 (execIlnAdd a0 a1 s) := by
  intro a0 a1
  unfold execIlnAdd
  repeat' with_reducible first
    | assumption
    | refine State.request__eff ?_ h_rf h_iln h_bel h_ldg _ (fun _ _ => ?_) _ _ _
    | refine State.serveAdd_eff ?_ h_rf h_mem h_ecc h_kpr h_iln h_bel h_ldg h_obs _ _
    | refine EffX.next ?_
    | split

theorem execIlnRead_eff (h : Eff F s0 s) (h_rf : F .rf = true) (h_ecc : F .ecc = true) (h_kpr : F .kpr = true) (h_iln : F .iln = true) (h_bel : F .bel = true) (h_ldg : F .ldg = true) (h_obs : F .obs = true) :
    ∀ a0 a1, EffX F s0 (execIlnRead a0 a1 s) := by
  intro a0 a1
  unfold execIlnRead
  repeat' with_reducible first
    | assumption
    | refine State.request__eff ?_ h_rf h_iln h_bel h_ldg _ (fun _ _ => ?_) _ _ _
    | refine State.serve_eff ?_ h_rf h_iln h_bel h_ldg _ (fun _ _ => ?_) _ _
    | refine State.remoteRead_eff ?_ h_rf h_ecc h_kpr h_bel h_ldg h_obs _ _
    | refine EffX.next ?_
    | refine EffP.fst ?_
    | refine EffP.of_eq (by assumption) ?_
    | split
    | refine EffP.mk ?_ _

theorem execIlnResend_eff (h : Eff F s0 s) (h_rf : F .rf = true) (h_iln : F .iln = true) (h_bel : F .bel = true) (h_ldg : F .ldg = true) :
    ∀ a0 a1, EffX F s0 (execIlnResend a0 a1 s) := by
  intro a0 a1
  unfold execIlnResend
  repeat' with_reducible first
    | assumption
    | refine State.arrive_eff ?_ h_rf h_iln h_bel h_ldg _ (fun _ _ => ?_) _ _ _
    | refine State.sendAgain_eff ?_ h_rf h_iln _ _ _ _
    | refine EffX.next ?_
    | split

theorem execIlnResponse_eff (h : Eff F s0 s) (h_freeCtr : F .freeCtr = true) (h_rf : F .rf = true) (h_mem : F .mem = true) (h_ecc : F .ecc = true) (h_cir : F .cir = true) (h_cat : F .cat = true) (h_bind : F .bind = true) (h_shelves : F .shelves = true) (h_kpr : F .kpr = true) (h_iln : F .iln = true) (h_bel : F .bel = true) (h_ldg : F .ldg = true) (h_pwr : F .pwr = true) (h_obs : F .obs = true) (h_hostOut : F .hostOut = true) :
    ∀ a0 a1, EffX F s0 (execIlnResponse a0 a1 s) := by
  intro a0 a1
  unfold execIlnResponse
  repeat' with_reducible first
    | assumption
    | refine State.arrive_eff ?_ h_rf h_iln h_bel h_ldg _ (fun _ _ => ?_) _ _ _
    | refine State.sequence_eff ?_ h_rf h_iln _
    | refine State.response_eff ?_ h_freeCtr h_rf h_mem h_ecc h_cir h_cat h_bind h_shelves h_kpr h_iln h_bel h_ldg h_pwr h_obs h_hostOut _
    | refine EffX.next ?_
    | refine EffP.fst ?_
    | refine EffP.of_eq (by assumption) ?_
    | split
    | refine EffP.mk ?_ _

theorem execIlnSignal_eff (h : Eff F s0 s) (h_rf : F .rf = true) (h_mem : F .mem = true) (h_ecc : F .ecc = true) (h_shelves : F .shelves = true) (h_iln : F .iln = true) (h_bel : F .bel = true) (h_ldg : F .ldg = true) (h_pwr : F .pwr = true) (h_obs : F .obs = true) :
    ∀ a0 a1, EffX F s0 (execIlnSignal a0 a1 s) := by
  intro a0 a1
  unfold execIlnSignal
  repeat' with_reducible first
    | assumption
    | refine State.windowRequest_eff ?_ h_rf h_mem h_ecc h_shelves h_iln h_bel h_ldg h_pwr h_obs _ _ _ _
    | refine EffX.next ?_
    | split

theorem execIlnSync_eff (h : Eff F s0 s) (h_rf : F .rf = true) (h_iln : F .iln = true) (h_bel : F .bel = true) (h_ldg : F .ldg = true) :
    ∀ a0 a1, EffX F s0 (execIlnSync a0 a1 s) := by
  intro a0 a1
  unfold execIlnSync
  repeat' with_reducible first
    | assumption
    | refine State.arrive_eff ?_ h_rf h_iln h_bel h_ldg _ (fun _ _ => ?_) _ _ _
    | refine State.synced_eff ?_ h_rf h_iln h_bel h_ldg _ _
    | refine EffX.next ?_
    | split

theorem execIlnSyncAck_eff (h : Eff F s0 s) (h_rf : F .rf = true) (h_iln : F .iln = true) (h_bel : F .bel = true) (h_ldg : F .ldg = true) :
    ∀ a0 a1, EffX F s0 (execIlnSyncAck a0 a1 s) := by
  intro a0 a1
  unfold execIlnSyncAck
  repeat' with_reducible first
    | assumption
    | refine State.arrive_eff ?_ h_rf h_iln h_bel h_ldg _ (fun _ _ => ?_) _ _ _
    | refine State.syncAcked_eff ?_ h_rf h_iln _
    | refine EffX.next ?_
    | split

theorem execIlnWrite_eff (h : Eff F s0 s) (h_rf : F .rf = true) (h_mem : F .mem = true) (h_ecc : F .ecc = true) (h_shelves : F .shelves = true) (h_iln : F .iln = true) (h_bel : F .bel = true) (h_ldg : F .ldg = true) (h_pwr : F .pwr = true) (h_obs : F .obs = true) :
    ∀ a0 a1, EffX F s0 (execIlnWrite a0 a1 s) := by
  intro a0 a1
  unfold execIlnWrite
  repeat' with_reducible first
    | assumption
    | refine State.windowRequest_eff ?_ h_rf h_mem h_ecc h_shelves h_iln h_bel h_ldg h_pwr h_obs _ _ _ _
    | refine EffX.next ?_
    | refine EffP.fst ?_
    | refine EffP.of_eq (by assumption) ?_
    | refine Eff.ite ?_ ?_
    | refine EffX.ite ?_ ?_
    | split

end Sys2Proof.Machine
end

