-- ==== Sys2Proof/Laws/FrameIlnLinks.lean ====
section
/-! SUPPORT. Frames of the operations of Machine/IlnLinks.lean: what each may change. -/

namespace Sys2Proof.Machine

variable {F : Comp → Bool} {s0 s : State}

theorem State.reach_eff (h : Eff F s0 s) (h_stp : F .stp = true) (h_shelves : F .shelves = true) (h_ldg : F .ldg = true) (h_obs : F .obs = true) :
    ∀ a1, Eff F s0 (State.reach s a1) := by
  intro a1
  unfold State.reach
  repeat' with_reducible first
    | assumption
    | refine State.advance_eff ?_ h_stp h_shelves h_ldg h_obs _
    | split

theorem State.ackDue_eff (h : Eff F s0 s) (h_rf : F .rf = true) (h_stp : F .stp = true) (h_shelves : F .shelves = true) (h_iln : F .iln = true) (h_ldg : F .ldg = true) (h_obs : F .obs = true) :
    ∀ a1 a2, Eff F s0 (State.ackDue s a1 a2) := by
  intro a1 a2
  unfold State.ackDue
  repeat' with_reducible first
    | assumption
    | refine State.ackNow_eff ?_ h_rf h_iln _ _
    | refine State.reach_eff ?_ h_stp h_shelves h_ldg h_obs _
    | refine Eff.ite ?_ ?_
    | split

theorem State.epochArm_eff (h : Eff F s0 s) (h_rf : F .rf = true) (h_iln : F .iln = true) :
    Eff F s0 (State.epochArm s) := by
  unfold State.epochArm
  repeat' with_reducible first
    | assumption
    | (extract_lets +onlyGivenNames x
       first
       | (refine Eff.cut F s0 x ?_ ?_; unfold x; clear x; rotate_left; intro _; clear_value x; rotate_left)
       | (refine EffP.cut F s0 x ?_ ?_; unfold x; clear x; rotate_left; intro _; clear_value x; rotate_left)
       | clear_value x)
    | refine State.setField_eff ?_ h_rf _ _ _ _
    | refine State.modIln_eff ?_ h_iln _
    | refine Eff.ite ?_ ?_
    | split

theorem State.epochCancel_eff (h : Eff F s0 s) (h_rf : F .rf = true) (h_iln : F .iln = true) :
    Eff F s0 (State.epochCancel s) := by
  unfold State.epochCancel
  repeat' with_reducible first
    | assumption
    | refine State.modIln_eff ?_ h_iln _
    | refine State.setField_eff ?_ h_rf _ _ _ _
    | split

theorem State.epochFire_eff (h : Eff F s0 s) (h_rf : F .rf = true) (h_iln : F .iln = true) :
    Eff F s0 (State.epochFire s) := by
  unfold State.epochFire
  repeat' with_reducible first
    | assumption
    | (extract_lets +onlyGivenNames x
       first
       | (refine Eff.cut F s0 x ?_ ?_; unfold x; clear x; rotate_left; intro _; clear_value x; rotate_left)
       | (refine EffP.cut F s0 x ?_ ?_; unfold x; clear x; rotate_left; intro _; clear_value x; rotate_left)
       | clear_value x)
    | refine State.modIln_eff ?_ h_iln _
    | refine State.setReg_eff ?_ h_rf _ _
    | refine Eff.ite ?_ ?_
    | split

theorem State.farUp_eff (h : Eff F s0 s) (h_rf : F .rf = true) (h_ecc : F .ecc = true) (h_cir : F .cir = true) (h_cat : F .cat = true) (h_bind : F .bind = true) (h_kpr : F .kpr = true) (h_bel : F .bel = true) (h_ldg : F .ldg = true) (h_obs : F .obs = true) :
    ∀ a1, Eff F s0 (State.farUp s a1) := by
  intro a1
  unfold State.farUp
  repeat' with_reducible first
    | assumption
    | refine State.holdsGo_eff ?_ h_rf h_ecc h_cir h_cat h_bind h_kpr h_bel h_ldg h_obs
    | refine State.modKpr_eff ?_ h_kpr _
    | split

theorem State.loseRequests_eff (h : Eff F s0 s) (h_freeCtr : F .freeCtr = true) (h_rf : F .rf = true) (h_mem : F .mem = true) (h_ecc : F .ecc = true) (h_cir : F .cir = true) (h_cat : F .cat = true) (h_bind : F .bind = true) (h_shelves : F .shelves = true) (h_kpr : F .kpr = true) (h_iln : F .iln = true) (h_bel : F .bel = true) (h_ldg : F .ldg = true) (h_pwr : F .pwr = true) (h_obs : F .obs = true) (h_hostOut : F .hostOut = true) :
    ∀ a1, Eff F s0 (State.loseRequests s a1) := by
  intro a1
  unfold State.loseRequests
  repeat' with_reducible first
    | assumption
    | refine State.reqDone_eff ?_ h_freeCtr h_rf h_mem h_ecc h_cir h_cat h_bind h_shelves h_kpr h_iln h_bel h_ldg h_pwr h_obs h_hostOut _ _ _ _
    | refine Eff.foldl ?_ (fun _ _ _ => ?_)
    | refine EffP.fst ?_
    | refine EffP.of_eq (by assumption) ?_
    | split

theorem State.giveUp_eff (h : Eff F s0 s) (h_freeCtr : F .freeCtr = true) (h_rf : F .rf = true) (h_mem : F .mem = true) (h_ecc : F .ecc = true) (h_cir : F .cir = true) (h_cat : F .cat = true) (h_bind : F .bind = true) (h_shelves : F .shelves = true) (h_kpr : F .kpr = true) (h_iln : F .iln = true) (h_bel : F .bel = true) (h_ldg : F .ldg = true) (h_pwr : F .pwr = true) (h_obs : F .obs = true) (h_hostOut : F .hostOut = true) :
    ∀ a1 a2, Eff F s0 (State.giveUp s a1 a2) := by
  intro a1 a2
  unfold State.giveUp
  repeat' with_reducible first
    | assumption
    | (extract_lets +onlyGivenNames x
       first
       | (refine Eff.cut F s0 x ?_ ?_; unfold x; clear x; rotate_left; intro _; clear_value x; rotate_left)
       | (refine EffP.cut F s0 x ?_ ?_; unfold x; clear x; rotate_left; intro _; clear_value x; rotate_left)
       | clear_value x)
    | refine State.setPeer_eff ?_ h_iln _ _
    | refine State.event_eff ?_ h_rf h_bel _ _
    | refine State.log_eff ?_ h_rf h_ldg _ _ _ _ _ _ _
    | refine State.loseRequests_eff ?_ h_freeCtr h_rf h_mem h_ecc h_cir h_cat h_bind h_shelves h_kpr h_iln h_bel h_ldg h_pwr h_obs h_hostOut _
    | split

theorem State.hostDone_eff (h : Eff F s0 s) (h_freeCtr : F .freeCtr = true) (h_rf : F .rf = true) (h_mem : F .mem = true) (h_ecc : F .ecc = true) (h_cir : F .cir = true) (h_cat : F .cat = true) (h_bind : F .bind = true) (h_shelves : F .shelves = true) (h_kpr : F .kpr = true) (h_iln : F .iln = true) (h_bel : F .bel = true) (h_ldg : F .ldg = true) (h_pwr : F .pwr = true) (h_obs : F .obs = true) (h_hostOut : F .hostOut = true) :
    ∀ a1 a2 a3, Eff F s0 (State.hostDone s a1 a2 a3) := by
  intro a1 a2 a3
  unfold State.hostDone
  repeat' with_reducible first
    | assumption
    | (extract_lets +onlyGivenNames x
       first
       | (refine Eff.cut F s0 x ?_ ?_; unfold x; clear x; rotate_left; intro _; clear_value x; rotate_left)
       | (refine EffP.cut F s0 x ?_ ?_; unfold x; clear x; rotate_left; intro _; clear_value x; rotate_left)
       | clear_value x)
    | refine State.modIln_eff ?_ h_iln _
    | refine State.slipReply_eff ?_ h_freeCtr h_rf h_mem h_ecc h_cir h_cat h_bind h_shelves h_kpr h_iln h_bel h_ldg h_pwr h_obs h_hostOut _ _ _ _
    | refine State.ringStop_eff ?_ h_rf h_cir h_cat h_ldg _ _ _
    | refine Eff.ite ?_ ?_
    | split

theorem State.hostRefused_eff (h : Eff F s0 s) (h_rf : F .rf = true) (h_ldg : F .ldg = true) :
    ∀ a1 a2, Eff F s0 (State.hostRefused s a1 a2) := by
  intro a1 a2
  unfold State.hostRefused
  repeat' with_reducible first
    | assumption
    | refine State.log_eff ?_ h_rf h_ldg _ _ _ _ _ _ _
    | split

theorem State.hostTimeout_eff (h : Eff F s0 s) (h_freeCtr : F .freeCtr = true) (h_rf : F .rf = true) (h_mem : F .mem = true) (h_ecc : F .ecc = true) (h_stp : F .stp = true) (h_cir : F .cir = true) (h_cat : F .cat = true) (h_bind : F .bind = true) (h_shelves : F .shelves = true) (h_kpr : F .kpr = true) (h_iln : F .iln = true) (h_bel : F .bel = true) (h_ldg : F .ldg = true) (h_pwr : F .pwr = true) (h_obs : F .obs = true) (h_hostOut : F .hostOut = true) :
    ∀ a1, Eff F s0 (State.hostTimeout s a1) := by
  intro a1
  unfold State.hostTimeout
  repeat' with_reducible first
    | assumption
    | refine State.hostDone_eff ?_ h_freeCtr h_rf h_mem h_ecc h_cir h_cat h_bind h_shelves h_kpr h_iln h_bel h_ldg h_pwr h_obs h_hostOut _ _ _
    | refine State.reach_eff ?_ h_stp h_shelves h_ldg h_obs _
    | split

theorem State.ilnCfgErr_eff (h : Eff F s0 s) (h_rf : F .rf = true) (h_bel : F .bel = true) :
    Eff F s0 (State.ilnCfgErr s) := by
  unfold State.ilnCfgErr
  repeat' with_reducible first
    | assumption
    | refine State.event_eff ?_ h_rf h_bel _ _
    | split

theorem State.retrained_eff (h : Eff F s0 s) (h_iln : F .iln = true) :
    ∀ a1, Eff F s0 (State.retrained s a1) := by
  intro a1
  unfold State.retrained
  repeat' with_reducible first
    | assumption
    | refine State.modIln_eff ?_ h_iln _
    | split

theorem State.upFalls_eff (h : Eff F s0 s) (h_rf : F .rf = true) (h_bel : F .bel = true) :
    ∀ a1, Eff F s0 (State.upFalls s a1) := by
  intro a1
  unfold State.upFalls
  repeat' with_reducible first
    | assumption
    | refine State.bell_eff ?_ h_bel _ _
    | refine State.setRegBit_eff ?_ h_rf _ _ _
    | refine Eff.ite ?_ ?_
    | split

theorem State.switchRoute_eff (h : Eff F s0 s) (h_rf : F .rf = true) (h_iln : F .iln = true) (h_bel : F .bel = true) (h_ldg : F .ldg = true) :
    ∀ a1, Eff F s0 (State.switchRoute s a1) := by
  intro a1
  unfold State.switchRoute
  repeat' with_reducible first
    | assumption
    | (extract_lets +onlyGivenNames x
       first
       | (refine Eff.cut F s0 x ?_ ?_; unfold x; clear x; rotate_left; intro _; clear_value x; rotate_left)
       | (refine EffP.cut F s0 x ?_ ?_; unfold x; clear x; rotate_left; intro _; clear_value x; rotate_left)
       | clear_value x)
    | refine State.log_eff ?_ h_rf h_ldg _ _ _ _ _ _ _
    | refine State.event_eff ?_ h_rf h_bel _ _
    | refine State.setRegBit_eff ?_ h_rf _ _ _
    | refine State.sendAgain_eff ?_ h_rf h_iln _ _ _ _
    | refine Eff.foldl ?_ (fun _ _ _ => ?_)
    | refine EffP.fst ?_
    | refine EffP.of_eq (by assumption) ?_
    | refine Eff.ite ?_ ?_
    | split

theorem State.linkDown_eff (h : Eff F s0 s) (h_rf : F .rf = true) (h_kpr : F .kpr = true) (h_iln : F .iln = true) (h_bel : F .bel = true) (h_ldg : F .ldg = true) :
    ∀ a1, Eff F s0 (State.linkDown s a1) := by
  intro a1
  unfold State.linkDown
  repeat' with_reducible first
    | assumption
    | (extract_lets +onlyGivenNames x
       first
       | (refine Eff.cut F s0 x ?_ ?_; unfold x; clear x; rotate_left; intro _; clear_value x; rotate_left)
       | (refine EffP.cut F s0 x ?_ ?_; unfold x; clear x; rotate_left; intro _; clear_value x; rotate_left)
       | clear_value x)
    | refine State.log_eff ?_ h_rf h_ldg _ _ _ _ _ _ _
    | refine State.retrained_eff ?_ h_iln _
    | refine State.upFalls_eff ?_ h_rf h_bel _
    | refine State.event_eff ?_ h_rf h_bel _ _
    | refine State.switchRoute_eff ?_ h_rf h_iln h_bel h_ldg _
    | refine State.modKpr_eff ?_ h_kpr _
    | refine Eff.foldl ?_ (fun _ _ _ => ?_)
    | refine EffP.fst ?_
    | refine EffP.of_eq (by assumption) ?_
    | refine Eff.ite ?_ ?_
    | split

theorem State.syncTimeout_eff (h : Eff F s0 s) (h_freeCtr : F .freeCtr = true) (h_rf : F .rf = true) (h_mem : F .mem = true) (h_ecc : F .ecc = true) (h_stp : F .stp = true) (h_cir : F .cir = true) (h_cat : F .cat = true) (h_bind : F .bind = true) (h_shelves : F .shelves = true) (h_kpr : F .kpr = true) (h_iln : F .iln = true) (h_bel : F .bel = true) (h_ldg : F .ldg = true) (h_pwr : F .pwr = true) (h_obs : F .obs = true) (h_hostOut : F .hostOut = true) :
    ∀ a1 a2, Eff F s0 (State.syncTimeout s a1 a2) := by
  intro a1 a2
  unfold State.syncTimeout
  repeat' with_reducible first
    | assumption
    | (extract_lets +onlyGivenNames x
       first
       | (refine Eff.cut F s0 x ?_ ?_; unfold x; clear x; rotate_left; intro _; clear_value x; rotate_left)
       | (refine EffP.cut F s0 x ?_ ?_; unfold x; clear x; rotate_left; intro _; clear_value x; rotate_left)
       | clear_value x)
    | refine State.reach_eff ?_ h_stp h_shelves h_ldg h_obs _
    | refine State.loseRequests_eff ?_ h_freeCtr h_rf h_mem h_ecc h_cir h_cat h_bind h_shelves h_kpr h_iln h_bel h_ldg h_pwr h_obs h_hostOut _
    | refine State.setPeer_eff ?_ h_iln _ _
    | refine EffP.fst ?_
    | refine EffP.of_eq (by assumption) ?_
    | split

theorem State.linkTimeout_eff (h : Eff F s0 s) (h_freeCtr : F .freeCtr = true) (h_rf : F .rf = true) (h_mem : F .mem = true) (h_ecc : F .ecc = true) (h_stp : F .stp = true) (h_cir : F .cir = true) (h_cat : F .cat = true) (h_bind : F .bind = true) (h_shelves : F .shelves = true) (h_kpr : F .kpr = true) (h_iln : F .iln = true) (h_bel : F .bel = true) (h_ldg : F .ldg = true) (h_pwr : F .pwr = true) (h_obs : F .obs = true) (h_hostOut : F .hostOut = true) :
    ∀ a1, Eff F s0 (State.linkTimeout s a1) := by
  intro a1
  unfold State.linkTimeout
  repeat' with_reducible first
    | assumption
    | (extract_lets +onlyGivenNames x
       first
       | (refine Eff.cut F s0 x ?_ ?_; unfold x; clear x; rotate_left; intro _; clear_value x; rotate_left)
       | (refine EffP.cut F s0 x ?_ ?_; unfold x; clear x; rotate_left; intro _; clear_value x; rotate_left)
       | clear_value x)
    | refine State.syncTimeout_eff ?_ h_freeCtr h_rf h_mem h_ecc h_stp h_cir h_cat h_bind h_shelves h_kpr h_iln h_bel h_ldg h_pwr h_obs h_hostOut _ _
    | refine State.reach_eff ?_ h_stp h_shelves h_ldg h_obs _
    | refine State.switchRoute_eff ?_ h_rf h_iln h_bel h_ldg _
    | refine State.giveUp_eff ?_ h_freeCtr h_rf h_mem h_ecc h_cir h_cat h_bind h_shelves h_kpr h_iln h_bel h_ldg h_pwr h_obs h_hostOut _ _
    | refine Eff.ite ?_ ?_
    | split

theorem State.peerIdle_eff (h : Eff F s0 s) (h_stp : F .stp = true) (h_shelves : F .shelves = true) (h_iln : F .iln = true) (h_ldg : F .ldg = true) (h_obs : F .obs = true) :
    ∀ a1, Eff F s0 (State.peerIdle s a1) := by
  intro a1
  unfold State.peerIdle
  repeat' with_reducible first
    | assumption
    | refine State.modIln_eff ?_ h_iln _
    | refine State.reach_eff ?_ h_stp h_shelves h_ldg h_obs _
    | refine Eff.ite ?_ ?_
    | split

theorem State.portOff_eff (h : Eff F s0 s) (h_rf : F .rf = true) :
    ∀ a1, Eff F s0 (State.portOff s a1) := by
  intro a1
  unfold State.portOff
  repeat' with_reducible first
    | assumption
    | refine State.setField_eff ?_ h_rf _ _ _ _
    | refine State.setReg_eff ?_ h_rf _ _
    | split

theorem State.portDisable_eff (h : Eff F s0 s) (h_rf : F .rf = true) (h_kpr : F .kpr = true) (h_iln : F .iln = true) (h_bel : F .bel = true) (h_ldg : F .ldg = true) :
    ∀ a1, Eff F s0 (State.portDisable s a1) := by
  intro a1
  unfold State.portDisable
  repeat' with_reducible first
    | assumption
    | (extract_lets +onlyGivenNames x
       first
       | (refine Eff.cut F s0 x ?_ ?_; unfold x; clear x; rotate_left; intro _; clear_value x; rotate_left)
       | (refine EffP.cut F s0 x ?_ ?_; unfold x; clear x; rotate_left; intro _; clear_value x; rotate_left)
       | clear_value x)
    | refine State.ilnCfgErr_eff ?_ h_rf h_bel
    | refine State.setRegBit_eff ?_ h_rf _ _ _
    | refine State.portOff_eff ?_ h_rf _
    | refine State.linkDown_eff ?_ h_rf h_kpr h_iln h_bel h_ldg _
    | refine Eff.ite ?_ ?_
    | split

theorem State.portRetrain_eff (h : Eff F s0 s) (h_rf : F .rf = true) (h_iln : F .iln = true) (h_bel : F .bel = true) :
    ∀ a1, Eff F s0 (State.portRetrain s a1) := by
  intro a1
  unfold State.portRetrain
  repeat' with_reducible first
    | assumption
    | refine State.ilnCfgErr_eff ?_ h_rf h_bel
    | refine State.modIln_eff ?_ h_iln _
    | refine State.upFalls_eff ?_ h_rf h_bel _
    | refine Eff.ite ?_ ?_
    | split

theorem State.trainPort_eff (h : Eff F s0 s) (h_rf : F .rf = true) (h_ldg : F .ldg = true) :
    ∀ a1 a2, Eff F s0 (State.trainPort s a1 a2) := by
  intro a1 a2
  unfold State.trainPort
  repeat' with_reducible first
    | assumption
    | (extract_lets +onlyGivenNames x
       first
       | (refine Eff.cut F s0 x ?_ ?_; unfold x; clear x; rotate_left; intro _; clear_value x; rotate_left)
       | (refine EffP.cut F s0 x ?_ ?_; unfold x; clear x; rotate_left; intro _; clear_value x; rotate_left)
       | clear_value x)
    | refine State.portOff_eff ?_ h_rf _
    | refine State.setField_eff ?_ h_rf _ _ _ _
    | refine State.setReg_eff ?_ h_rf _ _
    | refine State.log_eff ?_ h_rf h_ldg _ _ _ _ _ _ _
    | refine Eff.ite ?_ ?_
    | split

theorem State.portTrained_eff (h : Eff F s0 s) (h_rf : F .rf = true) (h_ecc : F .ecc = true) (h_cir : F .cir = true) (h_cat : F .cat = true) (h_bind : F .bind = true) (h_kpr : F .kpr = true) (h_iln : F .iln = true) (h_bel : F .bel = true) (h_ldg : F .ldg = true) (h_obs : F .obs = true) :
    ∀ a1 a2, Eff F s0 (State.portTrained s a1 a2) := by
  intro a1 a2
  unfold State.portTrained
  repeat' with_reducible first
    | assumption
    | (extract_lets +onlyGivenNames x
       first
       | (refine Eff.cut F s0 x ?_ ?_; unfold x; clear x; rotate_left; intro _; clear_value x; rotate_left)
       | (refine EffP.cut F s0 x ?_ ?_; unfold x; clear x; rotate_left; intro _; clear_value x; rotate_left)
       | clear_value x)
    | refine State.linkDown_eff ?_ h_rf h_kpr h_iln h_bel h_ldg _
    | refine State.retrained_eff ?_ h_iln _
    | refine State.trainPort_eff ?_ h_rf h_ldg _ _
    | refine State.farUp_eff ?_ h_rf h_ecc h_cir h_cat h_bind h_kpr h_bel h_ldg h_obs _
    | refine Eff.ite ?_ ?_
    | split

theorem State.remoteTimeout_eff (h : Eff F s0 s) (h_freeCtr : F .freeCtr = true) (h_rf : F .rf = true) (h_mem : F .mem = true) (h_ecc : F .ecc = true) (h_stp : F .stp = true) (h_cir : F .cir = true) (h_cat : F .cat = true) (h_bind : F .bind = true) (h_shelves : F .shelves = true) (h_kpr : F .kpr = true) (h_iln : F .iln = true) (h_bel : F .bel = true) (h_ldg : F .ldg = true) (h_pwr : F .pwr = true) (h_obs : F .obs = true) (h_hostOut : F .hostOut = true) :
    ∀ a1, Eff F s0 (State.remoteTimeout s a1) := by
  intro a1
  unfold State.remoteTimeout
  repeat' with_reducible first
    | assumption
    | (extract_lets +onlyGivenNames x
       first
       | (refine Eff.cut F s0 x ?_ ?_; unfold x; clear x; rotate_left; intro _; clear_value x; rotate_left)
       | (refine EffP.cut F s0 x ?_ ?_; unfold x; clear x; rotate_left; intro _; clear_value x; rotate_left)
       | clear_value x)
    | refine State.reach_eff ?_ h_stp h_shelves h_ldg h_obs _
    | refine State.linkTimeout_eff ?_ h_freeCtr h_rf h_mem h_ecc h_stp h_cir h_cat h_bind h_shelves h_kpr h_iln h_bel h_ldg h_pwr h_obs h_hostOut _
    | refine State.reqDone_eff ?_ h_freeCtr h_rf h_mem h_ecc h_cir h_cat h_bind h_shelves h_kpr h_iln h_bel h_ldg h_pwr h_obs h_hostOut _ _ _ _
    | refine State.log_eff ?_ h_rf h_ldg _ _ _ _ _ _ _
    | refine Eff.ite ?_ ?_
    | split

theorem State.retryDue_eff (h : Eff F s0 s) (h_rf : F .rf = true) (h_stp : F .stp = true) (h_shelves : F .shelves = true) (h_iln : F .iln = true) (h_ldg : F .ldg = true) (h_obs : F .obs = true) :
    ∀ a1 a2, Eff F s0 (State.retryDue s a1 a2) := by
  intro a1 a2
  unfold State.retryDue
  repeat' with_reducible first
    | assumption
    | refine State.sendAgain_eff ?_ h_rf h_iln _ _ _ _
    | refine State.reach_eff ?_ h_stp h_shelves h_ldg h_obs _
    | refine Eff.ite ?_ ?_
    | split

theorem State.routeWrite_eff (h : Eff F s0 s) (h_rf : F .rf = true) (h_bel : F .bel = true) :
    ∀ a1 a2, Eff F s0 (State.routeWrite s a1 a2) := by
  intro a1 a2
  unfold State.routeWrite
  repeat' with_reducible first
    | assumption
    | refine State.ilnCfgErr_eff ?_ h_rf h_bel
    | refine State.setReg_eff ?_ h_rf _ _
    | refine Eff.ite ?_ ?_
    | split

theorem State.syncDue_eff (h : Eff F s0 s) (h_rf : F .rf = true) (h_stp : F .stp = true) (h_shelves : F .shelves = true) (h_iln : F .iln = true) (h_ldg : F .ldg = true) (h_obs : F .obs = true) :
    ∀ a1, Eff F s0 (State.syncDue s a1) := by
  intro a1
  unfold State.syncDue
  repeat' with_reducible first
    | assumption
    | refine State.sendSync_eff ?_ h_rf h_iln _ _
    | refine State.reach_eff ?_ h_stp h_shelves h_ldg h_obs _
    | refine Eff.ite ?_ ?_
    | split

theorem execAckTimer_eff (h : Eff F s0 s) (h_rf : F .rf = true) (h_stp : F .stp = true) (h_shelves : F .shelves = true) (h_iln : F .iln = true) (h_ldg : F .ldg = true) (h_obs : F .obs = true) :
    ∀ a0 a1, EffX F s0 (execAckTimer a0 a1 s) := by
  intro a0 a1
  unfold execAckTimer
  repeat' with_reducible first
    | assumption
    | refine State.ackDue_eff ?_ h_rf h_stp h_shelves h_iln h_ldg h_obs _ _
    | refine EffX.next ?_
    | refine Eff.ite ?_ ?_
    | refine EffX.ite ?_ ?_
    | split

theorem execDisable_eff (h : Eff F s0 s) (h_rf : F .rf = true) (h_kpr : F .kpr = true) (h_iln : F .iln = true) (h_bel : F .bel = true) (h_ldg : F .ldg = true) :
    ∀ a0, EffX F s0 (execDisable a0 s) := by
  intro a0
  unfold execDisable
  repeat' with_reducible first
    | assumption
    | refine State.portDisable_eff ?_ h_rf h_kpr h_iln h_bel h_ldg _
    | refine EffX.next ?_
    | refine Eff.ite ?_ ?_
    | refine EffX.ite ?_ ?_
    | split

theorem execEpochArm_eff (h : Eff F s0 s) (h_rf : F .rf = true) (h_iln : F .iln = true) :
    EffX F s0 (execEpochArm s) := by
  unfold execEpochArm
  repeat' with_reducible first
    | assumption
    | refine State.epochArm_eff ?_ h_rf h_iln
    | refine EffX.next ?_
    | refine Eff.ite ?_ ?_
    | refine EffX.ite ?_ ?_
    | split

theorem execEpochCancel_eff (h : Eff F s0 s) (h_rf : F .rf = true) (h_iln : F .iln = true) :
    EffX F s0 (execEpochCancel s) := by
  unfold execEpochCancel
  repeat' with_reducible first
    | assumption
    | refine State.epochCancel_eff ?_ h_rf h_iln
    | refine EffX.next ?_
    | refine Eff.ite ?_ ?_
    | refine EffX.ite ?_ ?_
    | split

theorem execFarLinkDown_eff (h : Eff F s0 s) (h_rf : F .rf = true) (h_kpr : F .kpr = true) (h_iln : F .iln = true) (h_bel : F .bel = true) (h_ldg : F .ldg = true) :
    ∀ a0, EffX F s0 (execFarLinkDown a0 s) := by
  intro a0
  unfold execFarLinkDown
  repeat' with_reducible first
    | assumption
    | refine State.linkDown_eff ?_ h_rf h_kpr h_iln h_bel h_ldg _
    | refine EffX.next ?_
    | refine Eff.ite ?_ ?_
    | refine EffX.ite ?_ ?_
    | split

theorem execFarLinkUp_eff (h : Eff F s0 s) (h_rf : F .rf = true) (h_ecc : F .ecc = true) (h_cir : F .cir = true) (h_cat : F .cat = true) (h_bind : F .bind = true) (h_kpr : F .kpr = true) (h_bel : F .bel = true) (h_ldg : F .ldg = true) (h_obs : F .obs = true) :
    ∀ a0, EffX F s0 (execFarLinkUp a0 s) := by
  intro a0
  unfold execFarLinkUp
  repeat' with_reducible first
    | assumption
    | refine State.farUp_eff ?_ h_rf h_ecc h_cir h_cat h_bind h_kpr h_bel h_ldg h_obs _
    | refine State.setRegBit_eff ?_ h_rf _ _ _
    | refine EffX.next ?_
    | refine Eff.ite ?_ ?_
    | refine EffX.ite ?_ ?_
    | split

theorem execHostRsp_eff (h : Eff F s0 s) (h_freeCtr : F .freeCtr = true) (h_rf : F .rf = true) (h_mem : F .mem = true) (h_ecc : F .ecc = true) (h_cir : F .cir = true) (h_cat : F .cat = true) (h_bind : F .bind = true) (h_shelves : F .shelves = true) (h_kpr : F .kpr = true) (h_iln : F .iln = true) (h_bel : F .bel = true) (h_ldg : F .ldg = true) (h_pwr : F .pwr = true) (h_obs : F .obs = true) (h_hostOut : F .hostOut = true) :
    ∀ a0 a1, EffX F s0 (execHostRsp a0 a1 s) := by
  intro a0 a1
  unfold execHostRsp
  repeat' with_reducible first
    | assumption
    | refine State.hostRefused_eff ?_ h_rf h_ldg _ _
    | refine State.ilnDiscard_eff ?_ h_rf
    | refine State.log_eff ?_ h_rf h_ldg _ _ _ _ _ _ _
    | refine State.hostDone_eff ?_ h_freeCtr h_rf h_mem h_ecc h_cir h_cat h_bind h_shelves h_kpr h_iln h_bel h_ldg h_pwr h_obs h_hostOut _ _ _
    | refine EffX.next ?_
    | refine Eff.ite ?_ ?_
    | refine EffX.ite ?_ ?_
    | split

theorem execHostTimeout_eff (h : Eff F s0 s) (h_freeCtr : F .freeCtr = true) (h_rf : F .rf = true) (h_mem : F .mem = true) (h_ecc : F .ecc = true) (h_stp : F .stp = true) (h_cir : F .cir = true) (h_cat : F .cat = true) (h_bind : F .bind = true) (h_shelves : F .shelves = true) (h_kpr : F .kpr = true) (h_iln : F .iln = true) (h_bel : F .bel = true) (h_ldg : F .ldg = true) (h_pwr : F .pwr = true) (h_obs : F .obs = true) (h_hostOut : F .hostOut = true) :
    ∀ a0, EffX F s0 (execHostTimeout a0 s) := by
  intro a0
  unfold execHostTimeout
  repeat' with_reducible first
    | assumption
    | refine State.hostTimeout_eff ?_ h_freeCtr h_rf h_mem h_ecc h_stp h_cir h_cat h_bind h_shelves h_kpr h_iln h_bel h_ldg h_pwr h_obs h_hostOut _
    | refine EffX.next ?_
    | refine Eff.ite ?_ ?_
    | refine EffX.ite ?_ ?_
    | split

theorem execIlnLinkLost_eff (h : Eff F s0 s) (h_freeCtr : F .freeCtr = true) (h_rf : F .rf = true) (h_mem : F .mem = true) (h_ecc : F .ecc = true) (h_stp : F .stp = true) (h_cir : F .cir = true) (h_cat : F .cat = true) (h_bind : F .bind = true) (h_shelves : F .shelves = true) (h_kpr : F .kpr = true) (h_iln : F .iln = true) (h_bel : F .bel = true) (h_ldg : F .ldg = true) (h_pwr : F .pwr = true) (h_obs : F .obs = true) (h_hostOut : F .hostOut = true) :
    ∀ a0, EffX F s0 (execIlnLinkLost a0 s) := by
  intro a0
  unfold execIlnLinkLost
  repeat' with_reducible first
    | assumption
    | refine State.linkTimeout_eff ?_ h_freeCtr h_rf h_mem h_ecc h_stp h_cir h_cat h_bind h_shelves h_kpr h_iln h_bel h_ldg h_pwr h_obs h_hostOut _
    | refine EffX.next ?_
    | refine Eff.ite ?_ ?_
    | refine EffX.ite ?_ ?_
    | split

theorem execIlnRemoteTimeout_eff (h : Eff F s0 s) (h_freeCtr : F .freeCtr = true) (h_rf : F .rf = true) (h_mem : F .mem = true) (h_ecc : F .ecc = true) (h_stp : F .stp = true) (h_cir : F .cir = true) (h_cat : F .cat = true) (h_bind : F .bind = true) (h_shelves : F .shelves = true) (h_kpr : F .kpr = true) (h_iln : F .iln = true) (h_bel : F .bel = true) (h_ldg : F .ldg = true) (h_pwr : F .pwr = true) (h_obs : F .obs = true) (h_hostOut : F .hostOut = true) :
    ∀ a0, EffX F s0 (execIlnRemoteTimeout a0 s) := by
  intro a0
  unfold execIlnRemoteTimeout
  repeat' with_reducible first
    | assumption
    | refine State.remoteTimeout_eff ?_ h_freeCtr h_rf h_mem h_ecc h_stp h_cir h_cat h_bind h_shelves h_kpr h_iln h_bel h_ldg h_pwr h_obs h_hostOut _
    | refine EffX.next ?_
    | refine Eff.ite ?_ ?_
    | refine EffX.ite ?_ ?_
    | split

theorem execPeerIdle_eff (h : Eff F s0 s) (h_stp : F .stp = true) (h_shelves : F .shelves = true) (h_iln : F .iln = true) (h_ldg : F .ldg = true) (h_obs : F .obs = true) :
    ∀ a0, EffX F s0 (execPeerIdle a0 s) := by
  intro a0
  unfold execPeerIdle
  repeat' with_reducible first
    | assumption
    | refine State.peerIdle_eff ?_ h_stp h_shelves h_iln h_ldg h_obs _
    | refine EffX.next ?_
    | refine Eff.ite ?_ ?_
    | refine EffX.ite ?_ ?_
    | split

theorem execPortDown_eff (h : Eff F s0 s) (h_rf : F .rf = true) (h_kpr : F .kpr = true) (h_iln : F .iln = true) (h_bel : F .bel = true) (h_ldg : F .ldg = true) :
    ∀ a0, EffX F s0 (execPortDown a0 s) := by
  intro a0
  unfold execPortDown
  repeat' with_reducible first
    | assumption
    | refine State.linkDown_eff ?_ h_rf h_kpr h_iln h_bel h_ldg _
    | refine EffX.next ?_
    | refine Eff.ite ?_ ?_
    | refine EffX.ite ?_ ?_
    | split

theorem execPortTrained_eff (h : Eff F s0 s) (h_rf : F .rf = true) (h_ecc : F .ecc = true) (h_cir : F .cir = true) (h_cat : F .cat = true) (h_bind : F .bind = true) (h_kpr : F .kpr = true) (h_iln : F .iln = true) (h_bel : F .bel = true) (h_ldg : F .ldg = true) (h_obs : F .obs = true) :
    ∀ a0 a1, EffX F s0 (execPortTrained a0 a1 s) := by
  intro a0 a1
  unfold execPortTrained
  repeat' with_reducible first
    | assumption
    | refine State.portTrained_eff ?_ h_rf h_ecc h_cir h_cat h_bind h_kpr h_iln h_bel h_ldg h_obs _ _
    | refine EffX.next ?_
    | refine Eff.ite ?_ ?_
    | refine EffX.ite ?_ ?_
    | split

theorem execRetrain_eff (h : Eff F s0 s) (h_rf : F .rf = true) (h_iln : F .iln = true) (h_bel : F .bel = true) :
    ∀ a0, EffX F s0 (execRetrain a0 s) := by
  intro a0
  unfold execRetrain
  repeat' with_reducible first
    | assumption
    | refine State.portRetrain_eff ?_ h_rf h_iln h_bel _
    | refine EffX.next ?_
    | refine Eff.ite ?_ ?_
    | refine EffX.ite ?_ ?_
    | split

theorem execRetryTimeout_eff (h : Eff F s0 s) (h_rf : F .rf = true) (h_stp : F .stp = true) (h_shelves : F .shelves = true) (h_iln : F .iln = true) (h_ldg : F .ldg = true) (h_obs : F .obs = true) :
    ∀ a0 a1, EffX F s0 (execRetryTimeout a0 a1 s) := by
  intro a0 a1
  unfold execRetryTimeout
  repeat' with_reducible first
    | assumption
    | refine State.retryDue_eff ?_ h_rf h_stp h_shelves h_iln h_ldg h_obs _ _
    | refine EffX.next ?_
    | refine Eff.ite ?_ ?_
    | refine EffX.ite ?_ ?_
    | split

theorem execRouteWrite_eff (h : Eff F s0 s) (h_rf : F .rf = true) (h_bel : F .bel = true) :
    ∀ a0 a1, EffX F s0 (execRouteWrite a0 a1 s) := by
  intro a0 a1
  unfold execRouteWrite
  repeat' with_reducible first
    | assumption
    | refine State.routeWrite_eff ?_ h_rf h_bel _ _
    | refine EffX.next ?_
    | refine Eff.ite ?_ ?_
    | refine EffX.ite ?_ ?_
    | split

theorem execSyncRetry_eff (h : Eff F s0 s) (h_rf : F .rf = true) (h_stp : F .stp = true) (h_shelves : F .shelves = true) (h_iln : F .iln = true) (h_ldg : F .ldg = true) (h_obs : F .obs = true) :
    ∀ a0, EffX F s0 (execSyncRetry a0 s) := by
  intro a0
  unfold execSyncRetry
  repeat' with_reducible first
    | assumption
    | refine State.syncDue_eff ?_ h_rf h_stp h_shelves h_iln h_ldg h_obs _
    | refine EffX.next ?_
    | refine Eff.ite ?_ ?_
    | refine EffX.ite ?_ ?_
    | split

end Sys2Proof.Machine
end

