-- ==== Sys2Proof/Laws/FrameBell.lean ====
section
/-! SUPPORT. Frames of the operations of Machine/Bell.lean: what each may change. -/

namespace Sys2Proof.Machine

variable {F : Comp → Bool} {s0 s : State}

theorem State.belComplete_eff (h : Eff F s0 s) (h_rf : F .rf = true) (h_bel : F .bel = true) :
    ∀ a1, Eff F s0 (State.belComplete s a1) := by
  intro a1
  unfold State.belComplete
  repeat' with_reducible first
    | assumption
    | (extract_lets +onlyGivenNames x
       first
       | (refine Eff.cut F s0 x ?_ ?_; unfold x; clear x; rotate_left; intro _; clear_value x; rotate_left)
       | (refine EffP.cut F s0 x ?_ ?_; unfold x; clear x; rotate_left; intro _; clear_value x; rotate_left)
       | clear_value x)
    | refine State.countSat_eff ?_ h_rf _ _ _ _
    | refine State.belWake_eff ?_ h_bel
    | refine State.setBelSrc_eff ?_ h_bel _ _
    | refine Eff.ite ?_ ?_
    | split

theorem State.belHead_eff (h : Eff F s0 s) (h_rf : F .rf = true) :
    ∀ a1 a2, Eff F s0 (State.belHead s a1 a2) := by
  intro a1 a2
  unfold State.belHead
  repeat' with_reducible first
    | assumption
    | refine State.setReg_eff ?_ h_rf _ _
    | refine Eff.ite ?_ ?_
    | split

theorem State.curWrite_eff (h : Eff F s0 s) (h_rf : F .rf = true) (h_ecc : F .ecc = true) (h_curMem : F .curMem = true) :
    ∀ a1 a2, Eff F s0 (State.curWrite s a1 a2) := by
  intro a1 a2
  unfold State.curWrite
  repeat' with_reducible first
    | assumption
    | (extract_lets +onlyGivenNames x
       first
       | (refine Eff.cut F s0 x ?_ ?_; unfold x; clear x; rotate_left; intro _; clear_value x; rotate_left)
       | (refine EffP.cut F s0 x ?_ ?_; unfold x; clear x; rotate_left; intro _; clear_value x; rotate_left)
       | clear_value x)
    | refine State.inject_eff ?_ h_rf h_ecc _ _ _ _
    | refine Eff.foldl ?_ (fun _ _ _ => ?_)
    | refine EffP.fst ?_
    | refine EffP.of_eq (by assumption) ?_
    | refine Eff.ite ?_ ?_
    | split
    | refine Eff.set_ecc_curMem ?_ h_ecc h_curMem ?_
    | intro _
    | refine Memory.wf_write _ _ ?_
    | refine Memory.wf_writeN _ _ ?_
    | refine Memory.wf_writeLe _ _ _ ?_
    | refine Memory.wf_clear _ _ ?_
    | refine Memory.wf_dropOnDie ?_
    | refine Memory.wf_copy _ _ _ ?_
    | refine RegFile.wf_set _ _ ?_
    | refine RegFile.wf_filter _ ?_

theorem State.belTake_eff (h : Eff F s0 s) (h_bel : F .bel = true) :
    ∀ a1, Eff F s0 (State.belTake s a1) := by
  intro a1
  unfold State.belTake
  repeat' with_reducible first
    | assumption
    | refine Eff.ite ?_ ?_
    | split
    | refine Eff.set_bel ?_ h_bel

theorem State.belRoute_eff (h : Eff F s0 s) (h_rf : F .rf = true) (h_ecc : F .ecc = true) (h_curMem : F .curMem = true) (h_bel : F .bel = true) :
    Eff F s0 (State.belRoute s) := by
  unfold State.belRoute
  repeat' with_reducible first
    | assumption
    | (extract_lets +onlyGivenNames x
       first
       | (refine Eff.cut F s0 x ?_ ?_; unfold x; clear x; rotate_left; intro _; clear_value x; rotate_left)
       | (refine EffP.cut F s0 x ?_ ?_; unfold x; clear x; rotate_left; intro _; clear_value x; rotate_left)
       | clear_value x)
    | refine State.curWrite_eff ?_ h_rf h_ecc h_curMem _ _
    | refine State.countWrap_eff ?_ h_rf _ _ _ _
    | refine State.setReg_eff ?_ h_rf _ _
    | refine State.setBelSrc_eff ?_ h_bel _ _
    | refine State.belTake_eff ?_ h_bel _
    | refine State.belWake_eff ?_ h_bel
    | split
    | refine Eff.set_bel ?_ h_bel

theorem State.managerGate_eff (h : Eff F s0 s) (h_rf : F .rf = true) (h_ldg : F .ldg = true) :
    ∀ a1 a2, EffO F s0 (State.managerGate s a1 a2) := by
  intro a1 a2
  unfold State.managerGate
  repeat' with_reducible first
    | assumption
    | refine State.log_eff ?_ h_rf h_ldg _ _ _ _ _ _ _
    | refine State.notPermitted_eff ?_ h_rf h_ldg _ _ _
    | exact EffO.none
    | refine EffO.some ?_
    | refine EffO.map (fun _ => ?_)
    | refine Eff.ite ?_ ?_
    | refine EffO.ite ?_ ?_
    | split

theorem State.belWrite_eff (h : Eff F s0 s) (h_rf : F .rf = true) (h_bel : F .bel = true) (h_ldg : F .ldg = true) :
    ∀ a1 a2 a3, Eff F s0 (State.belWrite s a1 a2 a3) := by
  intro a1 a2 a3
  unfold State.belWrite
  repeat' with_reducible first
    | assumption
    | refine State.managerGate_eff ?_ h_rf h_ldg _ _
    | refine State.bell_eff ?_ h_bel _ _
    | refine State.countSat_eff ?_ h_rf _ _ _ _
    | refine EffO.of_eq (by assumption) ?_
    | refine Eff.ite ?_ ?_
    | refine EffO.ite ?_ ?_
    | split

theorem State.curatorRan_eff (h : Eff F s0 s) (h_bel : F .bel = true) :
    ∀ a1, Eff F s0 (State.curatorRan s a1) := by
  intro a1
  unfold State.curatorRan
  repeat' with_reducible first
    | assumption
    | (extract_lets +onlyGivenNames x
       first
       | (refine Eff.cut F s0 x ?_ ?_; unfold x; clear x; rotate_left; intro _; clear_value x; rotate_left)
       | (refine EffP.cut F s0 x ?_ ?_; unfold x; clear x; rotate_left; intro _; clear_value x; rotate_left)
       | clear_value x)
    | refine Eff.foldl ?_ (fun _ _ _ => ?_)
    | refine EffP.fst ?_
    | refine EffP.of_eq (by assumption) ?_
    | split
    | refine Eff.set_bel ?_ h_bel

theorem execBelComplete_eff (h : Eff F s0 s) (h_rf : F .rf = true) (h_bel : F .bel = true) :
    ∀ a0, EffX F s0 (execBelComplete a0 s) := by
  intro a0
  unfold execBelComplete
  repeat' with_reducible first
    | assumption
    | refine State.belComplete_eff ?_ h_rf h_bel _
    | refine EffX.next ?_
    | refine Eff.ite ?_ ?_
    | refine EffX.ite ?_ ?_
    | split

theorem execBelDoorbell_eff (h : Eff F s0 s) (h_rf : F .rf = true) (h_bel : F .bel = true) (h_ldg : F .ldg = true) :
    ∀ a0 a1, EffX F s0 (execBelDoorbell a0 a1 s) := by
  intro a0 a1
  unfold execBelDoorbell
  repeat' with_reducible first
    | assumption
    | refine State.belWrite_eff ?_ h_rf h_bel h_ldg _ _ _
    | refine EffX.next ?_
    | split

theorem execBelPendSet_eff (h : Eff F s0 s) (h_rf : F .rf = true) (h_bel : F .bel = true) (h_ldg : F .ldg = true) :
    ∀ a0 a1, EffX F s0 (execBelPendSet a0 a1 s) := by
  intro a0 a1
  unfold execBelPendSet
  repeat' with_reducible first
    | assumption
    | refine State.belWrite_eff ?_ h_rf h_bel h_ldg _ _ _
    | refine EffX.next ?_
    | split

theorem execBelQHeadWrite_eff (h : Eff F s0 s) (h_rf : F .rf = true) :
    ∀ a0 a1, EffX F s0 (execBelQHeadWrite a0 a1 s) := by
  intro a0 a1
  unfold execBelQHeadWrite
  repeat' with_reducible first
    | assumption
    | refine State.belHead_eff ?_ h_rf _ _
    | refine EffX.next ?_
    | refine Eff.ite ?_ ?_
    | refine EffX.ite ?_ ?_
    | split

theorem execBellRoute_eff (h : Eff F s0 s) (h_rf : F .rf = true) (h_ecc : F .ecc = true) (h_curMem : F .curMem = true) (h_bel : F .bel = true) :
    EffX F s0 (execBellRoute s) := by
  unfold execBellRoute
  repeat' with_reducible first
    | assumption
    | refine State.belRoute_eff ?_ h_rf h_ecc h_curMem h_bel
    | refine EffX.next ?_
    | refine Eff.ite ?_ ?_
    | refine EffX.ite ?_ ?_
    | split

theorem execNormalBankReturn_eff (h : Eff F s0 s) (h_bel : F .bel = true) :
    ∀ a0, EffX F s0 (execNormalBankReturn a0 s) := by
  intro a0
  unfold execNormalBankReturn
  repeat' with_reducible first
    | assumption
    | (extract_lets +onlyGivenNames x
       first
       | (refine Eff.cut F s0 x ?_ ?_; unfold x; clear x; rotate_left; intro _; clear_value x; rotate_left)
       | (refine EffP.cut F s0 x ?_ ?_; unfold x; clear x; rotate_left; intro _; clear_value x; rotate_left)
       | clear_value x)
    | refine State.curatorRan_eff ?_ h_bel _
    | refine State.belTake_eff ?_ h_bel _
    | refine EffX.next ?_
    | refine Eff.ite ?_ ?_
    | refine EffX.ite ?_ ?_
    | split
    | refine Eff.set_bel ?_ h_bel

theorem execWaitForInterrupt_eff (h : Eff F s0 s) (h_bel : F .bel = true) :
    ∀ a0, EffX F s0 (execWaitForInterrupt a0 s) := by
  intro a0
  unfold execWaitForInterrupt
  repeat' with_reducible first
    | assumption
    | (extract_lets +onlyGivenNames x
       first
       | (refine Eff.cut F s0 x ?_ ?_; unfold x; clear x; rotate_left; intro _; clear_value x; rotate_left)
       | (refine EffP.cut F s0 x ?_ ?_; unfold x; clear x; rotate_left; intro _; clear_value x; rotate_left)
       | clear_value x)
    | refine State.curatorRan_eff ?_ h_bel _
    | refine State.belWake_eff ?_ h_bel
    | refine EffX.next ?_
    | refine Eff.ite ?_ ?_
    | refine EffX.ite ?_ ?_
    | split
    | refine Eff.set_bel ?_ h_bel

end Sys2Proof.Machine
end

