-- ==== Sys2Proof/Laws/FrameSettings.lean ====
section
/-! SUPPORT. Frames of the operations of Machine/Settings.lean: what each may change. -/

namespace Sys2Proof.Machine

variable {F : Comp → Bool} {s0 s : State}

theorem State.ssCommit_eff (h : Eff F s0 s) (h_ss : F .ss = true) :
    ∀ a1, Eff F s0 (State.ssCommit s a1) := by
  intro a1
  unfold State.ssCommit
  repeat' with_reducible first
    | assumption
    | (extract_lets +onlyGivenNames x
       first
       | (refine Eff.cut F s0 x ?_ ?_; unfold x; clear x; rotate_left; intro _; clear_value x; rotate_left)
       | (refine EffP.cut F s0 x ?_ ?_; unfold x; clear x; rotate_left; intro _; clear_value x; rotate_left)
       | clear_value x)
    | refine Eff.ite ?_ ?_
    | split
    | refine Eff.set_ss ?_ h_ss

theorem State.ssCut_eff (h : Eff F s0 s) (h_freeCtr : F .freeCtr = true) (h_ss : F .ss = true) :
    Eff F s0 (State.ssCut s) := by
  unfold State.ssCut
  repeat' with_reducible first
    | assumption
    | (extract_lets +onlyGivenNames x
       first
       | (refine Eff.cut F s0 x ?_ ?_; unfold x; clear x; rotate_left; intro _; clear_value x; rotate_left)
       | (refine EffP.cut F s0 x ?_ ?_; unfold x; clear x; rotate_left; intro _; clear_value x; rotate_left)
       | clear_value x)
    | refine Eff.ite ?_ ?_
    | split
    | refine Eff.set_ss ?_ h_ss
    | refine Eff.set_freeCtr_ss ?_ h_freeCtr h_ss

theorem State.ssEnd_eff (h : Eff F s0 s) (h_rf : F .rf = true) (h_ss : F .ss = true) :
    ∀ a1, Eff F s0 (State.ssEnd s a1) := by
  intro a1
  unfold State.ssEnd
  repeat' with_reducible first
    | assumption
    | (extract_lets +onlyGivenNames x
       first
       | (refine Eff.cut F s0 x ?_ ?_; unfold x; clear x; rotate_left; intro _; clear_value x; rotate_left)
       | (refine EffP.cut F s0 x ?_ ?_; unfold x; clear x; rotate_left; intro _; clear_value x; rotate_left)
       | clear_value x)
    | refine State.setReg_eff ?_ h_rf _ _
    | refine Eff.foldl ?_ (fun _ _ _ => ?_)
    | refine EffP.foldl ?_ (fun _ _ _ => ?_)
    | refine EffP.fst ?_
    | refine EffP.of_eq (by assumption) ?_
    | refine Eff.ite ?_ ?_
    | split
    | refine Eff.set_ss ?_ h_ss

theorem State.ssLoad_eff (h : Eff F s0 s) (h_ss : F .ss = true) :
    ∀ a1, Eff F s0 (State.ssLoad s a1) := by
  intro a1
  unfold State.ssLoad
  repeat' with_reducible first
    | assumption
    | refine Eff.ite ?_ ?_
    | split
    | refine Eff.set_ss ?_ h_ss

theorem State.ssUnlock_eff (h : Eff F s0 s) (h_ss : F .ss = true) :
    ∀ a1, Eff F s0 (State.ssUnlock s a1) := by
  intro a1
  unfold State.ssUnlock
  repeat' with_reducible first
    | assumption
    | split
    | refine Eff.set_ss ?_ h_ss

theorem execCfgSsUnlock_eff (h : Eff F s0 s) (h_ss : F .ss = true) :
    ∀ a0, EffX F s0 (execCfgSsUnlock a0 s) := by
  intro a0
  unfold execCfgSsUnlock
  repeat' with_reducible first
    | assumption
    | refine State.ssUnlock_eff ?_ h_ss _
    | refine EffX.next ?_
    | refine Eff.ite ?_ ?_
    | refine EffX.ite ?_ ?_
    | split

theorem execCommit_eff (h : Eff F s0 s) (h_ss : F .ss = true) :
    ∀ a0, EffX F s0 (execCommit a0 s) := by
  intro a0
  unfold execCommit
  repeat' with_reducible first
    | assumption
    | refine State.ssCommit_eff ?_ h_ss _
    | refine EffX.next ?_
    | refine Eff.ite ?_ ?_
    | refine EffX.ite ?_ ?_
    | split

theorem execLoad_eff (h : Eff F s0 s) (h_ss : F .ss = true) :
    ∀ a0, EffX F s0 (execLoad a0 s) := by
  intro a0
  unfold execLoad
  repeat' with_reducible first
    | assumption
    | refine State.ssLoad_eff ?_ h_ss _
    | refine EffX.next ?_
    | refine Eff.ite ?_ ?_
    | refine EffX.ite ?_ ?_
    | split

theorem execSsCommandEnd_eff (h : Eff F s0 s) (h_rf : F .rf = true) (h_ss : F .ss = true) (h_bel : F .bel = true) :
    ∀ a0, EffX F s0 (execSsCommandEnd a0 s) := by
  intro a0
  unfold execSsCommandEnd
  repeat' with_reducible first
    | assumption
    | refine State.bell_eff ?_ h_bel _ _
    | refine State.ssEnd_eff ?_ h_rf h_ss _
    | refine EffX.next ?_
    | refine Eff.ite ?_ ?_
    | refine EffX.ite ?_ ?_
    | split

end Sys2Proof.Machine
end

