-- ==== Sys2Proof/Laws/FrameLedger.lean ====
section
/-! SUPPORT. Frames of the operations of Machine/Ledger.lean: what each may change. -/

namespace Sys2Proof.Machine

variable {F : Comp → Bool} {s0 s : State}

theorem State.logPut_eff (h : Eff F s0 s) (h_rf : F .rf = true) (h_mem : F .mem = true) (h_iln : F .iln = true) (h_bel : F .bel = true) (h_ldg : F .ldg = true) (h_hostOut : F .hostOut = true) :
    ∀ a1, Eff F s0 (State.logPut s a1) := by
  intro a1
  unfold State.logPut
  repeat' with_reducible first
    | assumption
    | (extract_lets +onlyGivenNames x
       first
       | (refine Eff.cut F s0 x ?_ ?_; unfold x; clear x; rotate_left; intro _; clear_value x; rotate_left)
       | (refine EffP.cut F s0 x ?_ ?_; unfold x; clear x; rotate_left; intro _; clear_value x; rotate_left)
       | clear_value x)
    | refine State.countSat_eff ?_ h_rf _ _ _ _
    | refine State.hostWrite_eff ?_ h_iln h_hostOut _ _ _ _
    | refine State.countWrap_eff ?_ h_rf _ _ _ _
    | refine State.setReg_eff ?_ h_rf _ _
    | refine State.bell_eff ?_ h_bel _ _
    | refine Eff.ite ?_ ?_
    | split
    | refine Eff.set_ldg ?_ h_ldg
    | refine Eff.set_mem ?_ h_mem ?_
    | intro _
    | refine Memory.wf_write _ _ ?_
    | refine Memory.wf_writeN _ _ ?_
    | refine Memory.wf_writeLe _ _ _ ?_
    | refine Memory.wf_clear _ _ ?_
    | refine Memory.wf_dropOnDie ?_
    | refine Memory.wf_copy _ _ _ ?_
    | refine RegFile.wf_set _ _ ?_
    | refine RegFile.wf_filter _ ?_

theorem State.logDrainN_eff (h : Eff F s0 s) (h_rf : F .rf = true) (h_mem : F .mem = true) (h_iln : F .iln = true) (h_bel : F .bel = true) (h_ldg : F .ldg = true) (h_hostOut : F .hostOut = true) :
    ∀ a0, Eff F s0 (State.logDrainN a0 s) := by
  intro a0
  induction a0 generalizing s with
  | zero => exact h
  | succ n ih =>
    rw [State.logDrainN]
    repeat' with_reducible first
      | assumption
      | refine State.logPut_eff ?_ h_rf h_mem h_iln h_bel h_ldg h_hostOut _
      | apply ih
      | refine Eff.ite ?_ ?_
      | split
      | refine Eff.set_ldg ?_ h_ldg

theorem State.logDrain_eff (h : Eff F s0 s) (h_rf : F .rf = true) (h_mem : F .mem = true) (h_iln : F .iln = true) (h_bel : F .bel = true) (h_ldg : F .ldg = true) (h_hostOut : F .hostOut = true) :
    Eff F s0 (State.logDrain s) := by
  unfold State.logDrain
  repeat' with_reducible first
    | assumption
    | (extract_lets +onlyGivenNames x
       first
       | (refine Eff.cut F s0 x ?_ ?_; unfold x; clear x; rotate_left; intro _; clear_value x; rotate_left)
       | (refine EffP.cut F s0 x ?_ ?_; unfold x; clear x; rotate_left; intro _; clear_value x; rotate_left)
       | clear_value x)
    | refine State.logDrainN_eff ?_ h_rf h_mem h_iln h_bel h_ldg h_hostOut _
    | refine State.log_eff ?_ h_rf h_ldg _ _ _ _ _ _ _
    | refine Eff.ite ?_ ?_
    | split
    | refine Eff.set_ldg ?_ h_ldg

theorem State.logRecord_eff (h : Eff F s0 s) (h_rf : F .rf = true) (h_mem : F .mem = true) (h_iln : F .iln = true) (h_bel : F .bel = true) (h_ldg : F .ldg = true) (h_hostOut : F .hostOut = true) :
    ∀ a1, Eff F s0 (State.logRecord s a1) := by
  intro a1
  unfold State.logRecord
  repeat' with_reducible first
    | assumption
    | (extract_lets +onlyGivenNames x
       first
       | (refine Eff.cut F s0 x ?_ ?_; unfold x; clear x; rotate_left; intro _; clear_value x; rotate_left)
       | (refine EffP.cut F s0 x ?_ ?_; unfold x; clear x; rotate_left; intro _; clear_value x; rotate_left)
       | clear_value x)
    | refine State.logDrainN_eff ?_ h_rf h_mem h_iln h_bel h_ldg h_hostOut _
    | refine State.logDrain_eff ?_ h_rf h_mem h_iln h_bel h_ldg h_hostOut
    | refine State.countSat_eff ?_ h_rf _ _ _ _
    | refine Eff.ite ?_ ?_
    | split
    | refine Eff.set_ldg ?_ h_ldg

theorem State.keep_eff (h : Eff F s0 s) (h_rf : F .rf = true) :
    ∀ a1, Eff F s0 (State.keep s a1) := by
  intro a1
  unfold State.keep
  repeat' with_reducible first
    | assumption
    | (extract_lets +onlyGivenNames x
       first
       | (refine Eff.cut F s0 x ?_ ?_; unfold x; clear x; rotate_left; intro _; clear_value x; rotate_left)
       | (refine EffP.cut F s0 x ?_ ?_; unfold x; clear x; rotate_left; intro _; clear_value x; rotate_left)
       | clear_value x)
    | refine State.setField_eff ?_ h_rf _ _ _ _
    | refine State.setReg_eff ?_ h_rf _ _
    | refine Eff.foldl ?_ (fun _ _ _ => ?_)
    | refine EffP.foldl ?_ (fun _ _ _ => ?_)
    | refine EffP.fst ?_
    | refine EffP.of_eq (by assumption) ?_
    | split

theorem State.notifyRecord_eff (h : Eff F s0 s) (h_rf : F .rf = true) (h_iln : F .iln = true) (h_hostOut : F .hostOut = true) :
    ∀ a1, Eff F s0 (State.notifyRecord s a1) := by
  intro a1
  unfold State.notifyRecord
  repeat' with_reducible first
    | assumption
    | (extract_lets +onlyGivenNames x
       first
       | (refine Eff.cut F s0 x ?_ ?_; unfold x; clear x; rotate_left; intro _; clear_value x; rotate_left)
       | (refine EffP.cut F s0 x ?_ ?_; unfold x; clear x; rotate_left; intro _; clear_value x; rotate_left)
       | clear_value x)
    | refine State.keep_eff ?_ h_rf _
    | refine State.mgrNotify_eff ?_ h_iln h_hostOut
    | refine Eff.ite ?_ ?_
    | split

theorem State.carrelFatal_eff (h : Eff F s0 s) (h_rf : F .rf = true) (h_mem : F .mem = true) (h_ecc : F .ecc = true) (h_curMem : F .curMem = true) (h_pins : F .pins = true) (h_smb : F .smb = true) (h_boot : F .boot = true) (h_stp : F .stp = true) (h_cir : F .cir = true) (h_cat : F .cat = true) (h_bind : F .bind = true) (h_shelves : F .shelves = true) (h_kpr : F .kpr = true) (h_iln : F .iln = true) (h_crl : F .crl = true) (h_bel : F .bel = true) (h_ldg : F .ldg = true) (h_pwr : F .pwr = true) (h_obs : F .obs = true) :
    ∀ a1, Eff F s0 (State.carrelFatal s a1) := by
  intro a1
  unfold State.carrelFatal
  repeat' with_reducible first
    | assumption
    | (extract_lets +onlyGivenNames x
       first
       | (refine Eff.cut F s0 x ?_ ?_; unfold x; clear x; rotate_left; intro _; clear_value x; rotate_left)
       | (refine EffP.cut F s0 x ?_ ?_; unfold x; clear x; rotate_left; intro _; clear_value x; rotate_left)
       | clear_value x)
    | refine State.blockReset_eff ?_ h_rf h_mem h_ecc h_curMem h_pins h_smb h_boot h_stp h_cir h_cat h_bind h_shelves h_kpr h_iln h_crl h_bel h_ldg h_pwr h_obs _ _ _
    | refine State.carrelReset_eff ?_ h_rf h_mem h_ecc h_cir h_cat h_bind h_shelves h_kpr h_iln h_crl h_bel h_ldg h_pwr h_obs _ _
    | refine Eff.ite ?_ ?_
    | split

theorem State.accept_eff (h : Eff F s0 s) (h_rf : F .rf = true) (h_mem : F .mem = true) (h_ecc : F .ecc = true) (h_curMem : F .curMem = true) (h_pins : F .pins = true) (h_smb : F .smb = true) (h_boot : F .boot = true) (h_stp : F .stp = true) (h_cir : F .cir = true) (h_cat : F .cat = true) (h_bind : F .bind = true) (h_shelves : F .shelves = true) (h_kpr : F .kpr = true) (h_iln : F .iln = true) (h_crl : F .crl = true) (h_bel : F .bel = true) (h_ldg : F .ldg = true) (h_pwr : F .pwr = true) (h_obs : F .obs = true) (h_hostOut : F .hostOut = true) :
    ∀ a1, Eff F s0 (State.accept s a1) := by
  intro a1
  unfold State.accept
  repeat' with_reducible first
    | assumption
    | (extract_lets +onlyGivenNames x
       first
       | (refine Eff.cut F s0 x ?_ ?_; unfold x; clear x; rotate_left; intro _; clear_value x; rotate_left)
       | (refine EffP.cut F s0 x ?_ ?_; unfold x; clear x; rotate_left; intro _; clear_value x; rotate_left)
       | clear_value x)
    | refine State.ldgCount_eff ?_ h_rf _
    | refine State.logRecord_eff ?_ h_rf h_mem h_iln h_bel h_ldg h_hostOut _
    | refine State.notifyRecord_eff ?_ h_rf h_iln h_hostOut _
    | refine State.carrelFatal_eff ?_ h_rf h_mem h_ecc h_curMem h_pins h_smb h_boot h_stp h_cir h_cat h_bind h_shelves h_kpr h_iln h_crl h_bel h_ldg h_pwr h_obs _
    | refine State.blockReset_eff ?_ h_rf h_mem h_ecc h_curMem h_pins h_smb h_boot h_stp h_cir h_cat h_bind h_shelves h_kpr h_iln h_crl h_bel h_ldg h_pwr h_obs _ _ _
    | refine Eff.ite ?_ ?_
    | split

theorem State.heartbeat_eff (h : Eff F s0 s) (h_ldg : F .ldg = true) :
    ∀ a1, Eff F s0 (State.heartbeat s a1) := by
  intro a1
  unfold State.heartbeat
  repeat' with_reducible first
    | assumption
    | (extract_lets +onlyGivenNames x
       first
       | (refine Eff.cut F s0 x ?_ ?_; unfold x; clear x; rotate_left; intro _; clear_value x; rotate_left)
       | (refine EffP.cut F s0 x ?_ ?_; unfold x; clear x; rotate_left; intro _; clear_value x; rotate_left)
       | clear_value x)
    | refine Eff.ite ?_ ?_
    | split
    | refine Eff.set_ldg ?_ h_ldg

theorem State.ledgerMessage_eff (h : Eff F s0 s) (h_rf : F .rf = true) (h_mem : F .mem = true) (h_ecc : F .ecc = true) (h_curMem : F .curMem = true) (h_pins : F .pins = true) (h_smb : F .smb = true) (h_boot : F .boot = true) (h_stp : F .stp = true) (h_cir : F .cir = true) (h_cat : F .cat = true) (h_bind : F .bind = true) (h_shelves : F .shelves = true) (h_kpr : F .kpr = true) (h_iln : F .iln = true) (h_crl : F .crl = true) (h_bel : F .bel = true) (h_ldg : F .ldg = true) (h_pwr : F .pwr = true) (h_obs : F .obs = true) (h_hostOut : F .hostOut = true) :
    ∀ a1 a2, Eff F s0 (State.ledgerMessage s a1 a2) := by
  intro a1 a2
  unfold State.ledgerMessage
  repeat' with_reducible first
    | assumption
    | (extract_lets +onlyGivenNames x
       first
       | (refine Eff.cut F s0 x ?_ ?_; unfold x; clear x; rotate_left; intro _; clear_value x; rotate_left)
       | (refine EffP.cut F s0 x ?_ ?_; unfold x; clear x; rotate_left; intro _; clear_value x; rotate_left)
       | clear_value x)
    | refine State.send_eff ?_ h_rf h_ldg _
    | refine State.accept_eff ?_ h_rf h_mem h_ecc h_curMem h_pins h_smb h_boot h_stp h_cir h_cat h_bind h_shelves h_kpr h_iln h_crl h_bel h_ldg h_pwr h_obs h_hostOut _
    | refine Eff.ite ?_ ?_
    | split
    | refine Eff.set_ldg ?_ h_ldg

theorem State.logConfig_eff (h : Eff F s0 s) (h_rf : F .rf = true) (h_mem : F .mem = true) (h_iln : F .iln = true) (h_bel : F .bel = true) (h_ldg : F .ldg = true) (h_hostOut : F .hostOut = true) :
    ∀ a1 a2, Eff F s0 (State.logConfig s a1 a2) := by
  intro a1 a2
  unfold State.logConfig
  repeat' with_reducible first
    | assumption
    | (extract_lets +onlyGivenNames x
       first
       | (refine Eff.cut F s0 x ?_ ?_; unfold x; clear x; rotate_left; intro _; clear_value x; rotate_left)
       | (refine EffP.cut F s0 x ?_ ?_; unfold x; clear x; rotate_left; intro _; clear_value x; rotate_left)
       | clear_value x)
    | refine State.setReg_eff ?_ h_rf _ _
    | refine State.logDrain_eff ?_ h_rf h_mem h_iln h_bel h_ldg h_hostOut
    | refine Eff.ite ?_ ?_
    | split

theorem State.logHead_eff (h : Eff F s0 s) (h_rf : F .rf = true) (h_mem : F .mem = true) (h_iln : F .iln = true) (h_bel : F .bel = true) (h_ldg : F .ldg = true) (h_hostOut : F .hostOut = true) :
    ∀ a1, Eff F s0 (State.logHead s a1) := by
  intro a1
  unfold State.logHead
  repeat' with_reducible first
    | assumption
    | (extract_lets +onlyGivenNames x
       first
       | (refine Eff.cut F s0 x ?_ ?_; unfold x; clear x; rotate_left; intro _; clear_value x; rotate_left)
       | (refine EffP.cut F s0 x ?_ ?_; unfold x; clear x; rotate_left; intro _; clear_value x; rotate_left)
       | clear_value x)
    | refine State.logDrain_eff ?_ h_rf h_mem h_iln h_bel h_ldg h_hostOut
    | refine State.setReg_eff ?_ h_rf _ _
    | refine Eff.ite ?_ ?_
    | split
    | refine Eff.set_ldg ?_ h_ldg

theorem State.managerReset_eff (h : Eff F s0 s) (h_rf : F .rf = true) (h_mem : F .mem = true) (h_ecc : F .ecc = true) (h_curMem : F .curMem = true) (h_pins : F .pins = true) (h_smb : F .smb = true) (h_boot : F .boot = true) (h_stp : F .stp = true) (h_cir : F .cir = true) (h_cat : F .cat = true) (h_bind : F .bind = true) (h_shelves : F .shelves = true) (h_kpr : F .kpr = true) (h_iln : F .iln = true) (h_crl : F .crl = true) (h_bel : F .bel = true) (h_ldg : F .ldg = true) (h_pwr : F .pwr = true) (h_obs : F .obs = true) :
    ∀ a1, Eff F s0 (State.managerReset s a1) := by
  intro a1
  unfold State.managerReset
  repeat' with_reducible first
    | assumption
    | refine State.blockReset_eff ?_ h_rf h_mem h_ecc h_curMem h_pins h_smb h_boot h_stp h_cir h_cat h_bind h_shelves h_kpr h_iln h_crl h_bel h_ldg h_pwr h_obs _ _ _
    | refine Eff.ite ?_ ?_
    | split

theorem State.oosClear_eff (h : Eff F s0 s) (h_ldg : F .ldg = true) :
    ∀ a1, Eff F s0 (State.oosClear s a1) := by
  intro a1
  unfold State.oosClear
  repeat' with_reducible first
    | assumption
    | refine Eff.ite ?_ ?_
    | split
    | refine Eff.set_ldg ?_ h_ldg

theorem State.watchdogExpire_eff (h : Eff F s0 s) (h_rf : F .rf = true) (h_mem : F .mem = true) (h_ecc : F .ecc = true) (h_curMem : F .curMem = true) (h_pins : F .pins = true) (h_smb : F .smb = true) (h_boot : F .boot = true) (h_stp : F .stp = true) (h_cir : F .cir = true) (h_cat : F .cat = true) (h_bind : F .bind = true) (h_shelves : F .shelves = true) (h_kpr : F .kpr = true) (h_iln : F .iln = true) (h_crl : F .crl = true) (h_bel : F .bel = true) (h_ldg : F .ldg = true) (h_pwr : F .pwr = true) (h_obs : F .obs = true) (h_hostOut : F .hostOut = true) :
    Eff F s0 (State.watchdogExpire s) := by
  unfold State.watchdogExpire
  repeat' with_reducible first
    | assumption
    | (extract_lets +onlyGivenNames x
       first
       | (refine Eff.cut F s0 x ?_ ?_; unfold x; clear x; rotate_left; intro _; clear_value x; rotate_left)
       | (refine EffP.cut F s0 x ?_ ?_; unfold x; clear x; rotate_left; intro _; clear_value x; rotate_left)
       | clear_value x)
    | refine State.advance_eff ?_ h_stp h_shelves h_ldg h_obs _
    | refine State.alert_eff ?_ h_smb _
    | refine State.accept_eff ?_ h_rf h_mem h_ecc h_curMem h_pins h_smb h_boot h_stp h_cir h_cat h_bind h_shelves h_kpr h_iln h_crl h_bel h_ldg h_pwr h_obs h_hostOut _
    | split
    | refine Eff.set_ldg ?_ h_ldg

theorem execLdgBlockReset_eff (h : Eff F s0 s) (h_rf : F .rf = true) (h_mem : F .mem = true) (h_ecc : F .ecc = true) (h_curMem : F .curMem = true) (h_pins : F .pins = true) (h_smb : F .smb = true) (h_boot : F .boot = true) (h_stp : F .stp = true) (h_cir : F .cir = true) (h_cat : F .cat = true) (h_bind : F .bind = true) (h_shelves : F .shelves = true) (h_kpr : F .kpr = true) (h_iln : F .iln = true) (h_crl : F .crl = true) (h_bel : F .bel = true) (h_ldg : F .ldg = true) (h_pwr : F .pwr = true) (h_obs : F .obs = true) :
    ∀ a0, EffX F s0 (execLdgBlockReset a0 s) := by
  intro a0
  unfold execLdgBlockReset
  repeat' with_reducible first
    | assumption
    | refine State.managerReset_eff ?_ h_rf h_mem h_ecc h_curMem h_pins h_smb h_boot h_stp h_cir h_cat h_bind h_shelves h_kpr h_iln h_crl h_bel h_ldg h_pwr h_obs _
    | refine EffX.next ?_
    | refine Eff.ite ?_ ?_
    | refine EffX.ite ?_ ?_
    | split

theorem execLdgHeartbeat_eff (h : Eff F s0 s) (h_ldg : F .ldg = true) :
    ∀ a0, EffX F s0 (execLdgHeartbeat a0 s) := by
  intro a0
  unfold execLdgHeartbeat
  repeat' with_reducible first
    | assumption
    | refine State.heartbeat_eff ?_ h_ldg _
    | refine EffX.next ?_
    | refine Eff.ite ?_ ?_
    | refine EffX.ite ?_ ?_
    | split

theorem execLdgLogHead_eff (h : Eff F s0 s) (h_rf : F .rf = true) (h_mem : F .mem = true) (h_iln : F .iln = true) (h_bel : F .bel = true) (h_ldg : F .ldg = true) (h_hostOut : F .hostOut = true) :
    ∀ a0, EffX F s0 (execLdgLogHead a0 s) := by
  intro a0
  unfold execLdgLogHead
  repeat' with_reducible first
    | assumption
    | refine State.logHead_eff ?_ h_rf h_mem h_iln h_bel h_ldg h_hostOut _
    | refine EffX.next ?_
    | refine Eff.ite ?_ ?_
    | refine EffX.ite ?_ ?_
    | split

theorem execLdgOosClear_eff (h : Eff F s0 s) (h_ldg : F .ldg = true) :
    ∀ a0, EffX F s0 (execLdgOosClear a0 s) := by
  intro a0
  unfold execLdgOosClear
  repeat' with_reducible first
    | assumption
    | refine State.oosClear_eff ?_ h_ldg _
    | refine EffX.next ?_
    | refine Eff.ite ?_ ?_
    | refine EffX.ite ?_ ?_
    | split

theorem execLedgerMessage_eff (h : Eff F s0 s) (h_rf : F .rf = true) (h_mem : F .mem = true) (h_ecc : F .ecc = true) (h_curMem : F .curMem = true) (h_pins : F .pins = true) (h_smb : F .smb = true) (h_boot : F .boot = true) (h_stp : F .stp = true) (h_cir : F .cir = true) (h_cat : F .cat = true) (h_bind : F .bind = true) (h_shelves : F .shelves = true) (h_kpr : F .kpr = true) (h_iln : F .iln = true) (h_crl : F .crl = true) (h_bel : F .bel = true) (h_ldg : F .ldg = true) (h_pwr : F .pwr = true) (h_obs : F .obs = true) (h_hostOut : F .hostOut = true) :
    ∀ a0 a1, EffX F s0 (execLedgerMessage a0 a1 s) := by
  intro a0 a1
  unfold execLedgerMessage
  repeat' with_reducible first
    | assumption
    | refine State.ledgerMessage_eff ?_ h_rf h_mem h_ecc h_curMem h_pins h_smb h_boot h_stp h_cir h_cat h_bind h_shelves h_kpr h_iln h_crl h_bel h_ldg h_pwr h_obs h_hostOut _ _
    | refine EffX.next ?_
    | refine Eff.ite ?_ ?_
    | refine EffX.ite ?_ ?_
    | split

theorem execLogConfigWrite_eff (h : Eff F s0 s) (h_rf : F .rf = true) (h_mem : F .mem = true) (h_iln : F .iln = true) (h_bel : F .bel = true) (h_ldg : F .ldg = true) (h_hostOut : F .hostOut = true) :
    ∀ a0 a1, EffX F s0 (execLogConfigWrite a0 a1 s) := by
  intro a0 a1
  unfold execLogConfigWrite
  repeat' with_reducible first
    | assumption
    | refine State.logConfig_eff ?_ h_rf h_mem h_iln h_bel h_ldg h_hostOut _ _
    | refine EffX.next ?_
    | refine Eff.ite ?_ ?_
    | refine EffX.ite ?_ ?_
    | split

theorem execRefclkLost_eff (h : Eff F s0 s) (h_rf : F .rf = true) (h_pins : F .pins = true) (h_smb : F .smb = true) (h_ldg : F .ldg = true) :
    EffX F s0 (execRefclkLost s) := by
  unfold execRefclkLost
  repeat' with_reducible first
    | assumption
    | (extract_lets +onlyGivenNames x
       first
       | (refine Eff.cut F s0 x ?_ ?_; unfold x; clear x; rotate_left; intro _; clear_value x; rotate_left)
       | (refine EffP.cut F s0 x ?_ ?_; unfold x; clear x; rotate_left; intro _; clear_value x; rotate_left)
       | clear_value x)
    | refine State.alert_eff ?_ h_smb _
    | refine State.log_eff ?_ h_rf h_ldg _ _ _ _ _ _ _
    | refine EffX.next ?_
    | refine Eff.ite ?_ ?_
    | refine EffX.ite ?_ ?_
    | split
    | refine Eff.set_pins ?_ h_pins

theorem execRefclkRestored_eff (h : Eff F s0 s) (h_pins : F .pins = true) :
    EffX F s0 (execRefclkRestored s) := by
  unfold execRefclkRestored
  repeat' with_reducible first
    | assumption
    | refine EffX.next ?_
    | refine Eff.ite ?_ ?_
    | refine EffX.ite ?_ ?_
    | split
    | refine Eff.set_pins ?_ h_pins

theorem execWatchdogExpired_eff (h : Eff F s0 s) (h_rf : F .rf = true) (h_mem : F .mem = true) (h_ecc : F .ecc = true) (h_curMem : F .curMem = true) (h_pins : F .pins = true) (h_smb : F .smb = true) (h_boot : F .boot = true) (h_stp : F .stp = true) (h_cir : F .cir = true) (h_cat : F .cat = true) (h_bind : F .bind = true) (h_shelves : F .shelves = true) (h_kpr : F .kpr = true) (h_iln : F .iln = true) (h_crl : F .crl = true) (h_bel : F .bel = true) (h_ldg : F .ldg = true) (h_pwr : F .pwr = true) (h_obs : F .obs = true) (h_hostOut : F .hostOut = true) :
    EffX F s0 (execWatchdogExpired s) := by
  unfold execWatchdogExpired
  repeat' with_reducible first
    | assumption
    | refine State.watchdogExpire_eff ?_ h_rf h_mem h_ecc h_curMem h_pins h_smb h_boot h_stp h_cir h_cat h_bind h_shelves h_kpr h_iln h_crl h_bel h_ldg h_pwr h_obs h_hostOut
    | refine EffX.next ?_
    | refine Eff.ite ?_ ?_
    | refine EffX.ite ?_ ?_
    | split

end Sys2Proof.Machine
end

