-- ==== Sys2Proof/Laws/FrameObserve.lean ====
section
/-! SUPPORT. Frames of the operations of Machine/Observe.lean: what each may change. -/

namespace Sys2Proof.Machine

variable {F : Comp → Bool} {s0 s : State}

theorem State.cntClear_eff (h : Eff F s0 s) (h_obs : F .obs = true) :
    Eff F s0 (State.cntClear s) := by
  unfold State.cntClear
  repeat' with_reducible first
    | assumption
    | split
    | refine Eff.set_obs ?_ h_obs

theorem State.cntSel_eff (h : Eff F s0 s) (h_rf : F .rf = true) :
    ∀ a1, Eff F s0 (State.cntSel s a1) := by
  intro a1
  unfold State.cntSel
  repeat' with_reducible first
    | assumption
    | (extract_lets +onlyGivenNames x
       first
       | (refine Eff.cut F s0 x ?_ ?_; unfold x; clear x; rotate_left; intro _; clear_value x; rotate_left)
       | (refine EffP.cut F s0 x ?_ ?_; unfold x; clear x; rotate_left; intro _; clear_value x; rotate_left)
       | clear_value x)
    | refine State.setReg_eff ?_ h_rf _ _
    | refine Eff.foldl ?_ (fun _ _ _ => ?_)
    | refine EffP.fst ?_
    | refine EffP.of_eq (by assumption) ?_
    | split

theorem State.logicBytes_eff (h : Eff F s0 s) (h_freeCtr : F .freeCtr = true) :
    ∀ a1, EffP F s0 (State.logicBytes s a1) := by
  intro a1
  unfold State.logicBytes
  repeat' with_reducible first
    | assumption
    | split
    | refine Eff.set_freeCtr ?_ h_freeCtr
    | refine EffP.mk ?_ _

theorem State.shiftTimers_eff (h : Eff F s0 s) (h_shelves : F .shelves = true) (h_iln : F .iln = true) :
    ∀ a1, Eff F s0 (State.shiftTimers s a1) := by
  intro a1
  unfold State.shiftTimers
  repeat' with_reducible first
    | assumption
    | (extract_lets +onlyGivenNames x
       first
       | (refine Eff.cut F s0 x ?_ ?_; unfold x; clear x; rotate_left; intro _; clear_value x; rotate_left)
       | (refine EffP.cut F s0 x ?_ ?_; unfold x; clear x; rotate_left; intro _; clear_value x; rotate_left)
       | clear_value x)
    | refine EffP.fst ?_
    | refine EffP.of_eq (by assumption) ?_
    | split
    | refine Eff.set_shelves_iln ?_ h_shelves h_iln

theorem State.releaseHush_eff (h : Eff F s0 s) (h_rf : F .rf = true) (h_ecc : F .ecc = true) (h_cir : F .cir = true) (h_cat : F .cat = true) (h_bind : F .bind = true) (h_shelves : F .shelves = true) (h_kpr : F .kpr = true) (h_iln : F .iln = true) (h_bel : F .bel = true) (h_ldg : F .ldg = true) (h_obs : F .obs = true) :
    Eff F s0 (State.releaseHush s) := by
  unfold State.releaseHush
  repeat' with_reducible first
    | assumption
    | (extract_lets +onlyGivenNames x
       first
       | (refine Eff.cut F s0 x ?_ ?_; unfold x; clear x; rotate_left; intro _; clear_value x; rotate_left)
       | (refine EffP.cut F s0 x ?_ ?_; unfold x; clear x; rotate_left; intro _; clear_value x; rotate_left)
       | clear_value x)
    | refine State.setReg_eff ?_ h_rf _ _
    | refine State.shiftTimers_eff ?_ h_shelves h_iln _
    | refine State.settle_eff ?_ h_rf h_ecc h_cir h_cat h_bind h_kpr h_bel h_ldg h_obs
    | refine State.event_eff ?_ h_rf h_bel _ _
    | refine Eff.ite ?_ ?_
    | split
    | refine Eff.set_obs ?_ h_obs

theorem State.scanRange_eff (h : Eff F s0 s) (h_freeCtr : F .freeCtr = true) :
    ∀ a1, EffP F s0 (State.scanRange s a1) := by
  intro a1
  unfold State.scanRange
  repeat' with_reducible first
    | assumption
    | (extract_lets +onlyGivenNames x
       first
       | (refine Eff.cut F s0 x ?_ ?_; unfold x; clear x; rotate_left; intro _; clear_value x; rotate_left)
       | (refine EffP.cut F s0 x ?_ ?_; unfold x; clear x; rotate_left; intro _; clear_value x; rotate_left)
       | clear_value x)
    | refine State.logicBytes_eff ?_ h_freeCtr _
    | refine EffP.fst ?_
    | refine EffP.of_eq (by assumption) ?_
    | refine EffP.ite ?_ ?_
    | refine Eff.ite ?_ ?_
    | split
    | refine EffP.mk ?_ _

theorem State.scanImage_eff (h : Eff F s0 s) (h_freeCtr : F .freeCtr = true) :
    ∀ a1, EffP F s0 (State.scanImage s a1) := by
  intro a1
  induction a1 generalizing s with
  | nil => exact EffP.mk h _
  | cons q qs ih =>
    rw [State.scanImage]
    repeat' with_reducible first
      | assumption
      | refine State.scanRange_eff ?_ h_freeCtr _
      | apply ih
      | refine EffP.fst ?_
      | refine EffP.of_eq (by assumption) ?_
      | split
      | refine EffP.mk ?_ _

theorem State.scanWrite_eff (h : Eff F s0 s) (h_freeCtr : F .freeCtr = true) (h_rf : F .rf = true) (h_mem : F .mem = true) (h_ecc : F .ecc = true) (h_kpr : F .kpr = true) (h_iln : F .iln = true) (h_bel : F .bel = true) (h_ldg : F .ldg = true) (h_obs : F .obs = true) (h_hostOut : F .hostOut = true) :
    ∀ a1, EffP F s0 (State.scanWrite s a1) := by
  intro a1
  unfold State.scanWrite
  repeat' with_reducible first
    | assumption
    | (extract_lets +onlyGivenNames x
       first
       | (refine Eff.cut F s0 x ?_ ?_; unfold x; clear x; rotate_left; intro _; clear_value x; rotate_left)
       | (refine EffP.cut F s0 x ?_ ?_; unfold x; clear x; rotate_left; intro _; clear_value x; rotate_left)
       | clear_value x)
    | refine State.hostWrite_eff ?_ h_iln h_hostOut _ _ _ _
    | refine State.writeFor_eff ?_ h_freeCtr h_rf h_mem h_ecc h_kpr h_bel h_ldg h_obs _ _ _ _
    | refine EffP.fst ?_
    | refine EffP.of_eq (by assumption) ?_
    | refine EffP.ite ?_ ?_
    | refine Eff.ite ?_ ?_
    | split
    | refine EffP.mk ?_ _

theorem State.scanDone_eff (h : Eff F s0 s) (h_freeCtr : F .freeCtr = true) (h_rf : F .rf = true) (h_mem : F .mem = true) (h_ecc : F .ecc = true) (h_curMem : F .curMem = true) (h_pins : F .pins = true) (h_smb : F .smb = true) (h_boot : F .boot = true) (h_stp : F .stp = true) (h_cir : F .cir = true) (h_cat : F .cat = true) (h_bind : F .bind = true) (h_shelves : F .shelves = true) (h_kpr : F .kpr = true) (h_iln : F .iln = true) (h_crl : F .crl = true) (h_bel : F .bel = true) (h_ldg : F .ldg = true) (h_pwr : F .pwr = true) (h_obs : F .obs = true) (h_hostOut : F .hostOut = true) :
    Eff F s0 (State.scanDone s) := by
  unfold State.scanDone
  repeat' with_reducible first
    | assumption
    | (extract_lets +onlyGivenNames x
       first
       | (refine Eff.cut F s0 x ?_ ?_; unfold x; clear x; rotate_left; intro _; clear_value x; rotate_left)
       | (refine EffP.cut F s0 x ?_ ?_; unfold x; clear x; rotate_left; intro _; clear_value x; rotate_left)
       | clear_value x)
    | refine State.scanImage_eff ?_ h_freeCtr _
    | refine State.scanWrite_eff ?_ h_freeCtr h_rf h_mem h_ecc h_kpr h_iln h_bel h_ldg h_obs h_hostOut _
    | refine State.setReg_eff ?_ h_rf _ _
    | refine State.blockResetGo_eff ?_ h_rf h_mem h_ecc h_curMem h_pins h_smb h_boot h_stp h_cir h_cat h_bind h_shelves h_kpr h_iln h_crl h_bel h_ldg h_pwr h_obs
    | refine EffP.fst ?_
    | refine EffP.of_eq (by assumption) ?_
    | refine EffP.ite ?_ ?_
    | refine Eff.ite ?_ ?_
    | split
    | refine Eff.set_obs ?_ h_obs
    | refine EffP.mk ?_ _

theorem State.scanStart_eff (h : Eff F s0 s) (h_rf : F .rf = true) (h_obs : F .obs = true) :
    Eff F s0 (State.scanStart s) := by
  unfold State.scanStart
  repeat' with_reducible first
    | assumption
    | refine State.setReg_eff ?_ h_rf _ _
    | refine Eff.ite ?_ ?_
    | split
    | refine Eff.set_obs ?_ h_obs

theorem State.selftestCmd_eff (h : Eff F s0 s) (h_rf : F .rf = true) (h_obs : F .obs = true) :
    ∀ a1 a2, Eff F s0 (State.selftestCmd s a1 a2) := by
  intro a1 a2
  unfold State.selftestCmd
  repeat' with_reducible first
    | assumption
    | refine State.setField_eff ?_ h_rf _ _ _ _
    | refine State.setReg_eff ?_ h_rf _ _
    | split
    | refine Eff.set_obs ?_ h_obs

theorem State.selftestDone_eff (h : Eff F s0 s) (h_rf : F .rf = true) (h_mem : F .mem = true) (h_ecc : F .ecc = true) (h_cir : F .cir = true) (h_cat : F .cat = true) (h_bind : F .bind = true) (h_shelves : F .shelves = true) (h_kpr : F .kpr = true) (h_iln : F .iln = true) (h_crl : F .crl = true) (h_bel : F .bel = true) (h_ldg : F .ldg = true) (h_pwr : F .pwr = true) (h_obs : F .obs = true) (h_hostOut : F .hostOut = true) :
    ∀ a1, Eff F s0 (State.selftestDone s a1) := by
  intro a1
  unfold State.selftestDone
  repeat' with_reducible first
    | assumption
    | (extract_lets +onlyGivenNames x
       first
       | (refine Eff.cut F s0 x ?_ ?_; unfold x; clear x; rotate_left; intro _; clear_value x; rotate_left)
       | (refine EffP.cut F s0 x ?_ ?_; unfold x; clear x; rotate_left; intro _; clear_value x; rotate_left)
       | clear_value x)
    | refine State.withdraw_eff ?_ h_rf h_mem h_ecc h_cir h_cat h_bind h_shelves h_kpr h_iln h_crl h_bel h_ldg h_pwr h_obs h_hostOut _
    | refine State.zeroShelf_eff ?_ h_mem h_ecc _
    | refine State.event_eff ?_ h_rf h_bel _ _
    | refine State.setReg_eff ?_ h_rf _ _
    | refine Eff.foldl ?_ (fun _ _ _ => ?_)
    | refine EffP.fst ?_
    | refine EffP.of_eq (by assumption) ?_
    | split
    | refine Eff.set_obs ?_ h_obs

theorem State.wfgCmd_eff (h : Eff F s0 s) (h_rf : F .rf = true) (h_obs : F .obs = true) :
    ∀ a1, Eff F s0 (State.wfgCmd s a1) := by
  intro a1
  unfold State.wfgCmd
  repeat' with_reducible first
    | assumption
    | (extract_lets +onlyGivenNames x
       first
       | (refine Eff.cut F s0 x ?_ ?_; unfold x; clear x; rotate_left; intro _; clear_value x; rotate_left)
       | (refine EffP.cut F s0 x ?_ ?_; unfold x; clear x; rotate_left; intro _; clear_value x; rotate_left)
       | clear_value x)
    | refine State.setField_eff ?_ h_rf _ _ _ _
    | refine State.startHush_eff ?_ h_rf h_obs _ _
    | refine State.setReg_eff ?_ h_rf _ _
    | refine Eff.ite ?_ ?_
    | split
    | refine Eff.set_obs ?_ h_obs

theorem State.wfgDone_eff (h : Eff F s0 s) (h_freeCtr : F .freeCtr = true) (h_rf : F .rf = true) (h_mem : F .mem = true) (h_ecc : F .ecc = true) (h_cir : F .cir = true) (h_cat : F .cat = true) (h_bind : F .bind = true) (h_shelves : F .shelves = true) (h_kpr : F .kpr = true) (h_iln : F .iln = true) (h_bel : F .bel = true) (h_ldg : F .ldg = true) (h_obs : F .obs = true) :
    Eff F s0 (State.wfgDone s) := by
  unfold State.wfgDone
  repeat' with_reducible first
    | assumption
    | (extract_lets +onlyGivenNames x
       first
       | (refine Eff.cut F s0 x ?_ ?_; unfold x; clear x; rotate_left; intro _; clear_value x; rotate_left)
       | (refine EffP.cut F s0 x ?_ ?_; unfold x; clear x; rotate_left; intro _; clear_value x; rotate_left)
       | clear_value x)
    | refine State.writeFor_eff ?_ h_freeCtr h_rf h_mem h_ecc h_kpr h_bel h_ldg h_obs _ _ _ _
    | refine State.setReg_eff ?_ h_rf _ _
    | refine State.event_eff ?_ h_rf h_bel _ _
    | refine State.releaseHush_eff ?_ h_rf h_ecc h_cir h_cat h_bind h_shelves h_kpr h_iln h_bel h_ldg h_obs
    | refine EffP.fst ?_
    | refine EffP.of_eq (by assumption) ?_
    | refine EffP.ite ?_ ?_
    | refine Eff.ite ?_ ?_
    | split
    | refine Eff.set_obs ?_ h_obs
    | refine EffP.mk ?_ _

theorem execCntClear_eff (h : Eff F s0 s) (h_obs : F .obs = true) :
    EffX F s0 (execCntClear s) := by
  unfold execCntClear
  repeat' with_reducible first
    | assumption
    | refine State.cntClear_eff ?_ h_obs
    | refine EffX.next ?_
    | refine Eff.ite ?_ ?_
    | refine EffX.ite ?_ ?_
    | split

theorem execCntSel_eff (h : Eff F s0 s) (h_rf : F .rf = true) :
    ∀ a0, EffX F s0 (execCntSel a0 s) := by
  intro a0
  unfold execCntSel
  repeat' with_reducible first
    | assumption
    | refine State.cntSel_eff ?_ h_rf _
    | refine EffX.next ?_
    | refine Eff.ite ?_ ?_
    | refine EffX.ite ?_ ?_
    | split

theorem execHush_eff (h : Eff F s0 s) (h_rf : F .rf = true) (h_obs : F .obs = true) :
    EffX F s0 (execHush s) := by
  unfold execHush
  repeat' with_reducible first
    | assumption
    | refine State.startHush_eff ?_ h_rf h_obs _ _
    | refine EffX.next ?_
    | refine Eff.ite ?_ ?_
    | refine EffX.ite ?_ ?_
    | split

theorem execHushRelease_eff (h : Eff F s0 s) (h_rf : F .rf = true) (h_ecc : F .ecc = true) (h_cir : F .cir = true) (h_cat : F .cat = true) (h_bind : F .bind = true) (h_shelves : F .shelves = true) (h_kpr : F .kpr = true) (h_iln : F .iln = true) (h_bel : F .bel = true) (h_ldg : F .ldg = true) (h_obs : F .obs = true) :
    EffX F s0 (execHushRelease s) := by
  unfold execHushRelease
  repeat' with_reducible first
    | assumption
    | refine State.releaseHush_eff ?_ h_rf h_ecc h_cir h_cat h_bind h_shelves h_kpr h_iln h_bel h_ldg h_obs
    | refine EffX.next ?_
    | refine Eff.ite ?_ ?_
    | refine EffX.ite ?_ ?_
    | split

theorem execOnlineSelftestFull_eff (h : Eff F s0 s) (h_rf : F .rf = true) (h_obs : F .obs = true) :
    ∀ a0, EffX F s0 (execOnlineSelftestFull a0 s) := by
  intro a0
  unfold execOnlineSelftestFull
  repeat' with_reducible first
    | assumption
    | refine State.selftestCmd_eff ?_ h_rf h_obs _ _
    | refine EffX.next ?_
    | refine Eff.ite ?_ ?_
    | refine EffX.ite ?_ ?_
    | split

theorem execOnlineSelftestMemory_eff (h : Eff F s0 s) (h_rf : F .rf = true) (h_obs : F .obs = true) :
    ∀ a0, EffX F s0 (execOnlineSelftestMemory a0 s) := by
  intro a0
  unfold execOnlineSelftestMemory
  repeat' with_reducible first
    | assumption
    | refine State.selftestCmd_eff ?_ h_rf h_obs _ _
    | refine EffX.next ?_
    | refine Eff.ite ?_ ?_
    | refine EffX.ite ?_ ?_
    | split

theorem execScanDone_eff (h : Eff F s0 s) (h_freeCtr : F .freeCtr = true) (h_rf : F .rf = true) (h_mem : F .mem = true) (h_ecc : F .ecc = true) (h_curMem : F .curMem = true) (h_pins : F .pins = true) (h_smb : F .smb = true) (h_boot : F .boot = true) (h_stp : F .stp = true) (h_cir : F .cir = true) (h_cat : F .cat = true) (h_bind : F .bind = true) (h_shelves : F .shelves = true) (h_kpr : F .kpr = true) (h_iln : F .iln = true) (h_crl : F .crl = true) (h_bel : F .bel = true) (h_ldg : F .ldg = true) (h_pwr : F .pwr = true) (h_obs : F .obs = true) (h_hostOut : F .hostOut = true) :
    EffX F s0 (execScanDone s) := by
  unfold execScanDone
  repeat' with_reducible first
    | assumption
    | refine State.scanDone_eff ?_ h_freeCtr h_rf h_mem h_ecc h_curMem h_pins h_smb h_boot h_stp h_cir h_cat h_bind h_shelves h_kpr h_iln h_crl h_bel h_ldg h_pwr h_obs h_hostOut
    | refine EffX.next ?_
    | refine Eff.ite ?_ ?_
    | refine EffX.ite ?_ ?_
    | split

theorem execScanStart_eff (h : Eff F s0 s) (h_rf : F .rf = true) (h_obs : F .obs = true) :
    EffX F s0 (execScanStart s) := by
  unfold execScanStart
  repeat' with_reducible first
    | assumption
    | refine State.scanStart_eff ?_ h_rf h_obs
    | refine EffX.next ?_
    | refine Eff.ite ?_ ?_
    | refine EffX.ite ?_ ?_
    | split

theorem execSelftestDone_eff (h : Eff F s0 s) (h_rf : F .rf = true) (h_mem : F .mem = true) (h_ecc : F .ecc = true) (h_cir : F .cir = true) (h_cat : F .cat = true) (h_bind : F .bind = true) (h_shelves : F .shelves = true) (h_kpr : F .kpr = true) (h_iln : F .iln = true) (h_crl : F .crl = true) (h_bel : F .bel = true) (h_ldg : F .ldg = true) (h_pwr : F .pwr = true) (h_obs : F .obs = true) (h_hostOut : F .hostOut = true) :
    ∀ a0, EffX F s0 (execSelftestDone a0 s) := by
  intro a0
  unfold execSelftestDone
  repeat' with_reducible first
    | assumption
    | refine State.selftestDone_eff ?_ h_rf h_mem h_ecc h_cir h_cat h_bind h_shelves h_kpr h_iln h_crl h_bel h_ldg h_pwr h_obs h_hostOut _
    | refine EffX.next ?_
    | refine Eff.ite ?_ ?_
    | refine EffX.ite ?_ ?_
    | split

theorem execWfgCmd_eff (h : Eff F s0 s) (h_rf : F .rf = true) (h_obs : F .obs = true) :
    ∀ a0, EffX F s0 (execWfgCmd a0 s) := by
  intro a0
  unfold execWfgCmd
  repeat' with_reducible first
    | assumption
    | refine State.wfgCmd_eff ?_ h_rf h_obs _
    | refine EffX.next ?_
    | refine Eff.ite ?_ ?_
    | refine EffX.ite ?_ ?_
    | split

theorem execWfgDone_eff (h : Eff F s0 s) (h_freeCtr : F .freeCtr = true) (h_rf : F .rf = true) (h_mem : F .mem = true) (h_ecc : F .ecc = true) (h_cir : F .cir = true) (h_cat : F .cat = true) (h_bind : F .bind = true) (h_shelves : F .shelves = true) (h_kpr : F .kpr = true) (h_iln : F .iln = true) (h_bel : F .bel = true) (h_ldg : F .ldg = true) (h_obs : F .obs = true) :
    EffX F s0 (execWfgDone s) := by
  unfold execWfgDone
  repeat' with_reducible first
    | assumption
    | refine State.wfgDone_eff ?_ h_freeCtr h_rf h_mem h_ecc h_cir h_cat h_bind h_shelves h_kpr h_iln h_bel h_ldg h_obs
    | refine EffX.next ?_
    | refine Eff.ite ?_ ?_
    | refine EffX.ite ?_ ?_
    | split

end Sys2Proof.Machine
end

