-- ==== Sys2Proof/Laws/FrameStamp.lean ====
section
/-! SUPPORT. Frames of the operations of Machine/Stamp.lean: what each may change. -/

namespace Sys2Proof.Machine

variable {F : Comp → Bool} {s0 s : State}

theorem State.overrunsAt_eff (h : Eff F s0 s) (h_rf : F .rf = true) (h_cat : F .cat = true) (h_shelves : F .shelves = true) (h_ldg : F .ldg = true) :
    ∀ a1, Eff F s0 (State.overrunsAt s a1) := by
  intro a1
  unfold State.overrunsAt
  repeat' with_reducible first
    | assumption
    | refine State.overrun_eff ?_ h_rf h_cat h_shelves h_ldg _
    | refine Eff.foldl ?_ (fun _ _ _ => ?_)
    | refine EffP.fst ?_
    | refine EffP.of_eq (by assumption) ?_
    | split

theorem State.stampDue_eff (h : Eff F s0 s) (h_freeCtr : F .freeCtr = true) (h_rf : F .rf = true) (h_mem : F .mem = true) (h_ecc : F .ecc = true) (h_cir : F .cir = true) (h_cat : F .cat = true) (h_bind : F .bind = true) (h_shelves : F .shelves = true) (h_kpr : F .kpr = true) (h_iln : F .iln = true) (h_bel : F .bel = true) (h_ldg : F .ldg = true) (h_pwr : F .pwr = true) (h_obs : F .obs = true) :
    Eff F s0 (State.stampDue s) := by
  unfold State.stampDue
  repeat' with_reducible first
    | assumption
    | refine State.noProgressDue_eff ?_ h_freeCtr h_rf h_mem h_ecc h_cir h_cat h_bind h_shelves h_kpr h_iln h_bel h_ldg h_pwr h_obs
    | refine State.overrunsAt_eff ?_ h_rf h_cat h_shelves h_ldg _
    | split

theorem State.stampWork_eff (h : Eff F s0 s) (h_rf : F .rf = true) (h_ecc : F .ecc = true) (h_cir : F .cir = true) (h_cat : F .cat = true) (h_bind : F .bind = true) (h_shelves : F .shelves = true) (h_kpr : F .kpr = true) (h_iln : F .iln = true) (h_crl : F .crl = true) (h_bel : F .bel = true) (h_ldg : F .ldg = true) (h_obs : F .obs = true) :
    Eff F s0 (State.stampWork s) := by
  unfold State.stampWork
  repeat' with_reducible first
    | assumption
    | (extract_lets +onlyGivenNames x
       first
       | (refine Eff.cut F s0 x ?_ ?_; unfold x; clear x; rotate_left; intro _; clear_value x; rotate_left)
       | (refine EffP.cut F s0 x ?_ ?_; unfold x; clear x; rotate_left; intro _; clear_value x; rotate_left)
       | clear_value x)
    | refine State.settle_eff ?_ h_rf h_ecc h_cir h_cat h_bind h_kpr h_bel h_ldg h_obs
    | refine State.epochFire_eff ?_ h_rf h_iln
    | refine State.slotsBegin_eff ?_ h_kpr
    | refine State.holdsGo_eff ?_ h_rf h_ecc h_cir h_cat h_bind h_kpr h_bel h_ldg h_obs
    | refine State.quotaEviction_eff ?_ h_kpr
    | refine State.addCredits_eff ?_ h_cir
    | refine State.queuesForm_eff ?_ h_rf h_cat h_shelves h_ldg
    | refine State.drainLimits_eff ?_ h_kpr h_iln h_crl
    | split
    | refine Eff.set_obs ?_ h_obs

theorem State.stampPower_eff (h : Eff F s0 s) (h_rf : F .rf = true) (h_pins : F .pins = true) (h_smb : F .smb = true) (h_bel : F .bel = true) (h_ldg : F .ldg = true) (h_pwr : F .pwr = true) :
    ∀ a1, Eff F s0 (State.stampPower s a1) := by
  intro a1
  unfold State.stampPower
  repeat' with_reducible first
    | assumption
    | (extract_lets +onlyGivenNames x
       first
       | (refine Eff.cut F s0 x ?_ ?_; unfold x; clear x; rotate_left; intro _; clear_value x; rotate_left)
       | (refine EffP.cut F s0 x ?_ ?_; unfold x; clear x; rotate_left; intro _; clear_value x; rotate_left)
       | clear_value x)
    | refine State.capRerun_eff ?_ h_rf h_smb h_bel h_pwr
    | refine State.endThrottle_eff ?_ h_rf h_pins h_bel h_pwr _
    | refine State.stackTemps_eff ?_ h_rf h_bel h_ldg h_pwr _
    | refine State.applyPoints_eff ?_ h_rf h_pwr _ _
    | split
    | refine Eff.set_pwr ?_ h_pwr

theorem State.stampFall_eff (h : Eff F s0 s) (h_freeCtr : F .freeCtr = true) (h_rf : F .rf = true) (h_mem : F .mem = true) (h_ecc : F .ecc = true) (h_pins : F .pins = true) (h_smb : F .smb = true) (h_stp : F .stp = true) (h_cir : F .cir = true) (h_cat : F .cat = true) (h_bind : F .bind = true) (h_shelves : F .shelves = true) (h_kpr : F .kpr = true) (h_iln : F .iln = true) (h_crl : F .crl = true) (h_bel : F .bel = true) (h_ldg : F .ldg = true) (h_pwr : F .pwr = true) (h_obs : F .obs = true) :
    ∀ a1, Eff F s0 (State.stampFall s a1) := by
  intro a1
  unfold State.stampFall
  repeat' with_reducible first
    | assumption
    | (extract_lets +onlyGivenNames x
       first
       | (refine Eff.cut F s0 x ?_ ?_; unfold x; clear x; rotate_left; intro _; clear_value x; rotate_left)
       | (refine EffP.cut F s0 x ?_ ?_; unfold x; clear x; rotate_left; intro _; clear_value x; rotate_left)
       | clear_value x)
    | refine State.stampClock_eff ?_ h_rf h_stp h_shelves h_bel h_ldg h_obs
    | refine State.stallUpdate_eff ?_ h_cat h_shelves
    | refine State.stampDue_eff ?_ h_freeCtr h_rf h_mem h_ecc h_cir h_cat h_bind h_shelves h_kpr h_iln h_bel h_ldg h_pwr h_obs
    | refine State.stampWork_eff ?_ h_rf h_ecc h_cir h_cat h_bind h_shelves h_kpr h_iln h_crl h_bel h_ldg h_obs
    | refine State.bell_eff ?_ h_bel _ _
    | refine State.stampPower_eff ?_ h_rf h_pins h_smb h_bel h_ldg h_pwr _
    | refine Eff.ite ?_ ?_
    | split

theorem execStamp_eff (h : Eff F s0 s) (h_freeCtr : F .freeCtr = true) (h_rf : F .rf = true) (h_mem : F .mem = true) (h_ecc : F .ecc = true) (h_pins : F .pins = true) (h_smb : F .smb = true) (h_stp : F .stp = true) (h_cir : F .cir = true) (h_cat : F .cat = true) (h_bind : F .bind = true) (h_shelves : F .shelves = true) (h_kpr : F .kpr = true) (h_iln : F .iln = true) (h_crl : F .crl = true) (h_bel : F .bel = true) (h_ldg : F .ldg = true) (h_pwr : F .pwr = true) (h_obs : F .obs = true) :
    ∀ a0, EffX F s0 (execStamp a0 s) := by
  intro a0
  unfold execStamp
  repeat' with_reducible first
    | assumption
    | refine State.stampFall_eff ?_ h_freeCtr h_rf h_mem h_ecc h_pins h_smb h_stp h_cir h_cat h_bind h_shelves h_kpr h_iln h_crl h_bel h_ldg h_pwr h_obs _
    | refine EffX.next ?_
    | split

end Sys2Proof.Machine
end

