-- ==== Sys2Proof/Laws/FrameBoot.lean ====
section
/-! SUPPORT. Frames of the operations of Machine/Boot.lean: what each may change. -/

namespace Sys2Proof.Machine

variable {F : Comp → Bool} {s0 s : State}

theorem State.afterTest_eff (h : Eff F s0 s) (h_rf : F .rf = true) :
    Eff F s0 (State.afterTest s) := by
  unfold State.afterTest
  repeat' with_reducible first
    | assumption
    | refine State.setPhase_eff ?_ h_rf _
    | refine Eff.ite ?_ ?_
    | split

theorem State.bootGo_eff (h : Eff F s0 s) (h_boot : F .boot = true) :
    ∀ a1, Eff F s0 (State.bootGo s a1) := by
  intro a1
  unfold State.bootGo
  repeat' with_reducible first
    | assumption
    | refine Eff.ite ?_ ?_
    | split
    | refine Eff.set_boot ?_ h_boot

theorem State.spiReads_eff (h : Eff F s0 s) (h_boot : F .boot = true) :
    ∀ a1, Eff F s0 (State.spiReads s a1) := by
  intro a1
  unfold State.spiReads
  repeat' with_reducible first
    | assumption
    | split
    | refine Eff.set_boot ?_ h_boot

theorem State.readBulk_eff (h : Eff F s0 s) (h_boot : F .boot = true) :
    Eff F s0 (State.readBulk s) := by
  unfold State.readBulk
  repeat' with_reducible first
    | assumption
    | (extract_lets +onlyGivenNames x
       first
       | (refine Eff.cut F s0 x ?_ ?_; unfold x; clear x; rotate_left; intro _; clear_value x; rotate_left)
       | (refine EffP.cut F s0 x ?_ ?_; unfold x; clear x; rotate_left; intro _; clear_value x; rotate_left)
       | clear_value x)
    | refine State.spiReads_eff ?_ h_boot _
    | split

theorem State.bulkPhase_eff (h : Eff F s0 s) (h_rf : F .rf = true) (h_mem : F .mem = true) (h_pins : F .pins = true) (h_boot : F .boot = true) :
    ∀ a1, Eff F s0 (State.bulkPhase s a1) := by
  intro a1
  unfold State.bulkPhase
  repeat' with_reducible first
    | assumption
    | (extract_lets +onlyGivenNames x
       first
       | (refine Eff.cut F s0 x ?_ ?_; unfold x; clear x; rotate_left; intro _; clear_value x; rotate_left)
       | (refine EffP.cut F s0 x ?_ ?_; unfold x; clear x; rotate_left; intro _; clear_value x; rotate_left)
       | clear_value x)
    | refine State.readBulk_eff ?_ h_boot
    | refine State.setPhase_eff ?_ h_rf _
    | refine State.bootFail_eff ?_ h_rf h_pins _
    | refine Eff.ite ?_ ?_
    | split
    | refine Eff.set_boot ?_ h_boot
    | refine Eff.set_mem ?_ h_mem ?_
    | intro _
    | refine Memory.wf_write _ _ ?_
    | refine Memory.wf_writeN _ _ ?_
    | refine Memory.wf_writeLe _ _ _ ?_
    | refine Memory.wf_clear _ _ ?_
    | refine Memory.wf_dropOnDie ?_
    | refine Memory.wf_copy _ _ _ ?_
    | refine RegFile.wf_set _ _ ?_
    | refine RegFile.wf_filter _ ?_

theorem State.defaultRings_eff (h : Eff F s0 s) (h_rf : F .rf = true) (h_cir : F .cir = true) (h_kpr : F .kpr = true) :
    Eff F s0 (State.defaultRings s) := by
  unfold State.defaultRings
  repeat' with_reducible first
    | assumption
    | (extract_lets +onlyGivenNames x
       first
       | (refine Eff.cut F s0 x ?_ ?_; unfold x; clear x; rotate_left; intro _; clear_value x; rotate_left)
       | (refine EffP.cut F s0 x ?_ ?_; unfold x; clear x; rotate_left; intro _; clear_value x; rotate_left)
       | clear_value x)
    | refine State.setReg_eff ?_ h_rf _ _
    | refine State.setHolding_eff ?_ h_kpr _
    | refine State.setRegBit_eff ?_ h_rf _ _ _
    | split
    | refine Eff.set_cir ?_ h_cir

theorem State.defaultExtents_eff (h : Eff F s0 s) (h_rf : F .rf = true) :
    Eff F s0 (State.defaultExtents s) := by
  unfold State.defaultExtents
  repeat' with_reducible first
    | assumption
    | refine State.setReg_eff ?_ h_rf _ _
    | refine Eff.foldl ?_ (fun _ _ _ => ?_)
    | refine EffP.fst ?_
    | refine EffP.of_eq (by assumption) ?_
    | split

theorem State.defaultCarrel_eff (h : Eff F s0 s) (h_rf : F .rf = true) (h_cir : F .cir = true) (h_shelves : F .shelves = true) (h_kpr : F .kpr = true) :
    Eff F s0 (State.defaultCarrel s) := by
  unfold State.defaultCarrel
  repeat' with_reducible first
    | assumption
    | (extract_lets +onlyGivenNames x
       first
       | (refine Eff.cut F s0 x ?_ ?_; unfold x; clear x; rotate_left; intro _; clear_value x; rotate_left)
       | (refine EffP.cut F s0 x ?_ ?_; unfold x; clear x; rotate_left; intro _; clear_value x; rotate_left)
       | clear_value x)
    | refine State.setReg_eff ?_ h_rf _ _
    | refine State.defaultRings_eff ?_ h_rf h_cir h_kpr
    | refine State.defaultExtents_eff ?_ h_rf
    | split
    | refine Eff.set_shelves ?_ h_shelves

theorem State.serviceRecords_eff (h : Eff F s0 s) (h_rf : F .rf = true) (h_ldg : F .ldg = true) :
    Eff F s0 (State.serviceRecords s) := by
  unfold State.serviceRecords
  repeat' with_reducible first
    | assumption
    | (extract_lets +onlyGivenNames x
       first
       | (refine Eff.cut F s0 x ?_ ?_; unfold x; clear x; rotate_left; intro _; clear_value x; rotate_left)
       | (refine EffP.cut F s0 x ?_ ?_; unfold x; clear x; rotate_left; intro _; clear_value x; rotate_left)
       | clear_value x)
    | refine State.log_eff ?_ h_rf h_ldg _ _ _ _ _ _ _
    | refine Eff.ite ?_ ?_
    | split

theorem State.configure_eff (h : Eff F s0 s) (h_rf : F .rf = true) (h_pins : F .pins = true) (h_boot : F .boot = true) (h_cir : F .cir = true) (h_shelves : F .shelves = true) (h_kpr : F .kpr = true) (h_ldg : F .ldg = true) :
    Eff F s0 (State.configure s) := by
  unfold State.configure
  repeat' with_reducible first
    | assumption
    | (extract_lets +onlyGivenNames x
       first
       | (refine Eff.cut F s0 x ?_ ?_; unfold x; clear x; rotate_left; intro _; clear_value x; rotate_left)
       | (refine EffP.cut F s0 x ?_ ?_; unfold x; clear x; rotate_left; intro _; clear_value x; rotate_left)
       | clear_value x)
    | refine State.setReg_eff ?_ h_rf _ _
    | refine State.defaultCarrel_eff ?_ h_rf h_cir h_shelves h_kpr
    | refine State.setRegBit_eff ?_ h_rf _ _ _
    | refine State.setPhase_eff ?_ h_rf _
    | refine State.serviceRecords_eff ?_ h_rf h_ldg
    | refine Eff.ite ?_ ?_
    | split
    | refine Eff.set_pins ?_ h_pins
    | refine Eff.set_boot ?_ h_boot

theorem State.domainsUp_eff (h : Eff F s0 s) (h_rf : F .rf = true) (h_bel : F .bel = true) (h_ldg : F .ldg = true) (h_pwr : F .pwr = true) :
    Eff F s0 (State.domainsUp s) := by
  unfold State.domainsUp
  repeat' with_reducible first
    | assumption
    | (extract_lets +onlyGivenNames x
       first
       | (refine Eff.cut F s0 x ?_ ?_; unfold x; clear x; rotate_left; intro _; clear_value x; rotate_left)
       | (refine EffP.cut F s0 x ?_ ?_; unfold x; clear x; rotate_left; intro _; clear_value x; rotate_left)
       | clear_value x)
    | refine State.setField_eff ?_ h_rf _ _ _ _
    | refine State.throttleNew_eff ?_ h_rf h_bel h_ldg h_pwr _
    | refine State.setReg_eff ?_ h_rf _ _
    | refine Eff.foldl ?_ (fun _ _ _ => ?_)
    | refine EffP.fst ?_
    | refine EffP.of_eq (by assumption) ?_
    | refine Eff.ite ?_ ?_
    | split

theorem State.farWindow_eff {p : State × Nat × Nat} (h : EffP F s0 p) (h_rf : F .rf = true) :
    ∀ a b, EffP F s0 (State.farWindow p a b) := by
  intro a b
  unfold State.farWindow
  repeat' first
    | with_reducible assumption
    | (extract_lets x; clear_value x)
    | split
    | with_reducible refine EffP.mk ?_ _
    | with_reducible refine State.setReg_eff ?_ h_rf _ _
    | with_reducible refine EffP.fst ?_

theorem State.farTier_eff (h : Eff F s0 s) (h_rf : F .rf = true) :
    ∀ a1, Eff F s0 (State.farTier s a1) := by
  intro a1
  unfold State.farTier
  repeat' with_reducible first
    | assumption
    | refine State.farWindow_eff ?_ h_rf _ _ _
    | refine State.farWindow_eff ?_ h_rf _ _
    | refine Eff.foldl ?_ (fun _ _ _ => ?_)
    | refine EffP.foldl ?_ (fun _ _ _ => ?_)
    | refine EffP.fst ?_
    | refine EffP.of_eq (by assumption) ?_
    | split
    | refine EffP.mk ?_ _

theorem State.headerFound_eff (h : Eff F s0 s) (h_rf : F .rf = true) (h_boot : F .boot = true) :
    ∀ a1 a2 a3, Eff F s0 (State.headerFound s a1 a2 a3) := by
  intro a1 a2 a3
  unfold State.headerFound
  repeat' with_reducible first
    | assumption
    | refine State.setPhase_eff ?_ h_rf _
    | refine State.setField_eff ?_ h_rf _ _ _ _
    | split
    | refine Eff.set_boot ?_ h_boot

theorem State.readSecondary_eff (h : Eff F s0 s) (h_boot : F .boot = true) :
    ∀ a1, Eff F s0 (State.readSecondary s a1) := by
  intro a1
  unfold State.readSecondary
  repeat' with_reducible first
    | assumption
    | refine State.spiReads_eff ?_ h_boot _
    | refine Eff.ite ?_ ?_
    | split

theorem State.headerPhase_eff (h : Eff F s0 s) (h_rf : F .rf = true) (h_pins : F .pins = true) (h_boot : F .boot = true) :
    ∀ a1, Eff F s0 (State.headerPhase s a1) := by
  intro a1
  unfold State.headerPhase
  repeat' with_reducible first
    | assumption
    | (extract_lets +onlyGivenNames x
       first
       | (refine Eff.cut F s0 x ?_ ?_; unfold x; clear x; rotate_left; intro _; clear_value x; rotate_left)
       | (refine EffP.cut F s0 x ?_ ?_; unfold x; clear x; rotate_left; intro _; clear_value x; rotate_left)
       | clear_value x)
    | refine State.bootFail_eff ?_ h_rf h_pins _
    | refine State.headerFound_eff ?_ h_rf h_boot _ _ _
    | refine State.spiReads_eff ?_ h_boot _
    | refine State.readSecondary_eff ?_ h_boot _
    | refine Eff.ite ?_ ?_
    | split

theorem State.loadItems_eff (h : Eff F s0 s) (h_rf : F .rf = true) (h_smb : F .smb = true) :
    Eff F s0 (State.loadItems s) := by
  unfold State.loadItems
  repeat' with_reducible first
    | assumption
    | (extract_lets +onlyGivenNames x
       first
       | (refine Eff.cut F s0 x ?_ ?_; unfold x; clear x; rotate_left; intro _; clear_value x; rotate_left)
       | (refine EffP.cut F s0 x ?_ ?_; unfold x; clear x; rotate_left; intro _; clear_value x; rotate_left)
       | clear_value x)
    | refine State.setReg_eff ?_ h_rf _ _
    | refine State.setField_eff ?_ h_rf _ _ _ _
    | split
    | refine Eff.set_smb ?_ h_smb

theorem State.tapFollows_eff (h : Eff F s0 s) (h_pins : F .pins = true) (h_tap : F .tap = true) :
    ∀ a1, Eff F s0 (State.tapFollows s a1) := by
  intro a1
  unfold State.tapFollows
  repeat' with_reducible first
    | assumption
    | refine Eff.ite ?_ ?_
    | split
    | refine Eff.set_pins_tap ?_ h_pins h_tap

theorem State.pinReset_eff (h : Eff F s0 s) (h_rf : F .rf = true) (h_mem : F .mem = true) (h_ecc : F .ecc = true) (h_curMem : F .curMem = true) (h_pins : F .pins = true) (h_tap : F .tap = true) (h_smb : F .smb = true) (h_boot : F .boot = true) (h_stp : F .stp = true) (h_cir : F .cir = true) (h_cat : F .cat = true) (h_bind : F .bind = true) (h_shelves : F .shelves = true) (h_kpr : F .kpr = true) (h_iln : F .iln = true) (h_crl : F .crl = true) (h_bel : F .bel = true) (h_ldg : F .ldg = true) (h_pwr : F .pwr = true) (h_obs : F .obs = true) :
    Eff F s0 (State.pinReset s) := by
  unfold State.pinReset
  repeat' with_reducible first
    | assumption
    | (extract_lets +onlyGivenNames x
       first
       | (refine Eff.cut F s0 x ?_ ?_; unfold x; clear x; rotate_left; intro _; clear_value x; rotate_left)
       | (refine EffP.cut F s0 x ?_ ?_; unfold x; clear x; rotate_left; intro _; clear_value x; rotate_left)
       | clear_value x)
    | refine State.resetUnits_eff ?_ h_rf h_mem h_ecc h_curMem h_pins h_smb h_boot h_stp h_cir h_cat h_bind h_shelves h_kpr h_iln h_crl h_bel h_ldg h_pwr h_obs
    | refine State.tapFollows_eff ?_ h_pins h_tap _
    | refine Eff.ite ?_ ?_
    | split
    | refine Eff.set_boot ?_ h_boot
    | refine Eff.set_pins ?_ h_pins

theorem State.pwrokFall_eff (h : Eff F s0 s) (h_freeCtr : F .freeCtr = true) (h_rf : F .rf = true) (h_mem : F .mem = true) (h_ecc : F .ecc = true) (h_curMem : F .curMem = true) (h_pins : F .pins = true) (h_tap : F .tap = true) (h_smb : F .smb = true) (h_ss : F .ss = true) (h_boot : F .boot = true) (h_stp : F .stp = true) (h_cir : F .cir = true) (h_cat : F .cat = true) (h_bind : F .bind = true) (h_shelves : F .shelves = true) (h_kpr : F .kpr = true) (h_iln : F .iln = true) (h_crl : F .crl = true) (h_bel : F .bel = true) (h_ldg : F .ldg = true) (h_pwr : F .pwr = true) (h_obs : F .obs = true) : Eff F s0 (State.pwrokFall s) := by
  unfold State.pwrokFall
  split
  · exact h
  · refine h.upd rfl (fun w => ?_) (fun c hc => ?_)
    · simp only [State.canon, State.memWf, Bool.and_eq_true] at w ⊢
      exact ⟨⟨Memory.wf_dropOnDie w.1.1, rfl⟩, RegFile.wf_filter _ w.2⟩
    · cases c <;> first | rfl | simp_all

theorem State.pwrokRise_eff (h : Eff F s0 s) (h_pins : F .pins = true) (h_smb : F .smb = true) (h_ldg : F .ldg = true) :
    Eff F s0 (State.pwrokRise s) := by
  unfold State.pwrokRise
  repeat' with_reducible first
    | assumption
    | (extract_lets +onlyGivenNames x
       first
       | (refine Eff.cut F s0 x ?_ ?_; unfold x; clear x; rotate_left; intro _; clear_value x; rotate_left)
       | (refine EffP.cut F s0 x ?_ ?_; unfold x; clear x; rotate_left; intro _; clear_value x; rotate_left)
       | clear_value x)
    | refine State.alert_eff ?_ h_smb _
    | refine Eff.ite ?_ ?_
    | split
    | refine Eff.set_pins_ldg ?_ h_pins h_ldg

theorem State.readResident_eff (h : Eff F s0 s) (h_boot : F .boot = true) :
    Eff F s0 (State.readResident s) := by
  unfold State.readResident
  repeat' with_reducible first
    | assumption
    | refine State.spiReads_eff ?_ h_boot _
    | split

theorem State.resetDeassert_eff (h : Eff F s0 s) (h_rf : F .rf = true) (h_pins : F .pins = true) (h_tap : F .tap = true) (h_ss : F .ss = true) (h_boot : F .boot = true) (h_stp : F .stp = true) :
    ∀ a1, Eff F s0 (State.resetDeassert s a1) := by
  intro a1
  unfold State.resetDeassert
  repeat' with_reducible first
    | assumption
    | (extract_lets +onlyGivenNames x
       first
       | (refine Eff.cut F s0 x ?_ ?_; unfold x; clear x; rotate_left; intro _; clear_value x; rotate_left)
       | (refine EffP.cut F s0 x ?_ ?_; unfold x; clear x; rotate_left; intro _; clear_value x; rotate_left)
       | clear_value x)
    | refine State.tapFollows_eff ?_ h_pins h_tap _
    | refine State.setReg_eff ?_ h_rf _ _
    | refine State.setPhase_eff ?_ h_rf _
    | refine Eff.ite ?_ ?_
    | split
    | refine Eff.set_pins ?_ h_pins
    | refine Eff.set_pins_ss_boot_stp ?_ h_pins h_ss h_boot h_stp

theorem State.startFirmware_eff (h : Eff F s0 s) (h_rf : F .rf = true) (h_curMem : F .curMem = true) (h_boot : F .boot = true) (h_ldg : F .ldg = true) :
    ∀ a1, Eff F s0 (State.startFirmware s a1) := by
  intro a1
  unfold State.startFirmware
  repeat' with_reducible first
    | assumption
    | (extract_lets +onlyGivenNames x
       first
       | (refine Eff.cut F s0 x ?_ ?_; unfold x; clear x; rotate_left; intro _; clear_value x; rotate_left)
       | (refine EffP.cut F s0 x ?_ ?_; unfold x; clear x; rotate_left; intro _; clear_value x; rotate_left)
       | clear_value x)
    | refine State.setPhase_eff ?_ h_rf _
    | refine State.setReg_eff ?_ h_rf _ _
    | split
    | refine Eff.set_curMem_boot_ldg ?_ h_curMem h_boot h_ldg ?_
    | intro _
    | refine Memory.wf_write _ _ ?_
    | refine Memory.wf_writeN _ _ ?_
    | refine Memory.wf_writeLe _ _ _ ?_
    | refine Memory.wf_clear _ _ ?_
    | refine Memory.wf_dropOnDie ?_
    | refine Memory.wf_copy _ _ _ ?_
    | refine RegFile.wf_set _ _ ?_
    | refine RegFile.wf_filter _ ?_

theorem State.residentPhase_eff (h : Eff F s0 s) (h_rf : F .rf = true) (h_curMem : F .curMem = true) (h_pins : F .pins = true) (h_boot : F .boot = true) (h_ldg : F .ldg = true) :
    ∀ a1, Eff F s0 (State.residentPhase s a1) := by
  intro a1
  unfold State.residentPhase
  repeat' with_reducible first
    | assumption
    | (extract_lets +onlyGivenNames x
       first
       | (refine Eff.cut F s0 x ?_ ?_; unfold x; clear x; rotate_left; intro _; clear_value x; rotate_left)
       | (refine EffP.cut F s0 x ?_ ?_; unfold x; clear x; rotate_left; intro _; clear_value x; rotate_left)
       | clear_value x)
    | refine State.startFirmware_eff ?_ h_rf h_curMem h_boot h_ldg _
    | refine State.bootFail_eff ?_ h_rf h_pins _
    | refine State.readResident_eff ?_ h_boot
    | refine State.readSecondary_eff ?_ h_boot _
    | refine State.headerFound_eff ?_ h_rf h_boot _ _ _
    | refine Eff.ite ?_ ?_
    | split

theorem State.selftestPhase_eff (h : Eff F s0 s) (h_rf : F .rf = true) (h_mem : F .mem = true) (h_ecc : F .ecc = true) (h_boot : F .boot = true) (h_cir : F .cir = true) (h_cat : F .cat = true) (h_bind : F .bind = true) (h_shelves : F .shelves = true) (h_kpr : F .kpr = true) (h_iln : F .iln = true) (h_crl : F .crl = true) (h_bel : F .bel = true) (h_ldg : F .ldg = true) (h_pwr : F .pwr = true) (h_obs : F .obs = true) (h_hostOut : F .hostOut = true) :
    ∀ a1, Eff F s0 (State.selftestPhase s a1) := by
  intro a1
  unfold State.selftestPhase
  repeat' with_reducible first
    | assumption
    | (extract_lets +onlyGivenNames x
       first
       | (refine Eff.cut F s0 x ?_ ?_; unfold x; clear x; rotate_left; intro _; clear_value x; rotate_left)
       | (refine EffP.cut F s0 x ?_ ?_; unfold x; clear x; rotate_left; intro _; clear_value x; rotate_left)
       | clear_value x)
    | refine State.domainsUp_eff ?_ h_rf h_bel h_ldg h_pwr
    | refine State.withdraw_eff ?_ h_rf h_mem h_ecc h_cir h_cat h_bind h_shelves h_kpr h_iln h_crl h_bel h_ldg h_pwr h_obs h_hostOut _
    | refine State.afterTest_eff ?_ h_rf
    | refine EffP.fst ?_
    | refine EffP.of_eq (by assumption) ?_
    | refine Eff.ite ?_ ?_
    | split
    | refine Eff.set_mem_boot ?_ h_mem h_boot ?_
    | intro _
    | refine Memory.wf_write _ _ ?_
    | refine Memory.wf_writeN _ _ ?_
    | refine Memory.wf_writeLe _ _ _ ?_
    | refine Memory.wf_clear _ _ ?_
    | refine Memory.wf_dropOnDie ?_
    | refine Memory.wf_copy _ _ _ ?_
    | refine RegFile.wf_set _ _ ?_
    | refine RegFile.wf_filter _ ?_

theorem State.startStamps_eff (h : Eff F s0 s) (h_stp : F .stp = true) :
    Eff F s0 (State.startStamps s) := by
  unfold State.startStamps
  repeat' with_reducible first
    | assumption
    | refine Eff.ite ?_ ?_
    | split
    | refine Eff.set_stp ?_ h_stp

theorem State.takeSections_eff (h : Eff F s0 s) (h_ss : F .ss = true) (h_boot : F .boot = true) :
    Eff F s0 (State.takeSections s) := by
  unfold State.takeSections
  repeat' with_reducible first
    | assumption
    | refine Eff.ite ?_ ?_
    | split
    | refine Eff.set_ss_boot ?_ h_ss h_boot

theorem State.storePhase_eff (h : Eff F s0 s) (h_rf : F .rf = true) (h_smb : F .smb = true) (h_ss : F .ss = true) (h_boot : F .boot = true) (h_stp : F .stp = true) :
    Eff F s0 (State.storePhase s) := by
  unfold State.storePhase
  repeat' with_reducible first
    | assumption
    | (extract_lets +onlyGivenNames x
       first
       | (refine Eff.cut F s0 x ?_ ?_; unfold x; clear x; rotate_left; intro _; clear_value x; rotate_left)
       | (refine EffP.cut F s0 x ?_ ?_; unfold x; clear x; rotate_left; intro _; clear_value x; rotate_left)
       | clear_value x)
    | refine State.takeSections_eff ?_ h_ss h_boot
    | refine State.setReg_eff ?_ h_rf _ _
    | refine State.setPhase_eff ?_ h_rf _
    | refine State.startStamps_eff ?_ h_stp
    | refine State.loadItems_eff ?_ h_rf h_smb
    | refine Eff.ite ?_ ?_
    | split
    | refine Eff.set_ss_boot ?_ h_ss h_boot

theorem State.trainPhase_eff (h : Eff F s0 s) (h_rf : F .rf = true) (h_pins : F .pins = true) (h_boot : F .boot = true) (h_kpr : F .kpr = true) (h_ldg : F .ldg = true) :
    ∀ a1 a2, Eff F s0 (State.trainPhase s a1 a2) := by
  intro a1 a2
  unfold State.trainPhase
  repeat' with_reducible first
    | assumption
    | (extract_lets +onlyGivenNames x
       first
       | (refine Eff.cut F s0 x ?_ ?_; unfold x; clear x; rotate_left; intro _; clear_value x; rotate_left)
       | (refine EffP.cut F s0 x ?_ ?_; unfold x; clear x; rotate_left; intro _; clear_value x; rotate_left)
       | clear_value x)
    | refine State.trainStack_eff ?_ h_rf h_kpr h_ldg _ _
    | refine State.trainPort_eff ?_ h_rf h_ldg _ _
    | refine State.farTier_eff ?_ h_rf _
    | refine State.setField_eff ?_ h_rf _ _ _ _
    | refine State.setReg_eff ?_ h_rf _ _
    | refine State.bootFail_eff ?_ h_rf h_pins _
    | refine State.afterTest_eff ?_ h_rf
    | refine Eff.foldl ?_ (fun _ _ _ => ?_)
    | refine EffP.fst ?_
    | refine EffP.of_eq (by assumption) ?_
    | refine Eff.ite ?_ ?_
    | split
    | refine Eff.set_boot ?_ h_boot

theorem execBootSourceTimeout_eff (h : Eff F s0 s) (h_rf : F .rf = true) (h_pins : F .pins = true) :
    EffX F s0 (execBootSourceTimeout s) := by
  unfold execBootSourceTimeout
  repeat' with_reducible first
    | assumption
    | refine State.bootFail_eff ?_ h_rf h_pins _
    | refine EffX.next ?_
    | refine Eff.ite ?_ ?_
    | refine EffX.ite ?_ ?_
    | split

theorem execBootTimeLimit_eff (h : Eff F s0 s) (h_rf : F .rf = true) (h_pins : F .pins = true) :
    EffX F s0 (execBootTimeLimit s) := by
  unfold execBootTimeLimit
  repeat' with_reducible first
    | assumption
    | refine State.bootFail_eff ?_ h_rf h_pins _
    | refine EffX.next ?_
    | refine Eff.ite ?_ ?_
    | refine EffX.ite ?_ ?_
    | split

theorem execBulk_eff (h : Eff F s0 s) (h_rf : F .rf = true) (h_mem : F .mem = true) (h_pins : F .pins = true) (h_boot : F .boot = true) :
    ∀ a0, EffX F s0 (execBulk a0 s) := by
  intro a0
  unfold execBulk
  repeat' with_reducible first
    | assumption
    | refine State.bulkPhase_eff ?_ h_rf h_mem h_pins h_boot _
    | refine EffX.next ?_
    | split

theorem execCfgBootGo_eff (h : Eff F s0 s) (h_boot : F .boot = true) :
    ∀ a0, EffX F s0 (execCfgBootGo a0 s) := by
  intro a0
  unfold execCfgBootGo
  repeat' with_reducible first
    | assumption
    | refine State.bootGo_eff ?_ h_boot _
    | refine EffX.next ?_
    | split

theorem execConfigure_eff (h : Eff F s0 s) (h_rf : F .rf = true) (h_pins : F .pins = true) (h_boot : F .boot = true) (h_cir : F .cir = true) (h_shelves : F .shelves = true) (h_kpr : F .kpr = true) (h_ldg : F .ldg = true) :
    EffX F s0 (execConfigure s) := by
  unfold execConfigure
  repeat' with_reducible first
    | assumption
    | refine State.configure_eff ?_ h_rf h_pins h_boot h_cir h_shelves h_kpr h_ldg
    | refine EffX.next ?_
    | split

theorem execHeader_eff (h : Eff F s0 s) (h_rf : F .rf = true) (h_pins : F .pins = true) (h_boot : F .boot = true) :
    ∀ a0, EffX F s0 (execHeader a0 s) := by
  intro a0
  unfold execHeader
  repeat' with_reducible first
    | assumption
    | refine State.headerPhase_eff ?_ h_rf h_pins h_boot _
    | refine EffX.next ?_
    | split

theorem execPinReset_eff (h : Eff F s0 s) (h_rf : F .rf = true) (h_mem : F .mem = true) (h_ecc : F .ecc = true) (h_curMem : F .curMem = true) (h_pins : F .pins = true) (h_tap : F .tap = true) (h_smb : F .smb = true) (h_boot : F .boot = true) (h_stp : F .stp = true) (h_cir : F .cir = true) (h_cat : F .cat = true) (h_bind : F .bind = true) (h_shelves : F .shelves = true) (h_kpr : F .kpr = true) (h_iln : F .iln = true) (h_crl : F .crl = true) (h_bel : F .bel = true) (h_ldg : F .ldg = true) (h_pwr : F .pwr = true) (h_obs : F .obs = true) :
    EffX F s0 (execPinReset s) := by
  unfold execPinReset
  repeat' with_reducible first
    | assumption
    | refine State.pinReset_eff ?_ h_rf h_mem h_ecc h_curMem h_pins h_tap h_smb h_boot h_stp h_cir h_cat h_bind h_shelves h_kpr h_iln h_crl h_bel h_ldg h_pwr h_obs
    | refine EffX.next ?_
    | split

theorem execPwrokFall_eff (h : Eff F s0 s) (h_freeCtr : F .freeCtr = true) (h_rf : F .rf = true) (h_mem : F .mem = true) (h_ecc : F .ecc = true) (h_curMem : F .curMem = true) (h_pins : F .pins = true) (h_tap : F .tap = true) (h_smb : F .smb = true) (h_ss : F .ss = true) (h_boot : F .boot = true) (h_stp : F .stp = true) (h_cir : F .cir = true) (h_cat : F .cat = true) (h_bind : F .bind = true) (h_shelves : F .shelves = true) (h_kpr : F .kpr = true) (h_iln : F .iln = true) (h_crl : F .crl = true) (h_bel : F .bel = true) (h_ldg : F .ldg = true) (h_pwr : F .pwr = true) (h_obs : F .obs = true) :
    EffX F s0 (execPwrokFall s) := by
  unfold execPwrokFall
  repeat' with_reducible first
    | assumption
    | refine State.pwrokFall_eff ?_ h_freeCtr h_rf h_mem h_ecc h_curMem h_pins h_tap h_smb h_ss h_boot h_stp h_cir h_cat h_bind h_shelves h_kpr h_iln h_crl h_bel h_ldg h_pwr h_obs
    | refine EffX.next ?_
    | split

theorem execPwrokRise_eff (h : Eff F s0 s) (h_pins : F .pins = true) (h_smb : F .smb = true) (h_ldg : F .ldg = true) :
    EffX F s0 (execPwrokRise s) := by
  unfold execPwrokRise
  repeat' with_reducible first
    | assumption
    | refine State.pwrokRise_eff ?_ h_pins h_smb h_ldg
    | refine EffX.next ?_
    | split

theorem execResetNDeassert_eff (h : Eff F s0 s) (h_rf : F .rf = true) (h_pins : F .pins = true) (h_tap : F .tap = true) (h_ss : F .ss = true) (h_boot : F .boot = true) (h_stp : F .stp = true) :
    ∀ a0, EffX F s0 (execResetNDeassert a0 s) := by
  intro a0
  unfold execResetNDeassert
  repeat' with_reducible first
    | assumption
    | refine State.resetDeassert_eff ?_ h_rf h_pins h_tap h_ss h_boot h_stp _
    | refine EffX.next ?_
    | split

theorem execResident_eff (h : Eff F s0 s) (h_rf : F .rf = true) (h_curMem : F .curMem = true) (h_pins : F .pins = true) (h_boot : F .boot = true) (h_ldg : F .ldg = true) :
    ∀ a0, EffX F s0 (execResident a0 s) := by
  intro a0
  unfold execResident
  repeat' with_reducible first
    | assumption
    | refine State.residentPhase_eff ?_ h_rf h_curMem h_pins h_boot h_ldg _
    | refine EffX.next ?_
    | split

theorem execSelftest_eff (h : Eff F s0 s) (h_rf : F .rf = true) (h_mem : F .mem = true) (h_ecc : F .ecc = true) (h_boot : F .boot = true) (h_cir : F .cir = true) (h_cat : F .cat = true) (h_bind : F .bind = true) (h_shelves : F .shelves = true) (h_kpr : F .kpr = true) (h_iln : F .iln = true) (h_crl : F .crl = true) (h_bel : F .bel = true) (h_ldg : F .ldg = true) (h_pwr : F .pwr = true) (h_obs : F .obs = true) (h_hostOut : F .hostOut = true) :
    ∀ a0, EffX F s0 (execSelftest a0 s) := by
  intro a0
  unfold execSelftest
  repeat' with_reducible first
    | assumption
    | refine State.selftestPhase_eff ?_ h_rf h_mem h_ecc h_boot h_cir h_cat h_bind h_shelves h_kpr h_iln h_crl h_bel h_ldg h_pwr h_obs h_hostOut _
    | refine EffX.next ?_
    | split

theorem execStore_eff (h : Eff F s0 s) (h_rf : F .rf = true) (h_smb : F .smb = true) (h_ss : F .ss = true) (h_boot : F .boot = true) (h_stp : F .stp = true) :
    EffX F s0 (execStore s) := by
  unfold execStore
  repeat' with_reducible first
    | assumption
    | refine State.storePhase_eff ?_ h_rf h_smb h_ss h_boot h_stp
    | refine EffX.next ?_
    | split

theorem execTrain_eff (h : Eff F s0 s) (h_rf : F .rf = true) (h_pins : F .pins = true) (h_boot : F .boot = true) (h_kpr : F .kpr = true) (h_ldg : F .ldg = true) :
    ∀ a0 a1, EffX F s0 (execTrain a0 a1 s) := by
  intro a0 a1
  unfold execTrain
  repeat' with_reducible first
    | assumption
    | refine State.trainPhase_eff ?_ h_rf h_pins h_boot h_kpr h_ldg _ _
    | refine EffX.next ?_
    | split

end Sys2Proof.Machine
end

