-- ==== Sys2Proof/Laws/FrameSmbus.lean ====
section
/-! SUPPORT. Frames of the operations of Machine/Smbus.lean: what each may change. -/

namespace Sys2Proof.Machine

variable {F : Comp → Bool} {s0 s : State}

theorem State.smbReply_eff (h : Eff F s0 s) (h_smb : F .smb = true) :
    ∀ a1, Eff F s0 (State.smbReply s a1) := by
  intro a1
  unfold State.smbReply
  repeat' with_reducible first
    | assumption
    | split
    | refine Eff.set_smb ?_ h_smb

theorem State.smbRead_eff (h : Eff F s0 s) (h_smb : F .smb = true) :
    ∀ a1 a2, Eff F s0 (State.smbRead s a1 a2) := by
  intro a1 a2
  unfold State.smbRead
  repeat' with_reducible first
    | assumption
    | refine State.smbReply_eff ?_ h_smb _
    | refine Eff.ite ?_ ?_
    | split

theorem execAlertCauseClear_eff (h : Eff F s0 s) (h_smb : F .smb = true) :
    ∀ a0 a1 a2, EffX F s0 (execAlertCauseClear a0 a1 a2 s) := by
  intro a0 a1 a2
  unfold execAlertCauseClear
  repeat' with_reducible first
    | assumption
    | (extract_lets +onlyGivenNames x
       first
       | (refine Eff.cut F s0 x ?_ ?_; unfold x; clear x; rotate_left; intro _; clear_value x; rotate_left)
       | (refine EffP.cut F s0 x ?_ ?_; unfold x; clear x; rotate_left; intro _; clear_value x; rotate_left)
       | clear_value x)
    | refine State.smbReply_eff ?_ h_smb _
    | refine EffX.next ?_
    | refine Eff.ite ?_ ?_
    | refine EffX.ite ?_ ?_
    | split
    | refine Eff.set_smb ?_ h_smb

theorem execAlertCauseRead_eff (h : Eff F s0 s) (h_smb : F .smb = true) :
    ∀ a0, EffX F s0 (execAlertCauseRead a0 s) := by
  intro a0
  unfold execAlertCauseRead
  repeat' with_reducible first
    | assumption
    | refine State.smbRead_eff ?_ h_smb _ _
    | refine EffX.next ?_
    | split

theorem execAlertResponse_eff (h : Eff F s0 s) (h_smb : F .smb = true) :
    EffX F s0 (execAlertResponse s) := by
  unfold execAlertResponse
  repeat' with_reducible first
    | assumption
    | refine State.smbReply_eff ?_ h_smb _
    | refine EffX.next ?_
    | refine Eff.ite ?_ ?_
    | refine EffX.ite ?_ ?_
    | split

theorem execIdent_eff (h : Eff F s0 s) (h_smb : F .smb = true) :
    ∀ a0, EffX F s0 (execIdent a0 s) := by
  intro a0
  unfold execIdent
  repeat' with_reducible first
    | assumption
    | refine State.smbRead_eff ?_ h_smb _ _
    | refine EffX.next ?_
    | split

theorem execPower_eff (h : Eff F s0 s) (h_smb : F .smb = true) :
    ∀ a0, EffX F s0 (execPower a0 s) := by
  intro a0
  unfold execPower
  repeat' with_reducible first
    | assumption
    | refine State.smbRead_eff ?_ h_smb _ _
    | refine EffX.next ?_
    | split

theorem execPowerCapRead_eff (h : Eff F s0 s) (h_smb : F .smb = true) :
    ∀ a0, EffX F s0 (execPowerCapRead a0 s) := by
  intro a0
  unfold execPowerCapRead
  repeat' with_reducible first
    | assumption
    | refine State.smbRead_eff ?_ h_smb _ _
    | refine EffX.next ?_
    | split

theorem execPowerCapWrite_eff (h : Eff F s0 s) (h_smb : F .smb = true) :
    ∀ a0 a1, EffX F s0 (execPowerCapWrite a0 a1 s) := by
  intro a0 a1
  unfold execPowerCapWrite
  repeat' with_reducible first
    | assumption
    | refine State.smbReply_eff ?_ h_smb _
    | refine EffX.next ?_
    | refine Eff.ite ?_ ?_
    | refine EffX.ite ?_ ?_
    | split
    | refine Eff.set_smb ?_ h_smb

theorem execSmbusStop_eff (h : Eff F s0 s) (h_smb : F .smb = true) :
    EffX F s0 (execSmbusStop s) := by
  unfold execSmbusStop
  repeat' with_reducible first
    | assumption
    | refine EffX.next ?_
    | refine Eff.ite ?_ ?_
    | refine EffX.ite ?_ ?_
    | split
    | refine Eff.set_smb ?_ h_smb

theorem execStatus_eff (h : Eff F s0 s) (h_smb : F .smb = true) :
    ∀ a0, EffX F s0 (execStatus a0 s) := by
  intro a0
  unfold execStatus
  repeat' with_reducible first
    | assumption
    | refine State.smbRead_eff ?_ h_smb _ _
    | refine EffX.next ?_
    | split

theorem execTempCompute_eff (h : Eff F s0 s) (h_smb : F .smb = true) :
    ∀ a0, EffX F s0 (execTempCompute a0 s) := by
  intro a0
  unfold execTempCompute
  repeat' with_reducible first
    | assumption
    | refine State.smbRead_eff ?_ h_smb _ _
    | refine EffX.next ?_
    | split

theorem execTempSram_eff (h : Eff F s0 s) (h_smb : F .smb = true) :
    ∀ a0, EffX F s0 (execTempSram a0 s) := by
  intro a0
  unfold execTempSram
  repeat' with_reducible first
    | assumption
    | refine State.smbRead_eff ?_ h_smb _ _
    | refine EffX.next ?_
    | split

theorem execVcoreReq_eff (h : Eff F s0 s) (h_smb : F .smb = true) :
    ∀ a0, EffX F s0 (execVcoreReq a0 s) := by
  intro a0
  unfold execVcoreReq
  repeat' with_reducible first
    | assumption
    | refine State.smbRead_eff ?_ h_smb _ _
    | refine EffX.next ?_
    | split

end Sys2Proof.Machine
end

