-- ==== Sys2Proof/Laws/FrameTestPort.lean ====
section
/-! SUPPORT. Frames of the operations of Machine/TestPort.lean: what each may change. -/

namespace Sys2Proof.Machine

variable {F : Comp → Bool} {s0 s : State}

theorem State.irLoad_eff (h : Eff F s0 s) (h_pins : F .pins = true) (h_tap : F .tap = true) :
    ∀ a1 a2 a3, Eff F s0 (State.irLoad s a1 a2 a3) := by
  intro a1 a2 a3
  unfold State.irLoad
  repeat' with_reducible first
    | assumption
    | refine Eff.ite ?_ ?_
    | split
    | refine Eff.set_pins_tap ?_ h_pins h_tap

theorem State.extest_eff (h : Eff F s0 s) (h_pins : F .pins = true) (h_tap : F .tap = true) :
    ∀ a1, Eff F s0 (State.extest s a1) := by
  intro a1
  unfold State.extest
  repeat' with_reducible first
    | assumption
    | (extract_lets +onlyGivenNames x
       first
       | (refine Eff.cut F s0 x ?_ ?_; unfold x; clear x; rotate_left; intro _; clear_value x; rotate_left)
       | (refine EffP.cut F s0 x ?_ ?_; unfold x; clear x; rotate_left; intro _; clear_value x; rotate_left)
       | clear_value x)
    | refine State.irLoad_eff ?_ h_pins h_tap _ _ _
    | refine Eff.ite ?_ ?_
    | split
    | refine Eff.set_pins ?_ h_pins

theorem State.hushScan_eff (h : Eff F s0 s) (h_freeCtr : F .freeCtr = true) (h_rf : F .rf = true) (h_pins : F .pins = true) (h_tap : F .tap = true) (h_obs : F .obs = true) :
    ∀ a1, Eff F s0 (State.hushScan s a1) := by
  intro a1
  unfold State.hushScan
  repeat' with_reducible first
    | assumption
    | (extract_lets +onlyGivenNames x
       first
       | (refine Eff.cut F s0 x ?_ ?_; unfold x; clear x; rotate_left; intro _; clear_value x; rotate_left)
       | (refine EffP.cut F s0 x ?_ ?_; unfold x; clear x; rotate_left; intro _; clear_value x; rotate_left)
       | clear_value x)
    | refine State.irLoad_eff ?_ h_pins h_tap _ _ _
    | refine State.startHush_eff ?_ h_rf h_obs _ _
    | refine State.scanImage_eff ?_ h_freeCtr _
    | refine EffP.fst ?_
    | refine EffP.of_eq (by assumption) ?_
    | refine EffP.ite ?_ ?_
    | refine Eff.ite ?_ ?_
    | split
    | refine Eff.set_tap ?_ h_tap
    | refine EffP.mk ?_ _

theorem State.stackWsp_eff (h : Eff F s0 s) (h_pins : F .pins = true) (h_tap : F .tap = true) :
    ∀ a1 a2 a3, Eff F s0 (State.stackWsp s a1 a2 a3) := by
  intro a1 a2 a3
  unfold State.stackWsp
  repeat' with_reducible first
    | assumption
    | (extract_lets +onlyGivenNames x
       first
       | (refine Eff.cut F s0 x ?_ ?_; unfold x; clear x; rotate_left; intro _; clear_value x; rotate_left)
       | (refine EffP.cut F s0 x ?_ ?_; unfold x; clear x; rotate_left; intro _; clear_value x; rotate_left)
       | clear_value x)
    | refine State.irLoad_eff ?_ h_pins h_tap _ _ _
    | refine Eff.ite ?_ ?_
    | split
    | refine Eff.set_tap ?_ h_tap

theorem execBypass_eff (h : Eff F s0 s) (h_pins : F .pins = true) (h_tap : F .tap = true) :
    ∀ a0 a1, EffX F s0 (execBypass a0 a1 s) := by
  intro a0 a1
  unfold execBypass
  repeat' with_reducible first
    | assumption
    | refine State.irLoad_eff ?_ h_pins h_tap _ _ _
    | refine EffX.next ?_
    | refine Eff.ite ?_ ?_
    | refine EffX.ite ?_ ?_
    | split

theorem execClamp_eff (h : Eff F s0 s) (h_pins : F .pins = true) (h_tap : F .tap = true) :
    EffX F s0 (execClamp s) := by
  unfold execClamp
  repeat' with_reducible first
    | assumption
    | (extract_lets +onlyGivenNames x
       first
       | (refine Eff.cut F s0 x ?_ ?_; unfold x; clear x; rotate_left; intro _; clear_value x; rotate_left)
       | (refine EffP.cut F s0 x ?_ ?_; unfold x; clear x; rotate_left; intro _; clear_value x; rotate_left)
       | clear_value x)
    | refine State.irLoad_eff ?_ h_pins h_tap _ _ _
    | refine EffX.next ?_
    | refine Eff.ite ?_ ?_
    | refine EffX.ite ?_ ?_
    | split
    | refine Eff.set_pins ?_ h_pins

theorem execExtest_eff (h : Eff F s0 s) (h_pins : F .pins = true) (h_tap : F .tap = true) :
    ∀ a0, EffX F s0 (execExtest a0 s) := by
  intro a0
  unfold execExtest
  repeat' with_reducible first
    | assumption
    | refine State.extest_eff ?_ h_pins h_tap _
    | refine EffX.next ?_
    | refine Eff.ite ?_ ?_
    | refine EffX.ite ?_ ?_
    | split

theorem execHighz_eff (h : Eff F s0 s) (h_pins : F .pins = true) (h_tap : F .tap = true) :
    EffX F s0 (execHighz s) := by
  unfold execHighz
  repeat' with_reducible first
    | assumption
    | (extract_lets +onlyGivenNames x
       first
       | (refine Eff.cut F s0 x ?_ ?_; unfold x; clear x; rotate_left; intro _; clear_value x; rotate_left)
       | (refine EffP.cut F s0 x ?_ ?_; unfold x; clear x; rotate_left; intro _; clear_value x; rotate_left)
       | clear_value x)
    | refine State.irLoad_eff ?_ h_pins h_tap _ _ _
    | refine EffX.next ?_
    | refine Eff.ite ?_ ?_
    | refine EffX.ite ?_ ?_
    | split
    | refine Eff.set_pins ?_ h_pins

theorem execHushScan_eff (h : Eff F s0 s) (h_freeCtr : F .freeCtr = true) (h_rf : F .rf = true) (h_pins : F .pins = true) (h_tap : F .tap = true) (h_obs : F .obs = true) :
    ∀ a0, EffX F s0 (execHushScan a0 s) := by
  intro a0
  unfold execHushScan
  repeat' with_reducible first
    | assumption
    | refine State.hushScan_eff ?_ h_freeCtr h_rf h_pins h_tap h_obs _
    | refine EffX.next ?_
    | refine Eff.ite ?_ ?_
    | refine EffX.ite ?_ ?_
    | split

theorem execIdcode_eff (h : Eff F s0 s) (h_pins : F .pins = true) (h_tap : F .tap = true) :
    EffX F s0 (execIdcode s) := by
  unfold execIdcode
  repeat' with_reducible first
    | assumption
    | refine State.irLoad_eff ?_ h_pins h_tap _ _ _
    | refine EffX.next ?_
    | refine Eff.ite ?_ ?_
    | refine EffX.ite ?_ ?_
    | split

theorem execSamplePreload_eff (h : Eff F s0 s) (h_pins : F .pins = true) (h_tap : F .tap = true) :
    ∀ a0 a1, EffX F s0 (execSamplePreload a0 a1 s) := by
  intro a0 a1
  unfold execSamplePreload
  repeat' with_reducible first
    | assumption
    | (extract_lets +onlyGivenNames x
       first
       | (refine Eff.cut F s0 x ?_ ?_; unfold x; clear x; rotate_left; intro _; clear_value x; rotate_left)
       | (refine EffP.cut F s0 x ?_ ?_; unfold x; clear x; rotate_left; intro _; clear_value x; rotate_left)
       | clear_value x)
    | refine State.irLoad_eff ?_ h_pins h_tap _ _ _
    | refine EffX.next ?_
    | refine Eff.ite ?_ ?_
    | refine EffX.ite ?_ ?_
    | split
    | refine Eff.set_pins ?_ h_pins

theorem execStackWsp_eff (h : Eff F s0 s) (h_pins : F .pins = true) (h_tap : F .tap = true) :
    ∀ a0 a1 a2 a3, EffX F s0 (execStackWsp a0 a1 a2 a3 s) := by
  intro a0 a1 a2 a3
  unfold execStackWsp
  repeat' with_reducible first
    | assumption
    | refine State.stackWsp_eff ?_ h_pins h_tap _ _ _
    | refine EffX.next ?_
    | refine Eff.ite ?_ ?_
    | refine EffX.ite ?_ ?_
    | split

theorem execTapReset_eff (h : Eff F s0 s) (h_pins : F .pins = true) (h_tap : F .tap = true) :
    EffX F s0 (execTapReset s) := by
  unfold execTapReset
  repeat' with_reducible first
    | assumption
    | refine EffX.next ?_
    | refine Eff.ite ?_ ?_
    | refine EffX.ite ?_ ?_
    | split
    | refine Eff.set_pins_tap ?_ h_pins h_tap

end Sys2Proof.Machine
end

