-- ==== Sys2Proof/Laws/FrameRegisters.lean ====
section
/-! SUPPORT. Frames of the operations of Machine/Registers.lean: what each may change. -/

namespace Sys2Proof.Machine

variable {F : Comp → Bool} {s0 s : State}

theorem State.catCancel_eff (h : Eff F s0 s) (h_rf : F .rf = true) (h_ecc : F .ecc = true) (h_cir : F .cir = true) (h_cat : F .cat = true) (h_bind : F .bind = true) (h_kpr : F .kpr = true) (h_bel : F .bel = true) (h_ldg : F .ldg = true) (h_obs : F .obs = true) :
    ∀ a1, Eff F s0 (State.catCancel s a1) := by
  intro a1
  unfold State.catCancel
  repeat' with_reducible first
    | assumption
    | refine State.cancelTag_eff ?_ h_rf h_ecc h_cir h_cat h_bind h_kpr h_bel h_ldg h_obs _ _
    | refine State.cancelCarrel_eff ?_ h_rf h_ecc h_cir h_cat h_bind h_kpr h_bel h_ldg h_obs _
    | refine State.cancelRing_eff ?_ h_rf h_ecc h_cir h_cat h_bind h_kpr h_bel h_ldg h_obs _
    | refine Eff.ite ?_ ?_
    | split

theorem State.writeHush_eff (h : Eff F s0 s) (h_rf : F .rf = true) (h_ecc : F .ecc = true) (h_cir : F .cir = true) (h_cat : F .cat = true) (h_bind : F .bind = true) (h_shelves : F .shelves = true) (h_kpr : F .kpr = true) (h_iln : F .iln = true) (h_bel : F .bel = true) (h_ldg : F .ldg = true) (h_obs : F .obs = true) :
    ∀ a1, Eff F s0 (State.writeHush s a1) := by
  intro a1
  unfold State.writeHush
  repeat' with_reducible first
    | assumption
    | refine State.startHush_eff ?_ h_rf h_obs _ _
    | refine State.releaseHush_eff ?_ h_rf h_ecc h_cir h_cat h_bind h_shelves h_kpr h_iln h_bel h_ldg h_obs
    | refine Eff.ite ?_ ?_
    | split

theorem State.writeSelftest_eff (h : Eff F s0 s) (h_rf : F .rf = true) (h_obs : F .obs = true) :
    ∀ a1, Eff F s0 (State.writeSelftest s a1) := by
  intro a1
  unfold State.writeSelftest
  repeat' with_reducible first
    | assumption
    | refine State.selftestCmd_eff ?_ h_rf h_obs _ _
    | refine Eff.ite ?_ ?_
    | split

theorem State.obsCommand_eff (h : Eff F s0 s) (h_rf : F .rf = true) (h_ecc : F .ecc = true) (h_cir : F .cir = true) (h_cat : F .cat = true) (h_bind : F .bind = true) (h_shelves : F .shelves = true) (h_kpr : F .kpr = true) (h_iln : F .iln = true) (h_bel : F .bel = true) (h_ldg : F .ldg = true) (h_obs : F .obs = true) :
    ∀ a1 a2, Eff F s0 (State.obsCommand s a1 a2) := by
  intro a1 a2
  unfold State.obsCommand
  repeat' with_reducible first
    | assumption
    | refine State.writeHush_eff ?_ h_rf h_ecc h_cir h_cat h_bind h_shelves h_kpr h_iln h_bel h_ldg h_obs _
    | refine State.cntClear_eff ?_ h_obs
    | refine State.scanStart_eff ?_ h_rf h_obs
    | refine State.cntSel_eff ?_ h_rf _
    | refine State.writeSelftest_eff ?_ h_rf h_obs _
    | refine State.wfgCmd_eff ?_ h_rf h_obs _
    | refine Eff.ite ?_ ?_
    | split

theorem State.storeBits_eff (h : Eff F s0 s) (h_rf : F .rf = true) :
    ∀ a1 a2, Eff F s0 (State.storeBits s a1 a2) := by
  intro a1 a2
  unfold State.storeBits
  repeat' with_reducible first
    | assumption
    | refine State.setReg_eff ?_ h_rf _ _
    | refine Eff.ite ?_ ?_
    | split

theorem State.writeQCtl_eff (h : Eff F s0 s) (h_rf : F .rf = true) (h_bel : F .bel = true) :
    ∀ a1 a2, Eff F s0 (State.writeQCtl s a1 a2) := by
  intro a1 a2
  unfold State.writeQCtl
  repeat' with_reducible first
    | assumption
    | refine State.belTake_eff ?_ h_bel _
    | refine State.setReg_eff ?_ h_rf _ _
    | split

theorem State.writeBel_eff (h : Eff F s0 s) (h_rf : F .rf = true) (h_bel : F .bel = true) (h_ldg : F .ldg = true) :
    ∀ a1 a2 a3, Eff F s0 (State.writeBel s a1 a2 a3) := by
  intro a1 a2 a3
  unfold State.writeBel
  repeat' with_reducible first
    | assumption
    | refine State.belWrite_eff ?_ h_rf h_bel h_ldg _ _ _
    | refine State.belComplete_eff ?_ h_rf h_bel _
    | refine State.writeQCtl_eff ?_ h_rf h_bel _ _
    | refine State.belHead_eff ?_ h_rf _ _
    | refine State.belWake_eff ?_ h_bel
    | refine State.storeBits_eff ?_ h_rf _ _
    | refine Eff.ite ?_ ?_
    | split

theorem State.writeCat_eff (h : Eff F s0 s) (h_rf : F .rf = true) (h_ecc : F .ecc = true) (h_cir : F .cir = true) (h_cat : F .cat = true) (h_bind : F .bind = true) (h_kpr : F .kpr = true) (h_bel : F .bel = true) (h_ldg : F .ldg = true) (h_obs : F .obs = true) :
    ∀ a1 a2, Eff F s0 (State.writeCat s a1 a2) := by
  intro a1 a2
  unfold State.writeCat
  repeat' with_reducible first
    | assumption
    | refine State.catCancel_eff ?_ h_rf h_ecc h_cir h_cat h_bind h_kpr h_bel h_ldg h_obs _
    | refine State.snapClear_eff ?_ h_rf h_cat _
    | refine State.shareWrite_eff ?_ h_rf _ _
    | refine State.storeBits_eff ?_ h_rf _ _
    | refine Eff.ite ?_ ?_
    | split

theorem State.writeCfg_eff (h : Eff F s0 s) (h_rf : F .rf = true) (h_ss : F .ss = true) (h_boot : F .boot = true) :
    ∀ a1 a2, Eff F s0 (State.writeCfg s a1 a2) := by
  intro a1 a2
  unfold State.writeCfg
  repeat' with_reducible first
    | assumption
    | refine State.bootGo_eff ?_ h_boot _
    | refine State.ssCommit_eff ?_ h_ss _
    | refine State.ssLoad_eff ?_ h_ss _
    | refine State.ssUnlock_eff ?_ h_ss _
    | refine State.storeBits_eff ?_ h_rf _ _
    | refine Eff.ite ?_ ?_
    | split

theorem State.writeChip_eff (h : Eff F s0 s) (h_rf : F .rf = true) (h_bel : F .bel = true) :
    ∀ a1, Eff F s0 (State.writeChip s a1) := by
  intro a1
  unfold State.writeChip
  repeat' with_reducible first
    | assumption
    | refine State.ilnCfgErr_eff ?_ h_rf h_bel
    | refine State.setReg_eff ?_ h_rf _ _
    | refine Eff.ite ?_ ?_
    | split

theorem State.writeRingBase_eff (h : Eff F s0 s) (h_rf : F .rf = true) :
    ∀ a1 a2, Eff F s0 (State.writeRingBase s a1 a2) := by
  intro a1 a2
  unfold State.writeRingBase
  repeat' with_reducible first
    | assumption
    | (extract_lets +onlyGivenNames x
       first
       | (refine Eff.cut F s0 x ?_ ?_; unfold x; clear x; rotate_left; intro _; clear_value x; rotate_left)
       | (refine EffP.cut F s0 x ?_ ?_; unfold x; clear x; rotate_left; intro _; clear_value x; rotate_left)
       | clear_value x)
    | refine State.setReg_eff ?_ h_rf _ _
    | refine Eff.ite ?_ ?_
    | split

theorem State.writeRingStatus_eff (h : Eff F s0 s) (h_rf : F .rf = true) :
    ∀ a1 a2, Eff F s0 (State.writeRingStatus s a1 a2) := by
  intro a1 a2
  unfold State.writeRingStatus
  repeat' with_reducible first
    | assumption
    | (extract_lets +onlyGivenNames x
       first
       | (refine Eff.cut F s0 x ?_ ?_; unfold x; clear x; rotate_left; intro _; clear_value x; rotate_left)
       | (refine EffP.cut F s0 x ?_ ?_; unfold x; clear x; rotate_left; intro _; clear_value x; rotate_left)
       | clear_value x)
    | refine State.ringRestart_eff ?_ h_rf _
    | refine State.clearCrossed_eff ?_ h_rf _
    | refine State.storeBits_eff ?_ h_rf _ _
    | refine Eff.ite ?_ ?_
    | split

theorem State.writeRing_eff (h : Eff F s0 s) (h_freeCtr : F .freeCtr = true) (h_rf : F .rf = true) (h_mem : F .mem = true) (h_ecc : F .ecc = true) (h_cir : F .cir = true) (h_cat : F .cat = true) (h_bind : F .bind = true) (h_shelves : F .shelves = true) (h_kpr : F .kpr = true) (h_bel : F .bel = true) (h_ldg : F .ldg = true) (h_pwr : F .pwr = true) (h_obs : F .obs = true) :
    ∀ a1 a2 a3 a4, Eff F s0 (State.writeRing s a1 a2 a3 a4) := by
  intro a1 a2 a3 a4
  unfold State.writeRing
  repeat' with_reducible first
    | assumption
    | refine State.writeRingBase_eff ?_ h_rf _ _
    | refine State.ringEnable_eff ?_ h_rf h_cir _ _
    | refine State.ringDisable_eff ?_ h_freeCtr h_rf h_mem h_ecc h_cir h_cat h_bind h_shelves h_kpr h_bel h_ldg h_pwr h_obs _ _
    | refine State.setReg_eff ?_ h_rf _ _
    | refine State.writeRingStatus_eff ?_ h_rf _ _
    | refine State.storeBits_eff ?_ h_rf _ _
    | refine Eff.ite ?_ ?_
    | split

theorem State.writeCir_eff (h : Eff F s0 s) (h_freeCtr : F .freeCtr = true) (h_rf : F .rf = true) (h_mem : F .mem = true) (h_ecc : F .ecc = true) (h_cir : F .cir = true) (h_cat : F .cat = true) (h_bind : F .bind = true) (h_shelves : F .shelves = true) (h_kpr : F .kpr = true) (h_bel : F .bel = true) (h_ldg : F .ldg = true) (h_pwr : F .pwr = true) (h_obs : F .obs = true) :
    ∀ a1 a2, Eff F s0 (State.writeCir s a1 a2) := by
  intro a1 a2
  unfold State.writeCir
  repeat' with_reducible first
    | assumption
    | refine State.writeRing_eff ?_ h_freeCtr h_rf h_mem h_ecc h_cir h_cat h_bind h_shelves h_kpr h_bel h_ldg h_pwr h_obs _ _ _ _
    | refine State.enqLimit_eff ?_ h_rf h_cir _ _
    | refine State.storeBits_eff ?_ h_rf _ _
    | refine Eff.ite ?_ ?_
    | split

theorem nextOf_eff {o : Out} (_h : Eff F s0 s) (ho : EffX F s0 o) : Eff F s0 (nextOf s o) := by
  obtain ⟨t, rfl, ht⟩ := ho
  exact ht

theorem State.writeCrlCmd_eff (h : Eff F s0 s) (h_freeCtr : F .freeCtr = true) (h_rf : F .rf = true) (h_mem : F .mem = true) (h_ecc : F .ecc = true) (h_cir : F .cir = true) (h_cat : F .cat = true) (h_bind : F .bind = true) (h_shelves : F .shelves = true) (h_kpr : F .kpr = true) (h_iln : F .iln = true) (h_crl : F .crl = true) (h_bel : F .bel = true) (h_ldg : F .ldg = true) (h_pwr : F .pwr = true) (h_obs : F .obs = true) (h_hostOut : F .hostOut = true) :
    ∀ a1, Eff F s0 (State.writeCrlCmd s a1) := by
  intro a1
  unfold State.writeCrlCmd
  repeat' with_reducible first
    | assumption
    | (extract_lets +onlyGivenNames x
       first
       | (refine Eff.cut F s0 x ?_ ?_; unfold x; clear x; rotate_left; intro _; clear_value x; rotate_left)
       | (refine EffP.cut F s0 x ?_ ?_; unfold x; clear x; rotate_left; intro _; clear_value x; rotate_left)
       | clear_value x)
    | refine nextOf_eff ?_ ?_
    | refine execCreate_eff ?_ h_rf h_cir h_cat h_kpr h_iln h_crl h_bel h_hostOut _ _
    | refine execOpenCarrel_eff ?_ h_rf h_ecc h_cir h_cat h_bind h_kpr h_iln h_crl h_bel h_ldg h_obs h_hostOut _
    | refine execFreeze_eff ?_ h_rf h_iln h_crl h_bel h_hostOut _
    | refine execThaw_eff ?_ h_rf h_ecc h_cir h_cat h_bind h_kpr h_iln h_crl h_bel h_ldg h_obs h_hostOut _
    | refine execSave_eff ?_ h_freeCtr h_rf h_mem h_ecc h_kpr h_iln h_crl h_bel h_ldg h_obs h_hostOut _
    | refine execRestore_eff ?_ h_rf h_mem h_ecc h_cir h_cat h_bind h_kpr h_iln h_crl h_bel h_ldg h_obs h_hostOut _
    | refine execReset_eff ?_ h_rf h_mem h_ecc h_cir h_cat h_bind h_shelves h_kpr h_iln h_crl h_bel h_ldg h_pwr h_obs h_hostOut _ _
    | refine execDestroy_eff ?_ h_freeCtr h_rf h_mem h_ecc h_cir h_cat h_bind h_shelves h_kpr h_iln h_crl h_bel h_ldg h_pwr h_obs h_hostOut _
    | refine execRoomAdd_eff ?_ h_rf h_shelves h_iln h_crl h_bel h_hostOut _ _
    | refine execRoomRemove_eff ?_ h_rf h_shelves h_iln h_crl h_bel h_hostOut _ _
    | refine Eff.ite ?_ ?_
    | split

theorem State.writeMbox_eff (h : Eff F s0 s) (h_rf : F .rf = true) (h_iln : F .iln = true) (h_bel : F .bel = true) (h_hostOut : F .hostOut = true) :
    ∀ a1 a2 a3 a4, Eff F s0 (State.writeMbox s a1 a2 a3 a4) := by
  intro a1 a2 a3 a4
  unfold State.writeMbox
  repeat' with_reducible first
    | assumption
    | (extract_lets +onlyGivenNames x
       first
       | (refine Eff.cut F s0 x ?_ ?_; unfold x; clear x; rotate_left; intro _; clear_value x; rotate_left)
       | (refine EffP.cut F s0 x ?_ ?_; unfold x; clear x; rotate_left; intro _; clear_value x; rotate_left)
       | clear_value x)
    | refine State.mboxWrite_eff ?_ h_rf _ _ _ _
    | refine State.clearUp_eff ?_ h_rf _
    | refine State.downSet_eff ?_ h_rf h_iln h_hostOut _
    | refine State.downClear_eff ?_ h_rf h_iln h_hostOut _
    | refine State.upSet_eff ?_ h_rf h_iln h_bel h_hostOut _
    | refine State.setReg_eff ?_ h_rf _ _
    | refine Eff.ite ?_ ?_
    | split

theorem State.writeCrl_eff (h : Eff F s0 s) (h_freeCtr : F .freeCtr = true) (h_rf : F .rf = true) (h_mem : F .mem = true) (h_ecc : F .ecc = true) (h_cir : F .cir = true) (h_cat : F .cat = true) (h_bind : F .bind = true) (h_shelves : F .shelves = true) (h_kpr : F .kpr = true) (h_iln : F .iln = true) (h_crl : F .crl = true) (h_bel : F .bel = true) (h_ldg : F .ldg = true) (h_pwr : F .pwr = true) (h_obs : F .obs = true) (h_hostOut : F .hostOut = true) :
    ∀ a1 a2, Eff F s0 (State.writeCrl s a1 a2) := by
  intro a1 a2
  unfold State.writeCrl
  repeat' with_reducible first
    | assumption
    | refine State.writeCrlCmd_eff ?_ h_freeCtr h_rf h_mem h_ecc h_cir h_cat h_bind h_shelves h_kpr h_iln h_crl h_bel h_ldg h_pwr h_obs h_hostOut _
    | refine State.writeMbox_eff ?_ h_rf h_iln h_bel h_hostOut _ _ _ _
    | refine State.storeBits_eff ?_ h_rf _ _
    | refine Eff.ite ?_ ?_
    | split

theorem State.writePort_eff (h : Eff F s0 s) (h_rf : F .rf = true) (h_kpr : F .kpr = true) (h_iln : F .iln = true) (h_bel : F .bel = true) (h_ldg : F .ldg = true) :
    ∀ a1 a2, Eff F s0 (State.writePort s a1 a2) := by
  intro a1 a2
  unfold State.writePort
  repeat' with_reducible first
    | assumption
    | (extract_lets +onlyGivenNames x
       first
       | (refine Eff.cut F s0 x ?_ ?_; unfold x; clear x; rotate_left; intro _; clear_value x; rotate_left)
       | (refine EffP.cut F s0 x ?_ ?_; unfold x; clear x; rotate_left; intro _; clear_value x; rotate_left)
       | clear_value x)
    | refine State.portDisable_eff ?_ h_rf h_kpr h_iln h_bel h_ldg _
    | refine State.setRegBit_eff ?_ h_rf _ _ _
    | refine State.portRetrain_eff ?_ h_rf h_iln h_bel _
    | refine Eff.ite ?_ ?_
    | split

theorem State.writeIln_eff (h : Eff F s0 s) (h_rf : F .rf = true) (h_kpr : F .kpr = true) (h_iln : F .iln = true) (h_bel : F .bel = true) (h_ldg : F .ldg = true) :
    ∀ a1 a2, Eff F s0 (State.writeIln s a1 a2) := by
  intro a1 a2
  unfold State.writeIln
  repeat' with_reducible first
    | assumption
    | refine State.writeChip_eff ?_ h_rf h_bel _
    | refine State.setReg_eff ?_ h_rf _ _
    | refine State.epochArm_eff ?_ h_rf h_iln
    | refine State.epochCancel_eff ?_ h_rf h_iln
    | refine State.writePort_eff ?_ h_rf h_kpr h_iln h_bel h_ldg _ _
    | refine State.routeWrite_eff ?_ h_rf h_bel _ _
    | refine State.storeBits_eff ?_ h_rf _ _
    | refine Eff.ite ?_ ?_
    | split

theorem State.writeInject_eff (h : Eff F s0 s) (h_rf : F .rf = true) :
    ∀ a1 a2, Eff F s0 (State.writeInject s a1 a2) := by
  intro a1 a2
  unfold State.writeInject
  repeat' with_reducible first
    | assumption
    | (extract_lets +onlyGivenNames x
       first
       | (refine Eff.cut F s0 x ?_ ?_; unfold x; clear x; rotate_left; intro _; clear_value x; rotate_left)
       | (refine EffP.cut F s0 x ?_ ?_; unfold x; clear x; rotate_left; intro _; clear_value x; rotate_left)
       | clear_value x)
    | refine State.setReg_eff ?_ h_rf _ _
    | refine Eff.ite ?_ ?_
    | split

theorem State.writeJournal_eff (h : Eff F s0 s) (h_rf : F .rf = true) (h_bel : F .bel = true) :
    ∀ a1 a2, Eff F s0 (State.writeJournal s a1 a2) := by
  intro a1 a2
  unfold State.writeJournal
  repeat' with_reducible first
    | assumption
    | (extract_lets +onlyGivenNames x
       first
       | (refine Eff.cut F s0 x ?_ ?_; unfold x; clear x; rotate_left; intro _; clear_value x; rotate_left)
       | (refine EffP.cut F s0 x ?_ ?_; unfold x; clear x; rotate_left; intro _; clear_value x; rotate_left)
       | clear_value x)
    | refine State.setReg_eff ?_ h_rf _ _
    | refine State.event_eff ?_ h_rf h_bel _ _
    | refine Eff.ite ?_ ?_
    | split

theorem State.writeTest_eff (h : Eff F s0 s) (h_rf : F .rf = true) :
    ∀ a1 a2, Eff F s0 (State.writeTest s a1 a2) := by
  intro a1 a2
  unfold State.writeTest
  repeat' with_reducible first
    | assumption
    | refine State.testRequest_eff ?_ h_rf _
    | refine State.testWithdraw_eff ?_ h_rf _
    | refine Eff.ite ?_ ?_
    | split

theorem State.writeWsp_eff (h : Eff F s0 s) (h_freeCtr : F .freeCtr = true) (h_rf : F .rf = true) :
    ∀ a1 a2, Eff F s0 (State.writeWsp s a1 a2) := by
  intro a1 a2
  unfold State.writeWsp
  repeat' with_reducible first
    | assumption
    | refine State.wspShift_eff ?_ h_rf _ _ _ _
    | refine State.setReg_eff ?_ h_rf _ _
    | refine Eff.ite ?_ ?_
    | split
    | refine Eff.set_freeCtr ?_ h_freeCtr

theorem State.writeKpr_eff (h : Eff F s0 s) (h_freeCtr : F .freeCtr = true) (h_rf : F .rf = true) (h_kpr : F .kpr = true) (h_bel : F .bel = true) (h_ldg : F .ldg = true) :
    ∀ a1 a2, Eff F s0 (State.writeKpr s a1 a2) := by
  intro a1 a2
  unfold State.writeKpr
  repeat' with_reducible first
    | assumption
    | refine State.kprQuery_eff ?_ h_rf _
    | refine State.nearExtent_eff ?_ h_rf h_kpr h_bel h_ldg _ _ _
    | refine State.farExtent_eff ?_ h_rf h_bel _ _
    | refine State.regShare_eff ?_ h_rf _ _
    | refine State.writeTest_eff ?_ h_rf _ _
    | refine State.writeWsp_eff ?_ h_freeCtr h_rf _ _
    | refine State.storeBits_eff ?_ h_rf _ _
    | refine Eff.ite ?_ ?_
    | split

theorem State.writeLdg_eff (h : Eff F s0 s) (h_rf : F .rf = true) (h_mem : F .mem = true) (h_ecc : F .ecc = true) (h_curMem : F .curMem = true) (h_pins : F .pins = true) (h_smb : F .smb = true) (h_boot : F .boot = true) (h_stp : F .stp = true) (h_cir : F .cir = true) (h_cat : F .cat = true) (h_bind : F .bind = true) (h_shelves : F .shelves = true) (h_kpr : F .kpr = true) (h_iln : F .iln = true) (h_crl : F .crl = true) (h_bel : F .bel = true) (h_ldg : F .ldg = true) (h_pwr : F .pwr = true) (h_obs : F .obs = true) (h_hostOut : F .hostOut = true) :
    ∀ a1 a2, Eff F s0 (State.writeLdg s a1 a2) := by
  intro a1 a2
  unfold State.writeLdg
  repeat' with_reducible first
    | assumption
    | refine State.logConfig_eff ?_ h_rf h_mem h_iln h_bel h_ldg h_hostOut _ _
    | refine State.logHead_eff ?_ h_rf h_mem h_iln h_bel h_ldg h_hostOut _
    | refine State.managerReset_eff ?_ h_rf h_mem h_ecc h_curMem h_pins h_smb h_boot h_stp h_cir h_cat h_bind h_shelves h_kpr h_iln h_crl h_bel h_ldg h_pwr h_obs _
    | refine State.oosClear_eff ?_ h_ldg _
    | refine State.heartbeat_eff ?_ h_ldg _
    | refine State.writeInject_eff ?_ h_rf _ _
    | refine State.setReg_eff ?_ h_rf _ _
    | refine State.storeBits_eff ?_ h_rf _ _
    | refine Eff.ite ?_ ?_
    | split

theorem State.writeLimits_eff (h : Eff F s0 s) (h_rf : F .rf = true) :
    ∀ a1 a2, Eff F s0 (State.writeLimits s a1 a2) := by
  intro a1 a2
  unfold State.writeLimits
  repeat' with_reducible first
    | assumption
    | refine State.setReg_eff ?_ h_rf _ _
    | refine State.orReg_eff ?_ h_rf _ _
    | refine Eff.ite ?_ ?_
    | split

theorem State.writeLnd_eff (h : Eff F s0 s) (h_rf : F .rf = true) :
    ∀ a1 a2, Eff F s0 (State.writeLnd s a1 a2) := by
  intro a1 a2
  unfold State.writeLnd
  repeat' with_reducible first
    | assumption
    | refine State.setReg_eff ?_ h_rf _ _
    | refine State.storeBits_eff ?_ h_rf _ _
    | refine Eff.ite ?_ ?_
    | split

theorem State.writeObs_eff (h : Eff F s0 s) (h_rf : F .rf = true) (h_ecc : F .ecc = true) (h_cir : F .cir = true) (h_cat : F .cat = true) (h_bind : F .bind = true) (h_shelves : F .shelves = true) (h_kpr : F .kpr = true) (h_iln : F .iln = true) (h_bel : F .bel = true) (h_ldg : F .ldg = true) (h_obs : F .obs = true) :
    ∀ a1 a2, Eff F s0 (State.writeObs s a1 a2) := by
  intro a1 a2
  unfold State.writeObs
  repeat' with_reducible first
    | assumption
    | refine State.writeJournal_eff ?_ h_rf h_bel _ _
    | refine State.setReg_eff ?_ h_rf _ _
    | refine State.bisectRelease_eff ?_ h_shelves _
    | refine State.obsCommand_eff ?_ h_rf h_ecc h_cir h_cat h_bind h_shelves h_kpr h_iln h_bel h_ldg h_obs _ _
    | refine State.storeBits_eff ?_ h_rf _ _
    | refine Eff.ite ?_ ?_
    | split

theorem State.writePwr_eff (h : Eff F s0 s) (h_rf : F .rf = true) (h_pwr : F .pwr = true) :
    ∀ a1 a2, Eff F s0 (State.writePwr s a1 a2) := by
  intro a1 a2
  unfold State.writePwr
  repeat' with_reducible first
    | assumption
    | refine State.writeLimits_eff ?_ h_rf _ _
    | refine State.domainCmd_eff ?_ h_rf h_pwr _ _
    | refine State.storeBits_eff ?_ h_rf _ _
    | refine Eff.ite ?_ ?_
    | split

theorem State.writeStp_eff (h : Eff F s0 s) (h_rf : F .rf = true) (h_stp : F .stp = true) :
    ∀ a1 a2, Eff F s0 (State.writeStp s a1 a2) := by
  intro a1 a2
  unfold State.writeStp
  repeat' with_reducible first
    | assumption
    | (extract_lets +onlyGivenNames x
       first
       | (refine Eff.cut F s0 x ?_ ?_; unfold x; clear x; rotate_left; intro _; clear_value x; rotate_left)
       | (refine EffP.cut F s0 x ?_ ?_; unfold x; clear x; rotate_left; intro _; clear_value x; rotate_left)
       | clear_value x)
    | refine State.storeBits_eff ?_ h_rf _ _
    | refine State.relock_eff ?_ h_stp
    | refine State.changeArm_eff ?_ h_rf h_stp
    | refine State.changeCancel_eff ?_ h_rf h_stp
    | refine Eff.ite ?_ ?_
    | split

theorem State.writeShv_eff (h : Eff F s0 s) (h_rf : F .rf = true) :
    ∀ a1 a2, Eff F s0 (State.writeShv s a1 a2) := by
  intro a1 a2
  unfold State.writeShv
  repeat' with_reducible first
    | assumption
    | refine State.storeBits_eff ?_ h_rf _ _
    | refine Eff.ite ?_ ?_
    | split

theorem State.writeReg_eff (h : Eff F s0 s) (h_freeCtr : F .freeCtr = true) (h_rf : F .rf = true) (h_mem : F .mem = true) (h_ecc : F .ecc = true) (h_curMem : F .curMem = true) (h_pins : F .pins = true) (h_smb : F .smb = true) (h_ss : F .ss = true) (h_boot : F .boot = true) (h_stp : F .stp = true) (h_cir : F .cir = true) (h_cat : F .cat = true) (h_bind : F .bind = true) (h_shelves : F .shelves = true) (h_kpr : F .kpr = true) (h_iln : F .iln = true) (h_crl : F .crl = true) (h_bel : F .bel = true) (h_ldg : F .ldg = true) (h_pwr : F .pwr = true) (h_obs : F .obs = true) (h_hostOut : F .hostOut = true) :
    ∀ a1 a2 a3, Eff F s0 (State.writeReg s a1 a2 a3) := by
  intro a1 a2 a3
  unfold State.writeReg
  repeat' with_reducible first
    | assumption
    | refine State.writeCfg_eff ?_ h_rf h_ss h_boot _ _
    | refine State.writeStp_eff ?_ h_rf h_stp _ _
    | refine State.writeCir_eff ?_ h_freeCtr h_rf h_mem h_ecc h_cir h_cat h_bind h_shelves h_kpr h_bel h_ldg h_pwr h_obs _ _
    | refine State.writeCat_eff ?_ h_rf h_ecc h_cir h_cat h_bind h_kpr h_bel h_ldg h_obs _ _
    | refine State.writeShv_eff ?_ h_rf _ _
    | refine State.writeKpr_eff ?_ h_freeCtr h_rf h_kpr h_bel h_ldg _ _
    | refine State.writeLnd_eff ?_ h_rf _ _
    | refine State.writeIln_eff ?_ h_rf h_kpr h_iln h_bel h_ldg _ _
    | refine State.writeCrl_eff ?_ h_freeCtr h_rf h_mem h_ecc h_cir h_cat h_bind h_shelves h_kpr h_iln h_crl h_bel h_ldg h_pwr h_obs h_hostOut _ _
    | refine State.writeBel_eff ?_ h_rf h_bel h_ldg _ _ _
    | refine State.writeLdg_eff ?_ h_rf h_mem h_ecc h_curMem h_pins h_smb h_boot h_stp h_cir h_cat h_bind h_shelves h_kpr h_iln h_crl h_bel h_ldg h_pwr h_obs h_hostOut _ _
    | refine State.writePwr_eff ?_ h_rf h_pwr _ _
    | refine State.writeObs_eff ?_ h_rf h_ecc h_cir h_cat h_bind h_shelves h_kpr h_iln h_bel h_ldg h_obs _ _
    | refine Eff.ite ?_ ?_
    | split

end Sys2Proof.Machine
end

