-- ==== Sys2Proof/Laws/FrameWindow.lean ====
section
/-! SUPPORT. Frames of the operations of Machine/Window.lean: what each may change. -/

namespace Sys2Proof.Machine

variable {F : Comp → Bool} {s0 s : State}

theorem State.bulkWrite_eff (h : Eff F s0 s) (h_mem : F .mem = true) :
    ∀ a1 a2 a3, Eff F s0 (State.bulkWrite s a1 a2 a3) := by
  intro a1 a2 a3
  unfold State.bulkWrite
  repeat' with_reducible first
    | assumption
    | refine Eff.ite ?_ ?_
    | split
    | refine Eff.set_mem ?_ h_mem ?_
    | intro _
    | refine Memory.wf_write _ _ ?_
    | refine Memory.wf_writeN _ _ ?_
    | refine Memory.wf_writeLe _ _ _ ?_
    | refine Memory.wf_clear _ _ ?_
    | refine Memory.wf_dropOnDie ?_
    | refine Memory.wf_copy _ _ _ ?_
    | refine RegFile.wf_set _ _ ?_
    | refine RegFile.wf_filter _ ?_

theorem State.sizeRefused_eff (h : Eff F s0 s) (h_rf : F .rf = true) (h_ldg : F .ldg = true) :
    ∀ a1 a2, Eff F s0 (State.sizeRefused s a1 a2) := by
  intro a1 a2
  unfold State.sizeRefused
  repeat' with_reducible first
    | assumption
    | refine State.log_eff ?_ h_rf h_ldg _ _ _ _ _ _ _
    | split

theorem State.writeDoorbell_eff (h : Eff F s0 s) (h_rf : F .rf = true) (h_cir : F .cir = true) (h_iln : F .iln = true) (h_ldg : F .ldg = true) (h_hostOut : F .hostOut = true) :
    ∀ a1 a2 a3, Eff F s0 (State.writeDoorbell s a1 a2 a3) := by
  intro a1 a2 a3
  unfold State.writeDoorbell
  repeat' with_reducible first
    | assumption
    | (extract_lets +onlyGivenNames x
       first
       | (refine Eff.cut F s0 x ?_ ?_; unfold x; clear x; rotate_left; intro _; clear_value x; rotate_left)
       | (refine EffP.cut F s0 x ?_ ?_; unfold x; clear x; rotate_left; intro _; clear_value x; rotate_left)
       | clear_value x)
    | refine State.dbPtr_eff ?_ h_rf h_cir h_iln h_ldg h_hostOut _ _ _ _ _
    | refine State.dbWord_eff ?_ h_rf h_ldg _ (fun _ => ?_) _ _ _ _ _
    | refine State.clearCrossed_eff ?_ h_rf _
    | refine State.ringRestart_eff ?_ h_rf _
    | refine Eff.ite ?_ ?_
    | split

theorem State.writeBootWindow_eff (h : Eff F s0 s) (h_rf : F .rf = true) (h_ecc : F .ecc = true) (h_curMem : F .curMem = true) :
    ∀ a1 a2, Eff F s0 (State.writeBootWindow s a1 a2) := by
  intro a1 a2
  unfold State.writeBootWindow
  repeat' with_reducible first
    | assumption
    | refine State.curWrite_eff ?_ h_rf h_ecc h_curMem _ _
    | refine Eff.ite ?_ ?_
    | split

theorem State.windowStore_eff (h : Eff F s0 s) (h_freeCtr : F .freeCtr = true) (h_rf : F .rf = true) (h_mem : F .mem = true) (h_ecc : F .ecc = true) (h_curMem : F .curMem = true) (h_pins : F .pins = true) (h_smb : F .smb = true) (h_ss : F .ss = true) (h_boot : F .boot = true) (h_stp : F .stp = true) (h_cir : F .cir = true) (h_cat : F .cat = true) (h_bind : F .bind = true) (h_shelves : F .shelves = true) (h_kpr : F .kpr = true) (h_iln : F .iln = true) (h_crl : F .crl = true) (h_bel : F .bel = true) (h_ldg : F .ldg = true) (h_pwr : F .pwr = true) (h_obs : F .obs = true) (h_hostOut : F .hostOut = true) :
    ∀ a1 a2 a3 a4, Eff F s0 (State.windowStore s a1 a2 a3 a4) := by
  intro a1 a2 a3 a4
  unfold State.windowStore
  repeat' with_reducible first
    | assumption
    | (extract_lets +onlyGivenNames x
       first
       | (refine Eff.cut F s0 x ?_ ?_; unfold x; clear x; rotate_left; intro _; clear_value x; rotate_left)
       | (refine EffP.cut F s0 x ?_ ?_; unfold x; clear x; rotate_left; intro _; clear_value x; rotate_left)
       | clear_value x)
    | refine State.log_eff ?_ h_rf h_ldg _ _ _ _ _ _ _
    | refine State.sizeRefused_eff ?_ h_rf h_ldg _ _
    | refine State.writeDoorbell_eff ?_ h_rf h_cir h_iln h_ldg h_hostOut _ _ _
    | refine State.writeBootWindow_eff ?_ h_rf h_ecc h_curMem _ _
    | refine State.writeReg_eff ?_ h_freeCtr h_rf h_mem h_ecc h_curMem h_pins h_smb h_ss h_boot h_stp h_cir h_cat h_bind h_shelves h_kpr h_iln h_crl h_bel h_ldg h_pwr h_obs h_hostOut _ _ _
    | refine State.notPermitted_eff ?_ h_rf h_ldg _ _ _
    | refine State.writeMbox_eff ?_ h_rf h_iln h_bel h_hostOut _ _ _ _
    | refine Eff.ite ?_ ?_
    | split

theorem State.windowLoad_eff (h : Eff F s0 s) (h_rf : F .rf = true) (h_ldg : F .ldg = true) :
    ∀ a1 a2 a3, EffP F s0 (State.windowLoad s a1 a2 a3) := by
  intro a1 a2 a3
  unfold State.windowLoad
  repeat' with_reducible first
    | assumption
    | (extract_lets +onlyGivenNames x
       first
       | (refine Eff.cut F s0 x ?_ ?_; unfold x; clear x; rotate_left; intro _; clear_value x; rotate_left)
       | (refine EffP.cut F s0 x ?_ ?_; unfold x; clear x; rotate_left; intro _; clear_value x; rotate_left)
       | clear_value x)
    | refine State.log_eff ?_ h_rf h_ldg _ _ _ _ _ _ _
    | refine State.sizeRefused_eff ?_ h_rf h_ldg _ _
    | refine State.notPermitted_eff ?_ h_rf h_ldg _ _ _
    | refine EffP.ite ?_ ?_
    | refine Eff.ite ?_ ?_
    | split
    | refine EffP.mk ?_ _

theorem State.ctlAccess_eff (h : Eff F s0 s) (h_freeCtr : F .freeCtr = true) (h_rf : F .rf = true) (h_mem : F .mem = true) (h_ecc : F .ecc = true) (h_curMem : F .curMem = true) (h_pins : F .pins = true) (h_tap : F .tap = true) (h_smb : F .smb = true) (h_ss : F .ss = true) (h_boot : F .boot = true) (h_stp : F .stp = true) (h_cir : F .cir = true) (h_cat : F .cat = true) (h_bind : F .bind = true) (h_shelves : F .shelves = true) (h_kpr : F .kpr = true) (h_iln : F .iln = true) (h_crl : F .crl = true) (h_bel : F .bel = true) (h_ldg : F .ldg = true) (h_pwr : F .pwr = true) (h_obs : F .obs = true) (h_hostOut : F .hostOut = true) :
    ∀ a1 a2 a3, Eff F s0 (State.ctlAccess s a1 a2 a3) := by
  intro a1 a2 a3
  unfold State.ctlAccess
  repeat' with_reducible first
    | assumption
    | (extract_lets +onlyGivenNames x
       first
       | (refine Eff.cut F s0 x ?_ ?_; unfold x; clear x; rotate_left; intro _; clear_value x; rotate_left)
       | (refine EffP.cut F s0 x ?_ ?_; unfold x; clear x; rotate_left; intro _; clear_value x; rotate_left)
       | clear_value x)
    | refine State.irLoad_eff ?_ h_pins h_tap _ _ _
    | refine State.log_eff ?_ h_rf h_ldg _ _ _ _ _ _ _
    | refine State.windowStore_eff ?_ h_freeCtr h_rf h_mem h_ecc h_curMem h_pins h_smb h_ss h_boot h_stp h_cir h_cat h_bind h_shelves h_kpr h_iln h_crl h_bel h_ldg h_pwr h_obs h_hostOut _ _ _ _
    | refine State.windowLoad_eff ?_ h_rf h_ldg _ _ _
    | refine EffP.fst ?_
    | refine EffP.of_eq (by assumption) ?_
    | refine EffP.ite ?_ ?_
    | refine Eff.ite ?_ ?_
    | split
    | refine Eff.set_tap ?_ h_tap
    | refine EffP.mk ?_ _

theorem State.hostAnswer_eff (h : Eff F s0 s) (h_iln : F .iln = true) :
    ∀ a1 a2 a3, Eff F s0 (State.hostAnswer s a1 a2 a3) := by
  intro a1 a2 a3
  unfold State.hostAnswer
  repeat' with_reducible first
    | assumption
    | refine State.modIln_eff ?_ h_iln _
    | split

theorem State.tagRefused_eff (h : Eff F s0 s) (h_rf : F .rf = true) (h_ldg : F .ldg = true) :
    ∀ a1 a2, Eff F s0 (State.tagRefused s a1 a2) := by
  intro a1 a2
  unfold State.tagRefused
  repeat' with_reducible first
    | assumption
    | refine State.log_eff ?_ h_rf h_ldg _ _ _ _ _ _ _
    | refine Eff.ite ?_ ?_
    | split

theorem State.hostLoad_eff (h : Eff F s0 s) (h_rf : F .rf = true) (h_iln : F .iln = true) (h_ldg : F .ldg = true) :
    ∀ a1 a2 a3 a4, Eff F s0 (State.hostLoad s a1 a2 a3 a4) := by
  intro a1 a2 a3 a4
  unfold State.hostLoad
  repeat' with_reducible first
    | assumption
    | refine State.windowLoad_eff ?_ h_rf h_ldg _ _ _
    | refine State.hostAnswer_eff ?_ h_iln _ _ _
    | refine State.tagRefused_eff ?_ h_rf h_ldg _ _
    | refine EffP.fst ?_
    | refine EffP.of_eq (by assumption) ?_
    | split
    | refine EffP.mk ?_ _

theorem State.hostStore_eff (h : Eff F s0 s) (h_freeCtr : F .freeCtr = true) (h_rf : F .rf = true) (h_mem : F .mem = true) (h_ecc : F .ecc = true) (h_curMem : F .curMem = true) (h_pins : F .pins = true) (h_smb : F .smb = true) (h_ss : F .ss = true) (h_boot : F .boot = true) (h_stp : F .stp = true) (h_cir : F .cir = true) (h_cat : F .cat = true) (h_bind : F .bind = true) (h_shelves : F .shelves = true) (h_kpr : F .kpr = true) (h_iln : F .iln = true) (h_crl : F .crl = true) (h_bel : F .bel = true) (h_ldg : F .ldg = true) (h_pwr : F .pwr = true) (h_obs : F .obs = true) (h_hostOut : F .hostOut = true) :
    ∀ a1 a2 a3 a4 a5, Eff F s0 (State.hostStore s a1 a2 a3 a4 a5) := by
  intro a1 a2 a3 a4 a5
  unfold State.hostStore
  repeat' with_reducible first
    | assumption
    | (extract_lets +onlyGivenNames x
       first
       | (refine Eff.cut F s0 x ?_ ?_; unfold x; clear x; rotate_left; intro _; clear_value x; rotate_left)
       | (refine EffP.cut F s0 x ?_ ?_; unfold x; clear x; rotate_left; intro _; clear_value x; rotate_left)
       | clear_value x)
    | refine State.windowStore_eff ?_ h_freeCtr h_rf h_mem h_ecc h_curMem h_pins h_smb h_ss h_boot h_stp h_cir h_cat h_bind h_shelves h_kpr h_iln h_crl h_bel h_ldg h_pwr h_obs h_hostOut _ _ _ _
    | refine State.hostAnswer_eff ?_ h_iln _ _ _
    | refine State.bulkWrite_eff ?_ h_mem _ _ _
    | refine State.tagRefused_eff ?_ h_rf h_ldg _ _
    | refine Eff.ite ?_ ?_
    | split

theorem State.hostReq_eff (h : Eff F s0 s) (h_freeCtr : F .freeCtr = true) (h_rf : F .rf = true) (h_mem : F .mem = true) (h_ecc : F .ecc = true) (h_curMem : F .curMem = true) (h_pins : F .pins = true) (h_smb : F .smb = true) (h_ss : F .ss = true) (h_boot : F .boot = true) (h_stp : F .stp = true) (h_cir : F .cir = true) (h_cat : F .cat = true) (h_bind : F .bind = true) (h_shelves : F .shelves = true) (h_kpr : F .kpr = true) (h_iln : F .iln = true) (h_crl : F .crl = true) (h_bel : F .bel = true) (h_ldg : F .ldg = true) (h_pwr : F .pwr = true) (h_obs : F .obs = true) (h_hostOut : F .hostOut = true) :
    ∀ a1 a2 a3 a4 a5 a6 a7, Eff F s0 (State.hostReq s a1 a2 a3 a4 a5 a6 a7) := by
  intro a1 a2 a3 a4 a5 a6 a7
  unfold State.hostReq
  repeat' with_reducible first
    | assumption
    | refine State.hostRefused_eff ?_ h_rf h_ldg _ _
    | refine State.hostStore_eff ?_ h_freeCtr h_rf h_mem h_ecc h_curMem h_pins h_smb h_ss h_boot h_stp h_cir h_cat h_bind h_shelves h_kpr h_iln h_crl h_bel h_ldg h_pwr h_obs h_hostOut _ _ _ _ _
    | refine State.hostLoad_eff ?_ h_rf h_iln h_ldg _ _ _ _
    | refine Eff.ite ?_ ?_
    | split

theorem execCtlAccess_eff (h : Eff F s0 s) (h_freeCtr : F .freeCtr = true) (h_rf : F .rf = true) (h_mem : F .mem = true) (h_ecc : F .ecc = true) (h_curMem : F .curMem = true) (h_pins : F .pins = true) (h_tap : F .tap = true) (h_smb : F .smb = true) (h_ss : F .ss = true) (h_boot : F .boot = true) (h_stp : F .stp = true) (h_cir : F .cir = true) (h_cat : F .cat = true) (h_bind : F .bind = true) (h_shelves : F .shelves = true) (h_kpr : F .kpr = true) (h_iln : F .iln = true) (h_crl : F .crl = true) (h_bel : F .bel = true) (h_ldg : F .ldg = true) (h_pwr : F .pwr = true) (h_obs : F .obs = true) (h_hostOut : F .hostOut = true) :
    ∀ a0 a1 a2, EffX F s0 (execCtlAccess a0 a1 a2 s) := by
  intro a0 a1 a2
  unfold execCtlAccess
  repeat' with_reducible first
    | assumption
    | refine State.ctlAccess_eff ?_ h_freeCtr h_rf h_mem h_ecc h_curMem h_pins h_tap h_smb h_ss h_boot h_stp h_cir h_cat h_bind h_shelves h_kpr h_iln h_crl h_bel h_ldg h_pwr h_obs h_hostOut _ _ _
    | refine EffX.next ?_
    | refine Eff.ite ?_ ?_
    | refine EffX.ite ?_ ?_
    | split

theorem execHostReq_eff (h : Eff F s0 s) (h_freeCtr : F .freeCtr = true) (h_rf : F .rf = true) (h_mem : F .mem = true) (h_ecc : F .ecc = true) (h_curMem : F .curMem = true) (h_pins : F .pins = true) (h_smb : F .smb = true) (h_ss : F .ss = true) (h_boot : F .boot = true) (h_stp : F .stp = true) (h_cir : F .cir = true) (h_cat : F .cat = true) (h_bind : F .bind = true) (h_shelves : F .shelves = true) (h_kpr : F .kpr = true) (h_iln : F .iln = true) (h_crl : F .crl = true) (h_bel : F .bel = true) (h_ldg : F .ldg = true) (h_pwr : F .pwr = true) (h_obs : F .obs = true) (h_hostOut : F .hostOut = true) :
    ∀ a0 a1 a2 a3 a4 a5, EffX F s0 (execHostReq a0 a1 a2 a3 a4 a5 s) := by
  intro a0 a1 a2 a3 a4 a5
  unfold execHostReq
  repeat' with_reducible first
    | assumption
    | refine State.hostReq_eff ?_ h_freeCtr h_rf h_mem h_ecc h_curMem h_pins h_smb h_ss h_boot h_stp h_cir h_cat h_bind h_shelves h_kpr h_iln h_crl h_bel h_ldg h_pwr h_obs h_hostOut _ _ _ _ _ _ _
    | refine EffX.next ?_
    | split

theorem execRegisterWrite_eff (h : Eff F s0 s) (h_freeCtr : F .freeCtr = true) (h_rf : F .rf = true) (h_mem : F .mem = true) (h_ecc : F .ecc = true) (h_curMem : F .curMem = true) (h_pins : F .pins = true) (h_smb : F .smb = true) (h_ss : F .ss = true) (h_boot : F .boot = true) (h_stp : F .stp = true) (h_cir : F .cir = true) (h_cat : F .cat = true) (h_bind : F .bind = true) (h_shelves : F .shelves = true) (h_kpr : F .kpr = true) (h_iln : F .iln = true) (h_crl : F .crl = true) (h_bel : F .bel = true) (h_ldg : F .ldg = true) (h_pwr : F .pwr = true) (h_obs : F .obs = true) (h_hostOut : F .hostOut = true) :
    ∀ a0 a1 a2 a3, EffX F s0 (execRegisterWrite a0 a1 a2 a3 s) := by
  intro a0 a1 a2 a3
  unfold execRegisterWrite
  repeat' with_reducible first
    | assumption
    | refine State.windowStore_eff ?_ h_freeCtr h_rf h_mem h_ecc h_curMem h_pins h_smb h_ss h_boot h_stp h_cir h_cat h_bind h_shelves h_kpr h_iln h_crl h_bel h_ldg h_pwr h_obs h_hostOut _ _ _ _
    | refine EffX.next ?_
    | split

end Sys2Proof.Machine
end

