-- ==== Sys2Proof/Laws/State.lean ====
section
/-! SUPPORT. Laws of the state's named updates: what each field holds after a register, a field of one, a shelf or a Bell source is
written, and what a register then reads. -/

namespace Sys2Proof.Machine

/-! ## Bits and fields of a word -/

theorem fld_testBit (w : Word) (lo width i : Nat) : (fld w lo width).testBit i = (decide (i < width) && w.getLsbD (lo + i)) := by
  unfold fld
  rw [Nat.testBit_mod_two_pow, Nat.testBit_shiftRight]
  rfl

theorem fieldMask_bit (lo width i : Nat) (h : lo + width ≤ 64) :
    (fieldMask lo width).getLsbD i = (decide (lo ≤ i) && decide (i < lo + width)) := by
  unfold fieldMask
  rw [BitVec.getLsbD_ofNat, Nat.testBit_shiftLeft, Nat.testBit_two_pow_sub_one]
  by_cases h1 : lo ≤ i <;> by_cases h2 : i < lo + width <;> simp [h1, h2] <;> omega

theorem setFld_bit (w : Word) (lo width v i : Nat) (h : lo + width ≤ 64) :
    (setFld w lo width v).getLsbD i =
      if lo ≤ i ∧ i < lo + width then v.testBit (i - lo) else w.getLsbD i := by
  unfold setFld
  rw [BitVec.getLsbD_or, BitVec.getLsbD_and, BitVec.getLsbD_not, fieldMask_bit _ _ _ h, BitVec.getLsbD_ofNat, Nat.testBit_shiftLeft,
    Nat.testBit_mod_two_pow]
  have hw : w.getLsbD i = true → i < 64 := fun h => Decidable.byContradiction fun hn => by
    rw [BitVec.getLsbD_of_ge _ _ (by omega)] at h; cases h
  by_cases h1 : lo ≤ i <;> by_cases h2 : i < lo + width
  · have h3 : i - lo < width := by omega
    have h4 : i < 64 := by omega
    simp [h1, h2, h3, h4]
  · have h3 : ¬ i - lo < width := by omega
    cases hb : w.getLsbD i <;> simp [h1, h2, h3]
    exact hw hb
  all_goals cases hb : w.getLsbD i <;> simp [h1, h2]
  all_goals exact hw hb

theorem fld_setFld (w : Word) (lo width v : Nat) (h : lo + width ≤ 64) : fld (setFld w lo width v) lo width = v % 2 ^ width := by
  apply Nat.eq_of_testBit_eq
  intro i
  rw [fld_testBit, setFld_bit _ _ _ _ _ h, Nat.testBit_mod_two_pow]
  by_cases h1 : i < width <;> simp [h1]

theorem fld_setFld_of_disjoint (w : Word) (lo width v lo' width' : Nat) (h : lo + width ≤ 64) (hd : lo' + width' ≤ lo ∨ lo + width ≤ lo') :
    fld (setFld w lo width v) lo' width' = fld w lo' width' := by
  apply Nat.eq_of_testBit_eq
  intro i
  rw [fld_testBit, fld_testBit, setFld_bit _ _ _ _ _ h]
  by_cases h1 : i < width'
  · rw [if_neg (by omega)]
  · simp [h1]

theorem bitAt_setBitAt (w : Word) (i : Nat) (b : Bool) (h : i < 64) : bitAt (setBitAt w i b) i = b := by
  unfold bitAt setBitAt
  rw [setFld_bit _ _ _ _ _ (by omega)]
  cases b <;> simp
/-! ## Fields after an update -/

variable (s : State)

@[simp] theorem State.setReg_pending (off : Nat) (v : Word) : (s.setReg off v).pending = s.pending := rfl
@[simp] theorem State.setReg_freeCtr (off : Nat) (v : Word) : (s.setReg off v).freeCtr = s.freeCtr := rfl
@[simp] theorem State.setReg_mem (off : Nat) (v : Word) : (s.setReg off v).mem = s.mem := rfl
@[simp] theorem State.setReg_ecc (off : Nat) (v : Word) : (s.setReg off v).ecc = s.ecc := rfl
@[simp] theorem State.setReg_curMem (off : Nat) (v : Word) : (s.setReg off v).curMem = s.curMem := rfl
@[simp] theorem State.setReg_pins (off : Nat) (v : Word) : (s.setReg off v).pins = s.pins := rfl
@[simp] theorem State.setReg_tap (off : Nat) (v : Word) : (s.setReg off v).tap = s.tap := rfl
@[simp] theorem State.setReg_smb (off : Nat) (v : Word) : (s.setReg off v).smb = s.smb := rfl
@[simp] theorem State.setReg_ss (off : Nat) (v : Word) : (s.setReg off v).ss = s.ss := rfl
@[simp] theorem State.setReg_boot (off : Nat) (v : Word) : (s.setReg off v).boot = s.boot := rfl
@[simp] theorem State.setReg_stp (off : Nat) (v : Word) : (s.setReg off v).stp = s.stp := rfl
@[simp] theorem State.setReg_cir (off : Nat) (v : Word) : (s.setReg off v).cir = s.cir := rfl
@[simp] theorem State.setReg_cat (off : Nat) (v : Word) : (s.setReg off v).cat = s.cat := rfl
@[simp] theorem State.setReg_bind (off : Nat) (v : Word) : (s.setReg off v).bind = s.bind := rfl
@[simp] theorem State.setReg_shelves (off : Nat) (v : Word) : (s.setReg off v).shelves = s.shelves := rfl
@[simp] theorem State.setReg_kpr (off : Nat) (v : Word) : (s.setReg off v).kpr = s.kpr := rfl
@[simp] theorem State.setReg_iln (off : Nat) (v : Word) : (s.setReg off v).iln = s.iln := rfl
@[simp] theorem State.setReg_crl (off : Nat) (v : Word) : (s.setReg off v).crl = s.crl := rfl
@[simp] theorem State.setReg_bel (off : Nat) (v : Word) : (s.setReg off v).bel = s.bel := rfl
@[simp] theorem State.setReg_ldg (off : Nat) (v : Word) : (s.setReg off v).ldg = s.ldg := rfl
@[simp] theorem State.setReg_pwr (off : Nat) (v : Word) : (s.setReg off v).pwr = s.pwr := rfl
@[simp] theorem State.setReg_obs (off : Nat) (v : Word) : (s.setReg off v).obs = s.obs := rfl
@[simp] theorem State.setReg_hostOut (off : Nat) (v : Word) : (s.setReg off v).hostOut = s.hostOut := rfl

@[simp] theorem State.setField_pending (off lo width v : Nat) : (s.setField off lo width v).pending = s.pending := rfl
@[simp] theorem State.setField_freeCtr (off lo width v : Nat) : (s.setField off lo width v).freeCtr = s.freeCtr := rfl
@[simp] theorem State.setField_mem (off lo width v : Nat) : (s.setField off lo width v).mem = s.mem := rfl
@[simp] theorem State.setField_ecc (off lo width v : Nat) : (s.setField off lo width v).ecc = s.ecc := rfl
@[simp] theorem State.setField_curMem (off lo width v : Nat) : (s.setField off lo width v).curMem = s.curMem := rfl
@[simp] theorem State.setField_pins (off lo width v : Nat) : (s.setField off lo width v).pins = s.pins := rfl
@[simp] theorem State.setField_tap (off lo width v : Nat) : (s.setField off lo width v).tap = s.tap := rfl
@[simp] theorem State.setField_smb (off lo width v : Nat) : (s.setField off lo width v).smb = s.smb := rfl
@[simp] theorem State.setField_ss (off lo width v : Nat) : (s.setField off lo width v).ss = s.ss := rfl
@[simp] theorem State.setField_boot (off lo width v : Nat) : (s.setField off lo width v).boot = s.boot := rfl
@[simp] theorem State.setField_stp (off lo width v : Nat) : (s.setField off lo width v).stp = s.stp := rfl
@[simp] theorem State.setField_cir (off lo width v : Nat) : (s.setField off lo width v).cir = s.cir := rfl
@[simp] theorem State.setField_cat (off lo width v : Nat) : (s.setField off lo width v).cat = s.cat := rfl
@[simp] theorem State.setField_bind (off lo width v : Nat) : (s.setField off lo width v).bind = s.bind := rfl
@[simp] theorem State.setField_shelves (off lo width v : Nat) : (s.setField off lo width v).shelves = s.shelves := rfl
@[simp] theorem State.setField_kpr (off lo width v : Nat) : (s.setField off lo width v).kpr = s.kpr := rfl
@[simp] theorem State.setField_iln (off lo width v : Nat) : (s.setField off lo width v).iln = s.iln := rfl
@[simp] theorem State.setField_crl (off lo width v : Nat) : (s.setField off lo width v).crl = s.crl := rfl
@[simp] theorem State.setField_bel (off lo width v : Nat) : (s.setField off lo width v).bel = s.bel := rfl
@[simp] theorem State.setField_ldg (off lo width v : Nat) : (s.setField off lo width v).ldg = s.ldg := rfl
@[simp] theorem State.setField_pwr (off lo width v : Nat) : (s.setField off lo width v).pwr = s.pwr := rfl
@[simp] theorem State.setField_obs (off lo width v : Nat) : (s.setField off lo width v).obs = s.obs := rfl
@[simp] theorem State.setField_hostOut (off lo width v : Nat) : (s.setField off lo width v).hostOut = s.hostOut := rfl

@[simp] theorem State.setRegBit_pending (off i : Nat) (b : Bool) : (s.setRegBit off i b).pending = s.pending := rfl
@[simp] theorem State.setRegBit_freeCtr (off i : Nat) (b : Bool) : (s.setRegBit off i b).freeCtr = s.freeCtr := rfl
@[simp] theorem State.setRegBit_mem (off i : Nat) (b : Bool) : (s.setRegBit off i b).mem = s.mem := rfl
@[simp] theorem State.setRegBit_ecc (off i : Nat) (b : Bool) : (s.setRegBit off i b).ecc = s.ecc := rfl
@[simp] theorem State.setRegBit_curMem (off i : Nat) (b : Bool) : (s.setRegBit off i b).curMem = s.curMem := rfl
@[simp] theorem State.setRegBit_pins (off i : Nat) (b : Bool) : (s.setRegBit off i b).pins = s.pins := rfl
@[simp] theorem State.setRegBit_tap (off i : Nat) (b : Bool) : (s.setRegBit off i b).tap = s.tap := rfl
@[simp] theorem State.setRegBit_smb (off i : Nat) (b : Bool) : (s.setRegBit off i b).smb = s.smb := rfl
@[simp] theorem State.setRegBit_ss (off i : Nat) (b : Bool) : (s.setRegBit off i b).ss = s.ss := rfl
@[simp] theorem State.setRegBit_boot (off i : Nat) (b : Bool) : (s.setRegBit off i b).boot = s.boot := rfl
@[simp] theorem State.setRegBit_stp (off i : Nat) (b : Bool) : (s.setRegBit off i b).stp = s.stp := rfl
@[simp] theorem State.setRegBit_cir (off i : Nat) (b : Bool) : (s.setRegBit off i b).cir = s.cir := rfl
@[simp] theorem State.setRegBit_cat (off i : Nat) (b : Bool) : (s.setRegBit off i b).cat = s.cat := rfl
@[simp] theorem State.setRegBit_bind (off i : Nat) (b : Bool) : (s.setRegBit off i b).bind = s.bind := rfl
@[simp] theorem State.setRegBit_shelves (off i : Nat) (b : Bool) : (s.setRegBit off i b).shelves = s.shelves := rfl
@[simp] theorem State.setRegBit_kpr (off i : Nat) (b : Bool) : (s.setRegBit off i b).kpr = s.kpr := rfl
@[simp] theorem State.setRegBit_iln (off i : Nat) (b : Bool) : (s.setRegBit off i b).iln = s.iln := rfl
@[simp] theorem State.setRegBit_crl (off i : Nat) (b : Bool) : (s.setRegBit off i b).crl = s.crl := rfl
@[simp] theorem State.setRegBit_bel (off i : Nat) (b : Bool) : (s.setRegBit off i b).bel = s.bel := rfl
@[simp] theorem State.setRegBit_ldg (off i : Nat) (b : Bool) : (s.setRegBit off i b).ldg = s.ldg := rfl
@[simp] theorem State.setRegBit_pwr (off i : Nat) (b : Bool) : (s.setRegBit off i b).pwr = s.pwr := rfl
@[simp] theorem State.setRegBit_obs (off i : Nat) (b : Bool) : (s.setRegBit off i b).obs = s.obs := rfl
@[simp] theorem State.setRegBit_hostOut (off i : Nat) (b : Bool) : (s.setRegBit off i b).hostOut = s.hostOut := rfl

@[simp] theorem State.orReg_pending (off : Nat) (v : Word) : (s.orReg off v).pending = s.pending := rfl
@[simp] theorem State.orReg_freeCtr (off : Nat) (v : Word) : (s.orReg off v).freeCtr = s.freeCtr := rfl
@[simp] theorem State.orReg_mem (off : Nat) (v : Word) : (s.orReg off v).mem = s.mem := rfl
@[simp] theorem State.orReg_ecc (off : Nat) (v : Word) : (s.orReg off v).ecc = s.ecc := rfl
@[simp] theorem State.orReg_curMem (off : Nat) (v : Word) : (s.orReg off v).curMem = s.curMem := rfl
@[simp] theorem State.orReg_pins (off : Nat) (v : Word) : (s.orReg off v).pins = s.pins := rfl
@[simp] theorem State.orReg_tap (off : Nat) (v : Word) : (s.orReg off v).tap = s.tap := rfl
@[simp] theorem State.orReg_smb (off : Nat) (v : Word) : (s.orReg off v).smb = s.smb := rfl
@[simp] theorem State.orReg_ss (off : Nat) (v : Word) : (s.orReg off v).ss = s.ss := rfl
@[simp] theorem State.orReg_boot (off : Nat) (v : Word) : (s.orReg off v).boot = s.boot := rfl
@[simp] theorem State.orReg_stp (off : Nat) (v : Word) : (s.orReg off v).stp = s.stp := rfl
@[simp] theorem State.orReg_cir (off : Nat) (v : Word) : (s.orReg off v).cir = s.cir := rfl
@[simp] theorem State.orReg_cat (off : Nat) (v : Word) : (s.orReg off v).cat = s.cat := rfl
@[simp] theorem State.orReg_bind (off : Nat) (v : Word) : (s.orReg off v).bind = s.bind := rfl
@[simp] theorem State.orReg_shelves (off : Nat) (v : Word) : (s.orReg off v).shelves = s.shelves := rfl
@[simp] theorem State.orReg_kpr (off : Nat) (v : Word) : (s.orReg off v).kpr = s.kpr := rfl
@[simp] theorem State.orReg_iln (off : Nat) (v : Word) : (s.orReg off v).iln = s.iln := rfl
@[simp] theorem State.orReg_crl (off : Nat) (v : Word) : (s.orReg off v).crl = s.crl := rfl
@[simp] theorem State.orReg_bel (off : Nat) (v : Word) : (s.orReg off v).bel = s.bel := rfl
@[simp] theorem State.orReg_ldg (off : Nat) (v : Word) : (s.orReg off v).ldg = s.ldg := rfl
@[simp] theorem State.orReg_pwr (off : Nat) (v : Word) : (s.orReg off v).pwr = s.pwr := rfl
@[simp] theorem State.orReg_obs (off : Nat) (v : Word) : (s.orReg off v).obs = s.obs := rfl
@[simp] theorem State.orReg_hostOut (off : Nat) (v : Word) : (s.orReg off v).hostOut = s.hostOut := rfl

@[simp] theorem State.andNotReg_pending (off : Nat) (v : Word) : (s.andNotReg off v).pending = s.pending := rfl
@[simp] theorem State.andNotReg_freeCtr (off : Nat) (v : Word) : (s.andNotReg off v).freeCtr = s.freeCtr := rfl
@[simp] theorem State.andNotReg_mem (off : Nat) (v : Word) : (s.andNotReg off v).mem = s.mem := rfl
@[simp] theorem State.andNotReg_ecc (off : Nat) (v : Word) : (s.andNotReg off v).ecc = s.ecc := rfl
@[simp] theorem State.andNotReg_curMem (off : Nat) (v : Word) : (s.andNotReg off v).curMem = s.curMem := rfl
@[simp] theorem State.andNotReg_pins (off : Nat) (v : Word) : (s.andNotReg off v).pins = s.pins := rfl
@[simp] theorem State.andNotReg_tap (off : Nat) (v : Word) : (s.andNotReg off v).tap = s.tap := rfl
@[simp] theorem State.andNotReg_smb (off : Nat) (v : Word) : (s.andNotReg off v).smb = s.smb := rfl
@[simp] theorem State.andNotReg_ss (off : Nat) (v : Word) : (s.andNotReg off v).ss = s.ss := rfl
@[simp] theorem State.andNotReg_boot (off : Nat) (v : Word) : (s.andNotReg off v).boot = s.boot := rfl
@[simp] theorem State.andNotReg_stp (off : Nat) (v : Word) : (s.andNotReg off v).stp = s.stp := rfl
@[simp] theorem State.andNotReg_cir (off : Nat) (v : Word) : (s.andNotReg off v).cir = s.cir := rfl
@[simp] theorem State.andNotReg_cat (off : Nat) (v : Word) : (s.andNotReg off v).cat = s.cat := rfl
@[simp] theorem State.andNotReg_bind (off : Nat) (v : Word) : (s.andNotReg off v).bind = s.bind := rfl
@[simp] theorem State.andNotReg_shelves (off : Nat) (v : Word) : (s.andNotReg off v).shelves = s.shelves := rfl
@[simp] theorem State.andNotReg_kpr (off : Nat) (v : Word) : (s.andNotReg off v).kpr = s.kpr := rfl
@[simp] theorem State.andNotReg_iln (off : Nat) (v : Word) : (s.andNotReg off v).iln = s.iln := rfl
@[simp] theorem State.andNotReg_crl (off : Nat) (v : Word) : (s.andNotReg off v).crl = s.crl := rfl
@[simp] theorem State.andNotReg_bel (off : Nat) (v : Word) : (s.andNotReg off v).bel = s.bel := rfl
@[simp] theorem State.andNotReg_ldg (off : Nat) (v : Word) : (s.andNotReg off v).ldg = s.ldg := rfl
@[simp] theorem State.andNotReg_pwr (off : Nat) (v : Word) : (s.andNotReg off v).pwr = s.pwr := rfl
@[simp] theorem State.andNotReg_obs (off : Nat) (v : Word) : (s.andNotReg off v).obs = s.obs := rfl
@[simp] theorem State.andNotReg_hostOut (off : Nat) (v : Word) : (s.andNotReg off v).hostOut = s.hostOut := rfl

@[simp] theorem State.countSat_pending (off lo width n : Nat) : (s.countSat off lo width n).pending = s.pending := rfl
@[simp] theorem State.countSat_freeCtr (off lo width n : Nat) : (s.countSat off lo width n).freeCtr = s.freeCtr := rfl
@[simp] theorem State.countSat_mem (off lo width n : Nat) : (s.countSat off lo width n).mem = s.mem := rfl
@[simp] theorem State.countSat_ecc (off lo width n : Nat) : (s.countSat off lo width n).ecc = s.ecc := rfl
@[simp] theorem State.countSat_curMem (off lo width n : Nat) : (s.countSat off lo width n).curMem = s.curMem := rfl
@[simp] theorem State.countSat_pins (off lo width n : Nat) : (s.countSat off lo width n).pins = s.pins := rfl
@[simp] theorem State.countSat_tap (off lo width n : Nat) : (s.countSat off lo width n).tap = s.tap := rfl
@[simp] theorem State.countSat_smb (off lo width n : Nat) : (s.countSat off lo width n).smb = s.smb := rfl
@[simp] theorem State.countSat_ss (off lo width n : Nat) : (s.countSat off lo width n).ss = s.ss := rfl
@[simp] theorem State.countSat_boot (off lo width n : Nat) : (s.countSat off lo width n).boot = s.boot := rfl
@[simp] theorem State.countSat_stp (off lo width n : Nat) : (s.countSat off lo width n).stp = s.stp := rfl
@[simp] theorem State.countSat_cir (off lo width n : Nat) : (s.countSat off lo width n).cir = s.cir := rfl
@[simp] theorem State.countSat_cat (off lo width n : Nat) : (s.countSat off lo width n).cat = s.cat := rfl
@[simp] theorem State.countSat_bind (off lo width n : Nat) : (s.countSat off lo width n).bind = s.bind := rfl
@[simp] theorem State.countSat_shelves (off lo width n : Nat) : (s.countSat off lo width n).shelves = s.shelves := rfl
@[simp] theorem State.countSat_kpr (off lo width n : Nat) : (s.countSat off lo width n).kpr = s.kpr := rfl
@[simp] theorem State.countSat_iln (off lo width n : Nat) : (s.countSat off lo width n).iln = s.iln := rfl
@[simp] theorem State.countSat_crl (off lo width n : Nat) : (s.countSat off lo width n).crl = s.crl := rfl
@[simp] theorem State.countSat_bel (off lo width n : Nat) : (s.countSat off lo width n).bel = s.bel := rfl
@[simp] theorem State.countSat_ldg (off lo width n : Nat) : (s.countSat off lo width n).ldg = s.ldg := rfl
@[simp] theorem State.countSat_pwr (off lo width n : Nat) : (s.countSat off lo width n).pwr = s.pwr := rfl
@[simp] theorem State.countSat_obs (off lo width n : Nat) : (s.countSat off lo width n).obs = s.obs := rfl
@[simp] theorem State.countSat_hostOut (off lo width n : Nat) : (s.countSat off lo width n).hostOut = s.hostOut := rfl

@[simp] theorem State.setShelf_pending (sh : Nat) (x : Shelf) : (s.setShelf sh x).pending = s.pending := rfl
@[simp] theorem State.setShelf_freeCtr (sh : Nat) (x : Shelf) : (s.setShelf sh x).freeCtr = s.freeCtr := rfl
@[simp] theorem State.setShelf_rf (sh : Nat) (x : Shelf) : (s.setShelf sh x).rf = s.rf := rfl
@[simp] theorem State.setShelf_mem (sh : Nat) (x : Shelf) : (s.setShelf sh x).mem = s.mem := rfl
@[simp] theorem State.setShelf_ecc (sh : Nat) (x : Shelf) : (s.setShelf sh x).ecc = s.ecc := rfl
@[simp] theorem State.setShelf_curMem (sh : Nat) (x : Shelf) : (s.setShelf sh x).curMem = s.curMem := rfl
@[simp] theorem State.setShelf_pins (sh : Nat) (x : Shelf) : (s.setShelf sh x).pins = s.pins := rfl
@[simp] theorem State.setShelf_tap (sh : Nat) (x : Shelf) : (s.setShelf sh x).tap = s.tap := rfl
@[simp] theorem State.setShelf_smb (sh : Nat) (x : Shelf) : (s.setShelf sh x).smb = s.smb := rfl
@[simp] theorem State.setShelf_ss (sh : Nat) (x : Shelf) : (s.setShelf sh x).ss = s.ss := rfl
@[simp] theorem State.setShelf_boot (sh : Nat) (x : Shelf) : (s.setShelf sh x).boot = s.boot := rfl
@[simp] theorem State.setShelf_stp (sh : Nat) (x : Shelf) : (s.setShelf sh x).stp = s.stp := rfl
@[simp] theorem State.setShelf_cir (sh : Nat) (x : Shelf) : (s.setShelf sh x).cir = s.cir := rfl
@[simp] theorem State.setShelf_cat (sh : Nat) (x : Shelf) : (s.setShelf sh x).cat = s.cat := rfl
@[simp] theorem State.setShelf_bind (sh : Nat) (x : Shelf) : (s.setShelf sh x).bind = s.bind := rfl
@[simp] theorem State.setShelf_kpr (sh : Nat) (x : Shelf) : (s.setShelf sh x).kpr = s.kpr := rfl
@[simp] theorem State.setShelf_iln (sh : Nat) (x : Shelf) : (s.setShelf sh x).iln = s.iln := rfl
@[simp] theorem State.setShelf_crl (sh : Nat) (x : Shelf) : (s.setShelf sh x).crl = s.crl := rfl
@[simp] theorem State.setShelf_bel (sh : Nat) (x : Shelf) : (s.setShelf sh x).bel = s.bel := rfl
@[simp] theorem State.setShelf_ldg (sh : Nat) (x : Shelf) : (s.setShelf sh x).ldg = s.ldg := rfl
@[simp] theorem State.setShelf_pwr (sh : Nat) (x : Shelf) : (s.setShelf sh x).pwr = s.pwr := rfl
@[simp] theorem State.setShelf_obs (sh : Nat) (x : Shelf) : (s.setShelf sh x).obs = s.obs := rfl
@[simp] theorem State.setShelf_hostOut (sh : Nat) (x : Shelf) : (s.setShelf sh x).hostOut = s.hostOut := rfl

@[simp] theorem State.setBelSrc_pending (n : Nat) (x : BelSrc) : (s.setBelSrc n x).pending = s.pending := rfl
@[simp] theorem State.setBelSrc_freeCtr (n : Nat) (x : BelSrc) : (s.setBelSrc n x).freeCtr = s.freeCtr := rfl
@[simp] theorem State.setBelSrc_rf (n : Nat) (x : BelSrc) : (s.setBelSrc n x).rf = s.rf := rfl
@[simp] theorem State.setBelSrc_mem (n : Nat) (x : BelSrc) : (s.setBelSrc n x).mem = s.mem := rfl
@[simp] theorem State.setBelSrc_ecc (n : Nat) (x : BelSrc) : (s.setBelSrc n x).ecc = s.ecc := rfl
@[simp] theorem State.setBelSrc_curMem (n : Nat) (x : BelSrc) : (s.setBelSrc n x).curMem = s.curMem := rfl
@[simp] theorem State.setBelSrc_pins (n : Nat) (x : BelSrc) : (s.setBelSrc n x).pins = s.pins := rfl
@[simp] theorem State.setBelSrc_tap (n : Nat) (x : BelSrc) : (s.setBelSrc n x).tap = s.tap := rfl
@[simp] theorem State.setBelSrc_smb (n : Nat) (x : BelSrc) : (s.setBelSrc n x).smb = s.smb := rfl
@[simp] theorem State.setBelSrc_ss (n : Nat) (x : BelSrc) : (s.setBelSrc n x).ss = s.ss := rfl
@[simp] theorem State.setBelSrc_boot (n : Nat) (x : BelSrc) : (s.setBelSrc n x).boot = s.boot := rfl
@[simp] theorem State.setBelSrc_stp (n : Nat) (x : BelSrc) : (s.setBelSrc n x).stp = s.stp := rfl
@[simp] theorem State.setBelSrc_cir (n : Nat) (x : BelSrc) : (s.setBelSrc n x).cir = s.cir := rfl
@[simp] theorem State.setBelSrc_cat (n : Nat) (x : BelSrc) : (s.setBelSrc n x).cat = s.cat := rfl
@[simp] theorem State.setBelSrc_bind (n : Nat) (x : BelSrc) : (s.setBelSrc n x).bind = s.bind := rfl
@[simp] theorem State.setBelSrc_shelves (n : Nat) (x : BelSrc) : (s.setBelSrc n x).shelves = s.shelves := rfl
@[simp] theorem State.setBelSrc_kpr (n : Nat) (x : BelSrc) : (s.setBelSrc n x).kpr = s.kpr := rfl
@[simp] theorem State.setBelSrc_iln (n : Nat) (x : BelSrc) : (s.setBelSrc n x).iln = s.iln := rfl
@[simp] theorem State.setBelSrc_crl (n : Nat) (x : BelSrc) : (s.setBelSrc n x).crl = s.crl := rfl
@[simp] theorem State.setBelSrc_ldg (n : Nat) (x : BelSrc) : (s.setBelSrc n x).ldg = s.ldg := rfl
@[simp] theorem State.setBelSrc_pwr (n : Nat) (x : BelSrc) : (s.setBelSrc n x).pwr = s.pwr := rfl
@[simp] theorem State.setBelSrc_obs (n : Nat) (x : BelSrc) : (s.setBelSrc n x).obs = s.obs := rfl
@[simp] theorem State.setBelSrc_hostOut (n : Nat) (x : BelSrc) : (s.setBelSrc n x).hostOut = s.hostOut := rfl

@[simp] theorem State.alert_pending (bit : Nat) : (s.alert bit).pending = s.pending := rfl
@[simp] theorem State.alert_freeCtr (bit : Nat) : (s.alert bit).freeCtr = s.freeCtr := rfl
@[simp] theorem State.alert_rf (bit : Nat) : (s.alert bit).rf = s.rf := rfl
@[simp] theorem State.alert_mem (bit : Nat) : (s.alert bit).mem = s.mem := rfl
@[simp] theorem State.alert_ecc (bit : Nat) : (s.alert bit).ecc = s.ecc := rfl
@[simp] theorem State.alert_curMem (bit : Nat) : (s.alert bit).curMem = s.curMem := rfl
@[simp] theorem State.alert_pins (bit : Nat) : (s.alert bit).pins = s.pins := rfl
@[simp] theorem State.alert_tap (bit : Nat) : (s.alert bit).tap = s.tap := rfl
@[simp] theorem State.alert_ss (bit : Nat) : (s.alert bit).ss = s.ss := rfl
@[simp] theorem State.alert_boot (bit : Nat) : (s.alert bit).boot = s.boot := rfl
@[simp] theorem State.alert_stp (bit : Nat) : (s.alert bit).stp = s.stp := rfl
@[simp] theorem State.alert_cir (bit : Nat) : (s.alert bit).cir = s.cir := rfl
@[simp] theorem State.alert_cat (bit : Nat) : (s.alert bit).cat = s.cat := rfl
@[simp] theorem State.alert_bind (bit : Nat) : (s.alert bit).bind = s.bind := rfl
@[simp] theorem State.alert_shelves (bit : Nat) : (s.alert bit).shelves = s.shelves := rfl
@[simp] theorem State.alert_kpr (bit : Nat) : (s.alert bit).kpr = s.kpr := rfl
@[simp] theorem State.alert_iln (bit : Nat) : (s.alert bit).iln = s.iln := rfl
@[simp] theorem State.alert_crl (bit : Nat) : (s.alert bit).crl = s.crl := rfl
@[simp] theorem State.alert_bel (bit : Nat) : (s.alert bit).bel = s.bel := rfl
@[simp] theorem State.alert_ldg (bit : Nat) : (s.alert bit).ldg = s.ldg := rfl
@[simp] theorem State.alert_pwr (bit : Nat) : (s.alert bit).pwr = s.pwr := rfl
@[simp] theorem State.alert_obs (bit : Nat) : (s.alert bit).obs = s.obs := rfl
@[simp] theorem State.alert_hostOut (bit : Nat) : (s.alert bit).hostOut = s.hostOut := rfl

/-! ## Registers after an update -/

/-- A register reads what was written to it. -/
@[simp] theorem State.reg_setReg_self (off : Nat) (v : Word) : (s.setReg off v).reg off = v := Tab.getD_put_self ..

/-- The other registers read as before. -/
theorem State.reg_setReg_of_ne {off o : Nat} (v : Word) (h : o ≠ off) : (s.setReg off v).reg o = s.reg o :=
  Tab.getD_put_of_ne s.rf v (regReset off) (regReset o) h

theorem State.otherRegs_setReg (off : Nat) (v : Word) : OtherRegs off s (s.setReg off v) := fun _ h => s.reg_setReg_of_ne v h

/-- A field reads what was written to it, cut to its width. -/
theorem State.field_setField_self (off lo width v : Nat) (h : lo + width ≤ 64) :
    (s.setField off lo width v).field off lo width = v % 2 ^ width := by
  unfold State.field State.setField
  rw [State.reg_setReg_self, fld_setFld _ _ _ _ h]

/-- A field that lies elsewhere in the register reads as before. -/
theorem State.field_setField_of_disjoint (off lo width v lo' width' : Nat) (h : lo + width ≤ 64)
    (hd : lo' + width' ≤ lo ∨ lo + width ≤ lo') : (s.setField off lo width v).field off lo' width' = s.field off lo' width' := by
  unfold State.field State.setField
  rw [State.reg_setReg_self, fld_setFld_of_disjoint _ _ _ _ _ _ h hd]

theorem State.field_setReg_of_ne {off o : Nat} (v : Word) (lo width : Nat) (h : o ≠ off) :
    (s.setReg off v).field o lo width = s.field o lo width := by
  unfold State.field
  rw [State.reg_setReg_of_ne _ _ h]

theorem State.field_setField_of_ne {off o : Nat} (lo width v lo' width' : Nat) (h : o ≠ off) :
    (s.setField off lo width v).field o lo' width' = s.field o lo' width' := s.field_setReg_of_ne _ _ _ h

/-- A bit reads what was written to it. -/
theorem State.regBit_setRegBit_self (off i : Nat) (b : Bool) (h : i < 64) : (s.setRegBit off i b).regBit off i = b := by
  unfold State.regBit State.setRegBit
  rw [State.reg_setReg_self, bitAt_setBitAt _ _ _ h]

theorem State.regBit_setReg_of_ne {off o : Nat} (v : Word) (i : Nat) (h : o ≠ off) : (s.setReg off v).regBit o i = s.regBit o i := by
  unfold State.regBit
  rw [State.reg_setReg_of_ne _ _ h]

/-! ## Shelves and Bell sources -/

@[simp] theorem State.shelf_setShelf_self (sh : Nat) (x : Shelf) : (s.setShelf sh x).shelf sh = x := Tab.getD_put_self ..

theorem State.shelf_setShelf_of_ne {sh k : Nat} (x : Shelf) (h : k ≠ sh) : (s.setShelf sh x).shelf k = s.shelf k :=
  Tab.getD_put_of_ne s.shelves x Shelf.idle Shelf.idle h

@[simp] theorem State.belSrc_setBelSrc_self (n : Nat) (x : BelSrc) : (s.setBelSrc n x).belSrc n = x := Tab.getD_put_self ..

theorem State.belSrc_setBelSrc_of_ne {n k : Nat} (x : BelSrc) (h : k ≠ n) : (s.setBelSrc n x).belSrc k = s.belSrc k :=
  Tab.getD_put_of_ne s.bel.srcs x BelSrc.rest BelSrc.rest h

end Sys2Proof.Machine
end

