-- ==== Sys2Proof/Laws/Ops.lean ====
section
/-! SUPPORT. What the shared operations leave as it was: one line for each component that the operation's frame does not name. -/

namespace Sys2Proof.Machine

variable (s : State)


/-! State.send -/

theorem State.send_onlyIn (a1 : LMsg) : OnlyIn [.rf, .ldg] s (State.send s a1) :=
  Eff.onlyIn (State.send_eff (F := fun c => decide (c ∈ [.rf, .ldg])) (.refl _ s) rfl rfl a1)
@[simp] theorem State.send_pending (a1 : LMsg) : (State.send s a1).pending = s.pending := (State.send_onlyIn s a1).1
@[simp] theorem State.send_freeCtr (a1 : LMsg) : (State.send s a1).freeCtr = s.freeCtr := (State.send_onlyIn s a1).2 .freeCtr (by decide)
@[simp] theorem State.send_mem (a1 : LMsg) : (State.send s a1).mem = s.mem := (State.send_onlyIn s a1).2 .mem (by decide)
@[simp] theorem State.send_ecc (a1 : LMsg) : (State.send s a1).ecc = s.ecc := (State.send_onlyIn s a1).2 .ecc (by decide)
@[simp] theorem State.send_curMem (a1 : LMsg) : (State.send s a1).curMem = s.curMem := (State.send_onlyIn s a1).2 .curMem (by decide)
@[simp] theorem State.send_pins (a1 : LMsg) : (State.send s a1).pins = s.pins := (State.send_onlyIn s a1).2 .pins (by decide)
@[simp] theorem State.send_tap (a1 : LMsg) : (State.send s a1).tap = s.tap := (State.send_onlyIn s a1).2 .tap (by decide)
@[simp] theorem State.send_smb (a1 : LMsg) : (State.send s a1).smb = s.smb := (State.send_onlyIn s a1).2 .smb (by decide)
@[simp] theorem State.send_ss (a1 : LMsg) : (State.send s a1).ss = s.ss := (State.send_onlyIn s a1).2 .ss (by decide)
@[simp] theorem State.send_boot (a1 : LMsg) : (State.send s a1).boot = s.boot := (State.send_onlyIn s a1).2 .boot (by decide)
@[simp] theorem State.send_stp (a1 : LMsg) : (State.send s a1).stp = s.stp := (State.send_onlyIn s a1).2 .stp (by decide)
@[simp] theorem State.send_cir (a1 : LMsg) : (State.send s a1).cir = s.cir := (State.send_onlyIn s a1).2 .cir (by decide)
@[simp] theorem State.send_cat (a1 : LMsg) : (State.send s a1).cat = s.cat := (State.send_onlyIn s a1).2 .cat (by decide)
@[simp] theorem State.send_bind (a1 : LMsg) : (State.send s a1).bind = s.bind := (State.send_onlyIn s a1).2 .bind (by decide)
@[simp] theorem State.send_shelves (a1 : LMsg) : (State.send s a1).shelves = s.shelves := (State.send_onlyIn s a1).2 .shelves (by decide)
@[simp] theorem State.send_kpr (a1 : LMsg) : (State.send s a1).kpr = s.kpr := (State.send_onlyIn s a1).2 .kpr (by decide)
@[simp] theorem State.send_iln (a1 : LMsg) : (State.send s a1).iln = s.iln := (State.send_onlyIn s a1).2 .iln (by decide)
@[simp] theorem State.send_crl (a1 : LMsg) : (State.send s a1).crl = s.crl := (State.send_onlyIn s a1).2 .crl (by decide)
@[simp] theorem State.send_bel (a1 : LMsg) : (State.send s a1).bel = s.bel := (State.send_onlyIn s a1).2 .bel (by decide)
@[simp] theorem State.send_pwr (a1 : LMsg) : (State.send s a1).pwr = s.pwr := (State.send_onlyIn s a1).2 .pwr (by decide)
@[simp] theorem State.send_obs (a1 : LMsg) : (State.send s a1).obs = s.obs := (State.send_onlyIn s a1).2 .obs (by decide)
@[simp] theorem State.send_hostOut (a1 : LMsg) : (State.send s a1).hostOut = s.hostOut := (State.send_onlyIn s a1).2 .hostOut (by decide)

/-! State.log -/

theorem State.log_onlyIn (a1 : Nat) (a2 : Kind) (a3 : optParam Nat 0) (a4 : optParam Nat 0) (a5 : optParam Nat 0) (a6 : optParam Nat 0) (a7 : optParam (Option Word) none) : OnlyIn [.rf, .ldg] s (State.log s a1 a2 a3 a4 a5 a6 a7) :=
  Eff.onlyIn (State.log_eff (F := fun c => decide (c ∈ [.rf, .ldg])) (.refl _ s) rfl rfl a1 a2 a3 a4 a5 a6 a7)
@[simp] theorem State.log_pending (a1 : Nat) (a2 : Kind) (a3 : optParam Nat 0) (a4 : optParam Nat 0) (a5 : optParam Nat 0) (a6 : optParam Nat 0) (a7 : optParam (Option Word) none) : (State.log s a1 a2 a3 a4 a5 a6 a7).pending = s.pending := (State.log_onlyIn s a1 a2 a3 a4 a5 a6 a7).1
@[simp] theorem State.log_freeCtr (a1 : Nat) (a2 : Kind) (a3 : optParam Nat 0) (a4 : optParam Nat 0) (a5 : optParam Nat 0) (a6 : optParam Nat 0) (a7 : optParam (Option Word) none) : (State.log s a1 a2 a3 a4 a5 a6 a7).freeCtr = s.freeCtr := (State.log_onlyIn s a1 a2 a3 a4 a5 a6 a7).2 .freeCtr (by decide)
@[simp] theorem State.log_mem (a1 : Nat) (a2 : Kind) (a3 : optParam Nat 0) (a4 : optParam Nat 0) (a5 : optParam Nat 0) (a6 : optParam Nat 0) (a7 : optParam (Option Word) none) : (State.log s a1 a2 a3 a4 a5 a6 a7).mem = s.mem := (State.log_onlyIn s a1 a2 a3 a4 a5 a6 a7).2 .mem (by decide)
@[simp] theorem State.log_ecc (a1 : Nat) (a2 : Kind) (a3 : optParam Nat 0) (a4 : optParam Nat 0) (a5 : optParam Nat 0) (a6 : optParam Nat 0) (a7 : optParam (Option Word) none) : (State.log s a1 a2 a3 a4 a5 a6 a7).ecc = s.ecc := (State.log_onlyIn s a1 a2 a3 a4 a5 a6 a7).2 .ecc (by decide)
@[simp] theorem State.log_curMem (a1 : Nat) (a2 : Kind) (a3 : optParam Nat 0) (a4 : optParam Nat 0) (a5 : optParam Nat 0) (a6 : optParam Nat 0) (a7 : optParam (Option Word) none) : (State.log s a1 a2 a3 a4 a5 a6 a7).curMem = s.curMem := (State.log_onlyIn s a1 a2 a3 a4 a5 a6 a7).2 .curMem (by decide)
@[simp] theorem State.log_pins (a1 : Nat) (a2 : Kind) (a3 : optParam Nat 0) (a4 : optParam Nat 0) (a5 : optParam Nat 0) (a6 : optParam Nat 0) (a7 : optParam (Option Word) none) : (State.log s a1 a2 a3 a4 a5 a6 a7).pins = s.pins := (State.log_onlyIn s a1 a2 a3 a4 a5 a6 a7).2 .pins (by decide)
@[simp] theorem State.log_tap (a1 : Nat) (a2 : Kind) (a3 : optParam Nat 0) (a4 : optParam Nat 0) (a5 : optParam Nat 0) (a6 : optParam Nat 0) (a7 : optParam (Option Word) none) : (State.log s a1 a2 a3 a4 a5 a6 a7).tap = s.tap := (State.log_onlyIn s a1 a2 a3 a4 a5 a6 a7).2 .tap (by decide)
@[simp] theorem State.log_smb (a1 : Nat) (a2 : Kind) (a3 : optParam Nat 0) (a4 : optParam Nat 0) (a5 : optParam Nat 0) (a6 : optParam Nat 0) (a7 : optParam (Option Word) none) : (State.log s a1 a2 a3 a4 a5 a6 a7).smb = s.smb := (State.log_onlyIn s a1 a2 a3 a4 a5 a6 a7).2 .smb (by decide)
@[simp] theorem State.log_ss (a1 : Nat) (a2 : Kind) (a3 : optParam Nat 0) (a4 : optParam Nat 0) (a5 : optParam Nat 0) (a6 : optParam Nat 0) (a7 : optParam (Option Word) none) : (State.log s a1 a2 a3 a4 a5 a6 a7).ss = s.ss := (State.log_onlyIn s a1 a2 a3 a4 a5 a6 a7).2 .ss (by decide)
@[simp] theorem State.log_boot (a1 : Nat) (a2 : Kind) (a3 : optParam Nat 0) (a4 : optParam Nat 0) (a5 : optParam Nat 0) (a6 : optParam Nat 0) (a7 : optParam (Option Word) none) : (State.log s a1 a2 a3 a4 a5 a6 a7).boot = s.boot := (State.log_onlyIn s a1 a2 a3 a4 a5 a6 a7).2 .boot (by decide)
@[simp] theorem State.log_stp (a1 : Nat) (a2 : Kind) (a3 : optParam Nat 0) (a4 : optParam Nat 0) (a5 : optParam Nat 0) (a6 : optParam Nat 0) (a7 : optParam (Option Word) none) : (State.log s a1 a2 a3 a4 a5 a6 a7).stp = s.stp := (State.log_onlyIn s a1 a2 a3 a4 a5 a6 a7).2 .stp (by decide)
@[simp] theorem State.log_cir (a1 : Nat) (a2 : Kind) (a3 : optParam Nat 0) (a4 : optParam Nat 0) (a5 : optParam Nat 0) (a6 : optParam Nat 0) (a7 : optParam (Option Word) none) : (State.log s a1 a2 a3 a4 a5 a6 a7).cir = s.cir := (State.log_onlyIn s a1 a2 a3 a4 a5 a6 a7).2 .cir (by decide)
@[simp] theorem State.log_cat (a1 : Nat) (a2 : Kind) (a3 : optParam Nat 0) (a4 : optParam Nat 0) (a5 : optParam Nat 0) (a6 : optParam Nat 0) (a7 : optParam (Option Word) none) : (State.log s a1 a2 a3 a4 a5 a6 a7).cat = s.cat := (State.log_onlyIn s a1 a2 a3 a4 a5 a6 a7).2 .cat (by decide)
@[simp] theorem State.log_bind (a1 : Nat) (a2 : Kind) (a3 : optParam Nat 0) (a4 : optParam Nat 0) (a5 : optParam Nat 0) (a6 : optParam Nat 0) (a7 : optParam (Option Word) none) : (State.log s a1 a2 a3 a4 a5 a6 a7).bind = s.bind := (State.log_onlyIn s a1 a2 a3 a4 a5 a6 a7).2 .bind (by decide)
@[simp] theorem State.log_shelves (a1 : Nat) (a2 : Kind) (a3 : optParam Nat 0) (a4 : optParam Nat 0) (a5 : optParam Nat 0) (a6 : optParam Nat 0) (a7 : optParam (Option Word) none) : (State.log s a1 a2 a3 a4 a5 a6 a7).shelves = s.shelves := (State.log_onlyIn s a1 a2 a3 a4 a5 a6 a7).2 .shelves (by decide)
@[simp] theorem State.log_kpr (a1 : Nat) (a2 : Kind) (a3 : optParam Nat 0) (a4 : optParam Nat 0) (a5 : optParam Nat 0) (a6 : optParam Nat 0) (a7 : optParam (Option Word) none) : (State.log s a1 a2 a3 a4 a5 a6 a7).kpr = s.kpr := (State.log_onlyIn s a1 a2 a3 a4 a5 a6 a7).2 .kpr (by decide)
@[simp] theorem State.log_iln (a1 : Nat) (a2 : Kind) (a3 : optParam Nat 0) (a4 : optParam Nat 0) (a5 : optParam Nat 0) (a6 : optParam Nat 0) (a7 : optParam (Option Word) none) : (State.log s a1 a2 a3 a4 a5 a6 a7).iln = s.iln := (State.log_onlyIn s a1 a2 a3 a4 a5 a6 a7).2 .iln (by decide)
@[simp] theorem State.log_crl (a1 : Nat) (a2 : Kind) (a3 : optParam Nat 0) (a4 : optParam Nat 0) (a5 : optParam Nat 0) (a6 : optParam Nat 0) (a7 : optParam (Option Word) none) : (State.log s a1 a2 a3 a4 a5 a6 a7).crl = s.crl := (State.log_onlyIn s a1 a2 a3 a4 a5 a6 a7).2 .crl (by decide)
@[simp] theorem State.log_bel (a1 : Nat) (a2 : Kind) (a3 : optParam Nat 0) (a4 : optParam Nat 0) (a5 : optParam Nat 0) (a6 : optParam Nat 0) (a7 : optParam (Option Word) none) : (State.log s a1 a2 a3 a4 a5 a6 a7).bel = s.bel := (State.log_onlyIn s a1 a2 a3 a4 a5 a6 a7).2 .bel (by decide)
@[simp] theorem State.log_pwr (a1 : Nat) (a2 : Kind) (a3 : optParam Nat 0) (a4 : optParam Nat 0) (a5 : optParam Nat 0) (a6 : optParam Nat 0) (a7 : optParam (Option Word) none) : (State.log s a1 a2 a3 a4 a5 a6 a7).pwr = s.pwr := (State.log_onlyIn s a1 a2 a3 a4 a5 a6 a7).2 .pwr (by decide)
@[simp] theorem State.log_obs (a1 : Nat) (a2 : Kind) (a3 : optParam Nat 0) (a4 : optParam Nat 0) (a5 : optParam Nat 0) (a6 : optParam Nat 0) (a7 : optParam (Option Word) none) : (State.log s a1 a2 a3 a4 a5 a6 a7).obs = s.obs := (State.log_onlyIn s a1 a2 a3 a4 a5 a6 a7).2 .obs (by decide)
@[simp] theorem State.log_hostOut (a1 : Nat) (a2 : Kind) (a3 : optParam Nat 0) (a4 : optParam Nat 0) (a5 : optParam Nat 0) (a6 : optParam Nat 0) (a7 : optParam (Option Word) none) : (State.log s a1 a2 a3 a4 a5 a6 a7).hostOut = s.hostOut := (State.log_onlyIn s a1 a2 a3 a4 a5 a6 a7).2 .hostOut (by decide)

/-! State.bell -/

theorem State.bell_onlyIn (a1 : Nat) (a2 : optParam Bool false) : OnlyIn [.bel] s (State.bell s a1 a2) :=
  Eff.onlyIn (State.bell_eff (F := fun c => decide (c ∈ [.bel])) (.refl _ s) rfl a1 a2)
@[simp] theorem State.bell_pending (a1 : Nat) (a2 : optParam Bool false) : (State.bell s a1 a2).pending = s.pending := (State.bell_onlyIn s a1 a2).1
@[simp] theorem State.bell_freeCtr (a1 : Nat) (a2 : optParam Bool false) : (State.bell s a1 a2).freeCtr = s.freeCtr := (State.bell_onlyIn s a1 a2).2 .freeCtr (by decide)
@[simp] theorem State.bell_rf (a1 : Nat) (a2 : optParam Bool false) : (State.bell s a1 a2).rf = s.rf := (State.bell_onlyIn s a1 a2).2 .rf (by decide)
@[simp] theorem State.bell_mem (a1 : Nat) (a2 : optParam Bool false) : (State.bell s a1 a2).mem = s.mem := (State.bell_onlyIn s a1 a2).2 .mem (by decide)
@[simp] theorem State.bell_ecc (a1 : Nat) (a2 : optParam Bool false) : (State.bell s a1 a2).ecc = s.ecc := (State.bell_onlyIn s a1 a2).2 .ecc (by decide)
@[simp] theorem State.bell_curMem (a1 : Nat) (a2 : optParam Bool false) : (State.bell s a1 a2).curMem = s.curMem := (State.bell_onlyIn s a1 a2).2 .curMem (by decide)
@[simp] theorem State.bell_pins (a1 : Nat) (a2 : optParam Bool false) : (State.bell s a1 a2).pins = s.pins := (State.bell_onlyIn s a1 a2).2 .pins (by decide)
@[simp] theorem State.bell_tap (a1 : Nat) (a2 : optParam Bool false) : (State.bell s a1 a2).tap = s.tap := (State.bell_onlyIn s a1 a2).2 .tap (by decide)
@[simp] theorem State.bell_smb (a1 : Nat) (a2 : optParam Bool false) : (State.bell s a1 a2).smb = s.smb := (State.bell_onlyIn s a1 a2).2 .smb (by decide)
@[simp] theorem State.bell_ss (a1 : Nat) (a2 : optParam Bool false) : (State.bell s a1 a2).ss = s.ss := (State.bell_onlyIn s a1 a2).2 .ss (by decide)
@[simp] theorem State.bell_boot (a1 : Nat) (a2 : optParam Bool false) : (State.bell s a1 a2).boot = s.boot := (State.bell_onlyIn s a1 a2).2 .boot (by decide)
@[simp] theorem State.bell_stp (a1 : Nat) (a2 : optParam Bool false) : (State.bell s a1 a2).stp = s.stp := (State.bell_onlyIn s a1 a2).2 .stp (by decide)
@[simp] theorem State.bell_cir (a1 : Nat) (a2 : optParam Bool false) : (State.bell s a1 a2).cir = s.cir := (State.bell_onlyIn s a1 a2).2 .cir (by decide)
@[simp] theorem State.bell_cat (a1 : Nat) (a2 : optParam Bool false) : (State.bell s a1 a2).cat = s.cat := (State.bell_onlyIn s a1 a2).2 .cat (by decide)
@[simp] theorem State.bell_bind (a1 : Nat) (a2 : optParam Bool false) : (State.bell s a1 a2).bind = s.bind := (State.bell_onlyIn s a1 a2).2 .bind (by decide)
@[simp] theorem State.bell_shelves (a1 : Nat) (a2 : optParam Bool false) : (State.bell s a1 a2).shelves = s.shelves := (State.bell_onlyIn s a1 a2).2 .shelves (by decide)
@[simp] theorem State.bell_kpr (a1 : Nat) (a2 : optParam Bool false) : (State.bell s a1 a2).kpr = s.kpr := (State.bell_onlyIn s a1 a2).2 .kpr (by decide)
@[simp] theorem State.bell_iln (a1 : Nat) (a2 : optParam Bool false) : (State.bell s a1 a2).iln = s.iln := (State.bell_onlyIn s a1 a2).2 .iln (by decide)
@[simp] theorem State.bell_crl (a1 : Nat) (a2 : optParam Bool false) : (State.bell s a1 a2).crl = s.crl := (State.bell_onlyIn s a1 a2).2 .crl (by decide)
@[simp] theorem State.bell_ldg (a1 : Nat) (a2 : optParam Bool false) : (State.bell s a1 a2).ldg = s.ldg := (State.bell_onlyIn s a1 a2).2 .ldg (by decide)
@[simp] theorem State.bell_pwr (a1 : Nat) (a2 : optParam Bool false) : (State.bell s a1 a2).pwr = s.pwr := (State.bell_onlyIn s a1 a2).2 .pwr (by decide)
@[simp] theorem State.bell_obs (a1 : Nat) (a2 : optParam Bool false) : (State.bell s a1 a2).obs = s.obs := (State.bell_onlyIn s a1 a2).2 .obs (by decide)
@[simp] theorem State.bell_hostOut (a1 : Nat) (a2 : optParam Bool false) : (State.bell s a1 a2).hostOut = s.hostOut := (State.bell_onlyIn s a1 a2).2 .hostOut (by decide)

/-! State.belWake -/

theorem State.belWake_onlyIn  : OnlyIn [.bel] s (State.belWake s) :=
  Eff.onlyIn (State.belWake_eff (F := fun c => decide (c ∈ [.bel])) (.refl _ s) rfl)
@[simp] theorem State.belWake_pending  : (State.belWake s).pending = s.pending := (State.belWake_onlyIn s ).1
@[simp] theorem State.belWake_freeCtr  : (State.belWake s).freeCtr = s.freeCtr := (State.belWake_onlyIn s ).2 .freeCtr (by decide)
@[simp] theorem State.belWake_rf  : (State.belWake s).rf = s.rf := (State.belWake_onlyIn s ).2 .rf (by decide)
@[simp] theorem State.belWake_mem  : (State.belWake s).mem = s.mem := (State.belWake_onlyIn s ).2 .mem (by decide)
@[simp] theorem State.belWake_ecc  : (State.belWake s).ecc = s.ecc := (State.belWake_onlyIn s ).2 .ecc (by decide)
@[simp] theorem State.belWake_curMem  : (State.belWake s).curMem = s.curMem := (State.belWake_onlyIn s ).2 .curMem (by decide)
@[simp] theorem State.belWake_pins  : (State.belWake s).pins = s.pins := (State.belWake_onlyIn s ).2 .pins (by decide)
@[simp] theorem State.belWake_tap  : (State.belWake s).tap = s.tap := (State.belWake_onlyIn s ).2 .tap (by decide)
@[simp] theorem State.belWake_smb  : (State.belWake s).smb = s.smb := (State.belWake_onlyIn s ).2 .smb (by decide)
@[simp] theorem State.belWake_ss  : (State.belWake s).ss = s.ss := (State.belWake_onlyIn s ).2 .ss (by decide)
@[simp] theorem State.belWake_boot  : (State.belWake s).boot = s.boot := (State.belWake_onlyIn s ).2 .boot (by decide)
@[simp] theorem State.belWake_stp  : (State.belWake s).stp = s.stp := (State.belWake_onlyIn s ).2 .stp (by decide)
@[simp] theorem State.belWake_cir  : (State.belWake s).cir = s.cir := (State.belWake_onlyIn s ).2 .cir (by decide)
@[simp] theorem State.belWake_cat  : (State.belWake s).cat = s.cat := (State.belWake_onlyIn s ).2 .cat (by decide)
@[simp] theorem State.belWake_bind  : (State.belWake s).bind = s.bind := (State.belWake_onlyIn s ).2 .bind (by decide)
@[simp] theorem State.belWake_shelves  : (State.belWake s).shelves = s.shelves := (State.belWake_onlyIn s ).2 .shelves (by decide)
@[simp] theorem State.belWake_kpr  : (State.belWake s).kpr = s.kpr := (State.belWake_onlyIn s ).2 .kpr (by decide)
@[simp] theorem State.belWake_iln  : (State.belWake s).iln = s.iln := (State.belWake_onlyIn s ).2 .iln (by decide)
@[simp] theorem State.belWake_crl  : (State.belWake s).crl = s.crl := (State.belWake_onlyIn s ).2 .crl (by decide)
@[simp] theorem State.belWake_ldg  : (State.belWake s).ldg = s.ldg := (State.belWake_onlyIn s ).2 .ldg (by decide)
@[simp] theorem State.belWake_pwr  : (State.belWake s).pwr = s.pwr := (State.belWake_onlyIn s ).2 .pwr (by decide)
@[simp] theorem State.belWake_obs  : (State.belWake s).obs = s.obs := (State.belWake_onlyIn s ).2 .obs (by decide)
@[simp] theorem State.belWake_hostOut  : (State.belWake s).hostOut = s.hostOut := (State.belWake_onlyIn s ).2 .hostOut (by decide)

/-! State.event -/

theorem State.event_onlyIn (a1 : Nat) (a2 : Word) : OnlyIn [.rf, .bel] s (State.event s a1 a2) :=
  Eff.onlyIn (State.event_eff (F := fun c => decide (c ∈ [.rf, .bel])) (.refl _ s) rfl rfl a1 a2)
@[simp] theorem State.event_pending (a1 : Nat) (a2 : Word) : (State.event s a1 a2).pending = s.pending := (State.event_onlyIn s a1 a2).1
@[simp] theorem State.event_freeCtr (a1 : Nat) (a2 : Word) : (State.event s a1 a2).freeCtr = s.freeCtr := (State.event_onlyIn s a1 a2).2 .freeCtr (by decide)
@[simp] theorem State.event_mem (a1 : Nat) (a2 : Word) : (State.event s a1 a2).mem = s.mem := (State.event_onlyIn s a1 a2).2 .mem (by decide)
@[simp] theorem State.event_ecc (a1 : Nat) (a2 : Word) : (State.event s a1 a2).ecc = s.ecc := (State.event_onlyIn s a1 a2).2 .ecc (by decide)
@[simp] theorem State.event_curMem (a1 : Nat) (a2 : Word) : (State.event s a1 a2).curMem = s.curMem := (State.event_onlyIn s a1 a2).2 .curMem (by decide)
@[simp] theorem State.event_pins (a1 : Nat) (a2 : Word) : (State.event s a1 a2).pins = s.pins := (State.event_onlyIn s a1 a2).2 .pins (by decide)
@[simp] theorem State.event_tap (a1 : Nat) (a2 : Word) : (State.event s a1 a2).tap = s.tap := (State.event_onlyIn s a1 a2).2 .tap (by decide)
@[simp] theorem State.event_smb (a1 : Nat) (a2 : Word) : (State.event s a1 a2).smb = s.smb := (State.event_onlyIn s a1 a2).2 .smb (by decide)
@[simp] theorem State.event_ss (a1 : Nat) (a2 : Word) : (State.event s a1 a2).ss = s.ss := (State.event_onlyIn s a1 a2).2 .ss (by decide)
@[simp] theorem State.event_boot (a1 : Nat) (a2 : Word) : (State.event s a1 a2).boot = s.boot := (State.event_onlyIn s a1 a2).2 .boot (by decide)
@[simp] theorem State.event_stp (a1 : Nat) (a2 : Word) : (State.event s a1 a2).stp = s.stp := (State.event_onlyIn s a1 a2).2 .stp (by decide)
@[simp] theorem State.event_cir (a1 : Nat) (a2 : Word) : (State.event s a1 a2).cir = s.cir := (State.event_onlyIn s a1 a2).2 .cir (by decide)
@[simp] theorem State.event_cat (a1 : Nat) (a2 : Word) : (State.event s a1 a2).cat = s.cat := (State.event_onlyIn s a1 a2).2 .cat (by decide)
@[simp] theorem State.event_bind (a1 : Nat) (a2 : Word) : (State.event s a1 a2).bind = s.bind := (State.event_onlyIn s a1 a2).2 .bind (by decide)
@[simp] theorem State.event_shelves (a1 : Nat) (a2 : Word) : (State.event s a1 a2).shelves = s.shelves := (State.event_onlyIn s a1 a2).2 .shelves (by decide)
@[simp] theorem State.event_kpr (a1 : Nat) (a2 : Word) : (State.event s a1 a2).kpr = s.kpr := (State.event_onlyIn s a1 a2).2 .kpr (by decide)
@[simp] theorem State.event_iln (a1 : Nat) (a2 : Word) : (State.event s a1 a2).iln = s.iln := (State.event_onlyIn s a1 a2).2 .iln (by decide)
@[simp] theorem State.event_crl (a1 : Nat) (a2 : Word) : (State.event s a1 a2).crl = s.crl := (State.event_onlyIn s a1 a2).2 .crl (by decide)
@[simp] theorem State.event_ldg (a1 : Nat) (a2 : Word) : (State.event s a1 a2).ldg = s.ldg := (State.event_onlyIn s a1 a2).2 .ldg (by decide)
@[simp] theorem State.event_pwr (a1 : Nat) (a2 : Word) : (State.event s a1 a2).pwr = s.pwr := (State.event_onlyIn s a1 a2).2 .pwr (by decide)
@[simp] theorem State.event_obs (a1 : Nat) (a2 : Word) : (State.event s a1 a2).obs = s.obs := (State.event_onlyIn s a1 a2).2 .obs (by decide)
@[simp] theorem State.event_hostOut (a1 : Nat) (a2 : Word) : (State.event s a1 a2).hostOut = s.hostOut := (State.event_onlyIn s a1 a2).2 .hostOut (by decide)

/-! State.hostWrite -/

theorem State.hostWrite_onlyIn (a1 : Nat) (a2 : Nat) (a3 : List Byte) (a4 : optParam HostFor HostFor.nobody) : OnlyIn [.iln, .hostOut] s (State.hostWrite s a1 a2 a3 a4) :=
  Eff.onlyIn (State.hostWrite_eff (F := fun c => decide (c ∈ [.iln, .hostOut])) (.refl _ s) rfl rfl a1 a2 a3 a4)
@[simp] theorem State.hostWrite_pending (a1 : Nat) (a2 : Nat) (a3 : List Byte) (a4 : optParam HostFor HostFor.nobody) : (State.hostWrite s a1 a2 a3 a4).pending = s.pending := (State.hostWrite_onlyIn s a1 a2 a3 a4).1
@[simp] theorem State.hostWrite_freeCtr (a1 : Nat) (a2 : Nat) (a3 : List Byte) (a4 : optParam HostFor HostFor.nobody) : (State.hostWrite s a1 a2 a3 a4).freeCtr = s.freeCtr := (State.hostWrite_onlyIn s a1 a2 a3 a4).2 .freeCtr (by decide)
@[simp] theorem State.hostWrite_rf (a1 : Nat) (a2 : Nat) (a3 : List Byte) (a4 : optParam HostFor HostFor.nobody) : (State.hostWrite s a1 a2 a3 a4).rf = s.rf := (State.hostWrite_onlyIn s a1 a2 a3 a4).2 .rf (by decide)
@[simp] theorem State.hostWrite_mem (a1 : Nat) (a2 : Nat) (a3 : List Byte) (a4 : optParam HostFor HostFor.nobody) : (State.hostWrite s a1 a2 a3 a4).mem = s.mem := (State.hostWrite_onlyIn s a1 a2 a3 a4).2 .mem (by decide)
@[simp] theorem State.hostWrite_ecc (a1 : Nat) (a2 : Nat) (a3 : List Byte) (a4 : optParam HostFor HostFor.nobody) : (State.hostWrite s a1 a2 a3 a4).ecc = s.ecc := (State.hostWrite_onlyIn s a1 a2 a3 a4).2 .ecc (by decide)
@[simp] theorem State.hostWrite_curMem (a1 : Nat) (a2 : Nat) (a3 : List Byte) (a4 : optParam HostFor HostFor.nobody) : (State.hostWrite s a1 a2 a3 a4).curMem = s.curMem := (State.hostWrite_onlyIn s a1 a2 a3 a4).2 .curMem (by decide)
@[simp] theorem State.hostWrite_pins (a1 : Nat) (a2 : Nat) (a3 : List Byte) (a4 : optParam HostFor HostFor.nobody) : (State.hostWrite s a1 a2 a3 a4).pins = s.pins := (State.hostWrite_onlyIn s a1 a2 a3 a4).2 .pins (by decide)
@[simp] theorem State.hostWrite_tap (a1 : Nat) (a2 : Nat) (a3 : List Byte) (a4 : optParam HostFor HostFor.nobody) : (State.hostWrite s a1 a2 a3 a4).tap = s.tap := (State.hostWrite_onlyIn s a1 a2 a3 a4).2 .tap (by decide)
@[simp] theorem State.hostWrite_smb (a1 : Nat) (a2 : Nat) (a3 : List Byte) (a4 : optParam HostFor HostFor.nobody) : (State.hostWrite s a1 a2 a3 a4).smb = s.smb := (State.hostWrite_onlyIn s a1 a2 a3 a4).2 .smb (by decide)
@[simp] theorem State.hostWrite_ss (a1 : Nat) (a2 : Nat) (a3 : List Byte) (a4 : optParam HostFor HostFor.nobody) : (State.hostWrite s a1 a2 a3 a4).ss = s.ss := (State.hostWrite_onlyIn s a1 a2 a3 a4).2 .ss (by decide)
@[simp] theorem State.hostWrite_boot (a1 : Nat) (a2 : Nat) (a3 : List Byte) (a4 : optParam HostFor HostFor.nobody) : (State.hostWrite s a1 a2 a3 a4).boot = s.boot := (State.hostWrite_onlyIn s a1 a2 a3 a4).2 .boot (by decide)
@[simp] theorem State.hostWrite_stp (a1 : Nat) (a2 : Nat) (a3 : List Byte) (a4 : optParam HostFor HostFor.nobody) : (State.hostWrite s a1 a2 a3 a4).stp = s.stp := (State.hostWrite_onlyIn s a1 a2 a3 a4).2 .stp (by decide)
@[simp] theorem State.hostWrite_cir (a1 : Nat) (a2 : Nat) (a3 : List Byte) (a4 : optParam HostFor HostFor.nobody) : (State.hostWrite s a1 a2 a3 a4).cir = s.cir := (State.hostWrite_onlyIn s a1 a2 a3 a4).2 .cir (by decide)
@[simp] theorem State.hostWrite_cat (a1 : Nat) (a2 : Nat) (a3 : List Byte) (a4 : optParam HostFor HostFor.nobody) : (State.hostWrite s a1 a2 a3 a4).cat = s.cat := (State.hostWrite_onlyIn s a1 a2 a3 a4).2 .cat (by decide)
@[simp] theorem State.hostWrite_bind (a1 : Nat) (a2 : Nat) (a3 : List Byte) (a4 : optParam HostFor HostFor.nobody) : (State.hostWrite s a1 a2 a3 a4).bind = s.bind := (State.hostWrite_onlyIn s a1 a2 a3 a4).2 .bind (by decide)
@[simp] theorem State.hostWrite_shelves (a1 : Nat) (a2 : Nat) (a3 : List Byte) (a4 : optParam HostFor HostFor.nobody) : (State.hostWrite s a1 a2 a3 a4).shelves = s.shelves := (State.hostWrite_onlyIn s a1 a2 a3 a4).2 .shelves (by decide)
@[simp] theorem State.hostWrite_kpr (a1 : Nat) (a2 : Nat) (a3 : List Byte) (a4 : optParam HostFor HostFor.nobody) : (State.hostWrite s a1 a2 a3 a4).kpr = s.kpr := (State.hostWrite_onlyIn s a1 a2 a3 a4).2 .kpr (by decide)
@[simp] theorem State.hostWrite_crl (a1 : Nat) (a2 : Nat) (a3 : List Byte) (a4 : optParam HostFor HostFor.nobody) : (State.hostWrite s a1 a2 a3 a4).crl = s.crl := (State.hostWrite_onlyIn s a1 a2 a3 a4).2 .crl (by decide)
@[simp] theorem State.hostWrite_bel (a1 : Nat) (a2 : Nat) (a3 : List Byte) (a4 : optParam HostFor HostFor.nobody) : (State.hostWrite s a1 a2 a3 a4).bel = s.bel := (State.hostWrite_onlyIn s a1 a2 a3 a4).2 .bel (by decide)
@[simp] theorem State.hostWrite_ldg (a1 : Nat) (a2 : Nat) (a3 : List Byte) (a4 : optParam HostFor HostFor.nobody) : (State.hostWrite s a1 a2 a3 a4).ldg = s.ldg := (State.hostWrite_onlyIn s a1 a2 a3 a4).2 .ldg (by decide)
@[simp] theorem State.hostWrite_pwr (a1 : Nat) (a2 : Nat) (a3 : List Byte) (a4 : optParam HostFor HostFor.nobody) : (State.hostWrite s a1 a2 a3 a4).pwr = s.pwr := (State.hostWrite_onlyIn s a1 a2 a3 a4).2 .pwr (by decide)
@[simp] theorem State.hostWrite_obs (a1 : Nat) (a2 : Nat) (a3 : List Byte) (a4 : optParam HostFor HostFor.nobody) : (State.hostWrite s a1 a2 a3 a4).obs = s.obs := (State.hostWrite_onlyIn s a1 a2 a3 a4).2 .obs (by decide)

/-! State.startHush -/

theorem State.startHush_onlyIn (a1 : Nat) (a2 : optParam Nat 0) : OnlyIn [.rf, .obs] s (State.startHush s a1 a2) :=
  Eff.onlyIn (State.startHush_eff (F := fun c => decide (c ∈ [.rf, .obs])) (.refl _ s) rfl rfl a1 a2)
@[simp] theorem State.startHush_pending (a1 : Nat) (a2 : optParam Nat 0) : (State.startHush s a1 a2).pending = s.pending := (State.startHush_onlyIn s a1 a2).1
@[simp] theorem State.startHush_freeCtr (a1 : Nat) (a2 : optParam Nat 0) : (State.startHush s a1 a2).freeCtr = s.freeCtr := (State.startHush_onlyIn s a1 a2).2 .freeCtr (by decide)
@[simp] theorem State.startHush_mem (a1 : Nat) (a2 : optParam Nat 0) : (State.startHush s a1 a2).mem = s.mem := (State.startHush_onlyIn s a1 a2).2 .mem (by decide)
@[simp] theorem State.startHush_ecc (a1 : Nat) (a2 : optParam Nat 0) : (State.startHush s a1 a2).ecc = s.ecc := (State.startHush_onlyIn s a1 a2).2 .ecc (by decide)
@[simp] theorem State.startHush_curMem (a1 : Nat) (a2 : optParam Nat 0) : (State.startHush s a1 a2).curMem = s.curMem := (State.startHush_onlyIn s a1 a2).2 .curMem (by decide)
@[simp] theorem State.startHush_pins (a1 : Nat) (a2 : optParam Nat 0) : (State.startHush s a1 a2).pins = s.pins := (State.startHush_onlyIn s a1 a2).2 .pins (by decide)
@[simp] theorem State.startHush_tap (a1 : Nat) (a2 : optParam Nat 0) : (State.startHush s a1 a2).tap = s.tap := (State.startHush_onlyIn s a1 a2).2 .tap (by decide)
@[simp] theorem State.startHush_smb (a1 : Nat) (a2 : optParam Nat 0) : (State.startHush s a1 a2).smb = s.smb := (State.startHush_onlyIn s a1 a2).2 .smb (by decide)
@[simp] theorem State.startHush_ss (a1 : Nat) (a2 : optParam Nat 0) : (State.startHush s a1 a2).ss = s.ss := (State.startHush_onlyIn s a1 a2).2 .ss (by decide)
@[simp] theorem State.startHush_boot (a1 : Nat) (a2 : optParam Nat 0) : (State.startHush s a1 a2).boot = s.boot := (State.startHush_onlyIn s a1 a2).2 .boot (by decide)
@[simp] theorem State.startHush_stp (a1 : Nat) (a2 : optParam Nat 0) : (State.startHush s a1 a2).stp = s.stp := (State.startHush_onlyIn s a1 a2).2 .stp (by decide)
@[simp] theorem State.startHush_cir (a1 : Nat) (a2 : optParam Nat 0) : (State.startHush s a1 a2).cir = s.cir := (State.startHush_onlyIn s a1 a2).2 .cir (by decide)
@[simp] theorem State.startHush_cat (a1 : Nat) (a2 : optParam Nat 0) : (State.startHush s a1 a2).cat = s.cat := (State.startHush_onlyIn s a1 a2).2 .cat (by decide)
@[simp] theorem State.startHush_bind (a1 : Nat) (a2 : optParam Nat 0) : (State.startHush s a1 a2).bind = s.bind := (State.startHush_onlyIn s a1 a2).2 .bind (by decide)
@[simp] theorem State.startHush_shelves (a1 : Nat) (a2 : optParam Nat 0) : (State.startHush s a1 a2).shelves = s.shelves := (State.startHush_onlyIn s a1 a2).2 .shelves (by decide)
@[simp] theorem State.startHush_kpr (a1 : Nat) (a2 : optParam Nat 0) : (State.startHush s a1 a2).kpr = s.kpr := (State.startHush_onlyIn s a1 a2).2 .kpr (by decide)
@[simp] theorem State.startHush_iln (a1 : Nat) (a2 : optParam Nat 0) : (State.startHush s a1 a2).iln = s.iln := (State.startHush_onlyIn s a1 a2).2 .iln (by decide)
@[simp] theorem State.startHush_crl (a1 : Nat) (a2 : optParam Nat 0) : (State.startHush s a1 a2).crl = s.crl := (State.startHush_onlyIn s a1 a2).2 .crl (by decide)
@[simp] theorem State.startHush_bel (a1 : Nat) (a2 : optParam Nat 0) : (State.startHush s a1 a2).bel = s.bel := (State.startHush_onlyIn s a1 a2).2 .bel (by decide)
@[simp] theorem State.startHush_ldg (a1 : Nat) (a2 : optParam Nat 0) : (State.startHush s a1 a2).ldg = s.ldg := (State.startHush_onlyIn s a1 a2).2 .ldg (by decide)
@[simp] theorem State.startHush_pwr (a1 : Nat) (a2 : optParam Nat 0) : (State.startHush s a1 a2).pwr = s.pwr := (State.startHush_onlyIn s a1 a2).2 .pwr (by decide)
@[simp] theorem State.startHush_hostOut (a1 : Nat) (a2 : optParam Nat 0) : (State.startHush s a1 a2).hostOut = s.hostOut := (State.startHush_onlyIn s a1 a2).2 .hostOut (by decide)

/-! State.ldgCount -/

theorem State.ldgCount_onlyIn (a1 : Nat) : OnlyIn [.rf] s (State.ldgCount s a1) :=
  Eff.onlyIn (State.ldgCount_eff (F := fun c => decide (c ∈ [.rf])) (.refl _ s) rfl a1)
@[simp] theorem State.ldgCount_pending (a1 : Nat) : (State.ldgCount s a1).pending = s.pending := (State.ldgCount_onlyIn s a1).1
@[simp] theorem State.ldgCount_freeCtr (a1 : Nat) : (State.ldgCount s a1).freeCtr = s.freeCtr := (State.ldgCount_onlyIn s a1).2 .freeCtr (by decide)
@[simp] theorem State.ldgCount_mem (a1 : Nat) : (State.ldgCount s a1).mem = s.mem := (State.ldgCount_onlyIn s a1).2 .mem (by decide)
@[simp] theorem State.ldgCount_ecc (a1 : Nat) : (State.ldgCount s a1).ecc = s.ecc := (State.ldgCount_onlyIn s a1).2 .ecc (by decide)
@[simp] theorem State.ldgCount_curMem (a1 : Nat) : (State.ldgCount s a1).curMem = s.curMem := (State.ldgCount_onlyIn s a1).2 .curMem (by decide)
@[simp] theorem State.ldgCount_pins (a1 : Nat) : (State.ldgCount s a1).pins = s.pins := (State.ldgCount_onlyIn s a1).2 .pins (by decide)
@[simp] theorem State.ldgCount_tap (a1 : Nat) : (State.ldgCount s a1).tap = s.tap := (State.ldgCount_onlyIn s a1).2 .tap (by decide)
@[simp] theorem State.ldgCount_smb (a1 : Nat) : (State.ldgCount s a1).smb = s.smb := (State.ldgCount_onlyIn s a1).2 .smb (by decide)
@[simp] theorem State.ldgCount_ss (a1 : Nat) : (State.ldgCount s a1).ss = s.ss := (State.ldgCount_onlyIn s a1).2 .ss (by decide)
@[simp] theorem State.ldgCount_boot (a1 : Nat) : (State.ldgCount s a1).boot = s.boot := (State.ldgCount_onlyIn s a1).2 .boot (by decide)
@[simp] theorem State.ldgCount_stp (a1 : Nat) : (State.ldgCount s a1).stp = s.stp := (State.ldgCount_onlyIn s a1).2 .stp (by decide)
@[simp] theorem State.ldgCount_cir (a1 : Nat) : (State.ldgCount s a1).cir = s.cir := (State.ldgCount_onlyIn s a1).2 .cir (by decide)
@[simp] theorem State.ldgCount_cat (a1 : Nat) : (State.ldgCount s a1).cat = s.cat := (State.ldgCount_onlyIn s a1).2 .cat (by decide)
@[simp] theorem State.ldgCount_bind (a1 : Nat) : (State.ldgCount s a1).bind = s.bind := (State.ldgCount_onlyIn s a1).2 .bind (by decide)
@[simp] theorem State.ldgCount_shelves (a1 : Nat) : (State.ldgCount s a1).shelves = s.shelves := (State.ldgCount_onlyIn s a1).2 .shelves (by decide)
@[simp] theorem State.ldgCount_kpr (a1 : Nat) : (State.ldgCount s a1).kpr = s.kpr := (State.ldgCount_onlyIn s a1).2 .kpr (by decide)
@[simp] theorem State.ldgCount_iln (a1 : Nat) : (State.ldgCount s a1).iln = s.iln := (State.ldgCount_onlyIn s a1).2 .iln (by decide)
@[simp] theorem State.ldgCount_crl (a1 : Nat) : (State.ldgCount s a1).crl = s.crl := (State.ldgCount_onlyIn s a1).2 .crl (by decide)
@[simp] theorem State.ldgCount_bel (a1 : Nat) : (State.ldgCount s a1).bel = s.bel := (State.ldgCount_onlyIn s a1).2 .bel (by decide)
@[simp] theorem State.ldgCount_ldg (a1 : Nat) : (State.ldgCount s a1).ldg = s.ldg := (State.ldgCount_onlyIn s a1).2 .ldg (by decide)
@[simp] theorem State.ldgCount_pwr (a1 : Nat) : (State.ldgCount s a1).pwr = s.pwr := (State.ldgCount_onlyIn s a1).2 .pwr (by decide)
@[simp] theorem State.ldgCount_obs (a1 : Nat) : (State.ldgCount s a1).obs = s.obs := (State.ldgCount_onlyIn s a1).2 .obs (by decide)
@[simp] theorem State.ldgCount_hostOut (a1 : Nat) : (State.ldgCount s a1).hostOut = s.hostOut := (State.ldgCount_onlyIn s a1).2 .hostOut (by decide)

/-! State.setPhase -/

theorem State.setPhase_onlyIn (a1 : Nat) : OnlyIn [.rf] s (State.setPhase s a1) :=
  Eff.onlyIn (State.setPhase_eff (F := fun c => decide (c ∈ [.rf])) (.refl _ s) rfl a1)
@[simp] theorem State.setPhase_pending (a1 : Nat) : (State.setPhase s a1).pending = s.pending := (State.setPhase_onlyIn s a1).1
@[simp] theorem State.setPhase_freeCtr (a1 : Nat) : (State.setPhase s a1).freeCtr = s.freeCtr := (State.setPhase_onlyIn s a1).2 .freeCtr (by decide)
@[simp] theorem State.setPhase_mem (a1 : Nat) : (State.setPhase s a1).mem = s.mem := (State.setPhase_onlyIn s a1).2 .mem (by decide)
@[simp] theorem State.setPhase_ecc (a1 : Nat) : (State.setPhase s a1).ecc = s.ecc := (State.setPhase_onlyIn s a1).2 .ecc (by decide)
@[simp] theorem State.setPhase_curMem (a1 : Nat) : (State.setPhase s a1).curMem = s.curMem := (State.setPhase_onlyIn s a1).2 .curMem (by decide)
@[simp] theorem State.setPhase_pins (a1 : Nat) : (State.setPhase s a1).pins = s.pins := (State.setPhase_onlyIn s a1).2 .pins (by decide)
@[simp] theorem State.setPhase_tap (a1 : Nat) : (State.setPhase s a1).tap = s.tap := (State.setPhase_onlyIn s a1).2 .tap (by decide)
@[simp] theorem State.setPhase_smb (a1 : Nat) : (State.setPhase s a1).smb = s.smb := (State.setPhase_onlyIn s a1).2 .smb (by decide)
@[simp] theorem State.setPhase_ss (a1 : Nat) : (State.setPhase s a1).ss = s.ss := (State.setPhase_onlyIn s a1).2 .ss (by decide)
@[simp] theorem State.setPhase_boot (a1 : Nat) : (State.setPhase s a1).boot = s.boot := (State.setPhase_onlyIn s a1).2 .boot (by decide)
@[simp] theorem State.setPhase_stp (a1 : Nat) : (State.setPhase s a1).stp = s.stp := (State.setPhase_onlyIn s a1).2 .stp (by decide)
@[simp] theorem State.setPhase_cir (a1 : Nat) : (State.setPhase s a1).cir = s.cir := (State.setPhase_onlyIn s a1).2 .cir (by decide)
@[simp] theorem State.setPhase_cat (a1 : Nat) : (State.setPhase s a1).cat = s.cat := (State.setPhase_onlyIn s a1).2 .cat (by decide)
@[simp] theorem State.setPhase_bind (a1 : Nat) : (State.setPhase s a1).bind = s.bind := (State.setPhase_onlyIn s a1).2 .bind (by decide)
@[simp] theorem State.setPhase_shelves (a1 : Nat) : (State.setPhase s a1).shelves = s.shelves := (State.setPhase_onlyIn s a1).2 .shelves (by decide)
@[simp] theorem State.setPhase_kpr (a1 : Nat) : (State.setPhase s a1).kpr = s.kpr := (State.setPhase_onlyIn s a1).2 .kpr (by decide)
@[simp] theorem State.setPhase_iln (a1 : Nat) : (State.setPhase s a1).iln = s.iln := (State.setPhase_onlyIn s a1).2 .iln (by decide)
@[simp] theorem State.setPhase_crl (a1 : Nat) : (State.setPhase s a1).crl = s.crl := (State.setPhase_onlyIn s a1).2 .crl (by decide)
@[simp] theorem State.setPhase_bel (a1 : Nat) : (State.setPhase s a1).bel = s.bel := (State.setPhase_onlyIn s a1).2 .bel (by decide)
@[simp] theorem State.setPhase_ldg (a1 : Nat) : (State.setPhase s a1).ldg = s.ldg := (State.setPhase_onlyIn s a1).2 .ldg (by decide)
@[simp] theorem State.setPhase_pwr (a1 : Nat) : (State.setPhase s a1).pwr = s.pwr := (State.setPhase_onlyIn s a1).2 .pwr (by decide)
@[simp] theorem State.setPhase_obs (a1 : Nat) : (State.setPhase s a1).obs = s.obs := (State.setPhase_onlyIn s a1).2 .obs (by decide)
@[simp] theorem State.setPhase_hostOut (a1 : Nat) : (State.setPhase s a1).hostOut = s.hostOut := (State.setPhase_onlyIn s a1).2 .hostOut (by decide)

/-! State.rangesOff -/

theorem State.rangesOff_onlyIn  : OnlyIn [.rf] s (State.rangesOff s) :=
  Eff.onlyIn (State.rangesOff_eff (F := fun c => decide (c ∈ [.rf])) (.refl _ s) rfl)
@[simp] theorem State.rangesOff_pending  : (State.rangesOff s).pending = s.pending := (State.rangesOff_onlyIn s ).1
@[simp] theorem State.rangesOff_freeCtr  : (State.rangesOff s).freeCtr = s.freeCtr := (State.rangesOff_onlyIn s ).2 .freeCtr (by decide)
@[simp] theorem State.rangesOff_mem  : (State.rangesOff s).mem = s.mem := (State.rangesOff_onlyIn s ).2 .mem (by decide)
@[simp] theorem State.rangesOff_ecc  : (State.rangesOff s).ecc = s.ecc := (State.rangesOff_onlyIn s ).2 .ecc (by decide)
@[simp] theorem State.rangesOff_curMem  : (State.rangesOff s).curMem = s.curMem := (State.rangesOff_onlyIn s ).2 .curMem (by decide)
@[simp] theorem State.rangesOff_pins  : (State.rangesOff s).pins = s.pins := (State.rangesOff_onlyIn s ).2 .pins (by decide)
@[simp] theorem State.rangesOff_tap  : (State.rangesOff s).tap = s.tap := (State.rangesOff_onlyIn s ).2 .tap (by decide)
@[simp] theorem State.rangesOff_smb  : (State.rangesOff s).smb = s.smb := (State.rangesOff_onlyIn s ).2 .smb (by decide)
@[simp] theorem State.rangesOff_ss  : (State.rangesOff s).ss = s.ss := (State.rangesOff_onlyIn s ).2 .ss (by decide)
@[simp] theorem State.rangesOff_boot  : (State.rangesOff s).boot = s.boot := (State.rangesOff_onlyIn s ).2 .boot (by decide)
@[simp] theorem State.rangesOff_stp  : (State.rangesOff s).stp = s.stp := (State.rangesOff_onlyIn s ).2 .stp (by decide)
@[simp] theorem State.rangesOff_cir  : (State.rangesOff s).cir = s.cir := (State.rangesOff_onlyIn s ).2 .cir (by decide)
@[simp] theorem State.rangesOff_cat  : (State.rangesOff s).cat = s.cat := (State.rangesOff_onlyIn s ).2 .cat (by decide)
@[simp] theorem State.rangesOff_bind  : (State.rangesOff s).bind = s.bind := (State.rangesOff_onlyIn s ).2 .bind (by decide)
@[simp] theorem State.rangesOff_shelves  : (State.rangesOff s).shelves = s.shelves := (State.rangesOff_onlyIn s ).2 .shelves (by decide)
@[simp] theorem State.rangesOff_kpr  : (State.rangesOff s).kpr = s.kpr := (State.rangesOff_onlyIn s ).2 .kpr (by decide)
@[simp] theorem State.rangesOff_iln  : (State.rangesOff s).iln = s.iln := (State.rangesOff_onlyIn s ).2 .iln (by decide)
@[simp] theorem State.rangesOff_crl  : (State.rangesOff s).crl = s.crl := (State.rangesOff_onlyIn s ).2 .crl (by decide)
@[simp] theorem State.rangesOff_bel  : (State.rangesOff s).bel = s.bel := (State.rangesOff_onlyIn s ).2 .bel (by decide)
@[simp] theorem State.rangesOff_ldg  : (State.rangesOff s).ldg = s.ldg := (State.rangesOff_onlyIn s ).2 .ldg (by decide)
@[simp] theorem State.rangesOff_pwr  : (State.rangesOff s).pwr = s.pwr := (State.rangesOff_onlyIn s ).2 .pwr (by decide)
@[simp] theorem State.rangesOff_obs  : (State.rangesOff s).obs = s.obs := (State.rangesOff_onlyIn s ).2 .obs (by decide)
@[simp] theorem State.rangesOff_hostOut  : (State.rangesOff s).hostOut = s.hostOut := (State.rangesOff_onlyIn s ).2 .hostOut (by decide)

/-! State.bootFail -/

theorem State.bootFail_onlyIn (a1 : Nat) : OnlyIn [.rf, .pins] s (State.bootFail s a1) :=
  Eff.onlyIn (State.bootFail_eff (F := fun c => decide (c ∈ [.rf, .pins])) (.refl _ s) rfl rfl a1)
@[simp] theorem State.bootFail_pending (a1 : Nat) : (State.bootFail s a1).pending = s.pending := (State.bootFail_onlyIn s a1).1
@[simp] theorem State.bootFail_freeCtr (a1 : Nat) : (State.bootFail s a1).freeCtr = s.freeCtr := (State.bootFail_onlyIn s a1).2 .freeCtr (by decide)
@[simp] theorem State.bootFail_mem (a1 : Nat) : (State.bootFail s a1).mem = s.mem := (State.bootFail_onlyIn s a1).2 .mem (by decide)
@[simp] theorem State.bootFail_ecc (a1 : Nat) : (State.bootFail s a1).ecc = s.ecc := (State.bootFail_onlyIn s a1).2 .ecc (by decide)
@[simp] theorem State.bootFail_curMem (a1 : Nat) : (State.bootFail s a1).curMem = s.curMem := (State.bootFail_onlyIn s a1).2 .curMem (by decide)
@[simp] theorem State.bootFail_tap (a1 : Nat) : (State.bootFail s a1).tap = s.tap := (State.bootFail_onlyIn s a1).2 .tap (by decide)
@[simp] theorem State.bootFail_smb (a1 : Nat) : (State.bootFail s a1).smb = s.smb := (State.bootFail_onlyIn s a1).2 .smb (by decide)
@[simp] theorem State.bootFail_ss (a1 : Nat) : (State.bootFail s a1).ss = s.ss := (State.bootFail_onlyIn s a1).2 .ss (by decide)
@[simp] theorem State.bootFail_boot (a1 : Nat) : (State.bootFail s a1).boot = s.boot := (State.bootFail_onlyIn s a1).2 .boot (by decide)
@[simp] theorem State.bootFail_stp (a1 : Nat) : (State.bootFail s a1).stp = s.stp := (State.bootFail_onlyIn s a1).2 .stp (by decide)
@[simp] theorem State.bootFail_cir (a1 : Nat) : (State.bootFail s a1).cir = s.cir := (State.bootFail_onlyIn s a1).2 .cir (by decide)
@[simp] theorem State.bootFail_cat (a1 : Nat) : (State.bootFail s a1).cat = s.cat := (State.bootFail_onlyIn s a1).2 .cat (by decide)
@[simp] theorem State.bootFail_bind (a1 : Nat) : (State.bootFail s a1).bind = s.bind := (State.bootFail_onlyIn s a1).2 .bind (by decide)
@[simp] theorem State.bootFail_shelves (a1 : Nat) : (State.bootFail s a1).shelves = s.shelves := (State.bootFail_onlyIn s a1).2 .shelves (by decide)
@[simp] theorem State.bootFail_kpr (a1 : Nat) : (State.bootFail s a1).kpr = s.kpr := (State.bootFail_onlyIn s a1).2 .kpr (by decide)
@[simp] theorem State.bootFail_iln (a1 : Nat) : (State.bootFail s a1).iln = s.iln := (State.bootFail_onlyIn s a1).2 .iln (by decide)
@[simp] theorem State.bootFail_crl (a1 : Nat) : (State.bootFail s a1).crl = s.crl := (State.bootFail_onlyIn s a1).2 .crl (by decide)
@[simp] theorem State.bootFail_bel (a1 : Nat) : (State.bootFail s a1).bel = s.bel := (State.bootFail_onlyIn s a1).2 .bel (by decide)
@[simp] theorem State.bootFail_ldg (a1 : Nat) : (State.bootFail s a1).ldg = s.ldg := (State.bootFail_onlyIn s a1).2 .ldg (by decide)
@[simp] theorem State.bootFail_pwr (a1 : Nat) : (State.bootFail s a1).pwr = s.pwr := (State.bootFail_onlyIn s a1).2 .pwr (by decide)
@[simp] theorem State.bootFail_obs (a1 : Nat) : (State.bootFail s a1).obs = s.obs := (State.bootFail_onlyIn s a1).2 .obs (by decide)
@[simp] theorem State.bootFail_hostOut (a1 : Nat) : (State.bootFail s a1).hostOut = s.hostOut := (State.bootFail_onlyIn s a1).2 .hostOut (by decide)

/-! State.withdraw -/

theorem State.withdraw_onlyIn (a1 : List Nat) : OnlyIn [.rf, .mem, .ecc, .cir, .cat, .bind, .shelves, .kpr, .iln, .crl, .bel, .ldg, .pwr, .obs, .hostOut] s (State.withdraw s a1) :=
  Eff.onlyIn (State.withdraw_eff (F := fun c => decide (c ∈ [.rf, .mem, .ecc, .cir, .cat, .bind, .shelves, .kpr, .iln, .crl, .bel, .ldg, .pwr, .obs, .hostOut])) (.refl _ s) rfl rfl rfl rfl rfl rfl rfl rfl rfl rfl rfl rfl rfl rfl rfl a1)
@[simp] theorem State.withdraw_pending (a1 : List Nat) : (State.withdraw s a1).pending = s.pending := (State.withdraw_onlyIn s a1).1
@[simp] theorem State.withdraw_freeCtr (a1 : List Nat) : (State.withdraw s a1).freeCtr = s.freeCtr := (State.withdraw_onlyIn s a1).2 .freeCtr (by decide)
@[simp] theorem State.withdraw_curMem (a1 : List Nat) : (State.withdraw s a1).curMem = s.curMem := (State.withdraw_onlyIn s a1).2 .curMem (by decide)
@[simp] theorem State.withdraw_pins (a1 : List Nat) : (State.withdraw s a1).pins = s.pins := (State.withdraw_onlyIn s a1).2 .pins (by decide)
@[simp] theorem State.withdraw_tap (a1 : List Nat) : (State.withdraw s a1).tap = s.tap := (State.withdraw_onlyIn s a1).2 .tap (by decide)
@[simp] theorem State.withdraw_smb (a1 : List Nat) : (State.withdraw s a1).smb = s.smb := (State.withdraw_onlyIn s a1).2 .smb (by decide)
@[simp] theorem State.withdraw_ss (a1 : List Nat) : (State.withdraw s a1).ss = s.ss := (State.withdraw_onlyIn s a1).2 .ss (by decide)
@[simp] theorem State.withdraw_boot (a1 : List Nat) : (State.withdraw s a1).boot = s.boot := (State.withdraw_onlyIn s a1).2 .boot (by decide)
@[simp] theorem State.withdraw_stp (a1 : List Nat) : (State.withdraw s a1).stp = s.stp := (State.withdraw_onlyIn s a1).2 .stp (by decide)

/-! State.cmdDone -/

theorem State.cmdDone_onlyIn (a1 : Nat) : OnlyIn [.rf, .iln, .crl, .hostOut] s (State.cmdDone s a1) :=
  Eff.onlyIn (State.cmdDone_eff (F := fun c => decide (c ∈ [.rf, .iln, .crl, .hostOut])) (.refl _ s) rfl rfl rfl rfl a1)
@[simp] theorem State.cmdDone_pending (a1 : Nat) : (State.cmdDone s a1).pending = s.pending := (State.cmdDone_onlyIn s a1).1
@[simp] theorem State.cmdDone_freeCtr (a1 : Nat) : (State.cmdDone s a1).freeCtr = s.freeCtr := (State.cmdDone_onlyIn s a1).2 .freeCtr (by decide)
@[simp] theorem State.cmdDone_mem (a1 : Nat) : (State.cmdDone s a1).mem = s.mem := (State.cmdDone_onlyIn s a1).2 .mem (by decide)
@[simp] theorem State.cmdDone_ecc (a1 : Nat) : (State.cmdDone s a1).ecc = s.ecc := (State.cmdDone_onlyIn s a1).2 .ecc (by decide)
@[simp] theorem State.cmdDone_curMem (a1 : Nat) : (State.cmdDone s a1).curMem = s.curMem := (State.cmdDone_onlyIn s a1).2 .curMem (by decide)
@[simp] theorem State.cmdDone_pins (a1 : Nat) : (State.cmdDone s a1).pins = s.pins := (State.cmdDone_onlyIn s a1).2 .pins (by decide)
@[simp] theorem State.cmdDone_tap (a1 : Nat) : (State.cmdDone s a1).tap = s.tap := (State.cmdDone_onlyIn s a1).2 .tap (by decide)
@[simp] theorem State.cmdDone_smb (a1 : Nat) : (State.cmdDone s a1).smb = s.smb := (State.cmdDone_onlyIn s a1).2 .smb (by decide)
@[simp] theorem State.cmdDone_ss (a1 : Nat) : (State.cmdDone s a1).ss = s.ss := (State.cmdDone_onlyIn s a1).2 .ss (by decide)
@[simp] theorem State.cmdDone_boot (a1 : Nat) : (State.cmdDone s a1).boot = s.boot := (State.cmdDone_onlyIn s a1).2 .boot (by decide)
@[simp] theorem State.cmdDone_stp (a1 : Nat) : (State.cmdDone s a1).stp = s.stp := (State.cmdDone_onlyIn s a1).2 .stp (by decide)
@[simp] theorem State.cmdDone_cir (a1 : Nat) : (State.cmdDone s a1).cir = s.cir := (State.cmdDone_onlyIn s a1).2 .cir (by decide)
@[simp] theorem State.cmdDone_cat (a1 : Nat) : (State.cmdDone s a1).cat = s.cat := (State.cmdDone_onlyIn s a1).2 .cat (by decide)
@[simp] theorem State.cmdDone_bind (a1 : Nat) : (State.cmdDone s a1).bind = s.bind := (State.cmdDone_onlyIn s a1).2 .bind (by decide)
@[simp] theorem State.cmdDone_shelves (a1 : Nat) : (State.cmdDone s a1).shelves = s.shelves := (State.cmdDone_onlyIn s a1).2 .shelves (by decide)
@[simp] theorem State.cmdDone_kpr (a1 : Nat) : (State.cmdDone s a1).kpr = s.kpr := (State.cmdDone_onlyIn s a1).2 .kpr (by decide)
@[simp] theorem State.cmdDone_bel (a1 : Nat) : (State.cmdDone s a1).bel = s.bel := (State.cmdDone_onlyIn s a1).2 .bel (by decide)
@[simp] theorem State.cmdDone_ldg (a1 : Nat) : (State.cmdDone s a1).ldg = s.ldg := (State.cmdDone_onlyIn s a1).2 .ldg (by decide)
@[simp] theorem State.cmdDone_pwr (a1 : Nat) : (State.cmdDone s a1).pwr = s.pwr := (State.cmdDone_onlyIn s a1).2 .pwr (by decide)
@[simp] theorem State.cmdDone_obs (a1 : Nat) : (State.cmdDone s a1).obs = s.obs := (State.cmdDone_onlyIn s a1).2 .obs (by decide)

/-! State.cmdBusy -/

theorem State.cmdBusy_onlyIn (a1 : CrlCommand) : OnlyIn [.rf, .crl] s (State.cmdBusy s a1) :=
  Eff.onlyIn (State.cmdBusy_eff (F := fun c => decide (c ∈ [.rf, .crl])) (.refl _ s) rfl rfl a1)
@[simp] theorem State.cmdBusy_pending (a1 : CrlCommand) : (State.cmdBusy s a1).pending = s.pending := (State.cmdBusy_onlyIn s a1).1
@[simp] theorem State.cmdBusy_freeCtr (a1 : CrlCommand) : (State.cmdBusy s a1).freeCtr = s.freeCtr := (State.cmdBusy_onlyIn s a1).2 .freeCtr (by decide)
@[simp] theorem State.cmdBusy_mem (a1 : CrlCommand) : (State.cmdBusy s a1).mem = s.mem := (State.cmdBusy_onlyIn s a1).2 .mem (by decide)
@[simp] theorem State.cmdBusy_ecc (a1 : CrlCommand) : (State.cmdBusy s a1).ecc = s.ecc := (State.cmdBusy_onlyIn s a1).2 .ecc (by decide)
@[simp] theorem State.cmdBusy_curMem (a1 : CrlCommand) : (State.cmdBusy s a1).curMem = s.curMem := (State.cmdBusy_onlyIn s a1).2 .curMem (by decide)
@[simp] theorem State.cmdBusy_pins (a1 : CrlCommand) : (State.cmdBusy s a1).pins = s.pins := (State.cmdBusy_onlyIn s a1).2 .pins (by decide)
@[simp] theorem State.cmdBusy_tap (a1 : CrlCommand) : (State.cmdBusy s a1).tap = s.tap := (State.cmdBusy_onlyIn s a1).2 .tap (by decide)
@[simp] theorem State.cmdBusy_smb (a1 : CrlCommand) : (State.cmdBusy s a1).smb = s.smb := (State.cmdBusy_onlyIn s a1).2 .smb (by decide)
@[simp] theorem State.cmdBusy_ss (a1 : CrlCommand) : (State.cmdBusy s a1).ss = s.ss := (State.cmdBusy_onlyIn s a1).2 .ss (by decide)
@[simp] theorem State.cmdBusy_boot (a1 : CrlCommand) : (State.cmdBusy s a1).boot = s.boot := (State.cmdBusy_onlyIn s a1).2 .boot (by decide)
@[simp] theorem State.cmdBusy_stp (a1 : CrlCommand) : (State.cmdBusy s a1).stp = s.stp := (State.cmdBusy_onlyIn s a1).2 .stp (by decide)
@[simp] theorem State.cmdBusy_cir (a1 : CrlCommand) : (State.cmdBusy s a1).cir = s.cir := (State.cmdBusy_onlyIn s a1).2 .cir (by decide)
@[simp] theorem State.cmdBusy_cat (a1 : CrlCommand) : (State.cmdBusy s a1).cat = s.cat := (State.cmdBusy_onlyIn s a1).2 .cat (by decide)
@[simp] theorem State.cmdBusy_bind (a1 : CrlCommand) : (State.cmdBusy s a1).bind = s.bind := (State.cmdBusy_onlyIn s a1).2 .bind (by decide)
@[simp] theorem State.cmdBusy_shelves (a1 : CrlCommand) : (State.cmdBusy s a1).shelves = s.shelves := (State.cmdBusy_onlyIn s a1).2 .shelves (by decide)
@[simp] theorem State.cmdBusy_kpr (a1 : CrlCommand) : (State.cmdBusy s a1).kpr = s.kpr := (State.cmdBusy_onlyIn s a1).2 .kpr (by decide)
@[simp] theorem State.cmdBusy_iln (a1 : CrlCommand) : (State.cmdBusy s a1).iln = s.iln := (State.cmdBusy_onlyIn s a1).2 .iln (by decide)
@[simp] theorem State.cmdBusy_bel (a1 : CrlCommand) : (State.cmdBusy s a1).bel = s.bel := (State.cmdBusy_onlyIn s a1).2 .bel (by decide)
@[simp] theorem State.cmdBusy_ldg (a1 : CrlCommand) : (State.cmdBusy s a1).ldg = s.ldg := (State.cmdBusy_onlyIn s a1).2 .ldg (by decide)
@[simp] theorem State.cmdBusy_pwr (a1 : CrlCommand) : (State.cmdBusy s a1).pwr = s.pwr := (State.cmdBusy_onlyIn s a1).2 .pwr (by decide)
@[simp] theorem State.cmdBusy_obs (a1 : CrlCommand) : (State.cmdBusy s a1).obs = s.obs := (State.cmdBusy_onlyIn s a1).2 .obs (by decide)
@[simp] theorem State.cmdBusy_hostOut (a1 : CrlCommand) : (State.cmdBusy s a1).hostOut = s.hostOut := (State.cmdBusy_onlyIn s a1).2 .hostOut (by decide)

/-! State.setCarrelState -/

theorem State.setCarrelState_onlyIn (a1 : Nat) (a2 : Nat) : OnlyIn [.rf] s (State.setCarrelState s a1 a2) :=
  Eff.onlyIn (State.setCarrelState_eff (F := fun c => decide (c ∈ [.rf])) (.refl _ s) rfl a1 a2)
@[simp] theorem State.setCarrelState_pending (a1 : Nat) (a2 : Nat) : (State.setCarrelState s a1 a2).pending = s.pending := (State.setCarrelState_onlyIn s a1 a2).1
@[simp] theorem State.setCarrelState_freeCtr (a1 : Nat) (a2 : Nat) : (State.setCarrelState s a1 a2).freeCtr = s.freeCtr := (State.setCarrelState_onlyIn s a1 a2).2 .freeCtr (by decide)
@[simp] theorem State.setCarrelState_mem (a1 : Nat) (a2 : Nat) : (State.setCarrelState s a1 a2).mem = s.mem := (State.setCarrelState_onlyIn s a1 a2).2 .mem (by decide)
@[simp] theorem State.setCarrelState_ecc (a1 : Nat) (a2 : Nat) : (State.setCarrelState s a1 a2).ecc = s.ecc := (State.setCarrelState_onlyIn s a1 a2).2 .ecc (by decide)
@[simp] theorem State.setCarrelState_curMem (a1 : Nat) (a2 : Nat) : (State.setCarrelState s a1 a2).curMem = s.curMem := (State.setCarrelState_onlyIn s a1 a2).2 .curMem (by decide)
@[simp] theorem State.setCarrelState_pins (a1 : Nat) (a2 : Nat) : (State.setCarrelState s a1 a2).pins = s.pins := (State.setCarrelState_onlyIn s a1 a2).2 .pins (by decide)
@[simp] theorem State.setCarrelState_tap (a1 : Nat) (a2 : Nat) : (State.setCarrelState s a1 a2).tap = s.tap := (State.setCarrelState_onlyIn s a1 a2).2 .tap (by decide)
@[simp] theorem State.setCarrelState_smb (a1 : Nat) (a2 : Nat) : (State.setCarrelState s a1 a2).smb = s.smb := (State.setCarrelState_onlyIn s a1 a2).2 .smb (by decide)
@[simp] theorem State.setCarrelState_ss (a1 : Nat) (a2 : Nat) : (State.setCarrelState s a1 a2).ss = s.ss := (State.setCarrelState_onlyIn s a1 a2).2 .ss (by decide)
@[simp] theorem State.setCarrelState_boot (a1 : Nat) (a2 : Nat) : (State.setCarrelState s a1 a2).boot = s.boot := (State.setCarrelState_onlyIn s a1 a2).2 .boot (by decide)
@[simp] theorem State.setCarrelState_stp (a1 : Nat) (a2 : Nat) : (State.setCarrelState s a1 a2).stp = s.stp := (State.setCarrelState_onlyIn s a1 a2).2 .stp (by decide)
@[simp] theorem State.setCarrelState_cir (a1 : Nat) (a2 : Nat) : (State.setCarrelState s a1 a2).cir = s.cir := (State.setCarrelState_onlyIn s a1 a2).2 .cir (by decide)
@[simp] theorem State.setCarrelState_cat (a1 : Nat) (a2 : Nat) : (State.setCarrelState s a1 a2).cat = s.cat := (State.setCarrelState_onlyIn s a1 a2).2 .cat (by decide)
@[simp] theorem State.setCarrelState_bind (a1 : Nat) (a2 : Nat) : (State.setCarrelState s a1 a2).bind = s.bind := (State.setCarrelState_onlyIn s a1 a2).2 .bind (by decide)
@[simp] theorem State.setCarrelState_shelves (a1 : Nat) (a2 : Nat) : (State.setCarrelState s a1 a2).shelves = s.shelves := (State.setCarrelState_onlyIn s a1 a2).2 .shelves (by decide)
@[simp] theorem State.setCarrelState_kpr (a1 : Nat) (a2 : Nat) : (State.setCarrelState s a1 a2).kpr = s.kpr := (State.setCarrelState_onlyIn s a1 a2).2 .kpr (by decide)
@[simp] theorem State.setCarrelState_iln (a1 : Nat) (a2 : Nat) : (State.setCarrelState s a1 a2).iln = s.iln := (State.setCarrelState_onlyIn s a1 a2).2 .iln (by decide)
@[simp] theorem State.setCarrelState_crl (a1 : Nat) (a2 : Nat) : (State.setCarrelState s a1 a2).crl = s.crl := (State.setCarrelState_onlyIn s a1 a2).2 .crl (by decide)
@[simp] theorem State.setCarrelState_bel (a1 : Nat) (a2 : Nat) : (State.setCarrelState s a1 a2).bel = s.bel := (State.setCarrelState_onlyIn s a1 a2).2 .bel (by decide)
@[simp] theorem State.setCarrelState_ldg (a1 : Nat) (a2 : Nat) : (State.setCarrelState s a1 a2).ldg = s.ldg := (State.setCarrelState_onlyIn s a1 a2).2 .ldg (by decide)
@[simp] theorem State.setCarrelState_pwr (a1 : Nat) (a2 : Nat) : (State.setCarrelState s a1 a2).pwr = s.pwr := (State.setCarrelState_onlyIn s a1 a2).2 .pwr (by decide)
@[simp] theorem State.setCarrelState_obs (a1 : Nat) (a2 : Nat) : (State.setCarrelState s a1 a2).obs = s.obs := (State.setCarrelState_onlyIn s a1 a2).2 .obs (by decide)
@[simp] theorem State.setCarrelState_hostOut (a1 : Nat) (a2 : Nat) : (State.setCarrelState s a1 a2).hostOut = s.hostOut := (State.setCarrelState_onlyIn s a1 a2).2 .hostOut (by decide)

/-! State.clearUp -/

theorem State.clearUp_onlyIn (a1 : Nat) : OnlyIn [.rf] s (State.clearUp s a1) :=
  Eff.onlyIn (State.clearUp_eff (F := fun c => decide (c ∈ [.rf])) (.refl _ s) rfl a1)
@[simp] theorem State.clearUp_pending (a1 : Nat) : (State.clearUp s a1).pending = s.pending := (State.clearUp_onlyIn s a1).1
@[simp] theorem State.clearUp_freeCtr (a1 : Nat) : (State.clearUp s a1).freeCtr = s.freeCtr := (State.clearUp_onlyIn s a1).2 .freeCtr (by decide)
@[simp] theorem State.clearUp_mem (a1 : Nat) : (State.clearUp s a1).mem = s.mem := (State.clearUp_onlyIn s a1).2 .mem (by decide)
@[simp] theorem State.clearUp_ecc (a1 : Nat) : (State.clearUp s a1).ecc = s.ecc := (State.clearUp_onlyIn s a1).2 .ecc (by decide)
@[simp] theorem State.clearUp_curMem (a1 : Nat) : (State.clearUp s a1).curMem = s.curMem := (State.clearUp_onlyIn s a1).2 .curMem (by decide)
@[simp] theorem State.clearUp_pins (a1 : Nat) : (State.clearUp s a1).pins = s.pins := (State.clearUp_onlyIn s a1).2 .pins (by decide)
@[simp] theorem State.clearUp_tap (a1 : Nat) : (State.clearUp s a1).tap = s.tap := (State.clearUp_onlyIn s a1).2 .tap (by decide)
@[simp] theorem State.clearUp_smb (a1 : Nat) : (State.clearUp s a1).smb = s.smb := (State.clearUp_onlyIn s a1).2 .smb (by decide)
@[simp] theorem State.clearUp_ss (a1 : Nat) : (State.clearUp s a1).ss = s.ss := (State.clearUp_onlyIn s a1).2 .ss (by decide)
@[simp] theorem State.clearUp_boot (a1 : Nat) : (State.clearUp s a1).boot = s.boot := (State.clearUp_onlyIn s a1).2 .boot (by decide)
@[simp] theorem State.clearUp_stp (a1 : Nat) : (State.clearUp s a1).stp = s.stp := (State.clearUp_onlyIn s a1).2 .stp (by decide)
@[simp] theorem State.clearUp_cir (a1 : Nat) : (State.clearUp s a1).cir = s.cir := (State.clearUp_onlyIn s a1).2 .cir (by decide)
@[simp] theorem State.clearUp_cat (a1 : Nat) : (State.clearUp s a1).cat = s.cat := (State.clearUp_onlyIn s a1).2 .cat (by decide)
@[simp] theorem State.clearUp_bind (a1 : Nat) : (State.clearUp s a1).bind = s.bind := (State.clearUp_onlyIn s a1).2 .bind (by decide)
@[simp] theorem State.clearUp_shelves (a1 : Nat) : (State.clearUp s a1).shelves = s.shelves := (State.clearUp_onlyIn s a1).2 .shelves (by decide)
@[simp] theorem State.clearUp_kpr (a1 : Nat) : (State.clearUp s a1).kpr = s.kpr := (State.clearUp_onlyIn s a1).2 .kpr (by decide)
@[simp] theorem State.clearUp_iln (a1 : Nat) : (State.clearUp s a1).iln = s.iln := (State.clearUp_onlyIn s a1).2 .iln (by decide)
@[simp] theorem State.clearUp_crl (a1 : Nat) : (State.clearUp s a1).crl = s.crl := (State.clearUp_onlyIn s a1).2 .crl (by decide)
@[simp] theorem State.clearUp_bel (a1 : Nat) : (State.clearUp s a1).bel = s.bel := (State.clearUp_onlyIn s a1).2 .bel (by decide)
@[simp] theorem State.clearUp_ldg (a1 : Nat) : (State.clearUp s a1).ldg = s.ldg := (State.clearUp_onlyIn s a1).2 .ldg (by decide)
@[simp] theorem State.clearUp_pwr (a1 : Nat) : (State.clearUp s a1).pwr = s.pwr := (State.clearUp_onlyIn s a1).2 .pwr (by decide)
@[simp] theorem State.clearUp_obs (a1 : Nat) : (State.clearUp s a1).obs = s.obs := (State.clearUp_onlyIn s a1).2 .obs (by decide)
@[simp] theorem State.clearUp_hostOut (a1 : Nat) : (State.clearUp s a1).hostOut = s.hostOut := (State.clearUp_onlyIn s a1).2 .hostOut (by decide)

/-! State.raiseVcore -/

theorem State.raiseVcore_onlyIn  : OnlyIn [.smb, .pwr] s (State.raiseVcore s) :=
  Eff.onlyIn (State.raiseVcore_eff (F := fun c => decide (c ∈ [.smb, .pwr])) (.refl _ s) rfl rfl)
@[simp] theorem State.raiseVcore_pending  : (State.raiseVcore s).pending = s.pending := (State.raiseVcore_onlyIn s ).1
@[simp] theorem State.raiseVcore_freeCtr  : (State.raiseVcore s).freeCtr = s.freeCtr := (State.raiseVcore_onlyIn s ).2 .freeCtr (by decide)
@[simp] theorem State.raiseVcore_rf  : (State.raiseVcore s).rf = s.rf := (State.raiseVcore_onlyIn s ).2 .rf (by decide)
@[simp] theorem State.raiseVcore_mem  : (State.raiseVcore s).mem = s.mem := (State.raiseVcore_onlyIn s ).2 .mem (by decide)
@[simp] theorem State.raiseVcore_ecc  : (State.raiseVcore s).ecc = s.ecc := (State.raiseVcore_onlyIn s ).2 .ecc (by decide)
@[simp] theorem State.raiseVcore_curMem  : (State.raiseVcore s).curMem = s.curMem := (State.raiseVcore_onlyIn s ).2 .curMem (by decide)
@[simp] theorem State.raiseVcore_pins  : (State.raiseVcore s).pins = s.pins := (State.raiseVcore_onlyIn s ).2 .pins (by decide)
@[simp] theorem State.raiseVcore_tap  : (State.raiseVcore s).tap = s.tap := (State.raiseVcore_onlyIn s ).2 .tap (by decide)
@[simp] theorem State.raiseVcore_ss  : (State.raiseVcore s).ss = s.ss := (State.raiseVcore_onlyIn s ).2 .ss (by decide)
@[simp] theorem State.raiseVcore_boot  : (State.raiseVcore s).boot = s.boot := (State.raiseVcore_onlyIn s ).2 .boot (by decide)
@[simp] theorem State.raiseVcore_stp  : (State.raiseVcore s).stp = s.stp := (State.raiseVcore_onlyIn s ).2 .stp (by decide)
@[simp] theorem State.raiseVcore_cir  : (State.raiseVcore s).cir = s.cir := (State.raiseVcore_onlyIn s ).2 .cir (by decide)
@[simp] theorem State.raiseVcore_cat  : (State.raiseVcore s).cat = s.cat := (State.raiseVcore_onlyIn s ).2 .cat (by decide)
@[simp] theorem State.raiseVcore_bind  : (State.raiseVcore s).bind = s.bind := (State.raiseVcore_onlyIn s ).2 .bind (by decide)
@[simp] theorem State.raiseVcore_shelves  : (State.raiseVcore s).shelves = s.shelves := (State.raiseVcore_onlyIn s ).2 .shelves (by decide)
@[simp] theorem State.raiseVcore_kpr  : (State.raiseVcore s).kpr = s.kpr := (State.raiseVcore_onlyIn s ).2 .kpr (by decide)
@[simp] theorem State.raiseVcore_iln  : (State.raiseVcore s).iln = s.iln := (State.raiseVcore_onlyIn s ).2 .iln (by decide)
@[simp] theorem State.raiseVcore_crl  : (State.raiseVcore s).crl = s.crl := (State.raiseVcore_onlyIn s ).2 .crl (by decide)
@[simp] theorem State.raiseVcore_bel  : (State.raiseVcore s).bel = s.bel := (State.raiseVcore_onlyIn s ).2 .bel (by decide)
@[simp] theorem State.raiseVcore_ldg  : (State.raiseVcore s).ldg = s.ldg := (State.raiseVcore_onlyIn s ).2 .ldg (by decide)
@[simp] theorem State.raiseVcore_obs  : (State.raiseVcore s).obs = s.obs := (State.raiseVcore_onlyIn s ).2 .obs (by decide)
@[simp] theorem State.raiseVcore_hostOut  : (State.raiseVcore s).hostOut = s.hostOut := (State.raiseVcore_onlyIn s ).2 .hostOut (by decide)

/-! State.throttle -/

theorem State.throttle_onlyIn (a1 : List Nat) (a2 : Bool) : OnlyIn [.rf, .bel, .ldg, .pwr] s (State.throttle s a1 a2) :=
  Eff.onlyIn (State.throttle_eff (F := fun c => decide (c ∈ [.rf, .bel, .ldg, .pwr])) (.refl _ s) rfl rfl rfl rfl a1 a2)
@[simp] theorem State.throttle_pending (a1 : List Nat) (a2 : Bool) : (State.throttle s a1 a2).pending = s.pending := (State.throttle_onlyIn s a1 a2).1
@[simp] theorem State.throttle_freeCtr (a1 : List Nat) (a2 : Bool) : (State.throttle s a1 a2).freeCtr = s.freeCtr := (State.throttle_onlyIn s a1 a2).2 .freeCtr (by decide)
@[simp] theorem State.throttle_mem (a1 : List Nat) (a2 : Bool) : (State.throttle s a1 a2).mem = s.mem := (State.throttle_onlyIn s a1 a2).2 .mem (by decide)
@[simp] theorem State.throttle_ecc (a1 : List Nat) (a2 : Bool) : (State.throttle s a1 a2).ecc = s.ecc := (State.throttle_onlyIn s a1 a2).2 .ecc (by decide)
@[simp] theorem State.throttle_curMem (a1 : List Nat) (a2 : Bool) : (State.throttle s a1 a2).curMem = s.curMem := (State.throttle_onlyIn s a1 a2).2 .curMem (by decide)
@[simp] theorem State.throttle_pins (a1 : List Nat) (a2 : Bool) : (State.throttle s a1 a2).pins = s.pins := (State.throttle_onlyIn s a1 a2).2 .pins (by decide)
@[simp] theorem State.throttle_tap (a1 : List Nat) (a2 : Bool) : (State.throttle s a1 a2).tap = s.tap := (State.throttle_onlyIn s a1 a2).2 .tap (by decide)
@[simp] theorem State.throttle_smb (a1 : List Nat) (a2 : Bool) : (State.throttle s a1 a2).smb = s.smb := (State.throttle_onlyIn s a1 a2).2 .smb (by decide)
@[simp] theorem State.throttle_ss (a1 : List Nat) (a2 : Bool) : (State.throttle s a1 a2).ss = s.ss := (State.throttle_onlyIn s a1 a2).2 .ss (by decide)
@[simp] theorem State.throttle_boot (a1 : List Nat) (a2 : Bool) : (State.throttle s a1 a2).boot = s.boot := (State.throttle_onlyIn s a1 a2).2 .boot (by decide)
@[simp] theorem State.throttle_stp (a1 : List Nat) (a2 : Bool) : (State.throttle s a1 a2).stp = s.stp := (State.throttle_onlyIn s a1 a2).2 .stp (by decide)
@[simp] theorem State.throttle_cir (a1 : List Nat) (a2 : Bool) : (State.throttle s a1 a2).cir = s.cir := (State.throttle_onlyIn s a1 a2).2 .cir (by decide)
@[simp] theorem State.throttle_cat (a1 : List Nat) (a2 : Bool) : (State.throttle s a1 a2).cat = s.cat := (State.throttle_onlyIn s a1 a2).2 .cat (by decide)
@[simp] theorem State.throttle_bind (a1 : List Nat) (a2 : Bool) : (State.throttle s a1 a2).bind = s.bind := (State.throttle_onlyIn s a1 a2).2 .bind (by decide)
@[simp] theorem State.throttle_shelves (a1 : List Nat) (a2 : Bool) : (State.throttle s a1 a2).shelves = s.shelves := (State.throttle_onlyIn s a1 a2).2 .shelves (by decide)
@[simp] theorem State.throttle_kpr (a1 : List Nat) (a2 : Bool) : (State.throttle s a1 a2).kpr = s.kpr := (State.throttle_onlyIn s a1 a2).2 .kpr (by decide)
@[simp] theorem State.throttle_iln (a1 : List Nat) (a2 : Bool) : (State.throttle s a1 a2).iln = s.iln := (State.throttle_onlyIn s a1 a2).2 .iln (by decide)
@[simp] theorem State.throttle_crl (a1 : List Nat) (a2 : Bool) : (State.throttle s a1 a2).crl = s.crl := (State.throttle_onlyIn s a1 a2).2 .crl (by decide)
@[simp] theorem State.throttle_obs (a1 : List Nat) (a2 : Bool) : (State.throttle s a1 a2).obs = s.obs := (State.throttle_onlyIn s a1 a2).2 .obs (by decide)
@[simp] theorem State.throttle_hostOut (a1 : List Nat) (a2 : Bool) : (State.throttle s a1 a2).hostOut = s.hostOut := (State.throttle_onlyIn s a1 a2).2 .hostOut (by decide)

/-! State.settle -/

theorem State.settle_onlyIn  : OnlyIn [.rf, .ecc, .cir, .cat, .bind, .kpr, .bel, .ldg, .obs] s (State.settle s) :=
  Eff.onlyIn (State.settle_eff (F := fun c => decide (c ∈ [.rf, .ecc, .cir, .cat, .bind, .kpr, .bel, .ldg, .obs])) (.refl _ s) rfl rfl rfl rfl rfl rfl rfl rfl rfl)
@[simp] theorem State.settle_pending  : (State.settle s).pending = s.pending := (State.settle_onlyIn s ).1
@[simp] theorem State.settle_freeCtr  : (State.settle s).freeCtr = s.freeCtr := (State.settle_onlyIn s ).2 .freeCtr (by decide)
@[simp] theorem State.settle_mem  : (State.settle s).mem = s.mem := (State.settle_onlyIn s ).2 .mem (by decide)
@[simp] theorem State.settle_curMem  : (State.settle s).curMem = s.curMem := (State.settle_onlyIn s ).2 .curMem (by decide)
@[simp] theorem State.settle_pins  : (State.settle s).pins = s.pins := (State.settle_onlyIn s ).2 .pins (by decide)
@[simp] theorem State.settle_tap  : (State.settle s).tap = s.tap := (State.settle_onlyIn s ).2 .tap (by decide)
@[simp] theorem State.settle_smb  : (State.settle s).smb = s.smb := (State.settle_onlyIn s ).2 .smb (by decide)
@[simp] theorem State.settle_ss  : (State.settle s).ss = s.ss := (State.settle_onlyIn s ).2 .ss (by decide)
@[simp] theorem State.settle_boot  : (State.settle s).boot = s.boot := (State.settle_onlyIn s ).2 .boot (by decide)
@[simp] theorem State.settle_stp  : (State.settle s).stp = s.stp := (State.settle_onlyIn s ).2 .stp (by decide)
@[simp] theorem State.settle_shelves  : (State.settle s).shelves = s.shelves := (State.settle_onlyIn s ).2 .shelves (by decide)
@[simp] theorem State.settle_iln  : (State.settle s).iln = s.iln := (State.settle_onlyIn s ).2 .iln (by decide)
@[simp] theorem State.settle_crl  : (State.settle s).crl = s.crl := (State.settle_onlyIn s ).2 .crl (by decide)
@[simp] theorem State.settle_pwr  : (State.settle s).pwr = s.pwr := (State.settle_onlyIn s ).2 .pwr (by decide)
@[simp] theorem State.settle_hostOut  : (State.settle s).hostOut = s.hostOut := (State.settle_onlyIn s ).2 .hostOut (by decide)

/-! State.setSlip -/

theorem State.setSlip_onlyIn (a1 : Nat) (a2 : Slip) : OnlyIn [.cat] s (State.setSlip s a1 a2) :=
  Eff.onlyIn (State.setSlip_eff (F := fun c => decide (c ∈ [.cat])) (.refl _ s) rfl a1 a2)
@[simp] theorem State.setSlip_pending (a1 : Nat) (a2 : Slip) : (State.setSlip s a1 a2).pending = s.pending := (State.setSlip_onlyIn s a1 a2).1
@[simp] theorem State.setSlip_freeCtr (a1 : Nat) (a2 : Slip) : (State.setSlip s a1 a2).freeCtr = s.freeCtr := (State.setSlip_onlyIn s a1 a2).2 .freeCtr (by decide)
@[simp] theorem State.setSlip_rf (a1 : Nat) (a2 : Slip) : (State.setSlip s a1 a2).rf = s.rf := (State.setSlip_onlyIn s a1 a2).2 .rf (by decide)
@[simp] theorem State.setSlip_mem (a1 : Nat) (a2 : Slip) : (State.setSlip s a1 a2).mem = s.mem := (State.setSlip_onlyIn s a1 a2).2 .mem (by decide)
@[simp] theorem State.setSlip_ecc (a1 : Nat) (a2 : Slip) : (State.setSlip s a1 a2).ecc = s.ecc := (State.setSlip_onlyIn s a1 a2).2 .ecc (by decide)
@[simp] theorem State.setSlip_curMem (a1 : Nat) (a2 : Slip) : (State.setSlip s a1 a2).curMem = s.curMem := (State.setSlip_onlyIn s a1 a2).2 .curMem (by decide)
@[simp] theorem State.setSlip_pins (a1 : Nat) (a2 : Slip) : (State.setSlip s a1 a2).pins = s.pins := (State.setSlip_onlyIn s a1 a2).2 .pins (by decide)
@[simp] theorem State.setSlip_tap (a1 : Nat) (a2 : Slip) : (State.setSlip s a1 a2).tap = s.tap := (State.setSlip_onlyIn s a1 a2).2 .tap (by decide)
@[simp] theorem State.setSlip_smb (a1 : Nat) (a2 : Slip) : (State.setSlip s a1 a2).smb = s.smb := (State.setSlip_onlyIn s a1 a2).2 .smb (by decide)
@[simp] theorem State.setSlip_ss (a1 : Nat) (a2 : Slip) : (State.setSlip s a1 a2).ss = s.ss := (State.setSlip_onlyIn s a1 a2).2 .ss (by decide)
@[simp] theorem State.setSlip_boot (a1 : Nat) (a2 : Slip) : (State.setSlip s a1 a2).boot = s.boot := (State.setSlip_onlyIn s a1 a2).2 .boot (by decide)
@[simp] theorem State.setSlip_stp (a1 : Nat) (a2 : Slip) : (State.setSlip s a1 a2).stp = s.stp := (State.setSlip_onlyIn s a1 a2).2 .stp (by decide)
@[simp] theorem State.setSlip_cir (a1 : Nat) (a2 : Slip) : (State.setSlip s a1 a2).cir = s.cir := (State.setSlip_onlyIn s a1 a2).2 .cir (by decide)
@[simp] theorem State.setSlip_bind (a1 : Nat) (a2 : Slip) : (State.setSlip s a1 a2).bind = s.bind := (State.setSlip_onlyIn s a1 a2).2 .bind (by decide)
@[simp] theorem State.setSlip_shelves (a1 : Nat) (a2 : Slip) : (State.setSlip s a1 a2).shelves = s.shelves := (State.setSlip_onlyIn s a1 a2).2 .shelves (by decide)
@[simp] theorem State.setSlip_kpr (a1 : Nat) (a2 : Slip) : (State.setSlip s a1 a2).kpr = s.kpr := (State.setSlip_onlyIn s a1 a2).2 .kpr (by decide)
@[simp] theorem State.setSlip_iln (a1 : Nat) (a2 : Slip) : (State.setSlip s a1 a2).iln = s.iln := (State.setSlip_onlyIn s a1 a2).2 .iln (by decide)
@[simp] theorem State.setSlip_crl (a1 : Nat) (a2 : Slip) : (State.setSlip s a1 a2).crl = s.crl := (State.setSlip_onlyIn s a1 a2).2 .crl (by decide)
@[simp] theorem State.setSlip_bel (a1 : Nat) (a2 : Slip) : (State.setSlip s a1 a2).bel = s.bel := (State.setSlip_onlyIn s a1 a2).2 .bel (by decide)
@[simp] theorem State.setSlip_ldg (a1 : Nat) (a2 : Slip) : (State.setSlip s a1 a2).ldg = s.ldg := (State.setSlip_onlyIn s a1 a2).2 .ldg (by decide)
@[simp] theorem State.setSlip_pwr (a1 : Nat) (a2 : Slip) : (State.setSlip s a1 a2).pwr = s.pwr := (State.setSlip_onlyIn s a1 a2).2 .pwr (by decide)
@[simp] theorem State.setSlip_obs (a1 : Nat) (a2 : Slip) : (State.setSlip s a1 a2).obs = s.obs := (State.setSlip_onlyIn s a1 a2).2 .obs (by decide)
@[simp] theorem State.setSlip_hostOut (a1 : Nat) (a2 : Slip) : (State.setSlip s a1 a2).hostOut = s.hostOut := (State.setSlip_onlyIn s a1 a2).2 .hostOut (by decide)

/-! State.setHolding -/

theorem State.setHolding_onlyIn (a1 : Holding) : OnlyIn [.kpr] s (State.setHolding s a1) :=
  Eff.onlyIn (State.setHolding_eff (F := fun c => decide (c ∈ [.kpr])) (.refl _ s) rfl a1)
@[simp] theorem State.setHolding_pending (a1 : Holding) : (State.setHolding s a1).pending = s.pending := (State.setHolding_onlyIn s a1).1
@[simp] theorem State.setHolding_freeCtr (a1 : Holding) : (State.setHolding s a1).freeCtr = s.freeCtr := (State.setHolding_onlyIn s a1).2 .freeCtr (by decide)
@[simp] theorem State.setHolding_rf (a1 : Holding) : (State.setHolding s a1).rf = s.rf := (State.setHolding_onlyIn s a1).2 .rf (by decide)
@[simp] theorem State.setHolding_mem (a1 : Holding) : (State.setHolding s a1).mem = s.mem := (State.setHolding_onlyIn s a1).2 .mem (by decide)
@[simp] theorem State.setHolding_ecc (a1 : Holding) : (State.setHolding s a1).ecc = s.ecc := (State.setHolding_onlyIn s a1).2 .ecc (by decide)
@[simp] theorem State.setHolding_curMem (a1 : Holding) : (State.setHolding s a1).curMem = s.curMem := (State.setHolding_onlyIn s a1).2 .curMem (by decide)
@[simp] theorem State.setHolding_pins (a1 : Holding) : (State.setHolding s a1).pins = s.pins := (State.setHolding_onlyIn s a1).2 .pins (by decide)
@[simp] theorem State.setHolding_tap (a1 : Holding) : (State.setHolding s a1).tap = s.tap := (State.setHolding_onlyIn s a1).2 .tap (by decide)
@[simp] theorem State.setHolding_smb (a1 : Holding) : (State.setHolding s a1).smb = s.smb := (State.setHolding_onlyIn s a1).2 .smb (by decide)
@[simp] theorem State.setHolding_ss (a1 : Holding) : (State.setHolding s a1).ss = s.ss := (State.setHolding_onlyIn s a1).2 .ss (by decide)
@[simp] theorem State.setHolding_boot (a1 : Holding) : (State.setHolding s a1).boot = s.boot := (State.setHolding_onlyIn s a1).2 .boot (by decide)
@[simp] theorem State.setHolding_stp (a1 : Holding) : (State.setHolding s a1).stp = s.stp := (State.setHolding_onlyIn s a1).2 .stp (by decide)
@[simp] theorem State.setHolding_cir (a1 : Holding) : (State.setHolding s a1).cir = s.cir := (State.setHolding_onlyIn s a1).2 .cir (by decide)
@[simp] theorem State.setHolding_cat (a1 : Holding) : (State.setHolding s a1).cat = s.cat := (State.setHolding_onlyIn s a1).2 .cat (by decide)
@[simp] theorem State.setHolding_bind (a1 : Holding) : (State.setHolding s a1).bind = s.bind := (State.setHolding_onlyIn s a1).2 .bind (by decide)
@[simp] theorem State.setHolding_shelves (a1 : Holding) : (State.setHolding s a1).shelves = s.shelves := (State.setHolding_onlyIn s a1).2 .shelves (by decide)
@[simp] theorem State.setHolding_iln (a1 : Holding) : (State.setHolding s a1).iln = s.iln := (State.setHolding_onlyIn s a1).2 .iln (by decide)
@[simp] theorem State.setHolding_crl (a1 : Holding) : (State.setHolding s a1).crl = s.crl := (State.setHolding_onlyIn s a1).2 .crl (by decide)
@[simp] theorem State.setHolding_bel (a1 : Holding) : (State.setHolding s a1).bel = s.bel := (State.setHolding_onlyIn s a1).2 .bel (by decide)
@[simp] theorem State.setHolding_ldg (a1 : Holding) : (State.setHolding s a1).ldg = s.ldg := (State.setHolding_onlyIn s a1).2 .ldg (by decide)
@[simp] theorem State.setHolding_pwr (a1 : Holding) : (State.setHolding s a1).pwr = s.pwr := (State.setHolding_onlyIn s a1).2 .pwr (by decide)
@[simp] theorem State.setHolding_obs (a1 : Holding) : (State.setHolding s a1).obs = s.obs := (State.setHolding_onlyIn s a1).2 .obs (by decide)
@[simp] theorem State.setHolding_hostOut (a1 : Holding) : (State.setHolding s a1).hostOut = s.hostOut := (State.setHolding_onlyIn s a1).2 .hostOut (by decide)

/-! State.queueMove -/

theorem State.queueMove_onlyIn (a1 : Holding) (a2 : Nat) (a3 : Option Nat) (a4 : MoveWhy) : OnlyIn [.kpr] s (State.queueMove s a1 a2 a3 a4) :=
  Eff.onlyIn (State.queueMove_eff (F := fun c => decide (c ∈ [.kpr])) (.refl _ s) rfl a1 a2 a3 a4)
@[simp] theorem State.queueMove_pending (a1 : Holding) (a2 : Nat) (a3 : Option Nat) (a4 : MoveWhy) : (State.queueMove s a1 a2 a3 a4).pending = s.pending := (State.queueMove_onlyIn s a1 a2 a3 a4).1
@[simp] theorem State.queueMove_freeCtr (a1 : Holding) (a2 : Nat) (a3 : Option Nat) (a4 : MoveWhy) : (State.queueMove s a1 a2 a3 a4).freeCtr = s.freeCtr := (State.queueMove_onlyIn s a1 a2 a3 a4).2 .freeCtr (by decide)
@[simp] theorem State.queueMove_rf (a1 : Holding) (a2 : Nat) (a3 : Option Nat) (a4 : MoveWhy) : (State.queueMove s a1 a2 a3 a4).rf = s.rf := (State.queueMove_onlyIn s a1 a2 a3 a4).2 .rf (by decide)
@[simp] theorem State.queueMove_mem (a1 : Holding) (a2 : Nat) (a3 : Option Nat) (a4 : MoveWhy) : (State.queueMove s a1 a2 a3 a4).mem = s.mem := (State.queueMove_onlyIn s a1 a2 a3 a4).2 .mem (by decide)
@[simp] theorem State.queueMove_ecc (a1 : Holding) (a2 : Nat) (a3 : Option Nat) (a4 : MoveWhy) : (State.queueMove s a1 a2 a3 a4).ecc = s.ecc := (State.queueMove_onlyIn s a1 a2 a3 a4).2 .ecc (by decide)
@[simp] theorem State.queueMove_curMem (a1 : Holding) (a2 : Nat) (a3 : Option Nat) (a4 : MoveWhy) : (State.queueMove s a1 a2 a3 a4).curMem = s.curMem := (State.queueMove_onlyIn s a1 a2 a3 a4).2 .curMem (by decide)
@[simp] theorem State.queueMove_pins (a1 : Holding) (a2 : Nat) (a3 : Option Nat) (a4 : MoveWhy) : (State.queueMove s a1 a2 a3 a4).pins = s.pins := (State.queueMove_onlyIn s a1 a2 a3 a4).2 .pins (by decide)
@[simp] theorem State.queueMove_tap (a1 : Holding) (a2 : Nat) (a3 : Option Nat) (a4 : MoveWhy) : (State.queueMove s a1 a2 a3 a4).tap = s.tap := (State.queueMove_onlyIn s a1 a2 a3 a4).2 .tap (by decide)
@[simp] theorem State.queueMove_smb (a1 : Holding) (a2 : Nat) (a3 : Option Nat) (a4 : MoveWhy) : (State.queueMove s a1 a2 a3 a4).smb = s.smb := (State.queueMove_onlyIn s a1 a2 a3 a4).2 .smb (by decide)
@[simp] theorem State.queueMove_ss (a1 : Holding) (a2 : Nat) (a3 : Option Nat) (a4 : MoveWhy) : (State.queueMove s a1 a2 a3 a4).ss = s.ss := (State.queueMove_onlyIn s a1 a2 a3 a4).2 .ss (by decide)
@[simp] theorem State.queueMove_boot (a1 : Holding) (a2 : Nat) (a3 : Option Nat) (a4 : MoveWhy) : (State.queueMove s a1 a2 a3 a4).boot = s.boot := (State.queueMove_onlyIn s a1 a2 a3 a4).2 .boot (by decide)
@[simp] theorem State.queueMove_stp (a1 : Holding) (a2 : Nat) (a3 : Option Nat) (a4 : MoveWhy) : (State.queueMove s a1 a2 a3 a4).stp = s.stp := (State.queueMove_onlyIn s a1 a2 a3 a4).2 .stp (by decide)
@[simp] theorem State.queueMove_cir (a1 : Holding) (a2 : Nat) (a3 : Option Nat) (a4 : MoveWhy) : (State.queueMove s a1 a2 a3 a4).cir = s.cir := (State.queueMove_onlyIn s a1 a2 a3 a4).2 .cir (by decide)
@[simp] theorem State.queueMove_cat (a1 : Holding) (a2 : Nat) (a3 : Option Nat) (a4 : MoveWhy) : (State.queueMove s a1 a2 a3 a4).cat = s.cat := (State.queueMove_onlyIn s a1 a2 a3 a4).2 .cat (by decide)
@[simp] theorem State.queueMove_bind (a1 : Holding) (a2 : Nat) (a3 : Option Nat) (a4 : MoveWhy) : (State.queueMove s a1 a2 a3 a4).bind = s.bind := (State.queueMove_onlyIn s a1 a2 a3 a4).2 .bind (by decide)
@[simp] theorem State.queueMove_shelves (a1 : Holding) (a2 : Nat) (a3 : Option Nat) (a4 : MoveWhy) : (State.queueMove s a1 a2 a3 a4).shelves = s.shelves := (State.queueMove_onlyIn s a1 a2 a3 a4).2 .shelves (by decide)
@[simp] theorem State.queueMove_iln (a1 : Holding) (a2 : Nat) (a3 : Option Nat) (a4 : MoveWhy) : (State.queueMove s a1 a2 a3 a4).iln = s.iln := (State.queueMove_onlyIn s a1 a2 a3 a4).2 .iln (by decide)
@[simp] theorem State.queueMove_crl (a1 : Holding) (a2 : Nat) (a3 : Option Nat) (a4 : MoveWhy) : (State.queueMove s a1 a2 a3 a4).crl = s.crl := (State.queueMove_onlyIn s a1 a2 a3 a4).2 .crl (by decide)
@[simp] theorem State.queueMove_bel (a1 : Holding) (a2 : Nat) (a3 : Option Nat) (a4 : MoveWhy) : (State.queueMove s a1 a2 a3 a4).bel = s.bel := (State.queueMove_onlyIn s a1 a2 a3 a4).2 .bel (by decide)
@[simp] theorem State.queueMove_ldg (a1 : Holding) (a2 : Nat) (a3 : Option Nat) (a4 : MoveWhy) : (State.queueMove s a1 a2 a3 a4).ldg = s.ldg := (State.queueMove_onlyIn s a1 a2 a3 a4).2 .ldg (by decide)
@[simp] theorem State.queueMove_pwr (a1 : Holding) (a2 : Nat) (a3 : Option Nat) (a4 : MoveWhy) : (State.queueMove s a1 a2 a3 a4).pwr = s.pwr := (State.queueMove_onlyIn s a1 a2 a3 a4).2 .pwr (by decide)
@[simp] theorem State.queueMove_obs (a1 : Holding) (a2 : Nat) (a3 : Option Nat) (a4 : MoveWhy) : (State.queueMove s a1 a2 a3 a4).obs = s.obs := (State.queueMove_onlyIn s a1 a2 a3 a4).2 .obs (by decide)
@[simp] theorem State.queueMove_hostOut (a1 : Holding) (a2 : Nat) (a3 : Option Nat) (a4 : MoveWhy) : (State.queueMove s a1 a2 a3 a4).hostOut = s.hostOut := (State.queueMove_onlyIn s a1 a2 a3 a4).2 .hostOut (by decide)

/-! State.retire -/

theorem State.retire_onlyIn (a1 : Nat) (a2 : Code) (a3 : optParam Bool false) : OnlyIn [.rf, .cir, .cat] s (State.retire s a1 a2 a3) :=
  Eff.onlyIn (State.retire_eff (F := fun c => decide (c ∈ [.rf, .cir, .cat])) (.refl _ s) rfl rfl rfl a1 a2 a3)
@[simp] theorem State.retire_pending (a1 : Nat) (a2 : Code) (a3 : optParam Bool false) : (State.retire s a1 a2 a3).pending = s.pending := (State.retire_onlyIn s a1 a2 a3).1
@[simp] theorem State.retire_freeCtr (a1 : Nat) (a2 : Code) (a3 : optParam Bool false) : (State.retire s a1 a2 a3).freeCtr = s.freeCtr := (State.retire_onlyIn s a1 a2 a3).2 .freeCtr (by decide)
@[simp] theorem State.retire_mem (a1 : Nat) (a2 : Code) (a3 : optParam Bool false) : (State.retire s a1 a2 a3).mem = s.mem := (State.retire_onlyIn s a1 a2 a3).2 .mem (by decide)
@[simp] theorem State.retire_ecc (a1 : Nat) (a2 : Code) (a3 : optParam Bool false) : (State.retire s a1 a2 a3).ecc = s.ecc := (State.retire_onlyIn s a1 a2 a3).2 .ecc (by decide)
@[simp] theorem State.retire_curMem (a1 : Nat) (a2 : Code) (a3 : optParam Bool false) : (State.retire s a1 a2 a3).curMem = s.curMem := (State.retire_onlyIn s a1 a2 a3).2 .curMem (by decide)
@[simp] theorem State.retire_pins (a1 : Nat) (a2 : Code) (a3 : optParam Bool false) : (State.retire s a1 a2 a3).pins = s.pins := (State.retire_onlyIn s a1 a2 a3).2 .pins (by decide)
@[simp] theorem State.retire_tap (a1 : Nat) (a2 : Code) (a3 : optParam Bool false) : (State.retire s a1 a2 a3).tap = s.tap := (State.retire_onlyIn s a1 a2 a3).2 .tap (by decide)
@[simp] theorem State.retire_smb (a1 : Nat) (a2 : Code) (a3 : optParam Bool false) : (State.retire s a1 a2 a3).smb = s.smb := (State.retire_onlyIn s a1 a2 a3).2 .smb (by decide)
@[simp] theorem State.retire_ss (a1 : Nat) (a2 : Code) (a3 : optParam Bool false) : (State.retire s a1 a2 a3).ss = s.ss := (State.retire_onlyIn s a1 a2 a3).2 .ss (by decide)
@[simp] theorem State.retire_boot (a1 : Nat) (a2 : Code) (a3 : optParam Bool false) : (State.retire s a1 a2 a3).boot = s.boot := (State.retire_onlyIn s a1 a2 a3).2 .boot (by decide)
@[simp] theorem State.retire_stp (a1 : Nat) (a2 : Code) (a3 : optParam Bool false) : (State.retire s a1 a2 a3).stp = s.stp := (State.retire_onlyIn s a1 a2 a3).2 .stp (by decide)
@[simp] theorem State.retire_bind (a1 : Nat) (a2 : Code) (a3 : optParam Bool false) : (State.retire s a1 a2 a3).bind = s.bind := (State.retire_onlyIn s a1 a2 a3).2 .bind (by decide)
@[simp] theorem State.retire_shelves (a1 : Nat) (a2 : Code) (a3 : optParam Bool false) : (State.retire s a1 a2 a3).shelves = s.shelves := (State.retire_onlyIn s a1 a2 a3).2 .shelves (by decide)
@[simp] theorem State.retire_kpr (a1 : Nat) (a2 : Code) (a3 : optParam Bool false) : (State.retire s a1 a2 a3).kpr = s.kpr := (State.retire_onlyIn s a1 a2 a3).2 .kpr (by decide)
@[simp] theorem State.retire_iln (a1 : Nat) (a2 : Code) (a3 : optParam Bool false) : (State.retire s a1 a2 a3).iln = s.iln := (State.retire_onlyIn s a1 a2 a3).2 .iln (by decide)
@[simp] theorem State.retire_crl (a1 : Nat) (a2 : Code) (a3 : optParam Bool false) : (State.retire s a1 a2 a3).crl = s.crl := (State.retire_onlyIn s a1 a2 a3).2 .crl (by decide)
@[simp] theorem State.retire_bel (a1 : Nat) (a2 : Code) (a3 : optParam Bool false) : (State.retire s a1 a2 a3).bel = s.bel := (State.retire_onlyIn s a1 a2 a3).2 .bel (by decide)
@[simp] theorem State.retire_ldg (a1 : Nat) (a2 : Code) (a3 : optParam Bool false) : (State.retire s a1 a2 a3).ldg = s.ldg := (State.retire_onlyIn s a1 a2 a3).2 .ldg (by decide)
@[simp] theorem State.retire_pwr (a1 : Nat) (a2 : Code) (a3 : optParam Bool false) : (State.retire s a1 a2 a3).pwr = s.pwr := (State.retire_onlyIn s a1 a2 a3).2 .pwr (by decide)
@[simp] theorem State.retire_obs (a1 : Nat) (a2 : Code) (a3 : optParam Bool false) : (State.retire s a1 a2 a3).obs = s.obs := (State.retire_onlyIn s a1 a2 a3).2 .obs (by decide)
@[simp] theorem State.retire_hostOut (a1 : Nat) (a2 : Code) (a3 : optParam Bool false) : (State.retire s a1 a2 a3).hostOut = s.hostOut := (State.retire_onlyIn s a1 a2 a3).2 .hostOut (by decide)

/-! State.mboxReply -/

theorem State.mboxReply_onlyIn (a1 : Nat) (a2 : List Word) : OnlyIn [.rf, .iln, .hostOut] s (State.mboxReply s a1 a2) :=
  Eff.onlyIn (State.mboxReply_eff (F := fun c => decide (c ∈ [.rf, .iln, .hostOut])) (.refl _ s) rfl rfl rfl a1 a2)
@[simp] theorem State.mboxReply_pending (a1 : Nat) (a2 : List Word) : (State.mboxReply s a1 a2).pending = s.pending := (State.mboxReply_onlyIn s a1 a2).1
@[simp] theorem State.mboxReply_freeCtr (a1 : Nat) (a2 : List Word) : (State.mboxReply s a1 a2).freeCtr = s.freeCtr := (State.mboxReply_onlyIn s a1 a2).2 .freeCtr (by decide)
@[simp] theorem State.mboxReply_mem (a1 : Nat) (a2 : List Word) : (State.mboxReply s a1 a2).mem = s.mem := (State.mboxReply_onlyIn s a1 a2).2 .mem (by decide)
@[simp] theorem State.mboxReply_ecc (a1 : Nat) (a2 : List Word) : (State.mboxReply s a1 a2).ecc = s.ecc := (State.mboxReply_onlyIn s a1 a2).2 .ecc (by decide)
@[simp] theorem State.mboxReply_curMem (a1 : Nat) (a2 : List Word) : (State.mboxReply s a1 a2).curMem = s.curMem := (State.mboxReply_onlyIn s a1 a2).2 .curMem (by decide)
@[simp] theorem State.mboxReply_pins (a1 : Nat) (a2 : List Word) : (State.mboxReply s a1 a2).pins = s.pins := (State.mboxReply_onlyIn s a1 a2).2 .pins (by decide)
@[simp] theorem State.mboxReply_tap (a1 : Nat) (a2 : List Word) : (State.mboxReply s a1 a2).tap = s.tap := (State.mboxReply_onlyIn s a1 a2).2 .tap (by decide)
@[simp] theorem State.mboxReply_smb (a1 : Nat) (a2 : List Word) : (State.mboxReply s a1 a2).smb = s.smb := (State.mboxReply_onlyIn s a1 a2).2 .smb (by decide)
@[simp] theorem State.mboxReply_ss (a1 : Nat) (a2 : List Word) : (State.mboxReply s a1 a2).ss = s.ss := (State.mboxReply_onlyIn s a1 a2).2 .ss (by decide)
@[simp] theorem State.mboxReply_boot (a1 : Nat) (a2 : List Word) : (State.mboxReply s a1 a2).boot = s.boot := (State.mboxReply_onlyIn s a1 a2).2 .boot (by decide)
@[simp] theorem State.mboxReply_stp (a1 : Nat) (a2 : List Word) : (State.mboxReply s a1 a2).stp = s.stp := (State.mboxReply_onlyIn s a1 a2).2 .stp (by decide)
@[simp] theorem State.mboxReply_cir (a1 : Nat) (a2 : List Word) : (State.mboxReply s a1 a2).cir = s.cir := (State.mboxReply_onlyIn s a1 a2).2 .cir (by decide)
@[simp] theorem State.mboxReply_cat (a1 : Nat) (a2 : List Word) : (State.mboxReply s a1 a2).cat = s.cat := (State.mboxReply_onlyIn s a1 a2).2 .cat (by decide)
@[simp] theorem State.mboxReply_bind (a1 : Nat) (a2 : List Word) : (State.mboxReply s a1 a2).bind = s.bind := (State.mboxReply_onlyIn s a1 a2).2 .bind (by decide)
@[simp] theorem State.mboxReply_shelves (a1 : Nat) (a2 : List Word) : (State.mboxReply s a1 a2).shelves = s.shelves := (State.mboxReply_onlyIn s a1 a2).2 .shelves (by decide)
@[simp] theorem State.mboxReply_kpr (a1 : Nat) (a2 : List Word) : (State.mboxReply s a1 a2).kpr = s.kpr := (State.mboxReply_onlyIn s a1 a2).2 .kpr (by decide)
@[simp] theorem State.mboxReply_crl (a1 : Nat) (a2 : List Word) : (State.mboxReply s a1 a2).crl = s.crl := (State.mboxReply_onlyIn s a1 a2).2 .crl (by decide)
@[simp] theorem State.mboxReply_bel (a1 : Nat) (a2 : List Word) : (State.mboxReply s a1 a2).bel = s.bel := (State.mboxReply_onlyIn s a1 a2).2 .bel (by decide)
@[simp] theorem State.mboxReply_ldg (a1 : Nat) (a2 : List Word) : (State.mboxReply s a1 a2).ldg = s.ldg := (State.mboxReply_onlyIn s a1 a2).2 .ldg (by decide)
@[simp] theorem State.mboxReply_pwr (a1 : Nat) (a2 : List Word) : (State.mboxReply s a1 a2).pwr = s.pwr := (State.mboxReply_onlyIn s a1 a2).2 .pwr (by decide)
@[simp] theorem State.mboxReply_obs (a1 : Nat) (a2 : List Word) : (State.mboxReply s a1 a2).obs = s.obs := (State.mboxReply_onlyIn s a1 a2).2 .obs (by decide)

/-! State.wfgDone -/

theorem State.wfgDone_onlyIn  : OnlyIn [.freeCtr, .rf, .mem, .ecc, .cir, .cat, .bind, .shelves, .kpr, .iln, .bel, .ldg, .obs] s (State.wfgDone s) :=
  Eff.onlyIn (State.wfgDone_eff (F := fun c => decide (c ∈ [.freeCtr, .rf, .mem, .ecc, .cir, .cat, .bind, .shelves, .kpr, .iln, .bel, .ldg, .obs])) (.refl _ s) rfl rfl rfl rfl rfl rfl rfl rfl rfl rfl rfl rfl rfl)
@[simp] theorem State.wfgDone_pending  : (State.wfgDone s).pending = s.pending := (State.wfgDone_onlyIn s ).1
@[simp] theorem State.wfgDone_curMem  : (State.wfgDone s).curMem = s.curMem := (State.wfgDone_onlyIn s ).2 .curMem (by decide)
@[simp] theorem State.wfgDone_pins  : (State.wfgDone s).pins = s.pins := (State.wfgDone_onlyIn s ).2 .pins (by decide)
@[simp] theorem State.wfgDone_tap  : (State.wfgDone s).tap = s.tap := (State.wfgDone_onlyIn s ).2 .tap (by decide)
@[simp] theorem State.wfgDone_smb  : (State.wfgDone s).smb = s.smb := (State.wfgDone_onlyIn s ).2 .smb (by decide)
@[simp] theorem State.wfgDone_ss  : (State.wfgDone s).ss = s.ss := (State.wfgDone_onlyIn s ).2 .ss (by decide)
@[simp] theorem State.wfgDone_boot  : (State.wfgDone s).boot = s.boot := (State.wfgDone_onlyIn s ).2 .boot (by decide)
@[simp] theorem State.wfgDone_stp  : (State.wfgDone s).stp = s.stp := (State.wfgDone_onlyIn s ).2 .stp (by decide)
@[simp] theorem State.wfgDone_crl  : (State.wfgDone s).crl = s.crl := (State.wfgDone_onlyIn s ).2 .crl (by decide)
@[simp] theorem State.wfgDone_pwr  : (State.wfgDone s).pwr = s.pwr := (State.wfgDone_onlyIn s ).2 .pwr (by decide)
@[simp] theorem State.wfgDone_hostOut  : (State.wfgDone s).hostOut = s.hostOut := (State.wfgDone_onlyIn s ).2 .hostOut (by decide)

/-! State.linkDown -/

theorem State.linkDown_onlyIn (a1 : Nat) : OnlyIn [.rf, .kpr, .iln, .bel, .ldg] s (State.linkDown s a1) :=
  Eff.onlyIn (State.linkDown_eff (F := fun c => decide (c ∈ [.rf, .kpr, .iln, .bel, .ldg])) (.refl _ s) rfl rfl rfl rfl rfl a1)
@[simp] theorem State.linkDown_pending (a1 : Nat) : (State.linkDown s a1).pending = s.pending := (State.linkDown_onlyIn s a1).1
@[simp] theorem State.linkDown_freeCtr (a1 : Nat) : (State.linkDown s a1).freeCtr = s.freeCtr := (State.linkDown_onlyIn s a1).2 .freeCtr (by decide)
@[simp] theorem State.linkDown_mem (a1 : Nat) : (State.linkDown s a1).mem = s.mem := (State.linkDown_onlyIn s a1).2 .mem (by decide)
@[simp] theorem State.linkDown_ecc (a1 : Nat) : (State.linkDown s a1).ecc = s.ecc := (State.linkDown_onlyIn s a1).2 .ecc (by decide)
@[simp] theorem State.linkDown_curMem (a1 : Nat) : (State.linkDown s a1).curMem = s.curMem := (State.linkDown_onlyIn s a1).2 .curMem (by decide)
@[simp] theorem State.linkDown_pins (a1 : Nat) : (State.linkDown s a1).pins = s.pins := (State.linkDown_onlyIn s a1).2 .pins (by decide)
@[simp] theorem State.linkDown_tap (a1 : Nat) : (State.linkDown s a1).tap = s.tap := (State.linkDown_onlyIn s a1).2 .tap (by decide)
@[simp] theorem State.linkDown_smb (a1 : Nat) : (State.linkDown s a1).smb = s.smb := (State.linkDown_onlyIn s a1).2 .smb (by decide)
@[simp] theorem State.linkDown_ss (a1 : Nat) : (State.linkDown s a1).ss = s.ss := (State.linkDown_onlyIn s a1).2 .ss (by decide)
@[simp] theorem State.linkDown_boot (a1 : Nat) : (State.linkDown s a1).boot = s.boot := (State.linkDown_onlyIn s a1).2 .boot (by decide)
@[simp] theorem State.linkDown_stp (a1 : Nat) : (State.linkDown s a1).stp = s.stp := (State.linkDown_onlyIn s a1).2 .stp (by decide)
@[simp] theorem State.linkDown_cir (a1 : Nat) : (State.linkDown s a1).cir = s.cir := (State.linkDown_onlyIn s a1).2 .cir (by decide)
@[simp] theorem State.linkDown_cat (a1 : Nat) : (State.linkDown s a1).cat = s.cat := (State.linkDown_onlyIn s a1).2 .cat (by decide)
@[simp] theorem State.linkDown_bind (a1 : Nat) : (State.linkDown s a1).bind = s.bind := (State.linkDown_onlyIn s a1).2 .bind (by decide)
@[simp] theorem State.linkDown_shelves (a1 : Nat) : (State.linkDown s a1).shelves = s.shelves := (State.linkDown_onlyIn s a1).2 .shelves (by decide)
@[simp] theorem State.linkDown_crl (a1 : Nat) : (State.linkDown s a1).crl = s.crl := (State.linkDown_onlyIn s a1).2 .crl (by decide)
@[simp] theorem State.linkDown_pwr (a1 : Nat) : (State.linkDown s a1).pwr = s.pwr := (State.linkDown_onlyIn s a1).2 .pwr (by decide)
@[simp] theorem State.linkDown_obs (a1 : Nat) : (State.linkDown s a1).obs = s.obs := (State.linkDown_onlyIn s a1).2 .obs (by decide)
@[simp] theorem State.linkDown_hostOut (a1 : Nat) : (State.linkDown s a1).hostOut = s.hostOut := (State.linkDown_onlyIn s a1).2 .hostOut (by decide)

/-! State.ringOff -/

theorem State.ringOff_onlyIn (a1 : Nat) : OnlyIn [.freeCtr, .rf, .mem, .ecc, .cir, .cat, .bind, .shelves, .kpr, .bel, .ldg, .pwr, .obs] s (State.ringOff s a1) :=
  Eff.onlyIn (State.ringOff_eff (F := fun c => decide (c ∈ [.freeCtr, .rf, .mem, .ecc, .cir, .cat, .bind, .shelves, .kpr, .bel, .ldg, .pwr, .obs])) (.refl _ s) rfl rfl rfl rfl rfl rfl rfl rfl rfl rfl rfl rfl rfl a1)
@[simp] theorem State.ringOff_pending (a1 : Nat) : (State.ringOff s a1).pending = s.pending := (State.ringOff_onlyIn s a1).1
@[simp] theorem State.ringOff_curMem (a1 : Nat) : (State.ringOff s a1).curMem = s.curMem := (State.ringOff_onlyIn s a1).2 .curMem (by decide)
@[simp] theorem State.ringOff_pins (a1 : Nat) : (State.ringOff s a1).pins = s.pins := (State.ringOff_onlyIn s a1).2 .pins (by decide)
@[simp] theorem State.ringOff_tap (a1 : Nat) : (State.ringOff s a1).tap = s.tap := (State.ringOff_onlyIn s a1).2 .tap (by decide)
@[simp] theorem State.ringOff_smb (a1 : Nat) : (State.ringOff s a1).smb = s.smb := (State.ringOff_onlyIn s a1).2 .smb (by decide)
@[simp] theorem State.ringOff_ss (a1 : Nat) : (State.ringOff s a1).ss = s.ss := (State.ringOff_onlyIn s a1).2 .ss (by decide)
@[simp] theorem State.ringOff_boot (a1 : Nat) : (State.ringOff s a1).boot = s.boot := (State.ringOff_onlyIn s a1).2 .boot (by decide)
@[simp] theorem State.ringOff_stp (a1 : Nat) : (State.ringOff s a1).stp = s.stp := (State.ringOff_onlyIn s a1).2 .stp (by decide)
@[simp] theorem State.ringOff_iln (a1 : Nat) : (State.ringOff s a1).iln = s.iln := (State.ringOff_onlyIn s a1).2 .iln (by decide)
@[simp] theorem State.ringOff_crl (a1 : Nat) : (State.ringOff s a1).crl = s.crl := (State.ringOff_onlyIn s a1).2 .crl (by decide)
@[simp] theorem State.ringOff_hostOut (a1 : Nat) : (State.ringOff s a1).hostOut = s.hostOut := (State.ringOff_onlyIn s a1).2 .hostOut (by decide)

/-! State.memRefused -/

theorem State.memRefused_onlyIn (a1 : Nat) (a2 : Nat) (a3 : optParam Nat 0) : OnlyIn [.rf, .ldg] s (State.memRefused s a1 a2 a3) :=
  Eff.onlyIn (State.memRefused_eff (F := fun c => decide (c ∈ [.rf, .ldg])) (.refl _ s) rfl rfl a1 a2 a3)
@[simp] theorem State.memRefused_pending (a1 : Nat) (a2 : Nat) (a3 : optParam Nat 0) : (State.memRefused s a1 a2 a3).pending = s.pending := (State.memRefused_onlyIn s a1 a2 a3).1
@[simp] theorem State.memRefused_freeCtr (a1 : Nat) (a2 : Nat) (a3 : optParam Nat 0) : (State.memRefused s a1 a2 a3).freeCtr = s.freeCtr := (State.memRefused_onlyIn s a1 a2 a3).2 .freeCtr (by decide)
@[simp] theorem State.memRefused_mem (a1 : Nat) (a2 : Nat) (a3 : optParam Nat 0) : (State.memRefused s a1 a2 a3).mem = s.mem := (State.memRefused_onlyIn s a1 a2 a3).2 .mem (by decide)
@[simp] theorem State.memRefused_ecc (a1 : Nat) (a2 : Nat) (a3 : optParam Nat 0) : (State.memRefused s a1 a2 a3).ecc = s.ecc := (State.memRefused_onlyIn s a1 a2 a3).2 .ecc (by decide)
@[simp] theorem State.memRefused_curMem (a1 : Nat) (a2 : Nat) (a3 : optParam Nat 0) : (State.memRefused s a1 a2 a3).curMem = s.curMem := (State.memRefused_onlyIn s a1 a2 a3).2 .curMem (by decide)
@[simp] theorem State.memRefused_pins (a1 : Nat) (a2 : Nat) (a3 : optParam Nat 0) : (State.memRefused s a1 a2 a3).pins = s.pins := (State.memRefused_onlyIn s a1 a2 a3).2 .pins (by decide)
@[simp] theorem State.memRefused_tap (a1 : Nat) (a2 : Nat) (a3 : optParam Nat 0) : (State.memRefused s a1 a2 a3).tap = s.tap := (State.memRefused_onlyIn s a1 a2 a3).2 .tap (by decide)
@[simp] theorem State.memRefused_smb (a1 : Nat) (a2 : Nat) (a3 : optParam Nat 0) : (State.memRefused s a1 a2 a3).smb = s.smb := (State.memRefused_onlyIn s a1 a2 a3).2 .smb (by decide)
@[simp] theorem State.memRefused_ss (a1 : Nat) (a2 : Nat) (a3 : optParam Nat 0) : (State.memRefused s a1 a2 a3).ss = s.ss := (State.memRefused_onlyIn s a1 a2 a3).2 .ss (by decide)
@[simp] theorem State.memRefused_boot (a1 : Nat) (a2 : Nat) (a3 : optParam Nat 0) : (State.memRefused s a1 a2 a3).boot = s.boot := (State.memRefused_onlyIn s a1 a2 a3).2 .boot (by decide)
@[simp] theorem State.memRefused_stp (a1 : Nat) (a2 : Nat) (a3 : optParam Nat 0) : (State.memRefused s a1 a2 a3).stp = s.stp := (State.memRefused_onlyIn s a1 a2 a3).2 .stp (by decide)
@[simp] theorem State.memRefused_cir (a1 : Nat) (a2 : Nat) (a3 : optParam Nat 0) : (State.memRefused s a1 a2 a3).cir = s.cir := (State.memRefused_onlyIn s a1 a2 a3).2 .cir (by decide)
@[simp] theorem State.memRefused_cat (a1 : Nat) (a2 : Nat) (a3 : optParam Nat 0) : (State.memRefused s a1 a2 a3).cat = s.cat := (State.memRefused_onlyIn s a1 a2 a3).2 .cat (by decide)
@[simp] theorem State.memRefused_bind (a1 : Nat) (a2 : Nat) (a3 : optParam Nat 0) : (State.memRefused s a1 a2 a3).bind = s.bind := (State.memRefused_onlyIn s a1 a2 a3).2 .bind (by decide)
@[simp] theorem State.memRefused_shelves (a1 : Nat) (a2 : Nat) (a3 : optParam Nat 0) : (State.memRefused s a1 a2 a3).shelves = s.shelves := (State.memRefused_onlyIn s a1 a2 a3).2 .shelves (by decide)
@[simp] theorem State.memRefused_kpr (a1 : Nat) (a2 : Nat) (a3 : optParam Nat 0) : (State.memRefused s a1 a2 a3).kpr = s.kpr := (State.memRefused_onlyIn s a1 a2 a3).2 .kpr (by decide)
@[simp] theorem State.memRefused_iln (a1 : Nat) (a2 : Nat) (a3 : optParam Nat 0) : (State.memRefused s a1 a2 a3).iln = s.iln := (State.memRefused_onlyIn s a1 a2 a3).2 .iln (by decide)
@[simp] theorem State.memRefused_crl (a1 : Nat) (a2 : Nat) (a3 : optParam Nat 0) : (State.memRefused s a1 a2 a3).crl = s.crl := (State.memRefused_onlyIn s a1 a2 a3).2 .crl (by decide)
@[simp] theorem State.memRefused_bel (a1 : Nat) (a2 : Nat) (a3 : optParam Nat 0) : (State.memRefused s a1 a2 a3).bel = s.bel := (State.memRefused_onlyIn s a1 a2 a3).2 .bel (by decide)
@[simp] theorem State.memRefused_pwr (a1 : Nat) (a2 : Nat) (a3 : optParam Nat 0) : (State.memRefused s a1 a2 a3).pwr = s.pwr := (State.memRefused_onlyIn s a1 a2 a3).2 .pwr (by decide)
@[simp] theorem State.memRefused_obs (a1 : Nat) (a2 : Nat) (a3 : optParam Nat 0) : (State.memRefused s a1 a2 a3).obs = s.obs := (State.memRefused_onlyIn s a1 a2 a3).2 .obs (by decide)
@[simp] theorem State.memRefused_hostOut (a1 : Nat) (a2 : Nat) (a3 : optParam Nat 0) : (State.memRefused s a1 a2 a3).hostOut = s.hostOut := (State.memRefused_onlyIn s a1 a2 a3).2 .hostOut (by decide)

/-! State.watch -/

theorem State.watch_onlyIn (a1 : Nat) (a2 : AccessKind) (a3 : Nat) (a4 : Nat) : OnlyIn [.rf, .bel, .ldg, .obs] s (State.watch s a1 a2 a3 a4) :=
  Eff.onlyIn (State.watch_eff (F := fun c => decide (c ∈ [.rf, .bel, .ldg, .obs])) (.refl _ s) rfl rfl rfl rfl a1 a2 a3 a4)
@[simp] theorem State.watch_pending (a1 : Nat) (a2 : AccessKind) (a3 : Nat) (a4 : Nat) : (State.watch s a1 a2 a3 a4).pending = s.pending := (State.watch_onlyIn s a1 a2 a3 a4).1
@[simp] theorem State.watch_freeCtr (a1 : Nat) (a2 : AccessKind) (a3 : Nat) (a4 : Nat) : (State.watch s a1 a2 a3 a4).freeCtr = s.freeCtr := (State.watch_onlyIn s a1 a2 a3 a4).2 .freeCtr (by decide)
@[simp] theorem State.watch_mem (a1 : Nat) (a2 : AccessKind) (a3 : Nat) (a4 : Nat) : (State.watch s a1 a2 a3 a4).mem = s.mem := (State.watch_onlyIn s a1 a2 a3 a4).2 .mem (by decide)
@[simp] theorem State.watch_ecc (a1 : Nat) (a2 : AccessKind) (a3 : Nat) (a4 : Nat) : (State.watch s a1 a2 a3 a4).ecc = s.ecc := (State.watch_onlyIn s a1 a2 a3 a4).2 .ecc (by decide)
@[simp] theorem State.watch_curMem (a1 : Nat) (a2 : AccessKind) (a3 : Nat) (a4 : Nat) : (State.watch s a1 a2 a3 a4).curMem = s.curMem := (State.watch_onlyIn s a1 a2 a3 a4).2 .curMem (by decide)
@[simp] theorem State.watch_pins (a1 : Nat) (a2 : AccessKind) (a3 : Nat) (a4 : Nat) : (State.watch s a1 a2 a3 a4).pins = s.pins := (State.watch_onlyIn s a1 a2 a3 a4).2 .pins (by decide)
@[simp] theorem State.watch_tap (a1 : Nat) (a2 : AccessKind) (a3 : Nat) (a4 : Nat) : (State.watch s a1 a2 a3 a4).tap = s.tap := (State.watch_onlyIn s a1 a2 a3 a4).2 .tap (by decide)
@[simp] theorem State.watch_smb (a1 : Nat) (a2 : AccessKind) (a3 : Nat) (a4 : Nat) : (State.watch s a1 a2 a3 a4).smb = s.smb := (State.watch_onlyIn s a1 a2 a3 a4).2 .smb (by decide)
@[simp] theorem State.watch_ss (a1 : Nat) (a2 : AccessKind) (a3 : Nat) (a4 : Nat) : (State.watch s a1 a2 a3 a4).ss = s.ss := (State.watch_onlyIn s a1 a2 a3 a4).2 .ss (by decide)
@[simp] theorem State.watch_boot (a1 : Nat) (a2 : AccessKind) (a3 : Nat) (a4 : Nat) : (State.watch s a1 a2 a3 a4).boot = s.boot := (State.watch_onlyIn s a1 a2 a3 a4).2 .boot (by decide)
@[simp] theorem State.watch_stp (a1 : Nat) (a2 : AccessKind) (a3 : Nat) (a4 : Nat) : (State.watch s a1 a2 a3 a4).stp = s.stp := (State.watch_onlyIn s a1 a2 a3 a4).2 .stp (by decide)
@[simp] theorem State.watch_cir (a1 : Nat) (a2 : AccessKind) (a3 : Nat) (a4 : Nat) : (State.watch s a1 a2 a3 a4).cir = s.cir := (State.watch_onlyIn s a1 a2 a3 a4).2 .cir (by decide)
@[simp] theorem State.watch_cat (a1 : Nat) (a2 : AccessKind) (a3 : Nat) (a4 : Nat) : (State.watch s a1 a2 a3 a4).cat = s.cat := (State.watch_onlyIn s a1 a2 a3 a4).2 .cat (by decide)
@[simp] theorem State.watch_bind (a1 : Nat) (a2 : AccessKind) (a3 : Nat) (a4 : Nat) : (State.watch s a1 a2 a3 a4).bind = s.bind := (State.watch_onlyIn s a1 a2 a3 a4).2 .bind (by decide)
@[simp] theorem State.watch_shelves (a1 : Nat) (a2 : AccessKind) (a3 : Nat) (a4 : Nat) : (State.watch s a1 a2 a3 a4).shelves = s.shelves := (State.watch_onlyIn s a1 a2 a3 a4).2 .shelves (by decide)
@[simp] theorem State.watch_kpr (a1 : Nat) (a2 : AccessKind) (a3 : Nat) (a4 : Nat) : (State.watch s a1 a2 a3 a4).kpr = s.kpr := (State.watch_onlyIn s a1 a2 a3 a4).2 .kpr (by decide)
@[simp] theorem State.watch_iln (a1 : Nat) (a2 : AccessKind) (a3 : Nat) (a4 : Nat) : (State.watch s a1 a2 a3 a4).iln = s.iln := (State.watch_onlyIn s a1 a2 a3 a4).2 .iln (by decide)
@[simp] theorem State.watch_crl (a1 : Nat) (a2 : AccessKind) (a3 : Nat) (a4 : Nat) : (State.watch s a1 a2 a3 a4).crl = s.crl := (State.watch_onlyIn s a1 a2 a3 a4).2 .crl (by decide)
@[simp] theorem State.watch_pwr (a1 : Nat) (a2 : AccessKind) (a3 : Nat) (a4 : Nat) : (State.watch s a1 a2 a3 a4).pwr = s.pwr := (State.watch_onlyIn s a1 a2 a3 a4).2 .pwr (by decide)
@[simp] theorem State.watch_hostOut (a1 : Nat) (a2 : AccessKind) (a3 : Nat) (a4 : Nat) : (State.watch s a1 a2 a3 a4).hostOut = s.hostOut := (State.watch_onlyIn s a1 a2 a3 a4).2 .hostOut (by decide)

/-! State.readFor -/

theorem State.readFor_onlyIn (a1 : Nat) (a2 : Nat) (a3 : Nat) (a4 : optParam Nat 0) : OnlyIn [.rf, .ecc, .kpr, .bel, .ldg, .obs] s (State.readFor s a1 a2 a3 a4).1 :=
  (EffP.fst (State.readFor_eff (F := fun c => decide (c ∈ [.rf, .ecc, .kpr, .bel, .ldg, .obs])) (.refl _ s) rfl rfl rfl rfl rfl rfl a1 a2 a3 a4)).onlyIn
@[simp] theorem State.readFor_pending (a1 : Nat) (a2 : Nat) (a3 : Nat) (a4 : optParam Nat 0) : (State.readFor s a1 a2 a3 a4).1.pending = s.pending := (State.readFor_onlyIn s a1 a2 a3 a4).1
@[simp] theorem State.readFor_freeCtr (a1 : Nat) (a2 : Nat) (a3 : Nat) (a4 : optParam Nat 0) : (State.readFor s a1 a2 a3 a4).1.freeCtr = s.freeCtr := (State.readFor_onlyIn s a1 a2 a3 a4).2 .freeCtr (by decide)
@[simp] theorem State.readFor_mem (a1 : Nat) (a2 : Nat) (a3 : Nat) (a4 : optParam Nat 0) : (State.readFor s a1 a2 a3 a4).1.mem = s.mem := (State.readFor_onlyIn s a1 a2 a3 a4).2 .mem (by decide)
@[simp] theorem State.readFor_curMem (a1 : Nat) (a2 : Nat) (a3 : Nat) (a4 : optParam Nat 0) : (State.readFor s a1 a2 a3 a4).1.curMem = s.curMem := (State.readFor_onlyIn s a1 a2 a3 a4).2 .curMem (by decide)
@[simp] theorem State.readFor_pins (a1 : Nat) (a2 : Nat) (a3 : Nat) (a4 : optParam Nat 0) : (State.readFor s a1 a2 a3 a4).1.pins = s.pins := (State.readFor_onlyIn s a1 a2 a3 a4).2 .pins (by decide)
@[simp] theorem State.readFor_tap (a1 : Nat) (a2 : Nat) (a3 : Nat) (a4 : optParam Nat 0) : (State.readFor s a1 a2 a3 a4).1.tap = s.tap := (State.readFor_onlyIn s a1 a2 a3 a4).2 .tap (by decide)
@[simp] theorem State.readFor_smb (a1 : Nat) (a2 : Nat) (a3 : Nat) (a4 : optParam Nat 0) : (State.readFor s a1 a2 a3 a4).1.smb = s.smb := (State.readFor_onlyIn s a1 a2 a3 a4).2 .smb (by decide)
@[simp] theorem State.readFor_ss (a1 : Nat) (a2 : Nat) (a3 : Nat) (a4 : optParam Nat 0) : (State.readFor s a1 a2 a3 a4).1.ss = s.ss := (State.readFor_onlyIn s a1 a2 a3 a4).2 .ss (by decide)
@[simp] theorem State.readFor_boot (a1 : Nat) (a2 : Nat) (a3 : Nat) (a4 : optParam Nat 0) : (State.readFor s a1 a2 a3 a4).1.boot = s.boot := (State.readFor_onlyIn s a1 a2 a3 a4).2 .boot (by decide)
@[simp] theorem State.readFor_stp (a1 : Nat) (a2 : Nat) (a3 : Nat) (a4 : optParam Nat 0) : (State.readFor s a1 a2 a3 a4).1.stp = s.stp := (State.readFor_onlyIn s a1 a2 a3 a4).2 .stp (by decide)
@[simp] theorem State.readFor_cir (a1 : Nat) (a2 : Nat) (a3 : Nat) (a4 : optParam Nat 0) : (State.readFor s a1 a2 a3 a4).1.cir = s.cir := (State.readFor_onlyIn s a1 a2 a3 a4).2 .cir (by decide)
@[simp] theorem State.readFor_cat (a1 : Nat) (a2 : Nat) (a3 : Nat) (a4 : optParam Nat 0) : (State.readFor s a1 a2 a3 a4).1.cat = s.cat := (State.readFor_onlyIn s a1 a2 a3 a4).2 .cat (by decide)
@[simp] theorem State.readFor_bind (a1 : Nat) (a2 : Nat) (a3 : Nat) (a4 : optParam Nat 0) : (State.readFor s a1 a2 a3 a4).1.bind = s.bind := (State.readFor_onlyIn s a1 a2 a3 a4).2 .bind (by decide)
@[simp] theorem State.readFor_shelves (a1 : Nat) (a2 : Nat) (a3 : Nat) (a4 : optParam Nat 0) : (State.readFor s a1 a2 a3 a4).1.shelves = s.shelves := (State.readFor_onlyIn s a1 a2 a3 a4).2 .shelves (by decide)
@[simp] theorem State.readFor_iln (a1 : Nat) (a2 : Nat) (a3 : Nat) (a4 : optParam Nat 0) : (State.readFor s a1 a2 a3 a4).1.iln = s.iln := (State.readFor_onlyIn s a1 a2 a3 a4).2 .iln (by decide)
@[simp] theorem State.readFor_crl (a1 : Nat) (a2 : Nat) (a3 : Nat) (a4 : optParam Nat 0) : (State.readFor s a1 a2 a3 a4).1.crl = s.crl := (State.readFor_onlyIn s a1 a2 a3 a4).2 .crl (by decide)
@[simp] theorem State.readFor_pwr (a1 : Nat) (a2 : Nat) (a3 : Nat) (a4 : optParam Nat 0) : (State.readFor s a1 a2 a3 a4).1.pwr = s.pwr := (State.readFor_onlyIn s a1 a2 a3 a4).2 .pwr (by decide)
@[simp] theorem State.readFor_hostOut (a1 : Nat) (a2 : Nat) (a3 : Nat) (a4 : optParam Nat 0) : (State.readFor s a1 a2 a3 a4).1.hostOut = s.hostOut := (State.readFor_onlyIn s a1 a2 a3 a4).2 .hostOut (by decide)

/-! State.writeFor -/

theorem State.writeFor_onlyIn (a1 : Nat) (a2 : Nat) (a3 : List Byte) (a4 : optParam Nat 0) : OnlyIn [.freeCtr, .rf, .mem, .ecc, .kpr, .bel, .ldg, .obs] s (State.writeFor s a1 a2 a3 a4).1 :=
  (EffP.fst (State.writeFor_eff (F := fun c => decide (c ∈ [.freeCtr, .rf, .mem, .ecc, .kpr, .bel, .ldg, .obs])) (.refl _ s) rfl rfl rfl rfl rfl rfl rfl rfl a1 a2 a3 a4)).onlyIn
@[simp] theorem State.writeFor_pending (a1 : Nat) (a2 : Nat) (a3 : List Byte) (a4 : optParam Nat 0) : (State.writeFor s a1 a2 a3 a4).1.pending = s.pending := (State.writeFor_onlyIn s a1 a2 a3 a4).1
@[simp] theorem State.writeFor_curMem (a1 : Nat) (a2 : Nat) (a3 : List Byte) (a4 : optParam Nat 0) : (State.writeFor s a1 a2 a3 a4).1.curMem = s.curMem := (State.writeFor_onlyIn s a1 a2 a3 a4).2 .curMem (by decide)
@[simp] theorem State.writeFor_pins (a1 : Nat) (a2 : Nat) (a3 : List Byte) (a4 : optParam Nat 0) : (State.writeFor s a1 a2 a3 a4).1.pins = s.pins := (State.writeFor_onlyIn s a1 a2 a3 a4).2 .pins (by decide)
@[simp] theorem State.writeFor_tap (a1 : Nat) (a2 : Nat) (a3 : List Byte) (a4 : optParam Nat 0) : (State.writeFor s a1 a2 a3 a4).1.tap = s.tap := (State.writeFor_onlyIn s a1 a2 a3 a4).2 .tap (by decide)
@[simp] theorem State.writeFor_smb (a1 : Nat) (a2 : Nat) (a3 : List Byte) (a4 : optParam Nat 0) : (State.writeFor s a1 a2 a3 a4).1.smb = s.smb := (State.writeFor_onlyIn s a1 a2 a3 a4).2 .smb (by decide)
@[simp] theorem State.writeFor_ss (a1 : Nat) (a2 : Nat) (a3 : List Byte) (a4 : optParam Nat 0) : (State.writeFor s a1 a2 a3 a4).1.ss = s.ss := (State.writeFor_onlyIn s a1 a2 a3 a4).2 .ss (by decide)
@[simp] theorem State.writeFor_boot (a1 : Nat) (a2 : Nat) (a3 : List Byte) (a4 : optParam Nat 0) : (State.writeFor s a1 a2 a3 a4).1.boot = s.boot := (State.writeFor_onlyIn s a1 a2 a3 a4).2 .boot (by decide)
@[simp] theorem State.writeFor_stp (a1 : Nat) (a2 : Nat) (a3 : List Byte) (a4 : optParam Nat 0) : (State.writeFor s a1 a2 a3 a4).1.stp = s.stp := (State.writeFor_onlyIn s a1 a2 a3 a4).2 .stp (by decide)
@[simp] theorem State.writeFor_cir (a1 : Nat) (a2 : Nat) (a3 : List Byte) (a4 : optParam Nat 0) : (State.writeFor s a1 a2 a3 a4).1.cir = s.cir := (State.writeFor_onlyIn s a1 a2 a3 a4).2 .cir (by decide)
@[simp] theorem State.writeFor_cat (a1 : Nat) (a2 : Nat) (a3 : List Byte) (a4 : optParam Nat 0) : (State.writeFor s a1 a2 a3 a4).1.cat = s.cat := (State.writeFor_onlyIn s a1 a2 a3 a4).2 .cat (by decide)
@[simp] theorem State.writeFor_bind (a1 : Nat) (a2 : Nat) (a3 : List Byte) (a4 : optParam Nat 0) : (State.writeFor s a1 a2 a3 a4).1.bind = s.bind := (State.writeFor_onlyIn s a1 a2 a3 a4).2 .bind (by decide)
@[simp] theorem State.writeFor_shelves (a1 : Nat) (a2 : Nat) (a3 : List Byte) (a4 : optParam Nat 0) : (State.writeFor s a1 a2 a3 a4).1.shelves = s.shelves := (State.writeFor_onlyIn s a1 a2 a3 a4).2 .shelves (by decide)
@[simp] theorem State.writeFor_iln (a1 : Nat) (a2 : Nat) (a3 : List Byte) (a4 : optParam Nat 0) : (State.writeFor s a1 a2 a3 a4).1.iln = s.iln := (State.writeFor_onlyIn s a1 a2 a3 a4).2 .iln (by decide)
@[simp] theorem State.writeFor_crl (a1 : Nat) (a2 : Nat) (a3 : List Byte) (a4 : optParam Nat 0) : (State.writeFor s a1 a2 a3 a4).1.crl = s.crl := (State.writeFor_onlyIn s a1 a2 a3 a4).2 .crl (by decide)
@[simp] theorem State.writeFor_pwr (a1 : Nat) (a2 : Nat) (a3 : List Byte) (a4 : optParam Nat 0) : (State.writeFor s a1 a2 a3 a4).1.pwr = s.pwr := (State.writeFor_onlyIn s a1 a2 a3 a4).2 .pwr (by decide)
@[simp] theorem State.writeFor_hostOut (a1 : Nat) (a2 : Nat) (a3 : List Byte) (a4 : optParam Nat 0) : (State.writeFor s a1 a2 a3 a4).1.hostOut = s.hostOut := (State.writeFor_onlyIn s a1 a2 a3 a4).2 .hostOut (by decide)

/-! State.advance -/

theorem State.advance_onlyIn (a1 : Nat) : OnlyIn [.stp, .shelves, .ldg, .obs] s (State.advance s a1) :=
  Eff.onlyIn (State.advance_eff (F := fun c => decide (c ∈ [.stp, .shelves, .ldg, .obs])) (.refl _ s) rfl rfl rfl rfl a1)
@[simp] theorem State.advance_pending (a1 : Nat) : (State.advance s a1).pending = s.pending := (State.advance_onlyIn s a1).1
@[simp] theorem State.advance_freeCtr (a1 : Nat) : (State.advance s a1).freeCtr = s.freeCtr := (State.advance_onlyIn s a1).2 .freeCtr (by decide)
@[simp] theorem State.advance_rf (a1 : Nat) : (State.advance s a1).rf = s.rf := (State.advance_onlyIn s a1).2 .rf (by decide)
@[simp] theorem State.advance_mem (a1 : Nat) : (State.advance s a1).mem = s.mem := (State.advance_onlyIn s a1).2 .mem (by decide)
@[simp] theorem State.advance_ecc (a1 : Nat) : (State.advance s a1).ecc = s.ecc := (State.advance_onlyIn s a1).2 .ecc (by decide)
@[simp] theorem State.advance_curMem (a1 : Nat) : (State.advance s a1).curMem = s.curMem := (State.advance_onlyIn s a1).2 .curMem (by decide)
@[simp] theorem State.advance_pins (a1 : Nat) : (State.advance s a1).pins = s.pins := (State.advance_onlyIn s a1).2 .pins (by decide)
@[simp] theorem State.advance_tap (a1 : Nat) : (State.advance s a1).tap = s.tap := (State.advance_onlyIn s a1).2 .tap (by decide)
@[simp] theorem State.advance_smb (a1 : Nat) : (State.advance s a1).smb = s.smb := (State.advance_onlyIn s a1).2 .smb (by decide)
@[simp] theorem State.advance_ss (a1 : Nat) : (State.advance s a1).ss = s.ss := (State.advance_onlyIn s a1).2 .ss (by decide)
@[simp] theorem State.advance_boot (a1 : Nat) : (State.advance s a1).boot = s.boot := (State.advance_onlyIn s a1).2 .boot (by decide)
@[simp] theorem State.advance_cir (a1 : Nat) : (State.advance s a1).cir = s.cir := (State.advance_onlyIn s a1).2 .cir (by decide)
@[simp] theorem State.advance_cat (a1 : Nat) : (State.advance s a1).cat = s.cat := (State.advance_onlyIn s a1).2 .cat (by decide)
@[simp] theorem State.advance_bind (a1 : Nat) : (State.advance s a1).bind = s.bind := (State.advance_onlyIn s a1).2 .bind (by decide)
@[simp] theorem State.advance_kpr (a1 : Nat) : (State.advance s a1).kpr = s.kpr := (State.advance_onlyIn s a1).2 .kpr (by decide)
@[simp] theorem State.advance_iln (a1 : Nat) : (State.advance s a1).iln = s.iln := (State.advance_onlyIn s a1).2 .iln (by decide)
@[simp] theorem State.advance_crl (a1 : Nat) : (State.advance s a1).crl = s.crl := (State.advance_onlyIn s a1).2 .crl (by decide)
@[simp] theorem State.advance_bel (a1 : Nat) : (State.advance s a1).bel = s.bel := (State.advance_onlyIn s a1).2 .bel (by decide)
@[simp] theorem State.advance_pwr (a1 : Nat) : (State.advance s a1).pwr = s.pwr := (State.advance_onlyIn s a1).2 .pwr (by decide)
@[simp] theorem State.advance_hostOut (a1 : Nat) : (State.advance s a1).hostOut = s.hostOut := (State.advance_onlyIn s a1).2 .hostOut (by decide)

end Sys2Proof.Machine
end

