-- ==== Sys2Proof/Laws/Regs.lean ====
section
/-! SUPPORT. What the shared operations leave of the registers: a unit's message to the Ledger touches only the Ledger's counters, an event
only its own register, and the Bell none. -/

namespace Sys2Proof.Machine

variable (s : State)

theorem State.reg_of_rf {t : State} (h : t.rf = s.rf) (o : Nat) : t.reg o = s.reg o := by unfold State.reg; rw [h]
theorem State.field_of_reg {t : State} {o : Nat} (h : t.reg o = s.reg o) (lo width : Nat) : t.field o lo width = s.field o lo width := by
  unfold State.field; rw [h]
theorem State.regBit_of_reg {t : State} {o : Nat} (h : t.reg o = s.reg o) (i : Nat) : t.regBit o i = s.regBit o i := by
  unfold State.regBit; rw [h]

/-! ## Single registers -/

theorem State.reg_setField_of_ne {off o : Nat} (lo width v : Nat) (h : o ≠ off) : (s.setField off lo width v).reg o = s.reg o :=
  s.reg_setReg_of_ne _ h
theorem State.reg_setRegBit_of_ne {off o : Nat} (i : Nat) (b : Bool) (h : o ≠ off) : (s.setRegBit off i b).reg o = s.reg o :=
  s.reg_setReg_of_ne _ h
theorem State.reg_orReg_of_ne {off o : Nat} (v : Word) (h : o ≠ off) : (s.orReg off v).reg o = s.reg o := s.reg_setReg_of_ne _ h
theorem State.reg_countSat_of_ne {off o : Nat} (lo width n : Nat) (h : o ≠ off) : (s.countSat off lo width n).reg o = s.reg o :=
  s.reg_setReg_of_ne _ h

/-- A bit of a field's register outside the field reads as before. -/
theorem State.regBit_setField_of_disjoint (off lo width v i : Nat) (h : lo + width ≤ 64) (hd : i < lo ∨ lo + width ≤ i) :
    (s.setField off lo width v).regBit off i = s.regBit off i := by
  unfold State.regBit State.setField bitAt
  rw [State.reg_setReg_self, setFld_bit _ _ _ _ _ h, if_neg (by omega)]

theorem State.regBit_setField_of_ne {off o : Nat} (lo width v i : Nat) (h : o ≠ off) :
    (s.setField off lo width v).regBit o i = s.regBit o i := s.regBit_setReg_of_ne _ _ h
theorem State.regBit_setRegBit_of_ne {off o : Nat} (i j : Nat) (b : Bool) (h : o ≠ off) :
    (s.setRegBit off i b).regBit o j = s.regBit o j := s.regBit_setReg_of_ne _ _ h

/-- Setting one bit leaves the others of the register. -/
theorem State.regBit_setRegBit_of_bit_ne (off i j : Nat) (b : Bool) (hi : i < 64) (h : j ≠ i) :
    (s.setRegBit off i b).regBit off j = s.regBit off j :=
  s.regBit_setField_of_disjoint off i 1 _ j (by omega) (by omega)

/-- Setting a bit outside a field leaves the field. -/
theorem State.field_setRegBit_of_disjoint (off i : Nat) (b : Bool) (lo width : Nat) (hi : i < 64) (h : i < lo ∨ lo + width ≤ i) :
    (s.setRegBit off i b).field off lo width = s.field off lo width :=
  s.field_setField_of_disjoint off i 1 _ lo width (by omega) (by omega)

/-! ## The Bell, the Ledger, events -/

@[simp] theorem State.reg_bell (n : Nat) (soft : Bool) (o : Nat) : (s.bell n soft).reg o = s.reg o := s.reg_of_rf (State.bell_rf s n soft) o
@[simp] theorem State.field_bell (n : Nat) (soft : Bool) (o lo w : Nat) : (s.bell n soft).field o lo w = s.field o lo w :=
  s.field_of_reg (s.reg_bell n soft o) lo w

/-- A counted source touches its counter and its first-error word alone. -/
theorem State.reg_ldgCount (src o : Nat) (h : o < 0xA00000 ∨ 0xA05000 ≤ o) (hs : src < 1024) : (s.ldgCount src).reg o = s.reg o := by
  unfold State.ldgCount State.setRegBit State.countSat State.setField
  rw [State.reg_setReg_of_ne _ _ (by simp only [R.LDG_FIRST]; omega), State.reg_setReg_of_ne _ _ (by simp only [R.LDG_COUNT]; omega)]

/-- A message to the Ledger touches no register outside the Ledger's counters. -/
theorem State.reg_send (m : LMsg) (o : Nat) (h : o < 0xA00000 ∨ 0xA05000 ≤ o) : (s.send m).reg o = s.reg o := by
  unfold State.send
  simp only
  split
  · rfl
  · split
    · rfl
    · rw [State.reg_countSat_of_ne _ _ _ _ (by simp only [R.LDG_STATUS]; omega), State.reg_ldgCount _ _ _ h (by omega)]

theorem State.reg_log (src : Nat) (k : Kind) (c a t i : Nat) (st : Option Word) (o : Nat) (h : o < 0xA00000 ∨ 0xA05000 ≤ o) :
    (s.log src k c a t i st).reg o = s.reg o := s.reg_send _ o h

theorem State.field_log (src : Nat) (k : Kind) (c a t i : Nat) (st : Option Word) (o lo w : Nat) (h : o < 0xA00000 ∨ 0xA05000 ≤ o) :
    (s.log src k c a t i st).field o lo w = s.field o lo w := s.field_of_reg (s.reg_log src k c a t i st o h) lo w

theorem State.regBit_log (src : Nat) (k : Kind) (c a t i : Nat) (st : Option Word) (o b : Nat) (h : o < 0xA00000 ∨ 0xA05000 ≤ o) :
    (s.log src k c a t i st).regBit o b = s.regBit o b := s.regBit_of_reg (s.reg_log src k c a t i st o h) b

/-- Signalling sources in turn leaves the registers. -/
theorem State.rf_bells (l : List Nat) (t : State) : (l.foldl (fun s n => s.bell n) t).rf = t.rf := by
  induction l generalizing t with
  | nil => rfl
  | cons n l ih => rw [List.foldl_cons, ih, State.bell_rf]

/-- An event sets bits of its register and touches no other. -/
theorem State.reg_event_self (off : Nat) (mask : Word) : (s.event off mask).reg off = s.reg off ||| mask := by
  unfold State.event
  simp only
  split
  · rw [State.reg_of_rf (h := State.rf_bells _ _), State.orReg, State.reg_setReg_self]
  · rw [State.orReg, State.reg_setReg_self]

theorem State.reg_event_of_ne (off : Nat) (mask : Word) {o : Nat} (h : o ≠ off) : (s.event off mask).reg o = s.reg o := by
  unfold State.event
  simp only
  split
  · rw [State.reg_of_rf (h := State.rf_bells _ _), State.reg_orReg_of_ne _ _ h]
  · rw [State.reg_orReg_of_ne _ _ h]

/-! ## The power domains -/

/-- The ranges' domains all off: a domain's STATE reads 0, and no other register moves. -/
theorem State.reg_rangesOff (o : Nat) (h : o < 0xB00100 ∨ 0xB00300 ≤ o) : s.rangesOff.reg o = s.reg o := by
  unfold State.rangesOff
  have : ∀ (l : List Nat) (t : State), (∀ r ∈ l, r < 64) →
      (l.foldl (fun s r => s.setField (R.PWR_DOMAIN_STATE r) 0 2 0) t).reg o = t.reg o := by
    intro l
    induction l with
    | nil => intros; rfl
    | cons r l ih =>
      intro t hl
      rw [List.foldl_cons, ih _ (fun x hx => hl x (List.mem_cons_of_mem _ hx)), State.reg_setField_of_ne]
      have := hl r (List.mem_cons_self ..)
      simp only [R.PWR_DOMAIN_STATE]
      omega
  exact this _ s (fun r hr => List.mem_range.mp hr)

end Sys2Proof.Machine
end

