-- ==== Sys2Proof/WellFormed.lean ====
section
/-! DEFINITION. Well-formed commands: operands within what the manual says exists. A meaning is total all the same; a command that is
not well-formed names something the block does not have. -/

namespace Sys2Proof

/-- A port trains at one of the six rates of Table 13-6, with at most four modules and at most 32 lanes repaired (R45, R47). -/
def PortTrain.wf (t : PortTrain) : Bool := decide (t.rate.toNat ≤ 5) && (t.modules == 1 || t.modules == 2 || t.modules == 4 || !t.trains) && decide (t.repairs.toNat ≤ 32)

/-- A packet's payload is as long as its LEN says (Table 13-2). -/
def Packet.wf (p : Packet) : Bool := decide (p.payload.length = p.len.toNat)

/-- Whether a command names only what exists. -/
def WellFormed : Instr → Bool
  | .train stks ports => decide (stks.length = 6) && decide (ports.length = 4) && ports.all PortTrain.wf
  | .header h => decide (h.primary.length = 8) && decide (h.sec8M.length = 8) && decide (h.sec128M.length = 8)
  | .stamp sense => decide (sense.stackTemps.length = 6)
  | .opFix p => decide (p.ranges.length = 64)
  | .ctlAccess _ off _ => decide (off.toNat % 8 = 0)
  | .stackWsp sel len _ _ => decide (sel.toNat < 6) && decide (len.toNat ≤ 64)
  | .shiftInstruction _ len _ => decide (1 ≤ len.toNat) && decide (len.toNat ≤ 64)
  | .shiftData _ len _ => decide (1 ≤ len.toNat) && decide (len.toNat ≤ 64)
  | .windowWrite a => decide (a.offset + a.data.length ≤ 0x80000) && !a.data.isEmpty
  | .registerWrite _ _ size _ => decide (1 ≤ size) && decide (size ≤ 8)
  | .hostReq _ _ _ _ data _ => decide (data.bytes.length ≤ 256)
  | .ilnWrite _ p => p.wf
  | .ilnAdd _ p => p.packet.wf
  | .ilnRead _ _ => true
  | .domainOn d => decide (d.toNat < 96)
  | .domainOff d => decide (d.toNat < 96)
  | .domainRetain d => decide (d.toNat < 96)
  | .stackAdd op => !op.data.isEmpty
  | .fetchAdd op => decide (op.data.length = 8)
  | .compareSwap op _ => decide (op.data.length = 8)
  | .mboxWrite _ c _ _ => decide (c.toNat ≠ 0)
  | _ => true

end Sys2Proof
end

