-- ==== Sys2Proof/Tests/Slice0.lean ====
section
/-! SUPPORT. Tests: commands that are not well formed, states and operands that meet the hypotheses of every statement, and single steps
whose outcome the manual gives. -/

namespace Sys2Proof.Tests

open Sys2Proof.Machine

set_option Elab.async false

/-! ## Small states -/

/-- The chiplet in service with nothing held. -/
def svc : State := { State.reset with pins := { Pins.reset with life := .service, resetN := true, sbLive := true } }

/-- A boot in phase p with the flash as its source. -/
def booting (p : Nat) : State :=
  ({ State.reset with pins := { Pins.reset with life := .boot, resetN := true } }.setReg R.CFG_STRAP 1).setPhase p

/-- A hushed die. -/
def still : State := svc.startHush 1

/-- The life in which RESET_N is low. -/
def held : State := { State.reset with pins := { Pins.reset with life := .reset } }

/-- The state a command leaves. -/
def after (s : State) (c : Instr) : State := nextOf s (exec c s)

/-- Registers written one after another. -/
def put (s : State) (l : List (Nat × Word)) : State := l.foldl (fun s p => s.setReg p.1 p.2) s

/-- A memory that holds these bytes at an address and lists nothing else. -/
def placed (a : Nat) : List Byte → Memory
  | [] => []
  | b :: bs => if b = 0 then placed (a + 1) bs else (a, b) :: placed (a + 1) bs

/-! ## Hypotheses that hold somewhere: the step, the sideband, the test port -/

theorem witness_StepRunsFrontCommand : ({ State.reset with pending := [.pwrokRise] } : State).pending = Instr.pwrokRise :: [] := rfl

theorem witness_EveryStepGoesOnAndTakesOneCommand :
    State.reset.pending = [] ∧ State.reset.pins.life = .off ∧ svc.pending = [] ∧ svc.pins.life ≠ .off ∧ svc.stp.t + 1 < svc.stp.len
    ∧ ¬ ceilDiv (3 * svc.stp.len) 4 ≤ svc.stp.t + 1
    ∧ (let s : State := { svc with stp := { svc.stp with t := 30719 } };
      s.running = true ∧ s.stp.cut = false ∧ s.obs.resuming = false ∧ ceilDiv (3 * s.stp.len) 4 ≤ s.stp.t + 1) := by decide

theorem witness_StepKeepsCanonicalForms : State.reset.canon = true ∧ step State.reset = .next State.reset := ⟨by decide, rfl⟩

theorem witness_CommandsChangeOnlyTheirComponents :
    exec .pwrokRise State.reset = .next held ∧ Comp.mem ∉ touches .pwrokRise ∧ Comp.curMem ∉ touches .pwrokRise := ⟨rfl, by decide, by decide⟩

theorem witness_SmbusTransactionsAnswerAndWrite :
    (svc.smbOn = true ∧ svc.pecOk .valid = true ∧ svc.alertN = false)
    ∧ (svc.alert 0).alertN = true
    ∧ bitAt ({ svc with smb := { svc.smb with active := 0xDA } } : State).smb.active 7 = true := by decide

theorem witness_manages : svc.manages .tap := ⟨by decide, Or.inl rfl⟩

theorem witness_TestPortSelectsDrivesAndScans :
    (svc.pins.life ≠ .off ∧ held.pins.life ≠ .off ∧ held.pins.resetN = false ∧ (0x55 : BitVec 8) ∉ tapCodes)
    ∧ (svc.inService = true ∧ svc.hushed = false ∧ still.inService = true ∧ still.hushed = true)
    ∧ (svc.alive = true ∧ (0x100000 : BitVec 25).toNat % 8 = 0) := by decide

/-! ## Power, boot and clocks -/

theorem witness_PowerAndPinResets :
    State.reset.pins.life = .off ∧ svc.pins.life ≠ .off ∧ keptOverBlockReset R.STP_PERIOD = false ∧ held.pins.life = .reset := by decide

/-- An image header: a resident part of 4,096 bytes of zero, no bulk part. -/
def imageHeader : List Word :=
  let h : List Word := [0x000000014B315A48, 0x0000000100001000, 0, 0, 0x0001000200030004, 0, 0]
  h ++ [BitVec.ofNat 64 (crc32c (bytesOfWords h))]

/-- A header whose parts have 64 bytes. -/
def smallHeader : List Word :=
  [0, 64, BitVec.ofNat 64 (crc32c (List.replicate 64 7) + 2 ^ 32 * crc32c (List.replicate 64 9)), 64, 0, 0, 0, 0]

theorem witness_BootReachesService_flash :
    ((booting 1).pins.life = .boot ∧ (booting 1).bootPhase = 1 ∧ (booting 1).ss.busy = none ∧ (booting 1).pins.refclk = true)
    ∧ ((booting 2).bootPhase = 2 ∧ (booting 2).port0Boot = false ∧ headerValid imageHeader = true)
    ∧ ((booting 3).bootPhase = 3 ∧ (booting 3).regBit R.CFG_BOOT_STATUS 12 = false ∧ residentOk smallHeader (List.replicate 64 7) = true) := by
  decide +kernel

theorem witness_BootReachesService_service :
    ((held.setReg R.CFG_STRAP 0).port0Boot = true ∧ bitAt (1 : Word) 0 = true)
    ∧ ((booting 5).bootPhase = 5 ∧ (booting 5).boot.trained = false ∧ (booting 5).boot.tested = false
      ∧ popCount 32 ((0xFF : BitVec 32) ||| ((booting 5).reg (R.HBM_MAPOUT_FORCE 0)).setWidth 32).toNat ≤ 8)
    ∧ ((booting 7).bootPhase = 7 ∧ hdrBlen smallHeader ≤ 64 ∧ crc32c ((List.replicate 64 9).take (hdrBlen smallHeader)) = hdrBcrc smallHeader)
    ∧ ((booting 8).bootPhase = 8 ∧ Tab.getD (booting 8).ldg.waiting 0 [] = []) := by decide +kernel

/-- A configuration section whose check word does not fit its bytes: no CRC is both 0 and 1. -/
theorem witness_BootReachesService_defaults : ∃ check : BitVec 32, ∃ s : State,
    s.pins.life = .boot ∧ s.bootPhase = 1 ∧ s.ss.busy = none ∧ s.pins.refclk = true ∧ s.boot.pin = true ∧ s.ss.cfg.check = check ∧ s.ss.cfg.check.toNat ≠ crc32c (sectionBytes s.ss.cfg.bytes) := by
  by_cases h : (0 : Nat) = crc32c (sectionBytes [])
  · exact ⟨1, { booting 1 with
      boot := { (booting 1).boot with pin := true }, ss := { (booting 1).ss with cfg := ⟨[], 1, false, 0⟩ } }, rfl, by decide, rfl, rfl, rfl, rfl, fun e => by
      have : (1 : Nat) = 0 := e.trans h.symm
      omega⟩
  · exact ⟨0, { booting 1 with
      boot := { (booting 1).boot with pin := true }, ss := { (booting 1).ss with cfg := ⟨[], 0, false, 0⟩ } }, rfl, by decide, rfl, rfl, rfl, rfl, h⟩

theorem witness_BootLimitsClockAndRailFail :
    ((booting 3).pins.life = .boot ∧ (booting 3).waitsGo = false ∧ ((booting 2).setReg R.CFG_STRAP 0).waitsGo = true)
    ∧ (svc.pins.refclk = true ∧ svc.alive = true ∧ svc.pins.vcoreLow = false ∧ (svc.setReg (R.PWR_DOMAIN_STATE 0) 1).domainOn 0 = true) := by
  decide

/-! ## Stamps -/

/-- A follower in a state of Table 4-3 whose clock runs. -/
def follower (st : BitVec 3) : State := { svc with stp := { svc.stp with running := true, state := st } }

/-- The frame that a master at period 32 sends at stamps 0 to 63. -/
def frame0 : List (Option Bool) :=
  (List.range 64).map (fun i => some (State.stampOutBit { svc with stp := { svc.stp with state := 0, stamp := BitVec.ofNat 48 i } }))

/-- A locked follower at stamp n with frame bits. -/
def atFrame (n : Nat) (bits : List (Option Bool)) : State :=
  { follower 3 with stp := { (follower 3).stp with stamp := BitVec.ofNat 48 n, bits := bits } }

theorem witness_StampAdvancesTheDatestamp :
    svc.pins.life ≠ .off ∧ svc.noneHeld ∧ svc.crl.resets = [] ∧ svc.stp.running = false ∧ svc.stp.edgeA = none ∧ (follower 3).stp.running = true ∧ svc.stp.t < svc.stp.len
    ∧ ({ follower 3 with stp := { (follower 3).stp with armed := some (64, 40) } } : State).stp.armed = some (64, 40)
    ∧ (follower 0).stp.state = 0 ∧ 4 * 30720 = 3 * svc.stp.len := by decide

theorem witness_StampInputsAndPeriodChanges_pulse :
    ((follower 3).alive = true ∧ (follower 3).stp.running = true ∧ (follower 3).stp.state ≠ 0 ∧ (follower 3).inputOn 0 = true
      ∧ 0 = (follower 3).masterInput ∧ 24 * 128 ≤ 31 * 100 ∧ 31 * 100 ≤ 56 * 128 ∧ (30 : Nat) * 100 < 24 * 128)
    ∧ ((follower 3).stp.edgeA = none
      ∧ (((40896 : Int) + 64 + (follower 3).inputDelay 0) - (follower 3).stp.len).natAbs ≤ 64)
    ∧ 64 < (((0 : Int) + 64 + (follower 2).inputDelay 0) - (follower 2).stp.len).natAbs
    ∧ (((40960 : Int) + 64 + (follower 1).inputDelay 0) - (64 + (follower 1).periodFc)).natAbs ≤ 64 := by decide

theorem witness_StampInputsAndPeriodChanges_change :
    let s := fun (at_ per : Word) => put svc [(R.STP_CHANGE_AT, at_), (R.STP_NEXT_PERIOD, per)]
    (s 0 32).field R.STP_CHANGE_AT 0 48 ≤ (s 0 32).stp.stamp.toNat
    ∧ (2 ≤ (s 65 32).field R.STP_CHANGE_AT 0 48 ∧ (s 65 32).field R.STP_CHANGE_AT 0 48 % 64 ≠ 0 ∧ (s 65 32).field R.STP_NEXT_PERIOD 0 13 ≠ 0)
    ∧ ((s 64 3).field R.STP_CHANGE_AT 0 48 % 64 = 0 ∧ (s 64 3).field R.STP_NEXT_PERIOD 0 13 < 4
      ∧ 4096 < (s 64 4097).field R.STP_NEXT_PERIOD 0 13 ∧ (s 64 4097).field R.STP_NEXT_PERIOD 0 13 ≠ 0)
    ∧ ((s 64 4).field R.STP_NEXT_PERIOD 0 13 = 4 ∧ (s 64 4096).field R.STP_NEXT_PERIOD 0 13 = 4096 ∧ (s 2 0).field R.STP_NEXT_PERIOD 0 13 = 0) := by
  decide

theorem witness_EpochFramesHoldoverAndRelock :
    ((atFrame 63 frame0).stp.stamp.toNat % 64 = 63 ∧ 64 ≤ frame0.length ∧ parseFrame frame0 = some (63 / 64, (atFrame 63 frame0).period)
      ∧ parseFrame (List.replicate 64 none) = none ∧ parseFrame frame0 = some (0, 32) ∧ (atFrame 127 frame0).stp.stamp.toNat / 64 = 1)
    ∧ ((follower 2).stp.state = 2 ∧ (follower 1).stp.state = 1)
    ∧ ({ follower 4 with stp := { (follower 4).stp with relockRun := 64, relockNum := some 5, agreed := true } } : State).relockReady = true
    ∧ (follower 4).relockReady = false ∧ (follower 3).stp.state ≠ 4 := by decide +kernel

theorem witness_PeriodEventsFixPointsAndPlans :
    (svc.inService = true ∧ svc.pwr.fixed = false ∧ svc.stp.cut = false ∧ ({ svc with pwr := { svc.pwr with fixed := true } } : State).pwr.fixed = true
      ∧ svc.domainOn 0 = false ∧ (put svc [(R.PWR_DOMAIN_STATE 1, 1), (R.PWR_CTL, 0)]).domainOn 1 = true
      ∧ (put svc [(R.PWR_DOMAIN_STATE 1, 1), (R.PWR_CTL, 0)]).regBit R.PWR_CTL 0 = false)
    ∧ (svc.running = true ∧ svc.stp.cut = false ∧ svc.obs.resuming = false ∧ svc.launchable = false)
    ∧ ({ svc with stp := { svc.stp with cut := true } } : State).running = true := by decide

theorem witness_SettingsStoreCommands :
    (svc.alive = true ∧ svc.ss.busy = none ∧ svc.ss.unlocked = false ∧ (svc.ss.sect true).commits < 1000 ∧ svc.ss.cfg.commits ≤ 1000)
    ∧ ((after svc (.commit false)).ss.busy ≠ none ∧ (after svc (.cfgSsUnlock 0xCA1B)).ss.unlocked = true)
    ∧ 1000 ≤ (({ svc.ss with cfg := { svc.ss.cfg with commits := 1000 } } : Settings).sect false).commits
    ∧ ({ svc with ss := { svc.ss with busy := some ⟨true, false, [(0, 1)]⟩ } } : State).ss.busy = some ⟨true, false, [(0, 1)]⟩
    ∧ (after svc (.load true)).ss.busy = some ⟨false, true, []⟩ ∧ svc.pins.life ≠ .off := by decide +kernel

/-! ## Circulation and the Catalogue -/

/-- Carrel 5 ACTIVE with page 5 enabled, slip ring 0 in context 0 and receipt ring 0 in context 1, both in host memory, and port 0 up. -/
def crl5 : State := put svc
  [(R.CRL_CARREL_STATE 5, 2), (R.CIR_DB_ENABLE 0, 0x20), (R.CIR_RING_CTL 0, 0x5601), (R.CIR_RING_CTL 1, 0x5603),
    (R.CIR_RING_BASE 0, 0x10001), (R.CIR_RING_BASE 1, 0x20001), (R.ILN_PORT_STATE 0, 7), (R.CAT_SHARE 5, 0x40010000000)]

/-- Ring k stopped. -/
def halt (s : State) (k : Nat) : State := s.setRegBit (R.CIR_RING_STATUS k) 17 true

/-- A FENCE slip with tag 7. -/
def fenceWords : List Word := 0x0000000700000004 :: List.replicate 15 0

/-- Slot words of a slip with a tag, a type and four words from W3 on. -/
def slipWords (tag typ : Nat) (p : List Word) : List Word := [BitVec.ofNat 64 (tag * 2 ^ 32 + typ), 0, 0] ++ p ++ List.replicate 9 0

/-- A state of carrel 5 with one record of these words, changed. -/
def withSlip (ws : List Word) (f : Slip → Slip) : State := crl5.setSlip 0 (f (crl5.newRecord 5 0 0 ws []))

/-- The record of carrel 5 for these words. -/
def recd (ws : List Word) (f : Slip → Slip) : Slip := f (crl5.newRecord 5 0 0 ws [])

/-- A desk that holds a burst of one slip of ring 0. -/
def atDesk1 : State := { crl5 with cir := { crl5.cir with desks := [(0, ⟨0, 0, 1⟩)] } }

theorem witness_DoorbellMovesItsCount :
    (crl5.inService = true ∧ (5 : Func) ≠ 0 ∧ crl5.carrelExists 5 = true ∧ crl5.regBit (R.CIR_DB_ENABLE (5 / 64)) (5 % 64) = true
      ∧ crl5.ringOf 5 false 0 = some 0 ∧ crl5.ringOf 5 true 0 = some 1)
    ∧ (crl5.ringStopped 0 = false ∧ crl5.ringDevice 0 = false ∧ (64 : Nat) ≤ crl5.ringSize 0 - crl5.ringLevel 0
      ∧ crl5.ringSize 0 - crl5.ringLevel 0 < 65 ∧ (put crl5 [(R.CIR_RING_TAIL 1, 3)]).ringLevel 1 = 3)
    ∧ (halt crl5 0).ringStopped 0 = true ∧ (put crl5 [(R.CIR_RING_CTL 0, 0x5681)]).ringDevice 0 = true := by decide

theorem witness_RingsEnableAndDisable :
    (let off := (put svc [(R.CRL_CARREL_STATE 5, 2), (R.CIR_RING_BASE 1, 0x20001)]).setReg (R.CIR_RING_CTL 1) (setBitAt (0x5603 &&& ringCtlMask) 0 false);
      svc.alive = true ∧ svc.ringOn 1 = false ∧ off.ringRefused 1 = false)
    ∧ (svc.setReg (R.CIR_RING_CTL 1) (setBitAt (0x5603 &&& ringCtlMask) 0 false)).ringRefused 1 = true
    ∧ (crl5.ringOn 1 = true ∧ crl5.receiptNamed 1 = true ∧ crl5.ringOn 0 = true ∧ crl5.receiptNamed 0 = false)
    ∧ (atDesk1.atDesk 0 = true ∧ crl5.atDesk 0 = false ∧ ∀ w ∈ crl5.cir.waits, w.ctx ≠ 0)
    ∧ (put crl5 [(R.CIR_RING_CTL 0, 0)]).receiptNamed 1 = false ∧ (put crl5 [(R.CIR_RING_CTL 0, 0)]).ringIsReceipt 1 = true := by decide

theorem witness_RingDisableWaitsForItsBurst :
    let s : State := { crl5 with cir := { crl5.cir with disabling := [(0, true)] } }
    s.running = true ∧ Tab.mem s.cir.disabling 0 = true ∧ s.atDesk 0 = false ∧ (∀ w ∈ s.cir.waits, w.ctx ≠ 0)
    ∧ Tab.mem crl5.cir.disabling 0 = false := by decide

theorem witness_DesksFetchAndEnterSlips :
    (let s := put crl5 [(R.CIR_RING_TAIL 0, 3)];
      s.running = true ∧ (List.range 16).find? (fun d => !Tab.mem s.cir.desks d) = some 0
        ∧ ∃ k ∈ s.ringsOn, s.hasWork k = true ∧ s.ringCarrel k ∈ s.carrelList)
    ∧ (let s : State := { crl5 with cir := { crl5.cir with desks := (List.range 16).map (fun d => (d, ⟨0, 0, 1⟩)) } };
      ∀ d < 16, Tab.mem s.cir.desks d = true)
    ∧ (Tab.find? atDesk1.cir.desks 0 = some ⟨0, 0, 1⟩ ∧ atDesk1.running = true ∧ atDesk1.ringHost 0 = true ∧ atDesk1.ringStopped 0 = false
      ∧ atDesk1.portUp 0 = true ∧ atDesk1.carrelLive (atDesk1.ringCarrel 0) = true)
    ∧ (let host : List Byte := List.replicate 128 0;
      atDesk1.entryRefusal 5 (wordsOfBytes 16 host) = (atDesk1, [], some 0x3001))
    ∧ (let host := bytesOfWords fenceWords;
      atDesk1.entryRefusal 5 (wordsOfBytes 16 host) = (atDesk1, [], none) ∧ atDesk1.slotOk 5 = true
        ∧ atDesk1.edgeOk 5 (atDesk1.newRecord 5 0 0 (wordsOfBytes 16 host) []).ovf = true) := by decide +kernel

/-- A receipt due to receipt ring 0 of carrel 5. -/
def due5 : DueReceipt := ⟨5, 0, 7, 0, 0, 0, none, false, false⟩

theorem witness_ReceiptsAndNotifiesAreWritten :
    (let s : State := { crl5 with cir := { crl5.cir with due := [due5], holdoff := [(0, false), (1, true)] } };
      s.running = true ∧ s.dueFor 1 = some due5 ∧ s.receiptRoom 1 = true ∧ s.ringHost 1 = true ∧ s.ringStopped 1 = false
        ∧ s.regBit (R.ILN_PORT_STATE 0) 2 = true ∧ Tab.find? s.cir.holdoff 0 = some false ∧ Tab.find? s.cir.holdoff 1 = some true
        ∧ Tab.find? s.cir.holdoff 2 = none)
    ∧ (let s : State := { put crl5 [(R.CIR_RING_BASE 1, 0x20000)] with cir := { crl5.cir with due := [due5] } };
      s.dueFor 1 = some due5 ∧ s.receiptRoom 1 = true ∧ s.ringHost 1 = false ∧ s.ringAddr 1 (s.ringTail 1) + 32 ≤ 0x6000000000) := by decide

/-- An enqueue of one slip of carrel 5 into its ring 0. -/
def wait5 : WaitEnq := ⟨5, 0, 1, 0x40000, .slip 0⟩

/-- Carrel 5 with its first megabyte of near tier in service. -/
def near5 : State := put crl5 [(R.KPR_EXTENT 5 0, 0x1000000000), (R.HBM_STACK_STATE 0, 0x40001)]

theorem witness_EnqueueTakesRoomAndCredit :
    (let s : State := { near5 with cir := { near5.cir with waits := [wait5] } };
      s.running = true ∧ s.cir.waits[0]? = some wait5 ∧ s.enqReady wait5 = true ∧ wait5.ctx < 8192 ∧ s.alive = true
      ∧ s.carrelExists 5 = true ∧ s.carrelExists 6 = false ∧ (s.enqRead wait5 none).2.2 = none ∧ (halt s 0).enqReady wait5 = false
      ∧ (let s1 := (s.enqRead wait5 none).1;
        let bs := (s.enqRead wait5 none).2.1;
        (s1.slotsWrite 0 (s1.ringTail 0) none ((List.range 1).map (fun i => (bs.drop (128 * i)).take 128))).2 = none)) := by decide +kernel


/-- An image of one kernel without folios at block 0: header, entry, run. -/
def kernel0 : List Word :=
  List.replicate 8 0 ++ [0x100000000, 1, 0x103102, 0, 0, 0, 0, 0] ++ [0x100000000, 100, 64, 0, 0, 0, 0, 1]

/-- Carrel 5 knows volume 1, and its LAUNCH of kernel 0 with tag 9 is in a state. -/
def launching (f : Slip → Slip) : State :=
  let s := withSlip (slipWords 9 2 [1, 0, 0, 0]) f
  { s with bind := { s.bind with vols := [(volKey 5 1, ⟨0, 1, 1, true, kernel0⟩)] } }

theorem witness_LaunchesReadTheirPassTable :
    (let x := recd (slipWords 9 2 [1, 0, 0, 0]) (fun x => { x with reading := true });
      let s := launching (fun x => { x with reading := true });
      s.running = true ∧ s.slipByTag 5 9 = some (0, x) ∧ x.fail = none ∧ (match (s.readKernel x).2 with | .ok l => l.q == 1 | .error _ => false) = true
        ∧ x.tableDue = true ∧ (recd (slipWords 9 2 [1, 0, 0, 0]) id).tableDue = false
        ∧ (match (crl5.readKernel x).2 with | .ok _ => false | .error c => c == 0x2003 && !isSuccess c) = true
        ∧ (launching id).slipByTag 5 9 = some (0, recd (slipWords 9 2 [1, 0, 0, 0]) id))
    ∧ (∀ due ∈ [0, 1, 2], ∀ noprog ∈ [true, false], ∀ typ ∈ [2, 3],
      let f := fun (x : Slip) => { x with st := .running, due := due, noprog := noprog }
      let x := recd (slipWords 9 typ [1, 0, 0, 0]) f
      let s := withSlip (slipWords 9 typ [1, 0, 0, 0]) f
      let t : State := { s with iln := { s.iln with reqs := [(7, ⟨2, .slip 0 none, false, 5, true, 0, none⟩)] } }
      s.slipByTag 5 9 = some (0, x) ∧ s.slip 0 = some x ∧ s.stalled x = (due != 0) ∧ x.noprog = noprog ∧ x.due = due ∧ x.fail = none ∧ x.typ = typ
        ∧ s.slipBusy 0 = false ∧ t.slipBusy 0 = true ∧ t.slip 0 = some x ∧ s.noneHeld) := by decide +kernel

theorem witness_CancelsSnapshotsAndShares :
    (let s := withSlip fenceWords id;
      s.alive = true ∧ s.slipByTag 5 8 = none ∧ s.slipByTag 5 7 = some (0, recd fenceWords id) ∧ s.slip 0 = some (recd fenceWords id)
        ∧ (recd fenceWords id).st = .entered ∧ (recd fenceWords id).fail = none
        ∧ crl5.carrelExists 5 = true ∧ crl5.carrelExists 6 = false
        ∧ (withSlip fenceWords (fun x => { x with st := .running })).slipByTag 5 7 = some (0, recd fenceWords (fun x => { x with st := .running })))
    ∧ (let others := listSum ((crl5.shareMins.filter (fun p => p.1 != 5)).map (·.2));
      others + fld 0x10000FFF 0 13 ≤ 4096 ∧ fld 0x10000FFF 0 13 ≤ fld 0x10000FFF 16 13 ∧ 4096 < others + fld 0x10001001 0 13
        ∧ fld 0x2 16 13 < fld 0x2 0 13) := by decide

/-! ## The Bindery, copies and holdings -/

/-- One kernel with one FILL statement of a 16 by 16 tensor: the five sections, each from a multiple of 64 bytes. -/
def volBody : List Word :=
  [0x000000C000000001, 64, 0x0000010000000002, 32, 0x0000014000000003, 32, 0x0000018000000004, 32, 0x000001C000000005, 32] ++ List.replicate 6 0
    ++ [0, 0x100000000, 0x100000000, 0, 0, 0, 0, 0] ++ [0x20010, 0x0001000100100010, 0, 0, 0, 0, 0, 0]
    ++ [0x0000000000000204, 0, 0, 0, 0, 0, 0, 0] ++ [0x100010, 0, 0, 0, 0, 0, 0, 0] ++ [10, 5, 0, 0]

/-- The volume. -/
def volWords : List Word :=
  let h : List Word := [0x0000010058594E4C, 480 + 5 * 2 ^ 32, BitVec.ofNat 64 (crc32c (bytesOfWords volBody)), 1, 0, 0, 0]
  h ++ [BitVec.ofNat 64 (crc32c (bytesOfWords h))] ++ volBody

/-- Carrel 5 accedes to volume 1 at 64 KiB with a room of n shelves. -/
def acceding (n : Nat) : State :=
  let s := withSlip (slipWords 9 5 [0x10000, 480, 0, 0]) (fun x => { x with st := .running })
  { put s [(R.KPR_EXTENT 5 0, 0x1000000000), (R.HBM_STACK_STATE 0, 0x40001)] with
    mem := placed 0x10000 (bytesOfWords volWords)
    bind := { s.bind with slot0 := some ⟨0, 5, 1, n, 0x80000, 32000, none, []⟩ } }

/-- The kernel's translation: the FILL as the one folio of the S ring, and a run of one pass. -/
def oneFill : KernelTr := ⟨[], [], [], [⟨some 0, [0x10000], none⟩], [⟨1, 0, 0, 1, 0, 1, 0⟩]⟩

/-- Carrel 5 loads that volume from the copy on stack 0 to its shelf 0. -/
def loading : State :=
  let v : Volume := ⟨0, 1, 1, true, kernel0⟩
  { acceding 1 with
    shelves := [(0, { Shelf.idle with owner := 5 })]
    mem := placed ((acceding 1).imageAt false 0) (bytesOfWords kernel0)
    bind := { (acceding 1).bind with slot0 := some ⟨0, 5, 1, 1, 0x80000, 32000, some v, []⟩ } }

set_option maxRecDepth 20000 in
theorem witness_AccessionsPlaceAndLoadVolumes_check :
    (let j : BindJob := ⟨0, 5, 1, 0, 0x80000, 32000, none, []⟩;
      (acceding 0).running = true ∧ (acceding 0).bind.job false = some j ∧ j.placed = none ∧ ((acceding 0).slip 0).isSome = true
        ∧ ((acceding 0).slip 0).all (fun x => x.fail == none && x.st != .retired) = true)
    ∧ (let v : Volume := ⟨0, 1, 1, true, kernel0⟩;
      let j : BindJob := ⟨0, 5, 1, 1, 0x80000, 32000, some v, []⟩;
      let s := loading;
      s.bind.job false = some j ∧ 64 * (256 + 64 * v.first) + 8 * v.image.length ≤ 0x40000 ∧ 8 ≤ v.image.length ∧ s.errorFree ∧ s.roomInUse 5 = [0]
        ∧ (∀ sh ∈ s.roomInUse 5, sh < 4096 ∧ s.copyFor false sh + 8 * v.image.length ≤ 0x6000000000
          ∧ (∀ i < 8 * v.image.length, s.byteStatus (s.copyFor false sh + i) = none)
          ∧ Memory.readN s.mem (s.copyFor false sh) (8 * v.image.length) = bytesOfWords v.image)
        ∧ (s.slip 0).all (fun x => x.st != .retired && x.fail == none) = true) := by decide +kernel

set_option maxRecDepth 20000 in
theorem witness_AccessionsPlaceAndLoadVolumes_place :
    let s := acceding 1
    let j : BindJob := ⟨0, 5, 1, 1, 0x80000, 32000, none, []⟩
    let v : Vol := ⟨bytesOfWords volWords, volWords⟩
    s.bind.job false = some j ∧ (s.readFor 5 0x10000 480 9).2 = (bytesOfWords volWords, none) ∧ wordsOfBytes 60 (bytesOfWords volWords) = volWords
      ∧ v.headerCheck 480 = none ∧ v.sectsOk 480 = true ∧ v.f 3 0 16 ≤ (v.entries 1).length
      ∧ (match v.tabs.plan j (s.bindCap j) [oneFill] with | .ok (some ps) => firstFit (s.blocksUsed 5) (ceilDiv (imageLen ps) 64) == some 0 | _ => false) = true
      ∧ (match v.tabs.plan j (s.bindCap j) [] with | .ok none => true | _ => false) = true := by
  decide +kernel

/-- Carrel 5 with near-tier frames on stack 0 and sixteen leaves of home behind port 1. -/
def lib5 : State := put crl5 [(R.KPR_EXTENT 5 0, 0x1000000000), (R.HBM_STACK_STATE 0, 0x40001),
  (R.KPR_FAR_MAP 0, 0x140001000000000), (R.KPR_FAR_EXTENT 5, 0x1000000000)]

/-- A state with one record of carrel 5. -/
def addSlip (s : State) (ws : List Word) (f : Slip → Slip) : State := s.setSlip 0 (f (s.newRecord 5 0 0 ws []))

/-- A COPY of n bytes with tag 4, from near tier to host memory, or within near tier. -/
def copying (n flags : Word) : State := addSlip near5 (slipWords 4 3 [0xFFFF000000010000, 0xFFFF000000020000, n, flags]) (fun x => { x with st := .running })

theorem witness_CopyChunkMovesItsBytes :
    let s := copying 128 0x400
    let x : Slip := ((s.slip 0).getD (recd [] id))
    let g := s.grant 1 (s.carrelList.filter (fun k => s.cat.slips.any (fun p => p.2.carrel == k && s.copyWaits p)))
    s.running = true ∧ s.slipByTag 5 4 = some (0, x) ∧ s.copyWaits (0, x) = true ∧ s.enginesHeld < 8 ∧ s.reqRoom 32 = true ∧ s.copyHeld x = false ∧ s.noneHeld
      ∧ g.2 = some 5 ∧ x.srcHost = false ∧ x.dstHost = true ∧ s.ownChip (x.p 0).toNat = true ∧ s.portUp 0 = true
      ∧ ((g.1.setSlip 0 { x with progress := 128 }).readFor 5 0x10000 128 4).2.2 = none
      ∧ ((g.1.setSlip 0 { x with progress := 128 }).readFor 5 0x10000 128 4).1.portUp 0 = true
      ∧ (let y : Slip := (((copying 128 0).slip 0).getD (recd [] id));
        y.dstHost = false ∧ y.copyAdds = false ∧ (y.p 1).toNat / 2 ^ 48 = 0xFFFF ∧ (y.p 1).toNat % 2 ^ 48 + 128 ≤ 0x6000000000
          ∧ (copying 128 0).copyWaits (0, y) = true ∧ (copying 128 0).copyHeld y = false)
      ∧ (addSlip near5 (slipWords 4 3 [0, 0, 0, 0]) id).copyWaits (0, recd [] id) = false := by decide +kernel

/-- Within near tier: a COPY of one chunk, and one of two. -/
theorem witness_CopyChunkMovesItsBytes_near :
    ∀ n ∈ [128, 8192],
      let s := copying (BitVec.ofNat 64 n) 0
      let x : Slip := ((s.slip 0).getD (recd [] id))
      s.slipByTag 5 4 = some (0, x) ∧ s.slip 0 = some x ∧ s.copyWaits (0, x) = true ∧ s.copyHeld x = false ∧ s.reqRoom 32 = true
        ∧ (s.grant 1 (s.carrelList.filter (fun k => s.cat.slips.any (fun p => p.2.carrel == k && s.copyWaits p)))).2 = some 5
        ∧ x.srcHost = false ∧ x.dstHost = false ∧ x.copyAdds = false ∧ s.ownChip (x.p 0).toNat = true ∧ s.ownChip (x.p 1).toNat = true ∧ s.errorFree
        ∧ s.memAdmitted 5 0x10000 4096 = true ∧ s.memAdmitted 5 0x20000 4096 = true ∧ s.byteStatus 0x10000 = none ∧ s.byteStatus 0x20FFF = none
        ∧ (∀ w < 64, s.regBit (R.OBS_WP_BASE w) 48 = false) ∧ x.fail = none ∧ x.copyLen = n ∧ x.progress = 0 := by decide +kernel

/-- A HOLDING slip of carrel 5 with tag 3, ready. -/
def holdWords (hop call addr size flags : Nat) : List Word :=
  slipWords 3 6 [BitVec.ofNat 64 (hop + call * 2 ^ 32), BitVec.ofNat 64 addr, BitVec.ofNat 64 size, BitVec.ofNat 64 flags]
def holdSlip (hop call addr size flags : Nat) : Slip := recd (holdWords hop call addr size flags) (fun x => { x with st := .ready })
def holding (hop call addr size flags : Nat) (calls : Tab Holding) : State :=
  { lib5.setSlip 0 (holdSlip hop call addr size flags) with kpr := { lib5.kpr with calls := calls } }

/-- Call number 1: one leaf at home behind port 1, or as named; and a pin. -/
def call1 (leaves : Tab Leaf) : Tab Holding := [(callKey 5 1, ⟨5, 1, false, 0x100000000000, 0x200000, 0, leaves, false⟩)]
def pin1 : Tab Holding := [(callKey 5 1, ⟨5, 1, true, 0x200000, 0x1000, 0, [], false⟩)]

theorem witness_HoldingsRegisterReleaseAndPin :
    (let s := holding 1 1 0x100000000000 0x200000 0 [];
      let x := holdSlip 1 1 0x100000000000 0x200000 0;
      s.holdTurn 1 5 3 0 x ∧ s.holdRefusal x true false = none ∧ s.holdRoom x = true ∧ x.hFlags % 2 = 0 ∧ 0 ∉ s.kpr.zeroing ∧ s.unbackedOf x.newHolding = []
        ∧ (s.callAt x.hKey).isNone = true)
    ∧ (let s := holding 1 0 0 0 0 [];
      let x := holdSlip 1 0 0 0 0;
      s.holdTurn 1 5 3 0 x ∧ s.holdRefusal x true false = some 0x3004 ∧ isSuccess 0x3004 = false)
    ∧ (let s := holding 2 1 0 0 0 (call1 []);
      let x := holdSlip 2 1 0 0 0;
      s.holdTurn 2 5 3 0 x ∧ s.holdRefusal x true false = none ∧ s.kpr.moves = [] ∧ s.callAt x.hKey = some ⟨5, 1, false, 0x100000000000, 0x200000, 0, [], false⟩)
    ∧ (let s := holding 3 1 0x200000 0x1000 0 [];
      let x := holdSlip 3 1 0x200000 0x1000 0;
      s.holdTurn 3 5 3 0 x ∧ s.holdRefusal x true false = none ∧ s.holdRoom x = true ∧ s.movesInto x.hAddr x.hSize = false ∧ s.touchesFrame x.hAddr x.hSize = false)
    ∧ (let s := holding 4 1 0 0 0 pin1;
      let x := holdSlip 4 1 0 0 0;
      s.holdTurn 4 5 3 0 x ∧ s.holdRefusal x true false = none) := by
  refine ⟨?_, ?_, ?_, ?_, ?_⟩ <;> decide +kernel

/-- An EVICT of the leaf in frame 3. -/
def evicting (dirty : Bool) : State := holding 6 1 0 1 0 (call1 [(0, ⟨some 3, dirty, 0⟩)])

theorem witness_PrefetchEvictAndLeafMoves :
    (let s := holding 5 1 0 1 8 (call1 []);
      let x := holdSlip 5 1 0 1 8;
      s.holdTurn 5 5 3 0 x ∧ s.holdRefusal x true false = none ∧ x.namedLeaves = [0] ∧ (s.callAt x.hKey).isSome = true ∧ callKey 5 1 = x.hKey
        ∧ s.movingLeaf x.hKey 0 = false ∧ s.gaveUp 0 0 = false ∧ s.flagStack x.carrel x.hFlags = some 0 ∧ (s.freeFrames 5 0).head? = some 0)
    ∧ (∀ dirty ∈ [true, false], (evicting dirty).holdTurn 6 5 3 0 (holdSlip 6 1 0 1 0) ∧ (evicting dirty).holdRefusal (holdSlip 6 1 0 1 0) true false = none
        ∧ (holdSlip 6 1 0 1 0).namedLeaves = [0] ∧ (evicting dirty).movingLeaf (callKey 5 1) 0 = false ∧ (evicting dirty).gaveUp 0 0 = false
        ∧ ((evicting dirty).callAt (callKey 5 1)).isSome = true ∧ (evicting dirty).heldLeaf (callKey 5 1) 0 = false
        ∧ ((evicting dirty).callAt (callKey 5 1)).all (fun h => (evicting dirty).backed h 0 && (h.leaf 0).dirty == dirty) = true)
    ∧ (let m : Move := ⟨5, 1, 0, some 3, .quota, false, []⟩;
      let s : State := { lib5 with kpr := { lib5.kpr with calls := call1 [], moves := [m] } };
      s.running = true ∧ s.kpr.moves[0]? = some m ∧ s.moveReady m = true ∧ s.moveReady { m with started := true } = false ∧ s.moveLost m = false ∧ s.moveLost { m with started := true } = false
        ∧ (∀ k ∈ s.movePorts m, s.portCarrels k s.moveReady = [5]) ∧ s.kpr.adds = []
        ∧ (s.callAt (callKey 5 1)).all (fun h => !h.gone && callKey h.carrel h.call == callKey 5 1) = true ∧ (s.callAt (callKey 5 1)).isSome = true
        ∧ (s.movePorts m).any (fun k => s.kpr.slots.contains k) = false ∧ s.moveHeld m = false ∧ Memory.wf s.mem = true
        ∧ ∀ p ∈ s.cat.slips, p.2.typ = 6 → p.2.st ≠ .running) := by
  refine ⟨?_, ?_, ?_⟩ <;> decide +kernel

theorem witness_ZeroWritesClearTheHolding :
    let x := recd (holdWords 1 1 0x100000000000 0x200000 1) (fun x => { x with st := .running })
    let s : State := { lib5.setSlip 0 x with kpr := { lib5.kpr with calls := call1 [], zeroing := [0] } }
    s.running = true ∧ s.slipByTag 5 3 = some (0, x) ∧ x.fail = none ∧ x.st ≠ .retired ∧ 0 ∈ s.kpr.zeroing ∧ s.carrelLive 5 = true
      ∧ s.callAt x.hKey = some ⟨5, 1, false, 0x100000000000, 0x200000, 0, [], false⟩ ∧ callKey 5 1 = x.hKey
      ∧ s.unwritable 0x100000000000 = [] := by decide +kernel

/-! ## Shelves, passes and folios -/

/-- Pass 0 of the launch with tag 9 of carrel 5, in launch frame 0, with its loan of 4 KiB. -/
def entry0 : PassEntry := ⟨0, 5, 9, 0, 1000, 1600, 1, 0, 64, 0, [0], false, false, none, some 0, 1, true, none, [], 0, []⟩
def loan0 : Loan := ⟨5, 9, 1, 4096, 4096⟩

/-- The pass runs with these cores and its window open. -/
def pass0 (cores : Tab CoreSt) : Running :=
  { e := entry0, start := 0, deadline := 100000, overrun := false, window := some ⟨4096, 8192, true, true, 0xFFFF0000⟩, bisect := [], cores := cores
    skips := [], moved := false, firsts := (0, 0, 0), cc := 0, still := 0 }

/-- Carrel 5 with its launch under way and shelf 0 as given. -/
def onShelf (x : Shelf) : State :=
  { put (addSlip crl5 (slipWords 9 2 [1, 0, 0, 0]) (fun x => { x with st := .running }))
      [(R.PWR_DOMAIN_STATE 0, 1), (R.PWR_DOMAIN_STATE 64, 1), (R.CFG_RANGE_ENABLE, 1)] with shelves := [(0, x)] }

/-- Shelf 0 of carrel 5 with the pass on these cores. -/
def shelf0 (cores : Tab CoreSt) : Shelf := { Shelf.idle with owner := 5, loan0 := some loan0, gen0 := 1, run := some (pass0 cores) }
def runs0 (cores : Tab CoreSt) : State := onShelf (shelf0 cores)

/-- Shelf 0 with a queue and no pass running. -/
def queued (e : PassEntry) (loan : Option Loan) : State := onShelf { Shelf.idle with owner := 5, loan0 := loan, queue := [e] }

theorem witness_PreloadsGrantLoansAndLoadFrames :
    (let s := queued { entry0 with frame := none, loaded := false } none;
      let x := (s.shelf 0).takeFrame;
      let e : PassEntry := { entry0 with frame := some 0, loaded := false };
      s.running = true ∧ x.entries.find? PassEntry.preloading = some e ∧ x.loan 0 = none ∧ x.loanBlocked 0 (loanBase s.kpr.limit 0 64) 64 = false)
    ∧ (onShelf Shelf.idle).running = true ∧ (onShelf Shelf.idle |>.shelf 0).takeFrame.entries.find? PassEntry.preloading = none
    ∧ (let s := queued { entry0 with loaded := false } (some loan0);
      let e : PassEntry := { entry0 with loaded := false };
      (s.shelf 0).takeFrame.entries.find? PassEntry.preloading = some e ∧ (s.shelf 0).takeFrame.loan 0 ≠ none
        ∧ (s.shelf 0).entries.find? PassEntry.preloading = some e ∧ ((s.shelf 0).loan 0).isSome = true ∧ e.preMoved = 0 ∧ e.preReqs = []
        ∧ (((s.ctxSlip (s.ctxOf 0 e)).bind (·.launch)).map (·.sFirst)).getD 0 = 0) := by decide

theorem witness_PassesStartOverrunAndEnd :
    (let s := queued entry0 (some loan0);
      let u := s.advance (ccToFc 0 (s.shelfMHz 0) - s.stp.t);
      s.running = true ∧ (s.shelf 0).run = none ∧ (s.shelf 0).halted = false ∧ (s.shelf 0).clearing = false ∧ entry0.loaded = true
        ∧ entry0.carried = false ∧ u.fits 0 1000 = true ∧ u.fits 0 100000 = false)
    ∧ (let s := runs0 [];
      (s.shelf 0).run = some (pass0 []) ∧ (pass0 []).overrun = false ∧ s.stp.total ≤ (pass0 []).deadline ∧ (pass0 []).finished = true
        ∧ (pass0 []).e.frame = some 0 ∧ (s.shelf 0).loan 0 = some loan0 ∧ (pass0 [(0, CoreSt.fresh 300 0 0)]).finished = false) := by decide

theorem witness_ShelvesJoinLendClearAndWithdraw :
    (let s := onShelf { Shelf.idle with joining := 5 };
      s.running = true ∧ (s.shelf 0).joining ≠ 0 ∧ (s.shelf 0).clearing = false ∧ s.domainOn 0 = true ∧ s.domainOn 64 = true
        ∧ (({ s with bind := { s.bind with vols := [(volKey 5 1, ⟨0, 1, 1, true, [7]⟩)] } } : State).volumesOf 5).length = 1
        ∧ ((onShelf Shelf.idle).shelf 0).joining = 0 ∧ ((onShelf { Shelf.idle with joining := 5, clearing := true }).shelf 0).clearing = true
        ∧ (put s [(R.PWR_DOMAIN_STATE 0, 0)]).domainOn 0 = false ∧ (put s [(R.PWR_DOMAIN_STATE 64, 0)]).domainOn 64 = false)
    ∧ (let s := onShelf Shelf.idle;
      s.rangeEnabled 0 = true ∧ s.withdrawn 0 = false ∧ (s.shelf 0).run = none ∧ (s.shelf 0).queue = [] ∧ (s.shelf 0).plan = []
        ∧ popCount 64 (setBitAt (s.reg (R.CFG_SHELF_WITHDRAWN 0)) 0 true).toNat ≤ 8)
    ∧ (let s := put (onShelf Shelf.idle) [(R.PWR_LEND, 1)];
      s.field R.PWR_LEND 0 32 ≠ 0 ∧ s.domainOn 0 = true ∧ s.withdrawn 0 = false ∧ 0 ∉ s.pwr.lending ∧ s.canLend 0 = true
        ∧ (let u : State := { s with pwr := { s.pwr with lending := [0], wakes := [(0, 7)] } };
          0 ∈ u.pwr.lending ∧ Tab.find? u.pwr.wakes 0 = some 7) ∧ Tab.find? s.pwr.wakes 0 = none)
    ∧ (let s := onShelf { Shelf.idle with clearing := true };
      (s.shelf 0).clearing = true ∧ (s.shelf 0).clearRun = false ∧ s.domainOn 0 = true ∧ s.domainOn 64 = true ∧ (s.shelf 0).joining = 0
        ∧ (put s [(R.PWR_DOMAIN_STATE 64, 0)]).domainOn 64 = false
        ∧ ((onShelf { Shelf.idle with clearing := true, clearRun := true }).shelf 0).clearRun = true ∧ svc.domainOn 0 = false) := by decide

/-- A signal of 3 to tally 2 of the pass, to core 1 or to every core. -/
def sig (core : Option (BitVec 8)) : TallySig := ⟨5, 9, 0, core, 2, 3⟩

theorem witness_TallySignalsReachTheirPass :
    ((runs0 []).running = true ∧ ((runs0 []).shelf 0).early.length < 256 ∧ ((runs0 []).shelf 0).posted = [] ∧ ((runs0 []).shelf 0).run = some (pass0 [])
      ∧ (pass0 []).e.isPass 5 9 0 = true ∧ (sig (some 1)).core = some 1 ∧ (sig none).core = none)
    ∧ (((queued entry0 none).shelf 0).run = none ∧ ((queued entry0 none).shelf 0).early.length < 256 ∧ ((queued entry0 none).shelf 0).posted = []
      ∧ (({ pass0 [] with e := { entry0 with tag := 8 } } : Running).e.isPass 5 9 0) = false ∧ ((queued entry0 none).shelf 0).awaits 5 9 0 = true)
    ∧ ((onShelf Shelf.idle).shelf 0).awaits 5 9 0 = false ∧ ((onShelf Shelf.idle).shelf 0).run = none
    ∧ ((onShelf { Shelf.idle with early := List.replicate 256 (sig none) }).shelf 0).early.length = 256
    ∧ ((onShelf { Shelf.idle with posted := [.signal (sig none)] }).shelf 0).posted ≠ [] := by decide +kernel

theorem witness_WindowWritesLandInTheWindow :
    (runs0 []).windowCause 0 16 8 false 5 none = none ∧ ((runs0 []).shelf 0).run = some (pass0 []) ∧ (pass0 []).window.isSome = true
    ∧ (runs0 []).ecc = [] ∧ ((runs0 []).shelf 0).posted = [] ∧ (runs0 []).windowCause 0 4090 8 false 5 none = some 5 := by decide

/-- A folio in its slot 300 of shelf 0's folio memory, and core 0's stream of an engine at it. -/
def atFolio (ws : List Word) (c : CoreSt) : State :=
  { runs0 [(0, c)] with mem := Memory.writeN [] (folioAddr 0 (64 * 300)) (bytesOfWords ws) }

/-- A NOP with a wait for tally 1 to reach v, consuming it. -/
def waitsFor (v : Nat) : List Word := [0, 0, 0, 0, 0, BitVec.ofNat 64 (1 + 0x60 + v * 256), 0, 0]

/-- ACC_CLEAR of one accumulator. -/
def clearOne : List Word := [0x201, 1, 0, 0, 0x100000, 0, 0, 0x10]

theorem witness_FolioHeadStartsWaitsOrSkips_start :
    let c := CoreSt.fresh 0 0 300
    let s := atFolio (waitsFor 0) c
    let x : Folio := ⟨300, waitsFor 0⟩
    let ctx : PassCtx := ⟨0, entry0, 4096, 4096⟩
    s.running = true ∧ s.ctxOf 0 entry0 = ctx ∧ s.folioSlot 0 300 = waitsFor 0 ∧ c.s.ended = false ∧ c.s.held = false ∧ c.s.room 2 = true
      ∧ c.s.execs = [] ∧ s.cutoffDue 0 0 2 = none ∧ c.s.cut = false ∧ c.s.skipLeft = 0 ∧ s.errorFree ∧ x.fetchCheck 2 4096 = none
      ∧ (opSpec x.opcode).all (fun p => s.extBad ctx x p == false && !x.noop p && s.startBlocked ctx 0 2 x p == none) = true
      ∧ (opSpec x.opcode).isSome = true ∧ x.pre = false ∧ c.s.ready = false ∧ x.opcode ≠ 0x0700 ∧ x.runsOn ctx 0 = true
      ∧ (s.waitMet ctx 0 x).all (fun u => u.forced 0 0 2 (u.predicate ctx 0 x).2.1 && (u.startCheck ctx 0 x).2 == .ok) = true
      ∧ (s.waitMet ctx 0 x).isSome = true ∧ (s.waitMet ctx 0 ⟨300, waitsFor 7⟩).isNone = true ∧ x.end_ = false ∧ x.waitEn = true ∧ x.consume = true := by
  decide +kernel

/-- Core 0's stream M at ACC_CLEAR while the vector engine holds the accumulator. -/
def blockedCore : CoreSt :=
  { CoreSt.fresh 300 0 0 with v := { Stream.fresh 0 with execs := [⟨200, 0, [], [⟨2, 0, 15, false⟩], .started, [], false, 0, 0, false⟩] } }

theorem witness_FolioHeadStartsWaitsOrSkips_blocked :
    let s := atFolio clearOne blockedCore
    let x : Folio := ⟨300, clearOne⟩
    let ctx : PassCtx := ⟨0, entry0, 4096, 4096⟩
    x.fetchCheck 0 4096 = none ∧ (s.waitMet ctx 0 x).isSome = true
      ∧ (opSpec x.opcode).all (fun p => s.extBad ctx x p == false && !x.noop p && s.startBlocked ctx 0 0 x p == some 1) = true := by decide +kernel

theorem witness_FolioHeadStartsWaitsOrSkips_skip :
    let ctx : PassCtx := ⟨0, entry0, 4096, 4096⟩
    (0 < ({ Stream.fresh 300 with skipLeft := 2 } : Stream).skipLeft ∧ ({ Stream.fresh 300 with held := true } : Stream).held = true
      ∧ (Stream.fresh 0).ended = true)
    ∧ ((Folio.mk 300 [0x99, 0, 0, 0, 0, 0, 0, 0]).fetchCheck 2 4096 = some 0 ∧ (0 : Nat) ≠ 4)
    ∧ (let x : Folio := ⟨300, [0, 0, 0, 0, 0, 0x2000000000000 + 0x1000000 + 0x500000000, 0, 0]⟩;
      let s := atFolio x.ws (CoreSt.fresh 0 0 300);
      x.fetchCheck 2 4096 = none ∧ (s.waitMet ctx 0 x).all (fun u => !u.forced 0 0 2 (u.predicate ctx 0 x).2.1) = true ∧ x.onSkip = false) := by
  decide +kernel

/-- Core 0 with a folio of these words in an engine, started or performed. -/
def inEngine (e : Nat) (ws : List Word) (ph : ExecPhase) (regions : List Region) : Exec × CoreSt :=
  let x : Exec := ⟨300, 0, ws, regions, ph, [], false, 0, 0, false⟩
  let st : Stream := { Stream.fresh 301 with execs := [x] }
  (x, (CoreSt.fresh 0 0 0).setStream e st)

/-- The state in which that folio is in its engine. -/
def engaged (e : Nat) (ws : List Word) (ph : ExecPhase) : State := runs0 [(0, (inEngine e ws ph []).2)]

/-- The context of pass 0. -/
def ctx0 : PassCtx := ⟨0, entry0, 4096, 4096⟩

theorem witness_FoliosCompleteOrEndByError :
    (∀ op ∈ [0, 0x601, 0x700], (engaged 2 [BitVec.ofNat 64 (op / 256 + op % 256 * 256), 1, 0, 0, 0, 0, 0, 0] .started).runsFolio 0 0 2 op ctx0
        (inEngine 2 [BitVec.ofNat 64 (op / 256 + op % 256 * 256), 1, 0, 0, 0, 0, 0, 0] .started []).1)
    ∧ ((engaged 2 [0] .performed).errorFree ∧ ((engaged 2 [0] .performed).streamOf 0 0 2).startedOp 0x700 = none)
    ∧ (let x := (inEngine 2 [0, 0, 0, 0, 0, 0, 0x503, 0] .performed []).1;
      x.phase = .performed ∧ x.reqs = [] ∧ x.fired = false ∧ x.folio.sigScope = 0 ∧ x.folio.localInc = 5
        ∧ (((pass0 [(0, (inEngine 2 [0, 0, 0, 0, 0, 0, 0x503, 0] .performed []).2)]).core 0).stream 2).execs = [x])
    ∧ (endsFolio 0x6003 = true ∧ endsFolio 0x1001 = false) := by decide +kernel

theorem witness_TalliesCountModulo :
    let c := CoreSt.fresh 0 0 300
    let x : Folio := ⟨300, waitsFor 7⟩
    (atFolio (waitsFor 7) c).folioSlot 0 300 = waitsFor 7 ∧ x.waitEn = true ∧ (32768 : Int) ≤ ((c.tallyAt x.waitTally : Int) - x.waitValue) % 65536
      ∧ c.s.ready = false ∧ c.s.room 2 = true ∧ x.fetchCheck 2 4096 = none
      ∧ (opSpec x.opcode).all (fun p => (atFolio (waitsFor 7) c).extBad ctx0 x p == false) = true
      ∧ ((atFolio (waitsFor 0) c).waitMet ctx0 0 ⟨300, waitsFor 0⟩).isSome = true := by decide +kernel

/-! ## Folios in their engines -/

/-- Words of a folio: opcode, formats 0x10 where it has them, extents 8 × 1 × 1 × 1, D, A, B at bytes 256, 64, 128 of their spaces. -/
def folioOf (op : Nat) (fmts : Word) (spaces : Nat) : List Word :=
  [BitVec.ofNat 64 (op / 256 + op % 256 * 256) + fmts, 0x0001000100010008, 0, 0, BitVec.ofNat 64 (256 + 64 * 2 ^ 21 + 128 * 2 ^ 42 + spaces), 0, 0, 0]

theorem witness_MmaAddsRowsTimesColumns : ∀ op ∈ [0x100, 0x101],
    (engaged 0 (folioOf op 0x01010000000000 0x100000) .started).errorFree
    ∧ (engaged 0 (folioOf op 0x01010000000000 0x100000) .started).runsFolio 0 0 0 op ctx0 (inEngine 0 (folioOf op 0x01010000000000 0x100000) .started []).1 := by
  decide +kernel

theorem witness_AccumulatorsClearLoadAndLeave : ∀ op ∈ [0x102, 0x103, 0x104, 0x105],
    (engaged 0 (folioOf op 0 0) .started).errorFree
    ∧ (engaged 0 (folioOf op 0 0) .started).runsFolio 0 0 0 op ctx0 (inEngine 0 (folioOf op 0 0) .started []).1 := by decide +kernel

theorem witness_ElementFoliosAndReductions :
    ∀ op ∈ [0x200, 0x201, 0x202, 0x203, 0x204, 0x205, 0x206, 0x207, 0x208, 0x209, 0x20A, 0x300, 0x301, 0x302, 0x303],
      (engaged 1 (folioOf op 0x10101000000000 0) .started).errorFree
      ∧ (engaged 1 (folioOf op 0x10101000000000 0) .started).runsFolio 0 0 1 op ctx0 (inEngine 1 (folioOf op 0x10101000000000 0) .started []).1
      ∧ (inEngine 1 (folioOf op 0x10101000000000 0) .started []).1.folio.destFits ctx0 0 = true
      ∧ (inEngine 1 (folioOf op 0x10101000000000 0) .started []).1.folio.rowCount .d = 1 := by decide +kernel

/-- Carrel 5's near tier behind pass 0, whose argument word 0 names byte 64 KiB of it. -/
def engagedNear (ws : List Word) : State :=
  let s := put (engaged 2 ws .started) [(R.KPR_EXTENT 5 0, 0x1000000000), (R.HBM_STACK_STATE 0, 0x40001)]
  { s with mem := Memory.writeN [] (folioAddr 0 64) (bytesOfWords [0xFFFF000000010000]) }

/-- The folio with an external D by argument word 0. -/
def toArg (op : Nat) (fmts : Word) : List Word := (folioOf op fmts 0x180000).set 7 1

theorem witness_TransfersFillsAndSignals_rows :
    (∀ op ∈ [0x400, 0x500, 0x501], ∀ ext ∈ [true, false],
      let ws := if ext then (if op = 0x500 then folioOf op 0 0 else toArg op 0) else folioOf op 0 0
      let s := engagedNear ws
      let x := (inEngine 2 ws .started []).1
      s.errorFree ∧ x.moved = 0 ∧ s.runsFolio 0 0 2 op ctx0 x ∧ (s.transferRows ctx0 0 x.folio).2.1.length = 1
        ∧ ∀ r ∈ (s.transferRows ctx0 0 x.folio).2.1,
            s.sideReady ctx0 (s.extOf ctx0 x.folio) (x.folio.ext 0) r.src ∧ s.sideReady ctx0 (s.extOf ctx0 x.folio) (x.folio.ext 0) r.dst) := by
  intro op h ext g
  revert op h
  revert ext
  decide +kernel

theorem witness_TransfersFillsAndSignals_others :
    (let s := engagedNear (toArg 0x401 0x1100000000000);
      let x := (inEngine 2 (toArg 0x401 0x1100000000000) .started []).1;
      s.errorFree ∧ x.moved = 0 ∧ s.runsFolio 0 0 2 0x401 ctx0 x ∧ (s.transferRows ctx0 0 x.folio).2.1.length = 1
        ∧ ∀ r ∈ (s.transferRows ctx0 0 x.folio).2.1, s.sideReady ctx0 (s.extOf ctx0 x.folio) (x.folio.ext 0) r.src ∧ r.dst.1 = 3
            ∧ s.sideReady ctx0 (s.extOf ctx0 x.folio) (x.folio.ext 0) r.dst)
    ∧ (let x := (inEngine 2 (folioOf 0x402 0 0) .started []).1;
      (engaged 2 (folioOf 0x402 0 0) .started).runsFolio 0 0 2 0x402 ctx0 x ∧ x.folio.destFits ctx0 0 = true)
    ∧ (let ws : List Word := [6, 0, 0, 0, 0, 0, 0, 0x000300200000FFFF];
      let x := (inEngine 2 ws .started []).1;
      let s := engaged 2 ws .started;
      s.runsFolio 0 0 2 0x600 ctx0 x ∧ s.ownChip (x.folio.f 7 0 16 * 2 ^ 48) = true ∧ s.windowCause (x.folio.f 7 16 12) 0 0 true 5 none = none
        ∧ (s.shelf (x.folio.f 7 16 12)).posted = []
        ∧ x.folio.f 7 48 8 = 3)
    ∧ (∀ op ∈ [0x800, 0x801], (engaged 2 (folioOf op 0 0) .started).runsFolio 0 0 2 op ctx0 (inEngine 2 (folioOf op 0 0) .started []).1
        ∧ ((engaged 2 (folioOf op 0 0) .started).cir.waits.any fun w => w.who == .folio 0 0) = false
        ∧ (engaged 2 (folioOf op 0 0) .started).ringOf 5 false 0 = some 0) := by
  refine ⟨?_, ?_, ?_, ?_⟩ <;> decide +kernel

/-! ## Adders, stacks, extents -/

theorem witness_AddersAddFetchAndSwap :
    (near5.running = true ∧ near5.ecc = [] ∧ near5.servesNear 5 0x10000 8 ∧ near5.nearBacked 0x10000 1 = true ∧ addSize 1 = 8 ∧ 0x10000 % 8 = 0)
    ∧ (0x10004 % addSize 1 ≠ 0 ∧ near5.memAdmitted 5 0x70000000 8 = false) := by decide +kernel

theorem witness_StackSlotsTestStateAndFarLinks :
    (let s : State := { lib5 with kpr := { lib5.kpr with slots := [0] } };
      s.inService = true ∧ 0 ∈ s.kpr.slots ∧ 1 ∉ s.kpr.slots ∧ 3 ∈ s.channels 0)
    ∧ (let s := put lib5 [(R.ILN_PORT_STATE 1, 6)];
      s.inService = true ∧ (s.portUp 1 = true ∨ s.retraining 1 = true) ∧ s.modeOf 1 = 2 ∧ s.kpr.farDown.getLsbD 1 = false
        ∧ ({ s with kpr := { s.kpr with farDown := 2 } } : State).kpr.farDown.getLsbD 1 = true ∧ ∀ q ∈ s.cat.slips, q.2.typ ≠ 6 ∨ q.2.st ≠ .running)
    ∧ (near5.alive = true ∧ near5.stackUp 0 = true ∧ near5.regBit (R.HBM_TEST_CTL 0) 1 = false ∧ fld ((put near5 [(R.HBM_TEST_CTL 0, 1)]).reg (R.HBM_TEST_CTL 0)) 0 3 = 1
        ∧ (put near5 [(R.HBM_TEST_CTL 0, 3)]).regBit (R.HBM_TEST_CTL 0) 1 = true ∧ near5.wspRefused 0 = true
        ∧ (put near5 [(R.HBM_TEST_CTL 0, 3)]).wspRefused 0 = false
        ∧ popCount 32 ((0 : BitVec 32) ||| (near5.reg (R.HBM_MAPOUT_FORCE 0)).setWidth 32).toNat ≤ 8) := by decide +kernel

theorem witness_QuotaWritesAndTheMap :
    (let w : Word := 0x100008100 &&& 0xFFFF0003FFFF;
      let s := put near5 [(R.HBM_STACK_STATE 1, 0x4000001)];
      s.alive = true ∧ s.carrelExists (5 : Func).toNat = true ∧ s.carrelExists (6 : Func).toNat = false ∧ s.extentRefused 5 1 (leafBytes * fld w 0 18) (leafBytes * fld w 32 16) = false
        ∧ ((s.setReg (R.KPR_EXTENT 5 1) w).cutUse 5 (s.extent 5 1).1 (s.extent 5 1).2) = false ∧ s.kpr.excess = [])
    ∧ near5.extentRefused 5 1 0 leafBytes = true
    ∧ (let s : State := { lib5 with kpr := { lib5.kpr with calls := call1 [(0, ⟨some 3, false, 0⟩)] } };
      s.extentRefused 5 0 0 0 = false ∧ (s.setReg (R.KPR_EXTENT 5 0) 0).cutUse 5 (s.extent 5 0).1 (s.extent 5 0).2 = true
        ∧ ((s.holdings 5).any (fun h => !h.pin && !(decide (farBase ≤ h.addr) && decide (h.addr + leafBytes * h.nLeaves ≤ farBase + 0)))) = true
        ∧ ((s.holdings 5).any (fun h => !h.pin && !(decide (farBase ≤ h.addr) && decide (h.addr + leafBytes * h.nLeaves ≤ farBase + leafBytes)))) = false
        ∧ (Tab.vals s.kpr.calls).any (fun h => !h.pin && !h.gone && decide (h.addr ≤ 0x100000000000)) = true)
    ∧ ((near5.carrelState 5 = 2 ∨ near5.carrelState 5 = 3) ∧ near5.regBit (R.CRL_CARREL_STATE 5) 3 = false)
    ∧ ¬ ((svc.carrelState 5 = 2 ∨ svc.carrelState 5 = 3) ∧ svc.regBit (R.CRL_CARREL_STATE 5) 3 = false) := by decide +kernel

/-! ## Interloan -/

/-- Port 1 streams, chip 2 is a peer behind it whose directions are both synced, and carrel 5 may be read and added to by it. -/
def peer2 : Peer := { Peer.fresh 0 with out := 2, inSync := true }
def linked (x : Peer) : State :=
  let s := put (engagedNear [0]) [(R.ILN_PORT_STATE 1, 5), (R.ILN_ROUTE 0, 0x2100020002), (R.ILN_REMOTE_MEM 5, 0x200020003)]
  { s with iln := { s.iln with peers := [(2, x)] } }

/-- A packet of peer 2 for chip 0 on port 1, with its CRC. -/
def pkt (len typ : Nat) (target : Nat) (data : List Byte) : Packet :=
  Packet.sealed ⟨1, 0, false, BitVec.ofNat 9 len, BitVec.ofNat 3 typ, 0, 2, 0, 5, 0, 7, BitVec.ofNat 64 target, data, 0, 0, 0, 0⟩

/-- Eight bytes to byte 16 of the window of shelf 0, to a tally, and at byte 64 KiB of the near tier. -/
def pktWrite : Packet := pkt 8 0 (storeBase + 16) (leBytes 8 1)
def pktSignal : Packet := pkt 0 0 (3 * 2 ^ 32 + 2 * 2 ^ 20) []
def pktRead : Packet := pkt 8 0 0x10000 []
def pktAdd : Packet := pkt 8 1 0x10000 (leBytes 8 1)

theorem witness_InterloanRequestsAreJudgedAndServed_judged : ∀ q ∈ [(pktWrite, 1), (pktSignal, 2), (pktRead, 3), (pktAdd, 4)],
    (linked peer2).hears 1 q.1 q.2 peer2 ∧ peer2.expects q.1 ∧ (linked peer2).receives q.1
      ∧ (linked peer2).hears 1 (Packet.sealed { q.1 with seq := 3 }) q.2 peer2 ∧ (3 : BitVec 16) ≠ (peer2.chan 0).expected
      ∧ (linked peer2).hears 1 (Packet.sealed { q.1 with epoch := 9 }) q.2 peer2 ∧ (linked peer2).epochMatches 9 = false
      ∧ (linked peer2).hears 1 (Packet.sealed { q.1 with carrel := 6 }) q.2 peer2 ∧ (linked peer2).carrelExists 6 = false
      ∧ Packet.crcRight { q.1 with seq := 3 } = false
      ∧ (linked peer2).portStreams 2 = false ∧ (linked peer2).errorFree := by decide +kernel

theorem witness_InterloanRequestsAreJudgedAndServed_served :
    let s := linked peer2
    (inWindows (storeBase + 16) 8 = true ∧ windowAt (storeBase + 16) = (0, 16) ∧ s.windowCause 0 16 8 false 5 (some 2) = none
      ∧ ((s.shelf 0).run.map (fun r => r.window.isSome)) = some true ∧ (s.shelf 0).posted = [])
    ∧ (fld pktSignal.target 0 12 = 0 ∧ s.windowCause 0 0 0 true 5 (some 2) = none)
    ∧ (s.remoteRange 0x10000 8 = true ∧ s.remoteMem 5 0 2 = true ∧ s.remoteMem 5 1 2 = true ∧ s.servesNear 5 0x10000 8 ∧ 0x10000 % addSize 1 = 0)
    ∧ (put s [(R.ILN_REMOTE_MEM 5, 0)]).remoteMem 5 0 2 = false := by decide +kernel

/-- A COPY folio of the stream engine whose READ has request id outstanding. -/
def askedFor (id : Nat) : State :=
  let x : Exec := ⟨300, 0, [4], [], .performed, [id], false, 0, 0, false⟩
  let s := { linked peer2 with shelves := [(0, shelf0 [(0, (CoreSt.fresh 0 0 0).setStream 2 { Stream.fresh 301 with execs := [x] })])] }
  { s with iln := { s.iln with reqs := [(id, ⟨2, .folio 0 0 2 300 0 0 64, true, 5, true, 0, some 0⟩)] } }
def asked : State := askedFor 7

theorem witness_InterloanResponsesAndLinkPackets_response :
    asked.hears 1 (pkt 8 0 0 (leBytes 8 1)) 5 peer2 ∧ asked.errorFree ∧ (Tab.find? asked.iln.reqs 7).any (fun r => r.peer == 2) = true
      ∧ (pkt 8 0 0 (leBytes 8 1)).payload ≠ [] ∧ (asked.waitingFolio 0 0 2 7).isSome = true ∧ asked.runCtx 0 = some ctx0 ∧ isSuccess (BitVec.ofNat 16 (fld (0 : Word) 0 16)) = true
      ∧ Tab.find? (linked peer2).iln.reqs 7 = none ∧ (linked peer2).hears 1 (pkt 8 0 0 (leBytes 8 1)) 5 peer2 := by decide +kernel

theorem witness_InterloanResponsesAndLinkPackets_links :
    (linked peer2).hears 1 (pkt 0 0 0x10000 []) 6 peer2 ∧ (peer2.chan 0).waiting = [] ∧ (linked peer2).errorFree
      ∧ (linked peer2).routeFor 2 = some 0 ∧ (linked peer2).routePort 0 = 1 ∧ (linked peer2).portStreams 1 = true
      ∧ ({ peer2 with out := 1 } : Peer).out = 1
      ∧ (linked { peer2 with out := 1 }).hears 1 (pkt 0 0 3 []) 6 { peer2 with out := 1 } ∧ ∀ i < 4, (peer2.chan i).waiting = [] := by decide +kernel

/-- Peer 2 with one unacknowledged packet on channel 0 and packets accepted since the last ACK. -/
def owing : Peer := { peer2 with chans := [⟨1, [⟨pktWrite, 0, 0⟩], [], 0, 2, 0, none, 0⟩, .fresh, .fresh, .fresh] }

theorem witness_InterloanTimeouts :
    ((linked owing).running = true ∧ (linked owing).peer 2 = some owing ∧ owing.chans.length = 4 ∧ (owing.chan 0).unacked ≠ []
      ∧ (owing.chan 0).accepted ≠ 0 ∧ owing.out = 2 ∧ owing.out ≠ 1)
    ∧ (let s : State := { linked { peer2 with out := 1 } with iln := { (linked { peer2 with out := 1 }).iln with
          reqs := [(7, ⟨2, .folio 0 0 2 300 0 0 64, true, 5, false, 0, none⟩)] } };
      s.peer 2 = some { peer2 with out := 1 } ∧ (Tab.find? s.iln.reqs 7).map (fun r => r.peer) = some 2
        ∧ ∀ q ∈ s.reqsTo 2, 0 ≤ q.2.made)
    ∧ (owing.oldest = some 0 ∧ (linked owing).altLeft 2 = none ∧ (put (linked owing) [(R.ILN_ROUTE 0, 0x3900020002)]).altLeft 2 = some 0
      ∧ (linked owing).reqsTo 2 = [] ∧ (linked owing).routeFor 2 = some 0 ∧ (linked owing).routePort 0 = 1 ∧ (linked owing).portStreams 1 = true
      ∧ (linked owing).errorFree)
    ∧ (peer2.chans.all fun c => c.unacked.isEmpty && c.waiting.isEmpty) = true
    ∧ (∀ acked ∈ [true, false],
        let s : State := { linked peer2 with iln := { (linked peer2).iln with reqs := [(2, ⟨2, .folio 0 0 2 300 0 0 64, true, 5, acked, 0, some 0⟩)] } }
        (Tab.find? s.iln.reqs 2).map (fun r => r.acked) = some acked)
    ∧ (let s : State := { askedFor 2 with iln := { (askedFor 2).iln with reqs := [(2, ⟨2, .folio 0 0 2 300 0 0 64, true, 5, true, 0, some 0⟩)] } };
      (s.reach (0 + s.ilnTimeout)).givesUp 2 = false ∧ (s.waitingFolio 0 0 2 2).isSome = true ∧ s.runCtx 0 = some ctx0
        ∧ (s.slip 0).any (fun z => z.st != .retired && z.fail == none) = true) := by decide +kernel

theorem witness_PortsRoutesEpochsAndHostTraffic :
    (let s := linked peer2;
      s.inService = true ∧ s.portUp 1 = true ∧ s.portUp 2 = false ∧ s.regBit (R.ILN_PORT_CTL 2) 0 = false
        ∧ s.portMode 2 ⟨false, false, false, 5, false, 4, 0, 0⟩ = none ∧ s.portMode 2 ⟨true, false, true, 5, false, 4, 0, 0⟩ = some 1
        ∧ s.portMode 2 ⟨false, true, true, 5, false, 4, 0, 0x200000⟩ = some 2 ∧ s.portMode 2 ⟨true, false, true, 5, false, 3, 0, 0⟩ = none
        ∧ (∀ q ∈ (linked peer2).cat.slips, q.2.typ ≠ 6 ∨ q.2.st ≠ .running) ∧ s.retraining 2 = false
        ∧ ({ s with iln := { s.iln with retrain := 4 } } : State).retraining 2 = true ∧ s.modeOf 1 ≠ 0
        ∧ s.modeOf 1 ≠ 2 ∧ s.modeOf 0 ≠ 2 ∧ (put s [(R.ILN_PORT_STATE 1, 6)]).modeOf 1 = 2)
    ∧ ((put svc [(R.ILN_EPOCH_AT, 0)]).field R.ILN_EPOCH_AT 0 48 < svc.stp.stamp.toNat + 1
      ∧ (put svc [(R.ILN_EPOCH_AT, 1)]).field R.ILN_EPOCH_AT 0 48 = svc.stp.stamp.toNat + 1 ∧ ¬ 0xC000 ≤ svc.phase)
    ∧ crl5.portUp 0 = true ∧ Tab.find? svc.iln.host 7 = none
    ∧ (∀ who ∈ [HostFor.nobody, .slip 0],
      let x : Slip := ((copying 128 0x400).slip 0).getD (recd [] id)
      let s := (copying 128 0x400).setSlip 0 { x with progress := 128 }
      let u : State := { s with iln := { s.iln with host := [(7, ⟨5, 0, who⟩)] } }
      let p : Packet := Packet.sealed ⟨9, 0, false, 0, 0, 0, 0, 0, 5, 0, 7, 0, [], 0, 0, 0, 0⟩
      Tab.find? u.iln.host 7 = some ⟨5, 0, who⟩ ∧ u.portUp 0 = true ∧ Packet.crcRight p = true ∧ malformed p 9 = false
        ∧ u.slip 0 = some { x with progress := 128 } ∧ x.typ = 3 ∧ x.st = .running ∧ x.fail = none ∧ u.carrelLive 5 = true ∧ u.hushed = false
        ∧ x.copyLen ≤ 128 ∧ u.slipReqs 0 = [] ∧ u.kpr.adds = [] ∧ ∀ y ∈ u.iln.host, y.1 ≠ 7 → y.2.who ≠ .slip 0) := by
  decide +kernel

/-! ## Carrels and mailboxes -/

/-- Carrel 5 in a state of Table 14-1. -/
def inState (n : Word) : State := put near5 [(R.CRL_CARREL_STATE 5, n), (R.CRL_IMAGE_ADDR, 0x200000)]

theorem witness_CarrelCommandsMoveTheirStates :
    (({ svc with crl := { svc.crl with cmd := some ⟨1, 5, 0, 0⟩ } } : State).crl.cmd.isSome = true ∧ svc.crl.cmd = none ∧ svc.alive = true)
    ∧ (∀ q ∈ [(0, [0]), (1, [1]), (2, [2, 3, 4]), (4, [4])], (inState (BitVec.ofNat 64 q.1)).takesCmd 5 q.2)
    ∧ (∀ l ∈ [[0], [1], [2, 3, 4], [4], [1, 2, 3, 4]], ∃ n ∈ [0, 2, 5], (inState (BitVec.ofNat 64 n)).carrelState (5 : Func).toNat ∉ l)
    ∧ svc.elastics < 8
    ∧ 8 ≤ (put svc ((List.range 8).map (fun i => (R.CRL_CARREL_STATE (10 + i), 0xA)))).elastics
    ∧ ((inState 3).running = true ∧ (inState 3).canFreeze 5 = true ∧ (inState 2).canFreeze 5 = false) := by decide +kernel

theorem witness_RoomsChangeAsNamed :
    let room := fun (n : Word) (x : Shelf) => put { onShelf x with crl := Crl.reset } [(R.CRL_CARREL_STATE 5, n), (R.CRL_ROOM_MASK, 1)]
    (room 1 Shelf.idle).takesCmd 5 [1, 2, 3, 4]
    ∧ ((room 2 Shelf.idle).carrelState 5 = 2 ∧ (room 2 Shelf.idle).regBit (R.CRL_CARREL_STATE 5) 3 = false)
    ∧ ((room 1 Shelf.idle).carrelState 5 ≠ 2 ∧ (room 1 Shelf.idle).carrelState 5 ≠ 3 ∧ (room 1 Shelf.idle).namedShelves 0 = [0]
      ∧ ([0] : List Nat).any (room 1 Shelf.idle).unavailable = false ∧ (put (room 1 Shelf.idle) [(R.CRL_ROOM_MASK, 0)]).namedShelves 0 = []
      ∧ ([0] : List Nat).any (room 1 (shelf0 [])).unavailable = true)
    ∧ (((room 1 Shelf.idle).shelf 0).owner ≠ 5 ∧ ((room 1 { Shelf.idle with owner := 5 }).shelf 0).owner = 5) := by decide +kernel

theorem witness_CarrelResetAndDestroy :
    ((inState 2).takesCmd 5 [1, 2, 3, 4] ∧ (inState 1).takesCmd 5 [1] ∧ (inState 1).cir.waits = []
      ∧ ∀ p ∈ (inState 1).shelves, p.2.owner ≠ 5 ∧ p.2.joining ≠ 5)
    ∧ (inState 1).noneHeld ∧ (∀ squash ∈ [true, false], Tab.find? ({ (inState 5).crl with resets := [(5, ⟨squash, 0⟩)] } : Crl).resets 5 = some ⟨squash, 0⟩)
    ∧ ((inState 5).drained 5 = true ∧ asked.drained 5 = false ∧ asked.running = true
      ∧ (∀ p ∈ asked.crl.resets, p.2.squash = true ∨ asked.stp.total ≤ asked.drainEnd p.2)
      ∧ ({ asked with stp := { asked.stp with total := 10 ^ 9 } } : State).drainEnd ⟨false, 0⟩ < 10 ^ 9)
    ∧ (put (onShelf { Shelf.idle with owner := 5 }) [(R.CRL_CARREL_STATE 5, 1)]).room 5 = [0] := by decide +kernel

/-- Carrel 5 CREATED, with the image of a FROZEN one at 2 MiB. -/
def restoring (t : State) : State :=
  { inState 1 with mem := placed 0x200000 (t.image 5) }

/-- A FROZEN carrel 5 with a pin, and with a volume beyond the volume area. -/
def frozenPin : State := { inState 4 with kpr := { (inState 4).kpr with calls := pin1 } }
def frozenVolume : State := { inState 4 with bind := { Bindery.reset with vols := [(volKey 5 1, ⟨60, 1, 1, true, []⟩)] } }

theorem witness_CarrelImagesAreSavedAndRestored_save :
    (inState 4).takesCmd 5 [4] ∧ (inState 4).ecc = [] ∧ (inState 4).imageAddr = 0x200000
      ∧ (inState 1).takesCmd 5 [1] ∧ (((inState 1).bell 1103).readImage 5).2 = none := by decide +kernel

set_option maxRecDepth 20000 in
theorem witness_CarrelImagesAreSavedAndRestored_restore :
    ((restoring (inState 4)).takesCmd 5 [1] ∧ (((restoring (inState 4)).bell 1103).readImage 5).2.any
        (fun m => !(inState 1).imageMismatch 5 m && !(inState 1).imageNoSpace 5 m && ((inState 1).pickContexts m.rings []).isSome) = true)
    ∧ ((((restoring frozenPin).setReg (R.KPR_EXTENT 5 0) 0).bell 1103).readImage 5).2.any
        (fun m => ((inState 1).setReg (R.KPR_EXTENT 5 0) 0).imageMismatch 5 m) = true
    ∧ (((restoring frozenVolume).bell 1103).readImage 5).2.any (fun m => !(inState 1).imageMismatch 5 m && (inState 1).imageNoSpace 5 m) = true := by
  refine ⟨?_, ?_, ?_⟩ <;> decide +kernel

/-- Carrel 5's mailbox with DOWN clear, UP set and message code n, firmware serving requests. -/
def mailbox (n : Word) (page : Word) : State :=
  put { near5 with kpr := { near5.kpr with calls := [(callKey 5 1, ⟨5, 1, true, 0x200000, 0x1000, 0, [], false⟩)] } }
    [(R.CRL_CTL, 0x400), (R.CRL_MBOX_DB 5, 1), (R.CRL_MBOX_MSG 5 0, n), (R.CRL_MBOX_MSG 5 1, page)]

theorem witness_MailboxesAndServedRequests :
    (near5.mailboxOpen 5 = true ∧ near5.regBit (R.CRL_MBOX_DB 5) 0 = false ∧ near5.regBit (R.CRL_MBOX_DB 5) 1 = false ∧ near5.forManager 5 = true
      ∧ (put near5 [(R.CRL_MBOX_DB 5, 3)]).regBit (R.CRL_MBOX_DB 5) 0 = true ∧ (put near5 [(R.CRL_MBOX_DB 5, 3)]).regBit (R.CRL_MBOX_DB 5) 1 = true)
    ∧ (∀ code ∈ [1, 2, 3, 4], (mailbox (BitVec.ofNat 64 code) 0).served 5 code = true ∧ near5.served 5 code = false)
    ∧ ((mailbox 2 0).ringOf 5 false 0 = some 0 ∧ (mailbox 2 1).ringOf 5 false 1 = none)
    ∧ ((mailbox 4 0x200000).pageOk 5 0x200000 = true ∧ (mailbox 4 0x300000).pageOk 5 0x300000 = false ∧ (mailbox 4 0x200000).ecc = []
      ∧ (mailbox 4 0x200000).servesNear 5 0x200000 ((mailbox 4 0x200000).roomBytes 5).length)
    ∧ ((put (mailbox 9 0) [(R.CRL_MBOX_DB 5, 0)]).mboxUp 5 = false ∧ (mailbox 9 0).mboxDown 5 = false ∧ (mailbox 9 0).forManager 5 = false
      ∧ 4 < (mailbox 9 0).mboxCode 5
      ∧ (put (mailbox 9 0) [(R.CRL_MBOX_DB 5, 0)]).regBit (R.CRL_MBOX_SUMMARY 0) 5 = false
      ∧ (put near5 [(R.CRL_MBOX_SUMMARY 0, 0x20), (R.CRL_MBOX_DB 5, 3), (R.CRL_MBOX_MSG 5 0, 9)]).regBit (R.CRL_MBOX_SUMMARY 0) 5 = true
      ∧ (mailbox 3 0).mboxCode 5 ≤ 4 ∧ ∀ code ∈ [1, 2, 3, 4], near5.served 5 code = false) := by
  refine ⟨?_, ?_, ?_, ?_, ?_⟩ <;> decide +kernel

/-! ## The Bell and the Ledger -/

/-- Source n of the Bell in a phase with an arrival, enabled for curator 1. -/
def ringing (n : Nat) (p : BelPhase) : State :=
  put { svc with bel := { svc.bel with srcs := [(n, { BelSrc.rest with phase := p, count := 1 })] } } [(R.BEL_SRC_CFG n, 0x81), (R.BEL_Q_CTL 1, 8)]

theorem witness_BellArrivalsCompletionsAndCurators :
    (svc.alive = true ∧ svc.manages .tap ∧ managerSource 1600 = true ∧ managerSource 7 = false ∧ belIsStatus 1025 = true ∧ belIsStatus 7 = false
      ∧ (svc.belSrc 7).phase = .idle ∧ (∀ k : BitVec 2, Requester.tap ≠ .curator k))
    ∧ (((ringing 7 .active).belSrc 7).phase = .active ∧ ((ringing 1025 .active).belSrc 1025).phase = .active
      ∧ ((ringing 7 .pending).belSrc 7).phase ≠ .active ∧ (5 : Func) ≠ 0)
    ∧ (0 ≤ svc.belSize 0 ∧ svc.belSize 0 < (svc.field (R.BEL_Q_TAIL 0) 0 16 + (65536 - fld 1 0 16)) % 65536) := by
  refine ⟨?_, ?_, ?_⟩
  · exact ⟨by decide, ⟨by decide, Or.inl rfl⟩, by decide, by decide, by decide, by decide, by decide, fun k h => by cases h⟩
  · decide
  · decide

theorem witness_BellRoutesOneRecord : svc.belPick = none ∧ (ringing 7 .pending).belPick = some 7 ∧ (ringing 7 .pending).alive = true := by decide

/-- A message of source 2 with code 0x1021 waits, at a severity set for its source; carrel 5 is named. -/
def message : LMsg := ⟨2, 0, 0x1021, 5, false, 0, 0, 0, 0⟩
def telling (sev : Nat) : State :=
  put { near5 with ldg := { near5.ldg with waiting := [(2, [message])] } } [(R.LDG_SEVERITY 2, BitVec.ofNat 64 sev)]

theorem witness_LedgerRecordsAndLogPlacement :
    (∀ sev ∈ [0, 1, 2, 3, 4], (telling sev).alive = true ∧ (telling sev).blockResetting = false
      ∧ Tab.getD (telling sev).ldg.waiting 2 [] = [message] ∧ message.code ≠ 0x1070 ∧ (telling sev).ldg.buffer = [] ∧ (telling sev).ldg.lost = 0
      ∧ (telling sev).severity 2 0x1021 = sev ∧ (telling sev).regBit R.LDG_CTL 1 = false ∧ (telling sev).regBit R.LDG_LOG_CTL 4 = false
      ∧ (telling sev).obs.scan = false ∧ (telling sev).regBit R.OBS_SCAN_CTL 2 = false ∧ (telling sev).escCount + 1 < (telling sev).escLimit)
    ∧ ((put (telling 3) [(R.LDG_CTL, 1)]).regBit R.LDG_CTL 0 = true ∧ (telling 3).carrelExists 5 = true)
    ∧ (let s := put (telling 1) [(R.LDG_LOG_CTL, 0x18), (R.LDG_LOG_BASE, 0x6000000)];
      s.severity 2 0x1021 = 1 ∧ s.logNear = true ∧ s.logLevel < s.logSize ∧ s.nearBacked (s.logAddr 0) 32 = true
        ∧ ∀ b < 32, s.byteStatus (s.logAddr 0 + b) = none) := by
  refine ⟨?_, ?_, ?_⟩ <;> decide +kernel

theorem witness_LogHeadAndPlacement :
    (svc.logLevel < (svc.field R.LDG_LOG_TAIL 0 32 + (2 ^ 32 - fld 1 0 32)) % 2 ^ 32
      ∧ (svc.field R.LDG_LOG_TAIL 0 32 + (2 ^ 32 - fld 0 0 32)) % 2 ^ 32 ≤ svc.logLevel ∧ svc.ldg.buffer = [] ∧ svc.ldg.lost = 0)
    ∧ ((svc.setReg R.LDG_LOG_BASE (0x6000001 &&& 0xFFFFFFFFFFFFF001)).logMisplaced = false
      ∧ ((svc.setReg R.LDG_LOG_BASE 0x6000000).setReg R.LDG_LOG_CTL (BitVec.ofNat 64 (max 8 (fld 0x18 0 4) + b2n (bitAt 0x18 4) * 16))).logMisplaced = true)
    ∧ (Tab.getD svc.ldg.waiting 3 [] = [] ∧ ({ svc with boot := { svc.boot with cause := some (0, 0) } } : State).blockResetting = true
      ∧ (3 : BitVec 10) ≠ 0) := by decide +kernel

theorem witness_BlockResetsAndTheWatchdog :
    (svc.alive = true ∧ fld (0xB10C : Word) 0 16 = 0xB10C ∧ fld (0x1 : Word) 0 16 ≠ 0xB10C ∧ svc.blockResetting = false ∧ svc.obs.scan = false
      ∧ svc.regBit R.OBS_SCAN_CTL 2 = false ∧ svc.escCount + 1 < svc.escLimit ∧ svc.hushed = false ∧ still.hushed = true)
    ∧ (let g : Ldg := { svc.ldg with oos := true, cycled := true, wdArmed := true };
      g.oos = true ∧ g.cycled = true ∧ g.wdArmed = true ∧ svc.ldg.wdArmed = false ∧ fld (0x0C1E : Word) 0 16 = 0x0C1E ∧ svc.ldg.oos = false)
    ∧ (let s : State := { svc with boot := { svc.boot with cause := some (0, 2) } };
      s.blockResetting = true ∧ s.pins.life ≠ .off) := by decide

/-! ## Observation, power and the register window -/

theorem witness_HushesAndScansOut :
    (svc.inService = true ∧ svc.hushed = false ∧ still.inService = true ∧ still.hushed = true ∧ still.obs.scan = false
      ∧ still.blockResetting = false ∧ still.field R.OBS_HUSH_STATUS 2 3 ≠ 4 ∧ (svc.startHush 4).field R.OBS_HUSH_STATUS 2 3 = 4)
    ∧ (let s : State := { still with obs := { still.obs with scan := true } };
      s.obs.scan = true ∧ s.blockResetting = false ∧ (put s [(R.OBS_SCAN_BASE, 0x1001)]).regBit R.OBS_SCAN_BASE 0 = true
        ∧ (put s [(R.ILN_PORT_STATE 0, 7)]).regBit (R.ILN_PORT_STATE 0) 2 = true
        ∧ ({ s with boot := { s.boot with cause := some (0, 2) } } : State).blockResetting = true ∧ s.boot.escalated = false) := by decide

theorem witness_GraphsCountersHoldsAndSelftests :
    (let w : Wfg := ⟨0, false, 0⟩;
      let s : State := { near5 with obs := { near5.obs with wfg := some w } };
      s.inService = true ∧ s.obs.wfg = some w ∧ w.hushed = false ∧ near5.obs.wfg = none
        ∧ (put s [(R.OBS_WFG_ADDR, 0x200000)]).servesNear 0 0x200000 (s.wfgImage w).1.length)
    ∧ (let r := { pass0 [(0, (CoreSt.fresh 0 0 0).setStream 1 { Stream.fresh 300 with held := true })] with
          bisect := [[BitVec.ofNat 64 (1 + 5 * 2 + 1 * 2 ^ 11 + 2 ^ 44), BitVec.ofNat 64 (2 ^ 32 + 2 ^ 41), 0]] };
      let s := onShelf { shelf0 [] with run := some r };
      s.bisectOf 0 0 1 = some (0, 0) ∧ (s.streamOf 0 0 1).held = true ∧ bitAt (1 : Word) 0 = true ∧ (s.streamOf 0 0 2).held = false)
    ∧ ((onShelf Shelf.idle).selftestRefusal 1 = some 3 ∧ (onShelf (shelf0 [])).selftestRefusal 0 = some 2 ∧ (onShelf Shelf.idle).selftestRefusal 0 = none
      ∧ ({ svc with obs := { svc.obs with selftest := some ⟨0, true⟩ } } : State).obs.selftest = some ⟨0, true⟩ ∧ svc.obs.selftest = none) := by
  refine ⟨?_, ?_, ?_⟩ <;> decide +kernel

theorem witness_DomainsSwitchAndThermalLevels :
    (let s := put svc [(R.CFG_RANGE_ENABLE, 1)];
      s.alive = true ∧ s.domainRefusal 81 1 = some 3 ∧ s.domainRefusal 64 1 = none ∧ s.domainState 64 ≠ domainTarget 1
        ∧ s.domainState 64 = domainTarget 2 ∧ s.domainRefusal 64 2 = none ∧ s.rangeEnabled 0 = true ∧ (64 : Nat) < 80
        ∧ ({ s with pwr := { s.pwr with switching := some (64, 0) } } : State).pwr.switching = some (64, 0) ∧ s.pwr.switching = none
        ∧ s.thermLevel 1 < 3 ∧ s.pins.vcoreLow = false ∧ 3 ≤ ({ s with pwr := { s.pwr with lvlC := [(1, 3)] } } : State).thermLevel 1
        ∧ ((onShelf { Shelf.idle with owner := 5 }).shelf 0).owner ≠ 0 ∧ 0 / 256 + 64 = 64)
    ∧ (levelAfter 0 (40 * 8) (svc.thresholds R.PWR_THERM_LIMIT) < 4 ∧ levelAfter 0 (250 * 8) (svc.thresholds R.PWR_THERM_LIMIT) = 4
      ∧ svc.threshold R.PWR_THERM_LIMIT 24 ≤ (2000 : BitVec 16).toInt ∧ held.pins.life = .reset
      ∧ (let s : State := { svc with pins := { svc.pins with life := .failed } }; s.pins.life = .failed ∧ s.pins.resetN = true)) := by decide

theorem witness_RegisterWritesAndAccessesTurnedAway :
    (svc.manages .tap ∧ (0x100040 : BitVec 25).toNat = R.STP_CHANGE_AT ∧ (0x100060 : BitVec 25).toNat = R.STP_EVENT
      ∧ (0x210 : BitVec 25).toNat = R.CFG_SS_UNLOCK
      ∧ crl5.carrelExists 1 = false ∧ crl5.carrelExists 5 = true ∧ svc.carrelExists 5 = false ∧ (BitVec.ofNat 25 (R.CAT_NOPROG 5)).toNat = R.CAT_NOPROG 5
      ∧ (put svc [(R.CRL_CARREL_STATE 1, 2)]).carrelExists 1 = true)
    ∧ ((0x48 : BitVec 25).toNat % 8 = 0 ∧ assigned 0x48 = false ∧ ((4 : Nat) ≠ 8))
    ∧ (crl5.inService = true ∧ crl5.portUp 0 = true ∧ (5 : Func) ≠ 0 ∧ crl5.carrelExists 5 = true ∧ mboxOf 0x48 ≠ some 5 ∧ 0x48 < 0x1000000
      ∧ (booting 1).inService = false ∧ State.reset.alive = false) :=
  ⟨⟨⟨by decide, Or.inl rfl⟩, by decide, by decide, by decide⟩, by decide, by decide⟩

/-! ## Commands that are not well formed, one for each check -/

def train6 : List StackTrain := List.replicate 6 ⟨true, 0, false, 3, 0⟩
def port1 : PortTrain := ⟨true, false, true, 5, false, 4, 0, 0⟩

theorem test_wf_train :
    WellFormed (.train train6 [port1, port1, port1, port1]) = true ∧ WellFormed (.train [] [port1, port1, port1, port1]) = false
      ∧ WellFormed (.train train6 [port1]) = false ∧ WellFormed (.train train6 [port1, port1, port1, { port1 with rate := 6 }]) = false
      ∧ WellFormed (.train train6 [port1, port1, port1, { port1 with modules := 3 }]) = false
      ∧ WellFormed (.train train6 [port1, port1, port1, { port1 with repairs := 33 }]) = false := by decide +kernel

theorem test_wf_stackWsp : WellFormed (.stackWsp 5 64 0 0) = true ∧ WellFormed (.stackWsp 6 1 0 0) = false ∧ WellFormed (.stackWsp 0 65 0 0) = false := by
  decide +kernel

theorem test_wf_shift : WellFormed (.shiftInstruction 0 0 0) = false ∧ WellFormed (.shiftInstruction 0 65 0) = false ∧ WellFormed (.shiftData 0 0 0) = false
    ∧ WellFormed (.shiftData 0 65 0) = false ∧ WellFormed (.shiftData 0 64 0) = true := by decide +kernel

theorem test_wf_windowWrite : WellFormed (.windowWrite ⟨1, 0, 0x80000, [0]⟩) = false ∧ WellFormed (.windowWrite ⟨1, 0, 0, []⟩) = false
    ∧ WellFormed (.windowWrite ⟨1, 0, 0x7FFFF, [0]⟩) = true := by decide +kernel

theorem test_wf_accesses : WellFormed (.registerWrite .tap 0 0 ⟨0, 0⟩) = false ∧ WellFormed (.registerWrite .tap 0 9 ⟨0, 0⟩) = false
    ∧ WellFormed (.ctlAccess true 4 ⟨0, 0⟩) = false ∧ WellFormed (.hostReq 0 true 0 0 ⟨List.replicate 257 0, 0⟩ 0) = false
    ∧ WellFormed (.mboxWrite true 0 0 0) = false := by decide +kernel

theorem test_wf_packets : WellFormed (.ilnWrite 1 { pktWrite with len := 9 }) = false ∧ WellFormed (.ilnAdd 1 ⟨{ pktAdd with len := 9 }, none⟩) = false
    ∧ WellFormed (.ilnWrite 1 pktWrite) = true := by decide +kernel

theorem test_wf_domains : WellFormed (.domainOn 96) = false ∧ WellFormed (.domainOff 96) = false ∧ WellFormed (.domainRetain 96) = false
    ∧ WellFormed (.domainOn 95) = true := by decide +kernel

theorem test_wf_adders : WellFormed (.stackAdd ⟨5, 1, 0, [], none⟩) = false ∧ WellFormed (.fetchAdd ⟨5, 1, 0, [1], none⟩) = false
    ∧ WellFormed (.compareSwap ⟨5, 1, 0, [1], none⟩ 0) = false := by decide +kernel

theorem test_wf_readings : WellFormed (.stamp ⟨0, true, 0, []⟩) = false ∧ WellFormed (.opFix ⟨[], 0⟩) = false
    ∧ WellFormed (.header ⟨[], [], []⟩) = false := by decide +kernel

/-! ## Values the manual works out -/

/-- Table 3-6: CRC-32C of "123456789". -/
theorem test_crc32c : crc32c [0x31, 0x32, 0x33, 0x34, 0x35, 0x36, 0x37, 0x38, 0x39] = 0xE3069283 := by decide +kernel

/-- R119: the frame CRC of "123456789". -/
theorem test_crc8 : crc8 [0x31, 0x32, 0x33, 0x34, 0x35, 0x36, 0x37, 0x38, 0x39] = 0xF4 := by decide +kernel

/-- Table 10-7: two block contributions to an accumulator with anchor -83. -/
theorem test_accumulate : ((((La.cleared (-83)).add 120 (-10)).add 3 (-20)).toWord) = 0xFFAD01000000F0018000000000000000 := by decide +kernel

/-- Table 10-8: an accumulator wraps and returns. -/
theorem test_wrap :
    ((laOf 0x000001007FFFFFFFFFFFFFFFFFFFFFF6).add 30 0).v = 0x800000000000000000000014 - 2 ^ 96
    ∧ ((laOf 0x000001007FFFFFFFFFFFFFFFFFFFFFF6).add 30 0).w = 1
    ∧ (((laOf 0x000001007FFFFFFFFFFFFFFFFFFFFFF6).add 30 0).add (-50) 0).v = 0x7FFFFFFFFFFFFFFFFFFFFFE2
    ∧ (((laOf 0x000001007FFFFFFFFFFFFFFFFFFFFFF6).add 30 0).add (-50) 0).w = 0 := by decide +kernel

/-- The drain example of the same section: to the nearest, and by draws of 0xFF123456 and 0x40000000. -/
theorem test_drain :
    let r := ((laOf 0xFFAD01000000F0018000000000000000).convert false).res
    fmtWrite 0x11 [r] [false] false [0] = [0xF0, 0x3D] ∧ fmtWrite 0x11 [r] [false] true [0xFF123456] = [0xF1, 0x3D]
      ∧ fmtWrite 0x11 [r] [false] true [0x40000000] = [0xF0, 0x3D] := by decide +kernel

/-- R282: an HB4-32 row of 2,816 elements. -/
theorem test_rowBytes : fmtBytes 0x31 2816 = 1496 := by decide +kernel

/-- Table 10-3: the HB scale bytes 0x01, 0x78 and 0xFE. -/
theorem test_hbScale : scaleOf true 0x01 = some (1, -17) ∧ scaleOf true 0x78 = some (8, -3) ∧ scaleOf true 0xFE = some (14, 13) ∧ scaleOf true 0xFF = none := by
  decide +kernel

/-- R279, R280: the largest E4M3 and E5M2, and what lies beyond. -/
theorem test_fp8 :
    fmtWrite 0x18 [.val (.fin 448 0)] [false] false [0] = [0x7E] ∧ fmtWrite 0x18 [.val (.fin 480 0)] [false] false [0] = [0x7E]
      ∧ fmtWrite 0x19 [.val (.fin 57344 0)] [false] false [0] = [0x7B] ∧ fmtWrite 0x19 [.val .nan] [false] false [0] = [0x7E] := by decide +kernel

/-! ## Single steps -/

/-- HIGHZ loaded before RESET_N falls acts from its fall on (R53). -/
theorem test_tap_reset : (after { svc with tap := { svc.tap with ir := 0x04 } } .pinReset).pins.highz = true ∧ (after svc .pinReset).pins.highz = false := by
  decide +kernel

/-- The boot after a trip holds every range off while THERMTRIP_N is asserted (R440). -/
theorem test_trip_holds :
    let s := put (booting 5) [(R.CFG_RANGE_ENABLE, 1)];
    (after s (.selftest [])).domainOn 0 = true
      ∧ (after { s with pins := { s.pins with thermTrip := true } } (.selftest [])).domainOn 0 = false := by
  decide +kernel

/-- R71, Table 2-10: PWROK and RESET_N. -/
theorem test_power : (after State.reset .pwrokRise).pins.life = .reset ∧ (after held (.resetNDeassert 0)).pins.life = .boot := by decide +kernel

/-- A step takes the command in front. -/
theorem test_step : (nextOf State.reset (step { State.reset with pending := [.pwrokRise, .pwrokFall] })).pending = [.pwrokFall] := by decide +kernel

/-- R54: IDCODE of Table 2-4. -/
theorem test_idcode : (after held (.idcode)).tap.ir = 0x02 := by decide +kernel

/-- R146: a doorbell moves TAIL by at most the room of the ring. -/
theorem test_doorbell : (after crl5 (.dbPtrWrite 5 5 false 0 64)).ringTail 0 = 64 ∧ (after crl5 (.dbPtrWrite 5 5 false 0 65)).ringTail 0 = 0 := by decide +kernel

/-- R149: a slip that enters. -/
theorem test_burst : (after atDesk1 (.burstEnd 0 (bytesOfWords fenceWords) none)).ringHead 0 = 1 := by decide +kernel

/-- Table 14-2: CREATE and OPEN. -/
theorem test_create : (after svc (.create 7 false)).carrelState 7 = 1 ∧ (after (after svc (.create 7 false)) (.openCarrel 7)).carrelState 7 = 2 := by
  decide +kernel

/-- R395: a carrel's word and doorbell, and a second message before the first is taken. -/
theorem test_mailbox : (after near5 (.upSet 5)).regBit (R.CRL_MBOX_DB 5) 0 = true
    ∧ (after (after near5 (.upSet 5)) (.upSet 5)).field (R.CRL_MBOX_DB 5) 8 8 = 1 := by decide +kernel

/-- R263: tallies add modulo 2^16. -/
theorem test_tally : ((after (runs0 [(1, { CoreSt.fresh 0 0 0 with tally := [(2, 0xFFFE)] })]) (.tallySignal 0 (sig (some 1)))).coreOf 0 1).tallyAt 2 = 1 := by
  decide +kernel

/-- R404, R405: an arrival, a second one, and the completion of an idle source. -/
theorem test_bell : ((after svc (.belDoorbell .tap 1600)).belSrc 1600).phase = .pending
    ∧ (after svc (.belComplete 7)).field R.BEL_STATUS 0 16 = 1 := by decide +kernel

/-- R443: a hush by command shows cause 1. -/
theorem test_hush : (after svc .hush).hushed = true ∧ (after svc .hush).field R.OBS_HUSH_STATUS 2 3 = 1 := by decide +kernel

/-- R422, R431: the keys. -/
theorem test_keys : (after svc (.ldgBlockReset 0xB10C)).pins.life = .boot ∧ (after svc (.ldgBlockReset 0xB10D)).pins.life = .service := by decide +kernel

/-- R346: 64-bit FETCH_ADD answers the old value. -/
theorem test_fetchAdd :
    let s : State := { near5 with mem := placed 0x10000 [5] }
    (after s (.fetchAdd ⟨5, 0x10000, 1, leBytes 8 7, none⟩)).kpr.adderOld = 5 ∧ Memory.read (after s (.fetchAdd ⟨5, 0x10000, 1, leBytes 8 7, none⟩)).mem 0x10000 = 12 := by
  decide +kernel

/-- R361: a packet with a wrong CRC is counted. -/
theorem test_badCrc : (after (linked peer2) (.ilnRead 1 ⟨{ pktRead with reqId := 8 }, none⟩)).field R.ILN_COUNT 32 16 = 1 := by decide +kernel

/-- R433: a domain switches. -/
theorem test_domain : (after svc (.domainOn 64)).domainState 64 = 3 := by decide +kernel

/-- R463: a register write by the test access port, and one of four bytes. -/
theorem test_registerWrite : (after svc (.registerWrite .tap 0x100040 8 ⟨64, 0⟩)).reg R.STP_CHANGE_AT = 64
    ∧ (after svc (.registerWrite .tap 0x100040 4 ⟨64, 0⟩)).reg R.STP_CHANGE_AT = 0 := by decide +kernel

/-- R285, R289: dense INT8 pairs add their products exactly. -/
theorem test_products : ((La.cleared 0).contribute [(0, 7 * 5, 0), (0, -3 * 6, 0), (0, 2 * -8, 0)]).v = 1 := by decide +kernel

end Sys2Proof.Tests
end

/-! Proof of O58: what a write of the register space does (R11, R13, R14, R461, R462), from the row of the tables that assigns its offset. -/

namespace Sys2Proof.Machine

variable {s : State} {who : Requester} {off size : Nat} {v recur stored cleared : Word}

/-! ## Registers whose write only stores and clears bits -/

/-- First offset and length in bytes of the registers below 0xD00000 whose write does more than Table 0-3's codes: the CFG_ block, whose
staging area closes during a store command, and the registers that the units' write functions name. -/
def ruledWrites : List (Nat × Nat) :=
  [(0, 0x100000), (R.STP_CTL, 8), (R.STP_CHANGE_CMD, 8), (R.CIR_RING_BASE 0, 0x80000), (R.CIR_ENQ_LIMIT 0, 8 * 1024),
   (R.CAT_CANCEL, 8), (R.CAT_SNAP_CLEAR, 8), (R.CAT_SHARE 0, 8 * 1024), (R.SHV_POLICY, 8), (R.KPR_QUERY, 8),
   (R.KPR_EXTENT 0 0, 8 * 8192), (R.KPR_FAR_EXTENT 0, 8 * 1024), (R.KPR_REG_SHARE 0, 8 * 1024), (R.HBM_TEST_CTL 0, 8 * 6),
   (R.HBM_WSP_CMD 0, 8 * 6), (R.LND_LOAN_LIMIT, 8), (R.ILN_CHIP, 8), (R.ILN_TIMEOUT, 8), (R.ILN_EPOCH_CMD, 8),
   (R.ILN_PORT_CTL 0, 8 * 4), (R.ILN_ROUTE 0, 8 * 16), (R.CRL_CMD, 8), (R.CRL_MBOX_MSG 0 0, 0x100 * 1024), (R.BEL_DOORBELL, 8),
   (R.BEL_PEND_SET, 8), (R.BEL_COMPLETE, 8), (R.BEL_Q_CTL 0, 8 * 4), (R.BEL_Q_HEAD 0, 8 * 4), (R.BEL_SRC_CFG 0, 8 * 2048),
   (R.LDG_LOG_BASE, 8), (R.LDG_LOG_CTL, 8), (R.LDG_LOG_HEAD, 8), (R.LDG_BLOCK_RESET, 8), (R.LDG_OOS_CLEAR, 8), (R.LDG_HEARTBEAT, 8),
   (R.LDG_INJECT 0, 8 * 8), (R.LDG_SEVERITY 0, 8 * 1024), (R.PWR_THERM_LIMIT, 8), (R.PWR_SRAM_LIMIT, 8), (R.PWR_DOMAIN_CMD, 8),
   (R.OBS_JNL_BASE, 8), (R.OBS_JNL_CTL, 8), (R.OBS_WP_LIMIT 0, 0x10 * 64), (R.OBS_BISECT_RELEASE, 8), (R.OBS_HUSH, 8), (R.OBS_CTL, 8),
   (R.OBS_SCAN_CTL, 8), (R.OBS_CNT_SEL, 8), (R.OBS_SELFTEST_CMD, 8), (R.OBS_WFG_CMD, 8)]

/-- A write at the offset only stores and clears bits. -/
abbrev StoresOnly (off : Nat) : Prop := off < 0xD00000 ∧ ∀ p ∈ ruledWrites, off < p.1 ∨ p.1 + p.2 ≤ off

theorem StoresOnly.ne (h : StoresOnly off) {a : Nat} (ha : (a, 8) ∈ ruledWrites) : off ≠ a := by
  have := h.2 _ ha
  simp only at this
  omega

theorem StoresOnly.not_inArray (h : StoresOnly off) {base stride count : Nat} (ha : (base, stride * count) ∈ ruledWrites) :
    ¬ inArray off base stride count = true := by
  have := h.2 _ ha
  simp only at this
  simp only [inArray, Bool.and_eq_true, decide_eq_true_eq]
  omega

/-- Offsets of a stretch that meets none of those registers. -/
theorem storesOnly_of_range {lo hi : Nat} (hhi : hi ≤ 0xD00000) (h : ∀ p ∈ ruledWrites, hi ≤ p.1 ∨ p.1 + p.2 ≤ lo) (h1 : lo ≤ off)
    (h2 : off < hi) : StoresOnly off :=
  ⟨by omega, fun p hp => by have := h p hp; omega⟩

section Blocks
variable (h : StoresOnly off)
include h

theorem writeStp_of_storesOnly : s.writeStp off v = s.storeBits off v := by
  unfold State.writeStp
  rw [if_neg (h.ne (by decide)), if_neg (h.ne (by decide))]

theorem writeCir_of_storesOnly (hb : off / 0x100000 = 2) : s.writeCir off v = s.storeBits off v := by
  have := h.2 (R.CIR_RING_BASE 0, 0x80000) (by decide)
  simp only [R.CIR_RING_BASE] at this
  unfold State.writeCir
  rw [if_neg (by simp only [R.CIR_DB_ENABLE]; omega), if_neg (h.not_inArray (by decide))]

theorem writeCat_of_storesOnly : s.writeCat off v = s.storeBits off v := by
  unfold State.writeCat
  rw [if_neg (h.ne (by decide)), if_neg (h.ne (by decide)), if_neg (h.not_inArray (by decide))]

theorem writeShv_of_storesOnly : s.writeShv off v = s.storeBits off v := by
  unfold State.writeShv
  rw [if_neg (h.ne (by decide))]

theorem writeKpr_of_storesOnly : s.writeKpr off v = s.storeBits off v := by
  unfold State.writeKpr
  rw [if_neg (h.ne (by decide)), if_neg (h.not_inArray (by decide)), if_neg (h.not_inArray (by decide)),
    if_neg (h.not_inArray (by decide)), if_neg (h.not_inArray (by decide)), if_neg (h.not_inArray (by decide))]

theorem writeLnd_of_storesOnly : s.writeLnd off v = s.storeBits off v := by
  unfold State.writeLnd
  rw [if_neg (h.ne (by decide))]

theorem writeIln_of_storesOnly : s.writeIln off v = s.storeBits off v := by
  unfold State.writeIln
  rw [if_neg (h.ne (by decide)), if_neg (h.ne (by decide)), if_neg (h.ne (by decide)), if_neg (h.not_inArray (by decide)),
    if_neg (h.not_inArray (by decide))]

theorem writeCrl_of_storesOnly : s.writeCrl off v = s.storeBits off v := by
  have hm : mboxOf off = none := by
    have := h.2 (R.CRL_MBOX_MSG 0 0, 0x100 * 1024) (by decide)
    simp only at this
    exact if_neg (by simp only [mboxBase]; omega)
  unfold State.writeCrl
  rw [if_neg (h.ne (by decide)), hm]

theorem writeBel_of_storesOnly : s.writeBel who off v = s.storeBits off v := by
  unfold State.writeBel
  rw [if_neg (h.ne (by decide)), if_neg (h.ne (by decide)), if_neg (h.ne (by decide)), if_neg (h.not_inArray (by decide)),
    if_neg (h.not_inArray (by decide)), if_neg (h.not_inArray (by decide))]

theorem writeLdg_of_storesOnly : s.writeLdg off v = s.storeBits off v := by
  unfold State.writeLdg
  rw [if_neg (h.ne (by decide)), if_neg (h.ne (by decide)), if_neg (h.ne (by decide)), if_neg (h.ne (by decide)),
    if_neg (h.ne (by decide)), if_neg (h.ne (by decide)), if_neg (h.not_inArray (by decide)), if_neg (h.not_inArray (by decide))]

theorem writePwr_of_storesOnly : s.writePwr off v = s.storeBits off v := by
  unfold State.writePwr
  rw [if_neg (not_or.mpr ⟨h.ne (by decide), h.ne (by decide)⟩), if_neg (h.ne (by decide))]

/-- The Observation unit takes no command at the offset. -/
theorem obsCommand_of_storesOnly : s.obsCommand off v = s := by
  unfold State.obsCommand
  rw [if_neg (h.ne (by decide)), if_neg (h.ne (by decide)), if_neg (h.ne (by decide)), if_neg (h.ne (by decide)),
    if_neg (h.ne (by decide)), if_neg (h.ne (by decide)), ite_self]

theorem writeObs_of_storesOnly : s.writeObs off v = s.storeBits off v := by
  unfold State.writeObs
  rw [if_neg (not_or.mpr ⟨h.ne (by decide), h.ne (by decide)⟩), if_neg (h.not_inArray (by decide)), if_neg (h.ne (by decide)),
    obsCommand_of_storesOnly h]

/-- A write of such a register stores and clears bits as its row says; entry 0 of an array indexed by carrel takes none. -/
theorem writeReg_of_storesOnly :
    s.writeReg who off v = if entryZero off || !assigned off then s else s.storeBits off v := by
  unfold State.writeReg
  split
  · rfl
  · have hlt := h.1
    obtain ⟨b, hb⟩ : ∃ b, b = off / 0x100000 := ⟨_, rfl⟩
    have hcases : b = 0 ∨ b = 1 ∨ b = 2 ∨ b = 3 ∨ b = 4 ∨ b = 5 ∨ b = 6 ∨ b = 7 ∨ b = 8 ∨ b = 9 ∨ b = 10 ∨ b = 11 ∨ b = 12 := by omega
    rw [← hb]
    obtain rfl | rfl | rfl | rfl | rfl | rfl | rfl | rfl | rfl | rfl | rfl | rfl | rfl := hcases
    · have := h.2 (0, 0x100000) (by decide)
      simp only at this
      omega
    · exact writeStp_of_storesOnly h
    · exact writeCir_of_storesOnly h hb.symm
    · exact writeCat_of_storesOnly h
    · exact writeShv_of_storesOnly h
    · exact writeKpr_of_storesOnly h
    · exact writeLnd_of_storesOnly h
    · exact writeIln_of_storesOnly h
    · exact writeCrl_of_storesOnly h
    · exact writeBel_of_storesOnly h
    · exact writeLdg_of_storesOnly h
    · exact writePwr_of_storesOnly h
    · exact writeObs_of_storesOnly h

end Blocks

/-! ## Rows -/

/-- What the row of an offset says of a write: the bits stored, the bits that a 1 clears, and the carrel whose entry it is. -/
def rowSays (off : Nat) : Option (Word × Word × Option Nat) :=
  (regRow off).map (fun r => (r.rw, r.w1c, if r.carrel then some ((off - r.base) / r.stride) else none))

theorem assigned_of_regRow {r : RegRow} (h : regRow off = some r) : assigned off = true := by simp [assigned, h]

/-- A write of a register that only stores and clears bits, by its row; an entry of a carrel takes it while its carrel exists. -/
theorem writeReg_of_rowSays {c : Option Nat} (h : StoresOnly off) (hz : entryZero off = false) (hr : rowSays off = some (stored, cleared, c))
    (hc : ∀ k ∈ c, s.carrelExists k = true) :
    s.writeReg who off v = s.setReg off ((s.reg off &&& ~~~ stored &&& ~~~ (cleared &&& v)) ||| (v &&& stored)) := by
  obtain ⟨r, hrow, hsays⟩ := Option.map_eq_some_iff.mp hr
  obtain ⟨rfl, rfl, rfl⟩ : r.rw = stored ∧ r.w1c = cleared ∧ _ = c := by simpa only [Prod.mk.injEq] using hsays
  have hx : (r.carrel && !s.carrelExists ((off - r.base) / r.stride)) = false := by
    cases hcr : r.carrel with
    | false => rfl
    | true => simp [hc _ (if_pos hcr)]
  rw [writeReg_of_storesOnly h, hz, assigned_of_regRow hrow]
  simp [State.storeBits, hrow, hx]

/-- A row stands in a list before every row whose stretch of offsets meets its own. -/
def rowFirst (r : RegRow) : List RegRow → Bool
  | [] => false
  | a :: l => a == r
      || ((decide (a.base + a.stride * a.count ≤ r.base) || decide (r.base + r.stride * r.count ≤ a.base)) && rowFirst r l)

theorem inArray_bounds {base stride count : Nat} (h : inArray off base stride count = true) : base ≤ off ∧ off < base + stride * count := by
  simp only [inArray, Bool.and_eq_true, decide_eq_true_eq] at h
  exact h.1

/-- Such a row is the one found for the offsets of its array. -/
theorem find?_of_rowFirst {r : RegRow} {l : List RegRow} (h : rowFirst r l = true) (ho : inArray off r.base r.stride r.count = true) :
    l.find? (fun a => inArray off a.base a.stride a.count) = some r := by
  induction l with
  | nil => cases h
  | cons a l ih =>
    by_cases ha : a = r
    · rw [ha]
      exact List.find?_cons_of_pos ho
    · simp only [rowFirst, beq_eq_false_iff_ne.mpr ha, Bool.false_or, Bool.and_eq_true, Bool.or_eq_true, decide_eq_true_eq] at h
      have hout : ¬ inArray off a.base a.stride a.count = true := fun hi => by
        have := inArray_bounds hi
        have := inArray_bounds ho
        omega
      exact (List.find?_cons_of_neg (p := fun a : RegRow => inArray off a.base a.stride a.count) hout).trans (ih h.2)

/-- The rows among which the row of an offset is looked for. -/
def rowsAt (off : Nat) : List RegRow := if off < 0x600000 then regRowsLow else if off < 0xA00000 then regRowsMid else regRowsHigh

theorem rowsAt_of_block {a b : Nat} (h : a / 0x100000 = b / 0x100000) : rowsAt a = rowsAt b := by
  have h6 : a < 0x600000 ↔ b < 0x600000 := by omega
  have hA : a < 0xA00000 ↔ b < 0xA00000 := by omega
  simp only [rowsAt, h6, hA]

theorem regRow_of_rowFirst {r : RegRow} (h : rowFirst r (rowsAt r.base) = true) (hb : off / 0x100000 = r.base / 0x100000)
    (ho : inArray off r.base r.stride r.count = true) : regRow off = some r := by
  rw [← rowsAt_of_block hb] at h
  exact find?_of_rowFirst h ho

/-! ## Entries of carrels -/

/-- Arrays indexed by carrel whose entries only store bits (R356, R385, R386, R402, R442). -/
def carrelRows : List RegRow :=
  [⟨R.CAT_NOPROG 0, 8, 1024, 0x1FFFFFFFF, 0, true⟩, ⟨R.SHV_CARREL 0, 8, 1024, 0xFFFF0003, 0, true⟩,
   ⟨R.LND_WINDOW 0, 8, 1024, 0x3FFFFFFF, 0, true⟩, ⟨R.LND_WINDOW_SRC 0, 8, 1024, 0x3FFFFFFFFFF, 0, true⟩,
   ⟨R.ILN_REMOTE_MEM 0, 8, 1024, 0xFFFFFFFF0003, 0, true⟩, ⟨R.CRL_CARREL_CFG 0, 8, 1024, 0xFF, 0, true⟩,
   ⟨R.PWR_CARREL_CAP 0, 8, 1024, 0xFF, 0, true⟩]

theorem carrelRows_shape : ∀ r ∈ carrelRows, r.stride = 8 ∧ r.count = 1024 ∧ r.carrel = true ∧ r.base % 8 = 0
    ∧ r.base % 0x100000 + 0x2000 ≤ 0x100000 := by decide

theorem carrelRows_first : ∀ r ∈ carrelRows, rowFirst r (rowsAt r.base) = true := by decide

theorem carrelRows_apart : ∀ r ∈ carrelRows, r.base + 0x2000 ≤ 0xD00000
    ∧ ∀ p ∈ ruledWrites, r.base + 0x2000 ≤ p.1 ∨ p.1 + p.2 ≤ r.base := by decide

/-- The entry of a carrel that does not exist takes no write (R386, Table 14-1). -/
theorem writeReg_of_absent {r : RegRow} {c : Nat} (hr : r ∈ carrelRows) (hc : c < 1024) (hx : s.carrelExists c = false) :
    s.writeReg who (r.base + 8 * c) v = s := by
  obtain ⟨hstride, hcount, hcarrel, -, hfit⟩ := carrelRows_shape r hr
  obtain ⟨hend, hapart⟩ := carrelRows_apart r hr
  have hrow : regRow (r.base + 8 * c) = some r := by
    refine regRow_of_rowFirst (carrelRows_first r hr) (by omega) ?_
    simp only [inArray, hstride, hcount, Bool.and_eq_true, decide_eq_true_eq, beq_iff_eq]
    omega
  have hidx : (r.base + 8 * c - r.base) / r.stride = c := by rw [hstride]; omega
  rw [writeReg_of_storesOnly (storesOnly_of_range hend hapart (by omega) (by omega))]
  have hbits : s.storeBits (r.base + 8 * c) v = s := by
    unfold State.storeBits
    rw [hrow]
    exact if_pos (by rw [hcarrel, hidx, hx]; rfl)
  rw [hbits, ite_self]

/-! ## Ways into the window -/

theorem not_doorbell_of_unassigned (h : assigned off = false) : ¬ (0x1000000 ≤ off ∧ off < 0x1400000) := by
  simp only [assigned, Bool.or_eq_false_iff, Bool.and_eq_false_iff, decide_eq_false_iff_not] at h
  omega

theorem not_bootWindow_of_unassigned (h : assigned off = false) : ¬ (0xE00000 ≤ off ∧ off < 0xF00000) := by
  simp only [assigned, Bool.or_eq_false_iff, Bool.and_eq_false_iff, decide_eq_false_iff_not] at h
  omega

theorem writeReg_of_unassigned (h : assigned off = false) : s.writeReg who off v = s := by simp [State.writeReg, h]

theorem badSize_iff : badSize off size = true ↔ size ≠ 8 ∨ off % 8 ≠ 0 := by simp [badSize]

theorem badSize_eight (h : off % 8 = 0) : badSize off 8 = false := by simp [badSize, h]

theorem alive_of_inService (h : s.inService = true) : s.alive = true := by
  simp only [State.inService, beq_iff_eq] at h
  simp [State.alive, h]

theorem windowReads_of_inService (h : s.inService = true) : s.windowReads = true := by simp [State.windowReads, alive_of_inService h]

theorem hostReaches_of_inService (h : s.inService = true) : s.hostReaches off = true := by simp [State.hostReaches, h]

theorem func_toNat_ne_zero {f : Func} (h : f ≠ 0) : f.toNat ≠ 0 := fun h0 => h (BitVec.eq_of_toNat_eq h0)

/-- What a write by the manager comes to (R11, R462). -/
theorem windowStore_of_manages (h : s.manages who) :
    s.windowStore who off size v =
      if badSize off size then s.log 13 K.regSize 0 off
      else if 0x1000000 ≤ off ∧ off < 0x1400000 then s.writeDoorbell 0 off v
      else if 0xE00000 ≤ off ∧ off < 0xF00000 then s.writeBootWindow off v
      else s.writeReg who off v := by
  obtain ⟨ha, rfl | ⟨k, rfl⟩ | ⟨rfl, hs⟩⟩ := h
  · simp [State.windowStore, ha, State.sizeRefused]
  · simp [State.windowStore, ha, State.sizeRefused]
  · simp [State.windowStore, ha, requesterFunc, hostReaches_of_inService hs, State.sizeRefused]

/-- A register below the boot window, written whole by the manager. -/
theorem windowStore_of_manages_reg (h : s.manages who) (h8 : off % 8 = 0) (hlt : off < 0xD00000) :
    s.windowStore who off 8 v = s.writeReg who off v := by
  rw [windowStore_of_manages h, badSize_eight h8, if_neg (by decide), if_neg (by omega), if_neg (by omega)]

theorem windowStore_of_manages_badSize (h : s.manages who) (hb : size ≠ 8 ∨ off % 8 ≠ 0) :
    s.windowStore who off size v = s.log 13 K.regSize 0 off := by
  rw [windowStore_of_manages h, if_pos (badSize_iff.mpr hb)]

theorem windowStore_of_manages_unassigned (h : s.manages who) (h8 : off % 8 = 0) (hu : assigned off = false) :
    s.windowStore who off 8 v = s := by
  rw [windowStore_of_manages h, badSize_eight h8, if_neg (by decide), if_neg (not_doorbell_of_unassigned hu),
    if_neg (not_bootWindow_of_unassigned hu), writeReg_of_unassigned hu]

theorem windowStore_of_not_alive (h : s.alive = false) : s.windowStore who off size v = s := by
  cases who <;> simp [State.windowStore, h]

theorem windowStore_of_not_reached {f : Func} (h : s.hostReaches off = false) : s.windowStore (.host f) off size v = s := by
  simp [State.windowStore, h]

theorem windowStore_of_carrel_badSize {f : Func} (hs : s.inService = true) (hx : s.carrelExists f.toNat = true)
    (hb : size ≠ 8 ∨ off % 8 ≠ 0) :
    s.windowStore (.host f) off size v = s.log 13 K.regSize f.toNat off := by
  simp [State.windowStore, requesterFunc, alive_of_inService hs, hostReaches_of_inService hs, hx, badSize_iff.mpr hb,
    State.sizeRefused]

section Carrel
variable {f : Func} (hs : s.inService = true) (hf : f ≠ 0)
include hs hf

/-- A write tagged with a carrel that does not exist (R80). -/
theorem windowStore_of_absent_carrel (hx : s.carrelExists f.toNat = false) :
    s.windowStore (.host f) off size v = s.log 13 K.hostTag f.toNat off := by
  simp [State.windowStore, requesterFunc, alive_of_inService hs, hostReaches_of_inService hs, func_toNat_ne_zero hf, hx]

/-- A carrel's write outside the doorbell pages that has a cause to be refused (R398). -/
theorem windowStore_of_carrelCause {k : Nat} (hx : s.carrelExists f.toNat = true) (hb : badSize off size = false)
    (hd : ¬ (0x1000000 ≤ off ∧ off < 0x1400000)) (hk : carrelCause f.toNat off true = some k) :
    s.windowStore (.host f) off size v = s.notPermitted off f.toNat k := by
  simp only [State.windowStore, requesterFunc, alive_of_inService hs, hostReaches_of_inService hs, hx, hb, hk, if_neg hd,
    if_neg (func_toNat_ne_zero hf)]
  simp

end Carrel

/-- A carrel writes nothing but its doorbell page and its mailbox (Table 19-2). -/
theorem carrelCause_isSome {f : Nat} (hd : ¬ (0x1000000 ≤ off ∧ off < 0x1400000)) (hm : mboxOf off ≠ some f) :
    ∃ k, carrelCause f off true = some k := by
  unfold carrelCause
  rw [if_neg hd]
  split
  · exact ⟨4, rfl⟩
  split
  · exact ⟨5, rfl⟩
  rw [if_neg (by simp)]
  split
  · next c hc => exact ⟨2, if_neg fun hcf => hm (hc.trans (congrArg some hcf))⟩
  · exact ⟨1, rfl⟩

theorem carrelCause_of_unassigned {f : Nat} {write : Bool} (h : assigned off = false) : carrelCause f off write = some 4 := by
  simp [carrelCause, h, not_doorbell_of_unassigned h]

/-- What no table assigns reads zero (R461). -/
theorem readWindow_of_unassigned (h : assigned off = false) : s.readWindow off = 0 := by
  simp [State.readWindow, State.readReg, h, not_doorbell_of_unassigned h]

/-! ## Host reads -/

section Loads
variable (hs : s.inService = true)
include hs

theorem windowLoad_of_manager_badSize (hb : size ≠ 8 ∨ off % 8 ≠ 0) :
    s.windowLoad (.host 0) off size = (s.log 13 K.regSize 0 off, 0) := by
  simp [State.windowLoad, requesterFunc, windowReads_of_inService hs, hostReaches_of_inService hs, badSize_iff.mpr hb, State.sizeRefused]

theorem windowLoad_of_manager_unassigned (h8 : off % 8 = 0) (hu : assigned off = false) :
    s.windowLoad (.host 0) off 8 = (s, 0) := by
  simp [State.windowLoad, requesterFunc, windowReads_of_inService hs, hostReaches_of_inService hs, badSize_eight h8,
    readWindow_of_unassigned hu]

theorem windowLoad_of_carrel_unassigned {f : Func} (hf : f ≠ 0) (hx : s.carrelExists f.toNat = true) (h8 : off % 8 = 0)
    (hu : assigned off = false) : s.windowLoad (.host f) off 8 = (s.notPermitted off f.toNat 4, 0) := by
  simp only [State.windowLoad, requesterFunc, windowReads_of_inService hs, hostReaches_of_inService hs, hx, badSize_eight h8,
    carrelCause_of_unassigned hu, if_neg (func_toNat_ne_zero hf)]
  simp

/-- A read of the control window on port 0 is answered with what the window gives (R384). -/
theorem exec_hostReq_read {f : Func} {o : BitVec 25} {d : List Byte} {q : BitVec 16} {t : State} {w : Word} (hp : s.portUp 0 = true)
    (hl : s.windowLoad (.host f) o.toNat d.length = (t, w)) :
    exec (.hostReq 0 false f (BitVec.ofNat 64 (windowBase + o.toNat)) ⟨d, recur⟩ q) s
      = .next (t.hostAnswer f q (leBytes d.length w.toNat)) := by
  have hlt := o.isLt
  have hoff : windowOff (BitVec.ofNat 64 (windowBase + o.toNat)).toNat = some o.toNat := by
    rw [BitVec.toNat_ofNat, Nat.mod_eq_of_lt (by simp only [windowBase]; omega)]
    unfold windowOff
    rw [if_pos (by simp only [windowBase]; omega), Nat.add_sub_cancel_left]
  show Host.Outcome.next (s.hostReq 0 false f _ d q recur) = _
  generalize (BitVec.ofNat 64 (windowBase + o.toNat)).toNat = a at hoff
  simp [State.hostReq, State.hostLoad, windowReads_of_inService hs, hp, hoff, hl]

end Loads

/-! ## Bits that recur (R14) -/

theorem keepSet_of_none (h : clearsByOne off = 0) : keepSet off v recur = v := by
  simp only [keepSet, h, BitVec.ofNat_eq_ofNat, BitVec.and_zero, BitVec.not_zero, BitVec.and_allOnes]

/-- Clearing by 1 but for the bits that recur, in a register with no stored bits. -/
theorem clearByOne_word (x v recur m : Word) :
    (x &&& ~~~ (0 : Word) &&& ~~~ (m &&& (v &&& ~~~ (recur &&& m)))) ||| (v &&& ~~~ (recur &&& m) &&& 0) = x &&& ~~~ (v &&& m &&& ~~~ recur) := by
  ext i hi
  simp only [BitVec.getElem_or, BitVec.getElem_and, BitVec.getElem_not, BitVec.ofNat_eq_ofNat, BitVec.getElem_zero]
  cases x[i] <;> cases v[i] <;> cases m[i] <;> cases recur[i] <;> rfl

theorem storeBits_word (x v m : Word) : (x &&& ~~~ m &&& ~~~ ((0 : Word) &&& v)) ||| (v &&& m) = (x &&& ~~~ m) ||| (v &&& m) := by
  simp only [BitVec.ofNat_eq_ofNat, BitVec.zero_and, BitVec.not_zero, BitVec.and_allOnes]

/-! ## The registers that the statement names -/

/-- The plain registers named, with their writable bits. -/
def storedRegs : List (Nat × Word) :=
  [(R.STP_CHANGE_AT, (0xFFFFFFFFFFFF : Word)), (R.STP_NEXT_PERIOD, 0x1FFF), (R.CAT_SNAP_SEL, 0x3FF), (R.SHV_CARREL 1, 0xFFFF0003),
   (R.KPR_POLICY, 0xFF), (R.HBM_TEMP_LIMIT, 0xFFFF), (R.LND_WINDOW 1, 0x3FFFFFFF), (R.ILN_EPOCH_AT, 0xFFFFFFFFFFFF),
   (R.CRL_IMAGE_ADDR, 0xFFFFFFFFFFC0), (R.BEL_CUR_PRIO 3, 0xF), (R.LDG_CTL, 3), (R.PWR_LEND, 0xFFFFFFFFFF),
   (R.OBS_JNL_FILTER, 0x7FFFFFFFFFF)]

/-- The event registers named, with their bits. -/
def eventRegs : List (Nat × Word) :=
  [(R.STP_EVENT, (0x7F : Word)), (R.SHV_EVENT, 0x1F), (R.KPR_EVENT, 0x3F), (R.LND_EVENT, 0xF), (R.ILN_EVENT, 0x1FF), (R.CRL_EVENT, 0x1F),
   (R.PWR_EVENT, 0xF), (R.OBS_EVENT, 0x3F), (R.LDG_FIRST 2, 0xFFFFFFFFFFFFFFFF)]

/-- The registers named whose write is a command of its own. -/
def commandRegs (v : Word) : List (Nat × Instr) :=
  [(R.CFG_SS_UNLOCK, Instr.cfgSsUnlock v), (R.CFG_BOOT_GO, .cfgBootGo v), (R.KPR_QUERY, .kprQuery v),
   (R.BEL_COMPLETE, .belComplete (v.setWidth 11)), (R.BEL_Q_HEAD 2, .belQHeadWrite 2 v), (R.LDG_LOG_HEAD, .ldgLogHead v),
   (R.LDG_BLOCK_RESET, .ldgBlockReset v), (R.LDG_OOS_CLEAR, .ldgOosClear v), (R.LDG_HEARTBEAT, .ldgHeartbeat v)]

theorem storedRegs_storesOnly : ∀ p ∈ storedRegs, StoresOnly p.1 ∧ p.1 % 8 = 0 := by decide

theorem storedRegs_rows : ∀ p ∈ storedRegs, entryZero p.1 = false ∧ clearsByOne p.1 = 0
    ∧ rowSays p.1 = some (p.2, 0, if p.1 ∈ [R.SHV_CARREL 1, R.LND_WINDOW 1] then some 1 else none) := by decide

theorem eventRegs_storesOnly : ∀ p ∈ eventRegs, StoresOnly p.1 ∧ p.1 % 8 = 0 := by decide

theorem eventRegs_rows : ∀ p ∈ eventRegs, entryZero p.1 = false ∧ clearsByOne p.1 = p.2 ∧ rowSays p.1 = some (0, p.2, none) := by decide

theorem commandRegs_offsets {p : Nat × Instr} (h : p ∈ commandRegs v) : p.1 % 8 = 0 ∧ p.1 < 0xD00000 ∧ clearsByOne p.1 = 0 := by
  have hmem : p.1 ∈ [R.CFG_SS_UNLOCK, R.CFG_BOOT_GO, R.KPR_QUERY, R.BEL_COMPLETE, R.BEL_Q_HEAD 2, R.LDG_LOG_HEAD, R.LDG_BLOCK_RESET,
      R.LDG_OOS_CLEAR, R.LDG_HEARTBEAT] := List.mem_map_of_mem (f := Prod.fst) h
  revert hmem
  generalize p.1 = o
  revert o
  decide

/-- Each of these registers, written, is its command. -/
theorem exec_commandReg {i : Instr} (ha : s.alive = true) (h : (off, i) ∈ commandRegs v) :
    exec i s = .next (s.writeReg who off v) := by
  have act (t : State) : (Host.Outcome.next (if s.alive then t else s) : Out) = .next t := by rw [if_pos ha]
  simp only [commandRegs, List.mem_cons, Prod.mk.injEq, List.not_mem_nil, or_false] at h
  obtain ⟨rfl, rfl⟩ | ⟨rfl, rfl⟩ | ⟨rfl, rfl⟩ | ⟨rfl, rfl⟩ | ⟨rfl, rfl⟩ |
    ⟨rfl, rfl⟩ | ⟨rfl, rfl⟩ | ⟨rfl, rfl⟩ | ⟨rfl, rfl⟩ := h
  · exact act _
  · rfl
  · exact act _
  · have hn : (v.setWidth 11).toNat = fld v 0 11 := by simp [fld]
    exact (act _).trans (congrArg (fun n => Host.Outcome.next (s.belComplete n)) hn)
  · exact act _
  · exact act _
  · exact act _
  · exact act _
  · exact act _

/-! ## The rules of REGISTER_WRITE -/

section Rules
variable {off : BitVec 25}

theorem exec_registerWrite :
    exec (.registerWrite who off size ⟨v, recur⟩) s = .next (s.windowStore who off.toNat size (keepSet off.toNat v recur)) := rfl

/-- A register written with one value: the others read as before, and nothing but the registers changes. -/
theorem goesTo_setReg {o : Out} {n : Nat} {w x : Word} (h : o = .next (s.setReg n w)) (hw : w = x) :
    GoesTo o (fun t => t.reg n = x ∧ OtherRegs n s t ∧ OnlyIn [.rf] s t) :=
  ⟨_, h, (s.reg_setReg_self n w).trans hw, s.otherRegs_setReg n w,
    Eff.onlyIn (State.setReg_eff (F := fun c => decide (c ∈ [Comp.rf])) (.refl _ s) rfl n w)⟩

/-- A record to the Ledger touches the Ledger's registers and nothing beyond the Ledger. -/
theorem goesTo_log {o : Out} {src : Nat} {k : Kind} {c a t i : Nat} (h : o = .next (s.log src k c a t i)) :
    GoesTo o (fun u => (∀ n, (n < 0xA00000 ∨ 0xB00000 ≤ n) → u.reg n = s.reg n) ∧ OnlyIn [.rf, .ldg] s u) :=
  ⟨_, h, fun n hn => s.reg_log src k c a t i none n (by omega), s.send_onlyIn _⟩

/-- The manager's write of a register that only stores and clears bits, by its row. -/
theorem exec_registerWrite_of_rowSays {c : Option Nat} (hm : s.manages who) (h : StoresOnly off.toNat ∧ off.toNat % 8 = 0)
    (hz : entryZero off.toNat = false) (hr : rowSays off.toNat = some (stored, cleared, c)) (hc : ∀ k ∈ c, s.carrelExists k = true) :
    exec (.registerWrite who off 8 ⟨v, recur⟩) s = .next (s.setReg off.toNat
      ((s.reg off.toNat &&& ~~~ stored &&& ~~~ (cleared &&& keepSet off.toNat v recur)) ||| (keepSet off.toNat v recur &&& stored))) := by
  rw [exec_registerWrite, windowStore_of_manages_reg hm h.2 h.1.1, writeReg_of_rowSays h.1 hz hr hc]

theorem registerWrite_storedReg {m : Word} (hm : s.manages who) (h : (off.toNat, m) ∈ storedRegs)
    (hx : s.carrelExists 1 = true ∨ off.toNat ∉ [R.SHV_CARREL 1, R.LND_WINDOW 1]) :
    GoesTo (exec (.registerWrite who off 8 ⟨v, recur⟩) s) (fun t =>
      t.reg off.toNat = (s.reg off.toNat &&& ~~~ m) ||| (v &&& m) ∧ OtherRegs off.toNat s t ∧ OnlyIn [.rf] s t) := by
  obtain ⟨hz, hnone, hrow⟩ := storedRegs_rows _ h
  have hc : ∀ k ∈ (if off.toNat ∈ [R.SHV_CARREL 1, R.LND_WINDOW 1] then some 1 else none), s.carrelExists k = true := by
    intro k hk
    obtain ⟨hin, hk1⟩ := Option.ite_none_right_eq_some.mp hk
    cases hk1
    exact hx.resolve_right (not_not_intro hin)
  exact goesTo_setReg (exec_registerWrite_of_rowSays hm (storedRegs_storesOnly _ h) hz hrow hc)
    (by rw [keepSet_of_none hnone, storeBits_word])

theorem registerWrite_eventReg {m : Word} (hm : s.manages who) (h : (off.toNat, m) ∈ eventRegs) :
    GoesTo (exec (.registerWrite who off 8 ⟨v, recur⟩) s) (fun t =>
      t.reg off.toNat = s.reg off.toNat &&& ~~~ (v &&& m &&& ~~~ recur) ∧ OtherRegs off.toNat s t ∧ OnlyIn [.rf] s t) := by
  obtain ⟨hz, hbits, hrow⟩ := eventRegs_rows _ h
  exact goesTo_setReg (exec_registerWrite_of_rowSays hm (eventRegs_storesOnly _ h) hz hrow (by simp))
    (by rw [keepSet, hbits, clearByOne_word])

theorem registerWrite_commandReg {i : Instr} (hm : s.manages who) (h : (off.toNat, i) ∈ commandRegs v) :
    exec (.registerWrite who off 8 ⟨v, recur⟩) s = exec i s := by
  obtain ⟨h8, hlt, hnone⟩ := commandRegs_offsets h
  rw [exec_registerWrite, windowStore_of_manages_reg hm h8 hlt, keepSet_of_none hnone, exec_commandReg hm.1 h]

theorem registerWrite_absent {c : Nat} (hm : s.manages who) (hc : c < 1024) (hx : s.carrelExists c = false)
    (h : off.toNat ∈ carrelRows.map (fun r => r.base + 8 * c)) : exec (.registerWrite who off 8 ⟨v, recur⟩) s = .next s := by
  obtain ⟨r, hr, hoff⟩ := List.mem_map.mp h
  obtain ⟨-, -, -, h8, -⟩ := carrelRows_shape r hr
  obtain ⟨hend, -⟩ := carrelRows_apart r hr
  rw [exec_registerWrite, ← hoff, windowStore_of_manages_reg hm (by omega) (by omega), writeReg_of_absent hr hc hx]

theorem registerWrite_unassigned (hm : s.manages who) (h8 : off.toNat % 8 = 0) (hu : assigned off.toNat = false) :
    exec (.registerWrite who off 8 ⟨v, recur⟩) s = .next s := by
  rw [exec_registerWrite, windowStore_of_manages_unassigned hm h8 hu]

theorem registerWrite_badSize (hm : s.manages who) (hb : size ≠ 8 ∨ off.toNat % 8 ≠ 0) :
    exec (.registerWrite who off size ⟨v, recur⟩) s = .next (s.log 13 K.regSize 0 off.toNat) := by
  rw [exec_registerWrite, windowStore_of_manages_badSize hm hb]

/-- A carrel's write outside its mailbox and the doorbell pages reaches the Ledger alone (R398). -/
theorem registerWrite_carrel_refused {f : Func} (hf : f ≠ 0) (hs : s.inService = true)
    (hd : off.toNat < 0x1000000 ∨ 0x1400000 ≤ off.toNat) (hb : mboxOf off.toNat ≠ some f.toNat) :
    GoesTo (exec (.registerWrite (.host f) off size ⟨v, recur⟩) s) (fun t =>
      (∀ o, (o < 0xA00000 ∨ 0xB00000 ≤ o) → t.reg o = s.reg o) ∧ OnlyIn [.rf, .ldg] s t) := by
  have hd' : ¬ (0x1000000 ≤ off.toNat ∧ off.toNat < 0x1400000) := by omega
  rw [exec_registerWrite]
  cases hx : s.carrelExists f.toNat with
  | false => exact goesTo_log (congrArg Host.Outcome.next (windowStore_of_absent_carrel hs hf hx))
  | true =>
    cases hz : badSize off.toNat size with
    | true => exact goesTo_log (congrArg Host.Outcome.next (windowStore_of_carrel_badSize hs hx (badSize_iff.mp hz)))
    | false =>
      obtain ⟨k, hk⟩ := carrelCause_isSome hd' hb
      exact goesTo_log (congrArg Host.Outcome.next (windowStore_of_carrelCause hs hf hx hz hd' hk))

/-- Host traffic before service reaches the CFG_ block and the boot window alone (R83). -/
theorem registerWrite_before_service {f : Func} (hs : s.inService = false) (hlo : 0x100000 ≤ off.toNat)
    (hb : off.toNat < 0xE00000 ∨ 0xF00000 ≤ off.toNat) : exec (.registerWrite (.host f) off size ⟨v, recur⟩) s = .next s := by
  have hr : s.hostReaches off.toNat = false := by
    simp only [State.hostReaches, hs, Bool.false_or, Bool.or_eq_false_iff, Bool.and_eq_false_iff, decide_eq_false_iff_not]
    omega
  rw [exec_registerWrite, windowStore_of_not_reached hr]

theorem registerWrite_carrel_unassigned {f : Func} (hf : f ≠ 0) (hs : s.inService = true) (hx : s.carrelExists f.toNat = true)
    (h8 : off.toNat % 8 = 0) (hu : assigned off.toNat = false) :
    exec (.registerWrite (.host f) off 8 ⟨v, recur⟩) s = .next (s.notPermitted off.toNat f.toNat 4) := by
  rw [exec_registerWrite, windowStore_of_carrelCause hs hf hx (badSize_eight h8) (not_doorbell_of_unassigned hu)
    (carrelCause_of_unassigned hu)]

end Rules

/-- Settles O58: the row that assigns an offset says what its write stores and clears, and each way into the window says what it turns
away. -/
theorem registerWritesAndAccessesTurnedAway : Obligations.RegisterWritesAndAccessesTurnedAway := by
  unfold Obligations.RegisterWritesAndAccessesTurnedAway
  refine ⟨?written, ?turnedAway, ?answers⟩
  case written =>
    intro s who off v recur hm
    exact ⟨fun m h hx => registerWrite_storedReg hm h hx, fun m h => registerWrite_eventReg hm h,
      fun cmd h => registerWrite_commandReg hm h, fun c hc hx h => registerWrite_absent hm hc hx h,
      fun h8 hu => registerWrite_unassigned hm h8 hu⟩
  case turnedAway =>
    intro s who off size v recur
    refine ⟨fun hm hb => goesTo_log (registerWrite_badSize hm hb), ?_, ?_, fun ha => ?_⟩
    · rintro f rfl hf hs hd hb
      exact registerWrite_carrel_refused hf hs hd hb
    · rintro f rfl hs hlo hb
      exact registerWrite_before_service hs hlo hb
    · rw [exec_registerWrite, windowStore_of_not_alive ha]
  case answers =>
    intro s off d q size v recur
    refine ⟨fun who hm hb => registerWrite_badSize hm hb, fun f hs _ hx hb => ?_, fun hs hp hb => ?_, fun hu h8 =>
      ⟨fun who hm => registerWrite_unassigned hm h8 hu, fun hs hp hd => ?_, fun f hs hf hx =>
        ⟨registerWrite_carrel_unassigned hf hs hx h8 hu, fun hp hd => ?_⟩⟩⟩
    · rw [exec_registerWrite, windowStore_of_carrel_badSize hs hx hb]
    · exact exec_hostReq_read hs hp (windowLoad_of_manager_badSize hs hb)
    · have hl : s.windowLoad (.host 0) off.toNat d.length = (s, 0) := by rw [hd, windowLoad_of_manager_unassigned hs h8 hu]
      exact hd ▸ exec_hostReq_read hs hp hl
    · have hl : s.windowLoad (.host f) off.toNat d.length = (s.notPermitted off.toNat f.toNat 4, 0) := by
        rw [hd, windowLoad_of_carrel_unassigned hs hf hx h8 hu]
      exact hd ▸ exec_hostReq_read hs hp hl

end Sys2Proof.Machine

/-! Proof of O6: what a transaction of the SMBus target comes to (R64, R66 to R68, Table 2-9), by whether its PEC is taken. -/

namespace Sys2Proof.Machine

section Smbus
variable {s : State} {pec : Pec}

/-! ## Reads -/

/-- The read transactions, with the command codes of Table 2-11. -/
def smbReads (pec : Pec) : List (Instr × Nat) :=
  [(.status pec, 0x01), (.tempCompute pec, 0x02), (.tempSram pec, 0x03), (.power pec, 0x04), (.vcoreReq pec, 0x05),
   (.alertCauseRead pec, 0x06), (.ident pec, 0x07), (.powerCapRead pec, 0x08)]

/-- Each of these commands is the read of its code. -/
theorem exec_of_mem_smbReads {c : Instr} {code : Nat} (h : (c, code) ∈ smbReads pec) :
    exec c s = .next (s.smbRead pec code) := by
  simp only [smbReads, List.mem_cons, Prod.mk.injEq, List.not_mem_nil, or_false] at h
  obtain ⟨rfl, rfl⟩ | ⟨rfl, rfl⟩ | ⟨rfl, rfl⟩ | ⟨rfl, rfl⟩ | ⟨rfl, rfl⟩ | ⟨rfl, rfl⟩ | ⟨rfl, rfl⟩ |
    ⟨rfl, rfl⟩ := h <;> rfl

section On
variable (hs : s.smbOn = true)
include hs

theorem smbRead_of_pecOk {code : Nat} {bytes : List Byte} (hp : s.pecOk pec = true) (hc : s.smbContent code = some bytes) :
    s.smbRead pec code = s.smbReply (.ack bytes) := by simp [State.smbRead, hs, hc, hp]

/-- A PEC that is not taken is answered with a NACK, whatever the code. -/
theorem smbRead_of_not_pecOk {code : Nat} (hp : s.pecOk pec = false) : s.smbRead pec code = s.smbReply .nack := by
  cases hc : s.smbContent code <;> simp [State.smbRead, hs, hc, hp]

/-- A listed read whose PEC is taken answers the content of its code. -/
theorem exec_smbRead_answers {c : Instr} {code : Nat} {bytes : List Byte} (hp : s.pecOk pec = true)
    (h : (c, code) ∈ smbReads pec) (hc : s.smbContent code = some bytes) : exec c s = .next (s.smbReply (.ack bytes)) := by
  rw [exec_of_mem_smbReads h, smbRead_of_pecOk hs hp hc]

/-! ## Writes, the alert response and the stop condition -/

theorem exec_alertCauseClear_of_pecOk (hp : s.pecOk pec = true) (v : Byte) (recur : BitVec 6) :
    exec (.alertCauseClear pec v recur) s = .next { s with smb := { s.smb with
      cause := (s.smb.cause &&& ~~~ (v.setWidth 6)) ||| recur ||| (if s.ldg.oos then 4#6 else 0#6), reply := .ack [] } } := by
  show execAlertCauseClear pec v recur s = _
  rw [execAlertCauseClear, if_neg (by simp [hs]), if_neg (by simp [hp])]
  rfl

theorem exec_powerCapWrite_of_pecOk (hp : s.pecOk pec = true) (v : BitVec 16) :
    exec (.powerCapWrite pec v) s = .next { s with smb := { s.smb with cap := v, reply := .ack [] } } := by
  show execPowerCapWrite pec v s = _
  simp [execPowerCapWrite, hs, hp]

theorem exec_alertCauseClear_of_not_pecOk (hp : s.pecOk pec = false) (v : Byte) (recur : BitVec 6) :
    exec (.alertCauseClear pec v recur) s = .next (s.smbReply .nack) := by
  show execAlertCauseClear pec v recur s = _
  simp [execAlertCauseClear, hs, hp]

theorem exec_powerCapWrite_of_not_pecOk (hp : s.pecOk pec = false) (v : BitVec 16) :
    exec (.powerCapWrite pec v) s = .next (s.smbReply .nack) := by
  show execPowerCapWrite pec v s = _
  simp [execPowerCapWrite, hs, hp]

/-- The alert response (R67): the target's address in the upper seven bits while ALERT_N is asserted, and else a NACK. -/
theorem exec_alertResponse :
    exec .alertResponse s = .next (s.smbReply (if s.alertN then .ack (leBytes 1 (fld s.smb.active 0 7 * 2)) else .nack)) := by
  show execAlertResponse s = _
  cases ha : s.alertN <;> simp [execAlertResponse, hs, ha]

theorem exec_smbusStop : exec .smbusStop s = .next { s with smb := { s.smb with active := s.reg R.CFG_SMB_CTL } } := by
  show execSmbusStop s = _
  simp [execSmbusStop, hs]

end On

/-- A PEC that is wrong, or absent while PEC_REQ is in effect, is not taken (Table 2-9). -/
theorem pecOk_eq_false (h : pec = .invalid ∨ (pec = .absent ∧ bitAt s.smb.active 7 = true)) : s.pecOk pec = false := by
  obtain rfl | ⟨rfl, hreq⟩ := h
  · rfl
  · simp [State.pecOk, hreq]

/-! ## CFG_SMB_CTL -/

theorem regRow_smbCtl : regRow R.CFG_SMB_CTL = some ⟨R.CFG_SMB_CTL, 8, 1, 0xFF, 0, false⟩ := by decide

/-- The register stores its low byte; what is in effect is the SMBus target's own (R64). -/
theorem writeReg_smbCtl (who : Requester) (v : Word) :
    s.writeReg who R.CFG_SMB_CTL v = s.setReg R.CFG_SMB_CTL ((s.reg R.CFG_SMB_CTL &&& ~~~ 0xFF) ||| (v &&& 0xFF)) := by
  have hz : (entryZero R.CFG_SMB_CTL || !assigned R.CFG_SMB_CTL) = false := by decide
  have hcfg : s.writeReg who R.CFG_SMB_CTL v = s.writeCfg R.CFG_SMB_CTL v := by
    unfold State.writeReg
    rw [hz]
    rfl
  have hbits : s.writeCfg R.CFG_SMB_CTL v = s.storeBits R.CFG_SMB_CTL v := by
    unfold State.writeCfg
    rw [if_neg (by decide), if_neg (by decide), if_neg (by decide), if_neg (fun h => absurd h.1 (by decide))]
  rw [hcfg, hbits, State.storeBits, regRow_smbCtl, ← storeBits_word]
  rfl

/-- A manager's write of CFG_SMB_CTL stores the byte and leaves the SMBus target as it was until the stop condition. -/
theorem registerWrite_smbCtl {who : Requester} (hm : s.manages who) (v recur : Word) :
    GoesTo (exec (.registerWrite who (BitVec.ofNat 25 R.CFG_SMB_CTL) 8 ⟨v, recur⟩) s) (fun t =>
      t.smb = s.smb ∧ t.reg R.CFG_SMB_CTL = (s.reg R.CFG_SMB_CTL &&& ~~~ 0xFF) ||| (v &&& 0xFF)) := by
  have hoff : (BitVec.ofNat 25 R.CFG_SMB_CTL).toNat = R.CFG_SMB_CTL := by decide
  have hnone : clearsByOne R.CFG_SMB_CTL = 0 := by decide
  rw [exec_registerWrite, hoff, windowStore_of_manages_reg hm (by decide) (by decide), keepSet_of_none hnone, writeReg_smbCtl]
  exact ⟨_, rfl, s.setReg_smb _ _, s.reg_setReg_self _ _⟩

end Smbus

/-- Settles O6: a listed read is the content of its code, each write its update of the target, and a PEC that is not taken a NACK. -/
theorem smbusTransactionsAnswerAndWrite : Obligations.SmbusTransactionsAnswerAndWrite := by
  unfold Obligations.SmbusTransactionsAnswerAndWrite
  refine ⟨?reads, ?writes, ?refused⟩
  case reads =>
    intro s pec hs hp
    have answers (code : Nat) {c : Instr} {bytes : List Byte} (h : (c, code) ∈ smbReads pec)
        (hc : s.smbContent code = some bytes) : exec c s = .next (s.smbReply (.ack bytes)) := exec_smbRead_answers hs hp h hc
    exact ⟨answers 0x01 (by simp [smbReads]) rfl, answers 0x02 (by simp [smbReads]) rfl, answers 0x03 (by simp [smbReads]) rfl,
      answers 0x04 (by simp [smbReads]) rfl, answers 0x05 (by simp [smbReads]) rfl, answers 0x06 (by simp [smbReads]) rfl,
      answers 0x07 (by simp [smbReads]) rfl, answers 0x08 (by simp [smbReads]) rfl⟩
  case writes =>
    intro s pec hs
    refine ⟨fun v recur hp => exec_alertCauseClear_of_pecOk hs hp v recur, fun v hp => exec_powerCapWrite_of_pecOk hs hp v,
      fun ha => ?_, fun ha => ?_, exec_smbusStop hs, fun who v recur hm => registerWrite_smbCtl hm v recur⟩
    · rw [exec_alertResponse hs, ha]
      rfl
    · rw [exec_alertResponse hs, ha]
      rfl
  case refused =>
    intro s pec w v recur hs hbad c hc
    have hp : s.pecOk pec = false := pecOk_eq_false hbad
    replace hc : c ∈ (smbReads pec).map Prod.fst ++ [.powerCapWrite pec w, .alertCauseClear pec v recur] := hc
    obtain hread | hwrite := List.mem_append.mp hc
    · obtain ⟨⟨_, code⟩, hmem, rfl⟩ := List.mem_map.mp hread
      rw [exec_of_mem_smbReads hmem, smbRead_of_not_pecOk hs hp]
      rfl
    · simp only [List.mem_cons, List.not_mem_nil, or_false] at hwrite
      obtain rfl | rfl := hwrite
      · exact exec_powerCapWrite_of_not_pecOk hs hp w
      · exact exec_alertCauseClear_of_not_pecOk hs hp v recur

end Sys2Proof.Machine

/-! Proof of O7: what each instruction of the test access port loads (R50 to R54), and what HUSH_SCAN and CTL_ACCESS do beyond their load
(R443, R447). -/

namespace Sys2Proof.Machine

section TestPort
variable {s : State}

/-! ## Instruction loads -/

theorem life_of_alive (ha : s.alive = true) : s.pins.life ≠ .off := by
  intro h
  simp [State.alive, h] at ha

section Loads
variable (hon : s.pins.life ≠ .off)
include hon

/-- The port works while PWROK is high (R51). -/
theorem tapOn_of_life : s.tapOn = true := by simp [State.tapOn, hon]

/-- A command that acts while the port works. -/
theorem next_of_tapOn {t : State} : (Host.Outcome.next (if s.tapOn then t else s) : Out) = .next t := by
  rw [if_pos (tapOn_of_life hon)]

end Loads

/-- A command that leaves the pins p and the port q and changes nothing else: what it selects and what it drives are read off p and q. -/
theorem goesTo_load {c : Instr} {p : Pins} {q : Tap} (h : exec c s = .next { s with pins := p, tap := q }) :
    GoesTo (exec c s) (fun t => t.tap.ir = q.ir ∧ t.tap.bypass = q.bypass ∧ t.tap.data = q.data ∧ t.pins.driving = p.driving
      ∧ t.pins.highz = p.highz ∧ OnlyIn [.tap, .pins] s t) :=
  ⟨_, h, rfl, rfl, rfl, rfl, rfl, Eff.onlyIn (.set_pins_tap (.refl _ s) rfl rfl)⟩

section Codes
variable (hon : s.pins.life ≠ .off)
include hon

theorem exec_tapReset : exec .tapReset s = .next { s with tap := .reset, pins := { s.pins with driving := false, highz := false } } :=
  next_of_tapOn hon

theorem exec_idcode : exec .idcode s = .next (s.irLoad 0x02 false 0x1A3E1B87) := next_of_tapOn hon

theorem exec_clamp : exec .clamp s =
    .next { s.irLoad 0x03 true 0 with pins := { (s.irLoad 0x03 true 0).pins with driving := !s.pins.resetN } } := next_of_tapOn hon

theorem exec_highz : exec .highz s =
    .next { s.irLoad 0x04 true 0 with pins := { (s.irLoad 0x04 true 0).pins with highz := !s.pins.resetN } } := next_of_tapOn hon

theorem exec_samplePreload (pins load : BitVec 10) : exec (.samplePreload pins load) s =
    .next { s.irLoad 0x01 false 0 with pins := { (s.irLoad 0x01 false 0).pins with boundary := pins, preload := load } } :=
  next_of_tapOn hon

theorem exec_extest (pins : BitVec 10) : exec (.extest pins) s = .next (s.extest pins) := next_of_tapOn hon

theorem exec_stackWsp (sel : BitVec 3) (len : BitVec 7) (data reply : Word) :
    exec (.stackWsp sel len data reply) s = .next (s.stackWsp sel.toNat len.toNat reply) := next_of_tapOn hon

theorem exec_hushScan (n : Nat) : exec (.hushScan n) s = .next (s.hushScan n) := next_of_tapOn hon

/-- BYPASS answers to its own code and to every code that Table 2-4 does not list. -/
theorem exec_bypass {code : BitVec 8} (tdi : Bool) (hc : code = 0xFF ∨ code ∉ tapCodes) :
    exec (.bypass code tdi) s = .next (s.irLoad code true (if tdi then 1 else 0)) := by
  have hsel : (s.tapOn && (code == 0xFF || !tapCodes.contains code)) = true := by simpa [tapOn_of_life hon] using hc
  show execBypass code tdi s = _
  rw [execBypass, if_pos hsel]
  cases tdi <;> rfl

end Codes

/-- With RESET_N high EXTEST acts as BYPASS (R53). -/
theorem extest_of_resetN (h : s.pins.resetN = true) (pins : BitVec 10) : s.extest pins = s.irLoad 0x00 true 0 := if_pos h

/-- With RESET_N low the boundary register captures and drives (R53). -/
theorem extest_of_not_resetN (h : s.pins.resetN = false) (pins : BitVec 10) : s.extest pins =
    { s.irLoad 0x00 false 0 with pins := { (s.irLoad 0x00 false 0).pins with boundary := pins, driving := true } } :=
  if_neg (by simp [h])

theorem goesTo_extest (hon : s.pins.life ≠ .off) (pins : BitVec 10) :
    GoesTo (exec (.extest pins) s) (fun t => t.tap.ir = 0x00 ∧ t.tap.bypass = s.pins.resetN ∧ t.tap.data = 0
      ∧ t.pins.driving = (!s.pins.resetN) ∧ t.pins.highz = false ∧ OnlyIn [.tap, .pins] s t) := by
  cases h : s.pins.resetN with
  | true => exact goesTo_load ((exec_extest hon pins).trans (congrArg _ (extest_of_resetN h pins)))
  | false => exact goesTo_load ((exec_extest hon pins).trans (congrArg _ (extest_of_not_resetN h pins)))

/-! ## HUSH_SCAN -/

/-- The next n bits of the scan image go out. -/
def State.scanOut (s : State) (n : Nat) : State :=
  let q := s.scanImage s.scanRanges
  { q.1 with tap := { q.1.tap with scanBits := imageBits q.2 q.1.tap.scanPos n, scanPos := q.1.tap.scanPos + n } }

/-- In service HUSH_SCAN is its load, a hush of cause 3, and bits of the image (R447). -/
theorem hushScan_of_inService (hs : s.inService = true) (n : Nat) :
    s.hushScan n = ((s.irLoad 0x21 false 0).startHush 3).scanOut n := by
  have hs' : (!(s.irLoad 0x21 false 0).inService) = false := by simpa [State.inService, State.irLoad] using hs
  unfold State.hushScan
  simp only [hs', Bool.false_eq_true, if_false]
  rfl

theorem scanImage_onlyIn (rs : List Nat) : OnlyIn [.freeCtr] s (s.scanImage rs).1 :=
  (EffP.fst (State.scanImage_eff (F := fun c => decide (c ∈ [Comp.freeCtr])) (.refl _ s) rfl rs)).onlyIn

theorem scanOut_eff {F : Comp → Bool} {s0 : State} (h : Eff F s0 s) (hfree : F .freeCtr = true) (htap : F .tap = true) (n : Nat) :
    Eff F s0 (s.scanOut n) :=
  .set_tap (EffP.fst (State.scanImage_eff h hfree s.scanRanges)) htap

theorem scanOut_reg (n o : Nat) : (s.scanOut n).reg o = s.reg o := s.reg_of_rf ((scanImage_onlyIn s.scanRanges).2 .rf (by decide)) o

theorem scanOut_obs (n : Nat) : (s.scanOut n).obs = s.obs := (scanImage_onlyIn s.scanRanges).2 .obs (by decide)

theorem scanImage_tap (rs : List Nat) : (s.scanImage rs).1.tap = s.tap := (scanImage_onlyIn rs).2 .tap (by decide)

/-- The port remembers how far the image has gone out; what it selects stays. -/
theorem scanOut_tap (n : Nat) : (s.scanOut n).tap = { s.tap with
    scanBits := imageBits (s.scanImage s.scanRanges).2 s.tap.scanPos n, scanPos := s.tap.scanPos + n } := by
  simp only [State.scanOut, scanImage_tap]

theorem imageBits_length (bs : List Byte) (pos n : Nat) : (imageBits bs pos n).length = n := by simp [imageBits]

theorem scanOut_scanBits_length (n : Nat) : (s.scanOut n).tap.scanBits.length = n := by rw [scanOut_tap, imageBits_length]

/-- A hushed die stays as it is when another hush is asked for (R443). -/
theorem startHush_of_hushed (h : s.hushed = true) (cause : Nat) : s.startHush cause = s := if_pos h

/-- A hush of a running die shows its cause and its datestamp (R443). -/
theorem startHush_of_not_hushed (h : s.hushed = false) (cause : Nat) : s.startHush cause =
    { (s.setReg R.OBS_HUSH_STATUS (BitVec.ofNat 64 (2 + cause * 4))).setReg R.OBS_HUSH_WHEN s.now with
      obs := { s.obs with hushFc := 0 } } := if_neg (by simp [h])

/-- The scan of a hushed die (R447). -/
theorem goesTo_hushScan_hushed (hs : s.inService = true) (hh : s.hushed = true) (n : Nat) :
    GoesTo (exec (.hushScan n) s) (fun t => t.tap.ir = 0x21 ∧ t.tap.scanBits.length = n
      ∧ t.tap.scanPos = (if s.tap.ir = 0x21 then s.tap.scanPos else 0) + n ∧ OnlyIn [.freeCtr, .pins, .tap] s t) := by
  have ht : s.hushScan n = (s.irLoad 0x21 false 0).scanOut n := by
    rw [hushScan_of_inService hs, startHush_of_hushed (s := s.irLoad 0x21 false 0) hh]
  have hload : Eff (fun c => decide (c ∈ [Comp.freeCtr, .pins, .tap])) s (s.irLoad 0x21 false 0) :=
    State.irLoad_eff (.refl _ s) rfl rfl _ _ _
  refine ⟨_, (exec_hushScan (life_of_alive (alive_of_inService hs)) n).trans (congrArg _ ht), ?_, scanOut_scanBits_length n, ?_,
    (scanOut_eff hload rfl rfl n).onlyIn⟩ <;> rw [scanOut_tap]
  · rfl
  · simp [State.irLoad]

/-- The scan of a running die hushes it first, with cause 3 (R443, R447). -/
theorem goesTo_hushScan_running (hs : s.inService = true) (hh : s.hushed = false) (n : Nat) :
    GoesTo (exec (.hushScan n) s) (fun t => t.reg R.OBS_HUSH_STATUS = 14 ∧ t.reg R.OBS_HUSH_WHEN = s.now ∧ t.obs.hushFc = 0
      ∧ t.tap.scanBits.length = n ∧ OnlyIn [.freeCtr, .rf, .pins, .tap, .obs] s t) := by
  have hframe : Eff (fun c => decide (c ∈ [Comp.freeCtr, .rf, .pins, .tap, .obs])) s (s.hushScan n) :=
    State.hushScan_eff (.refl _ s) rfl rfl rfl rfl rfl n
  have hhush := startHush_of_not_hushed (s := s.irLoad 0x21 false 0) hh 3
  refine ⟨_, exec_hushScan (life_of_alive (alive_of_inService hs)) n, ?_, ?_, ?_, ?_, hframe.onlyIn⟩ <;> rw [hushScan_of_inService hs]
  · rw [scanOut_reg, hhush]
    exact (State.reg_setReg_of_ne _ _ (by decide)).trans (State.reg_setReg_self ..)
  · rw [scanOut_reg, hhush]
    exact State.reg_setReg_self ..
  · rw [scanOut_obs, hhush]
  · exact scanOut_scanBits_length n

/-! ## CTL_ACCESS -/

theorem windowReads_of_alive (ha : s.alive = true) : s.windowReads = true := by simp [State.windowReads, ha]

/-- The TAP reads a word as the manager does (R54, R462). -/
theorem windowLoad_of_tap {off : Nat} (ha : s.alive = true) (h8 : off % 8 = 0) :
    s.windowLoad .tap off 8 = (s, s.readWindow off) := by
  simp [State.windowLoad, requesterFunc, windowReads_of_alive ha, badSize_eight h8]

/-- The state in which a CTL_ACCESS reaches the window: its instruction loaded and the access logged (R54). -/
def State.ctlLogged (s : State) (off : Nat) : State := (s.irLoad 0x22 false 0).log 13 K.tapAccess 0 off

theorem ctlLogged_alive (ha : s.alive = true) (off : Nat) : (s.ctlLogged off).alive = true := by
  simpa [State.ctlLogged, State.alive, State.irLoad] using ha

section Access
variable (ha : s.alive = true)
include ha

theorem exec_ctlAccess (write : Bool) (off : BitVec 25) (v : Written) :
    exec (.ctlAccess write off v) s = .next (s.ctlAccess write off.toNat (keepSet off.toNat v.v v.recur)) :=
  next_of_tapOn (life_of_alive ha)

theorem ctlAccess_write (off : Nat) (v : Word) : s.ctlAccess true off v = (s.ctlLogged off).windowStore .tap off 8 v := by
  have hr : (s.irLoad 0x22 false 0).windowReads = true := windowReads_of_alive ha
  unfold State.ctlAccess
  simp only [hr, if_true]
  rfl

theorem ctlAccess_read {off : Nat} (h8 : off % 8 = 0) (v : Word) : s.ctlAccess false off v =
    { s.ctlLogged off with tap := { (s.ctlLogged off).tap with data := (s.ctlLogged off).readWindow off } } := by
  have hr : (s.irLoad 0x22 false 0).windowReads = true := windowReads_of_alive ha
  have hl := windowLoad_of_tap (ctlLogged_alive ha off) h8
  unfold State.ctlLogged at hl
  unfold State.ctlAccess
  simp only [hr, if_true, Bool.false_eq_true, if_false, hl]
  rfl

end Access

end TestPort

/-- Settles O7: each load is read off the pins and the port it leaves; a scan and an access go on from their load. -/
theorem testPortSelectsDrivesAndScans : Obligations.TestPortSelectsDrivesAndScans := by
  unfold Obligations.TestPortSelectsDrivesAndScans
  refine ⟨?loads, ?wrapper, ?scans⟩
  case loads =>
    intro s hon
    exact ⟨goesTo_load (exec_tapReset hon), goesTo_load (exec_idcode hon), goesTo_load (exec_clamp hon),
      goesTo_load (exec_highz hon), goesTo_extest hon,
      fun pins hlow => ⟨_, exec_extest hon pins, by rw [extest_of_not_resetN hlow]⟩,
      fun pins load => goesTo_load (exec_samplePreload hon pins load),
      fun pins load => ⟨_, exec_samplePreload hon pins load, rfl, rfl⟩,
      fun code tdi hc => goesTo_load (exec_bypass hon tdi hc)⟩
  case wrapper =>
    intro s sel len data reply hon
    have hframe : Eff (fun c => decide (c ∈ [Comp.tap, .pins])) s (s.stackWsp sel.toNat len.toNat reply) :=
      State.stackWsp_eff (.refl _ s) rfl rfl _ _ _
    exact ⟨_, exec_stackWsp hon sel len data reply, rfl, by simp [State.stackWsp], rfl, rfl, hframe.onlyIn⟩
  case scans =>
    refine ⟨fun s n hs hh => goesTo_hushScan_hushed hs hh n, fun s n hs hh => goesTo_hushScan_running hs hh n,
      fun s off v recur ha h8 => ⟨?_, ?_⟩⟩
    · rw [exec_ctlAccess ha, ctlAccess_read ha h8]
      rfl
    · rw [exec_ctlAccess ha, ctlAccess_write ha, exec_registerWrite]
      rfl

end Sys2Proof.Machine

/-! Proof of O15: what COMMIT, LOAD and the end of a store command do (R98 to R103, Table 3-10). -/

namespace Sys2Proof.Machine

section SettingsStore
variable {s : State}

/-! ## The sections of the store -/

@[simp] theorem Settings.sect_setSect_self (x : Settings) (cal : Bool) (v : Section) : (x.setSect cal v).sect cal = v := by
  cases cal <;> rfl

@[simp] theorem Settings.sect_setSect_not (x : Settings) (cal : Bool) (v : Section) : (x.setSect cal v).sect (!cal) = x.sect (!cal) := by
  cases cal <;> rfl

@[simp] theorem Settings.setSect_unlocked (x : Settings) (cal : Bool) (v : Section) : (x.setSect cal v).unlocked = x.unlocked := by
  cases cal <;> rfl

@[simp] theorem Settings.setSect_items (x : Settings) (cal : Bool) (v : Section) : (x.setSect cal v).items = x.items := by
  cases cal <;> rfl

/-! ## CFG_SS_STATUS -/

theorem readWindow_ssStatus : s.readWindow R.CFG_SS_STATUS = s.ssStatus := by
  have hlive : (entryZero R.CFG_SS_STATUS || !assigned R.CFG_SS_STATUS) = false := by decide
  unfold State.readWindow State.readReg
  rw [if_pos (by decide), hlive]
  rfl

/-- CFG_SS_STATUS shows both commit counts (Table 3-10). -/
theorem ssStatus_commits (hcfg : s.ss.cfg.commits ≤ 1000) (hcal : s.ss.cal.commits ≤ 1000) :
    fld s.ssStatus 16 10 = s.ss.cfg.commits ∧ fld s.ssStatus 32 10 = s.ss.cal.commits := by
  have hbusy : b2n s.ss.busy.isSome ≤ 1 := by unfold b2n; split <;> omega
  have hresult := s.ss.result.isLt
  simp only [fld, State.ssStatus, BitVec.toNat_ofNat, Nat.shiftRight_eq_div_pow]
  omega

/-! ## COMMIT and LOAD on a live chiplet -/

theorem ssCommit_of_accepted {cal : Bool} (h : s.commitRefusal cal = none) : s.ssCommit cal = { s with ss :=
    { s.ss.setSect cal { s.ss.sect cal with commits := (s.ss.sect cal).commits + 1 } with
      busy := some ⟨true, cal, tabOf 32764 s.stagingByte⟩
      unlocked := if cal then false else (s.ss.setSect cal { s.ss.sect cal with commits := (s.ss.sect cal).commits + 1 }).unlocked } } := by
  simp only [State.ssCommit, h]

section Alive
variable (ha : s.alive = true) (cal : Bool)
include ha

theorem exec_commit : exec (.commit cal) s = .next (s.ssCommit cal) := congrArg Host.Outcome.next (if_pos ha)

theorem exec_load : exec (.load cal) s = .next (s.ssLoad cal) := congrArg Host.Outcome.next (if_pos ha)

/-- A commit that has a reason to be refused leaves the reason in RESULT and nothing else. -/
theorem exec_commit_refused {r : Nat} (h : s.commitRefusal cal = some r) :
    exec (.commit cal) s = .next { s with ss := { s.ss with result := BitVec.ofNat 3 r } } := by
  rw [exec_commit ha, State.ssCommit, h]

/-- A commit that has none runs on the staging area's bytes (R99), is counted (R102), and uses up the unlock (R103). -/
theorem goesTo_commit_accepted (h : s.commitRefusal cal = none) : GoesTo (exec (.commit cal) s) (fun t =>
    t.ss.busy = some ⟨true, cal, tabOf 32764 s.stagingByte⟩ ∧ t.ss.sect cal = { s.ss.sect cal with commits := (s.ss.sect cal).commits + 1 }
    ∧ t.ss.sect (!cal) = s.ss.sect (!cal) ∧ t.ss.unlocked = (s.ss.unlocked && !cal) ∧ t.ss.items = s.ss.items ∧ OnlyIn [.ss] s t) := by
  have hframe : OnlyIn [.ss] s (s.ssCommit cal) :=
    Eff.onlyIn (State.ssCommit_eff (F := fun c => decide (c ∈ [Comp.ss])) (.refl _ s) rfl cal)
  refine ⟨s.ssCommit cal, exec_commit ha cal, ?_⟩
  rw [ssCommit_of_accepted h] at hframe ⊢
  refine ⟨rfl, Settings.sect_setSect_self .., Settings.sect_setSect_not .., ?_, Settings.setSect_items .., hframe⟩
  cases cal <;> simp

end Alive

section Idle
variable (hb : s.ss.busy = none) {cal : Bool}
include hb

theorem commitRefusal_of_locked (hl : s.ss.unlocked = false) : s.commitRefusal true = some 2 := by
  simp [State.commitRefusal, hb, hl]

/-- An idle store and an unlocked section: only the endurance is left to refuse a commit (R102). -/
theorem commitRefusal_of_idle (hu : cal = true → s.ss.unlocked = true) :
    s.commitRefusal cal = if 1000 ≤ (s.ss.sect cal).commits then some 3 else none := by
  have hopen : (cal && !s.ss.unlocked) = false := by cases cal <;> simp_all
  simp [State.commitRefusal, hb, hopen]

theorem ssLoad_of_idle (cal : Bool) : s.ssLoad cal = { s with ss := { s.ss with busy := some ⟨false, cal, []⟩ } } := by
  simp [State.ssLoad, hb]

end Idle

section Busy
variable (hb : s.ss.busy ≠ none) (cal : Bool)
include hb

theorem commitRefusal_of_busy : s.commitRefusal cal = some 1 := by
  simp [State.commitRefusal, Option.isSome_iff_ne_none.mpr hb]

theorem ssLoad_of_busy : s.ssLoad cal = { s with ss := { s.ss with result := 1 } } := by
  simp [State.ssLoad, Option.isSome_iff_ne_none.mpr hb]

end Busy

/-! ## The staging area -/

/-- The first n words of the staging area written from a function. -/
def State.stageWords (s : State) (n : Nat) (f : Nat → Word) : State :=
  (List.range n).foldl (fun s i => s.setReg (R.STAGING i) (f i)) s

theorem stageWords_succ (n : Nat) (f : Nat → Word) : s.stageWords (n + 1) f = (s.stageWords n f).setReg (R.STAGING n) (f n) := by
  simp [State.stageWords, List.range_succ]

theorem stageWords_ss (n : Nat) (f : Nat → Word) : (s.stageWords n f).ss = s.ss := by
  induction n with
  | zero => rfl
  | succ n ih => rw [stageWords_succ, State.setReg_ss, ih]

theorem reg_stageWords_of_lt {n i : Nat} (f : Nat → Word) (h : i < n) : (s.stageWords n f).reg (R.STAGING i) = f i := by
  induction n with
  | zero => omega
  | succ n ih =>
    rw [stageWords_succ]
    by_cases hi : i = n
    · rw [hi, State.reg_setReg_self]
    · rw [State.reg_setReg_of_ne _ _ (by simp only [R.STAGING]; omega), ih (by omega)]

theorem reg_stageWords_of_out {n o : Nat} (f : Nat → Word) (h : o < R.STAGING 0 ∨ R.STAGING n ≤ o) :
    (s.stageWords n f).reg o = s.reg o := by
  simp only [R.STAGING] at h
  induction n with
  | zero => rfl
  | succ n ih => rw [stageWords_succ, State.reg_setReg_of_ne _ _ (by simp only [R.STAGING]; omega), ih (by omega)]

/-! ## The end of a command -/

/-- A section of the store after a COMMIT of its bytes (R99, R100). -/
def Section.programmed (x : Section) (bs : Tab Byte) (verified : Bool) : Section :=
  { x with bytes := bs, check := BitVec.ofNat 32 (crc32c (sectionBytes bs)), broken := !verified }

/-- Word i of a section, as a LOAD stages it (R99). -/
def Section.word (x : Section) (i : Nat) : Word := wordOfBytes ((List.range 8).map (fun k => x.byte (8 * i + k)))

theorem ssEnd_of_commit {cal : Bool} {bs : Tab Byte} (h : s.ss.busy = some ⟨true, cal, bs⟩) (verified : Bool) :
    s.ssEnd verified = { s with ss := { s.ss.setSect cal ((s.ss.sect cal).programmed bs verified) with
      busy := none, result := if verified then 0 else 4 } } := by
  simp only [State.ssEnd, h]
  rfl

/-- The settings hold no register. -/
theorem reg_set_ss (s : State) (x : Settings) (o : Nat) : ({ s with ss := x } : State).reg o = s.reg o := rfl

theorem ssEnd_of_load {cal : Bool} {bs : Tab Byte} (h : s.ss.busy = some ⟨false, cal, bs⟩) (verified : Bool) :
    (s.ssEnd verified).ss = { s.ss with busy := none, result := 0 }
      ∧ ∀ o, (s.ssEnd verified).reg o = (s.stageWords 4096 (s.ss.sect cal).word).reg o := by
  have hss := stageWords_ss (s := s) 4096 (s.ss.sect cal).word
  unfold State.stageWords Section.word at hss ⊢
  simp only [State.ssEnd, h, Bool.false_eq_true, if_false, hss]
  exact ⟨trivial, reg_set_ss _ _⟩

/-- SS_COMMAND_END is the command's end and, on a live chiplet, a signal of the Bell, which changes neither the settings nor a register. -/
theorem goesTo_ssCommandEnd (hon : s.pins.life ≠ .off) (verified : Bool) {l : List Comp}
    (heff : Eff (fun c => decide (c ∈ l)) s (s.ssEnd verified)) (hbel : Comp.bel ∈ l) : GoesTo (exec (.ssCommandEnd verified) s) (fun t =>
      t.ss = (s.ssEnd verified).ss ∧ (∀ o, t.reg o = (s.ssEnd verified).reg o) ∧ OnlyIn l s t) := by
  cases hlive : s.alive && s.ss.busy.isSome with
  | true =>
    have hexec : exec (.ssCommandEnd verified) s = .next ((s.ssEnd verified).bell 1104) := by
      show execSsCommandEnd verified s = _
      simp [execSsCommandEnd, hon, hlive]
    exact ⟨_, hexec, State.bell_ss .., fun o => State.reg_bell _ 1104 false o, (State.bell_eff heff (by simpa using hbel) 1104 false).onlyIn⟩
  | false =>
    have hexec : exec (.ssCommandEnd verified) s = .next (s.ssEnd verified) := by
      show execSsCommandEnd verified s = _
      simp [execSsCommandEnd, hon, hlive]
    exact ⟨_, hexec, rfl, fun _ => rfl, heff.onlyIn⟩

theorem goesTo_commitEnd {cal : Bool} {bs : Tab Byte} (hon : s.pins.life ≠ .off) (hc : s.ss.busy = some ⟨true, cal, bs⟩)
    (verified : Bool) : GoesTo (exec (.ssCommandEnd verified) s) (fun t =>
      t.ss.busy = none ∧ (t.ss.sect cal).bytes = bs ∧ (t.ss.sect cal).broken = !verified ∧ (t.ss.sect cal).commits = (s.ss.sect cal).commits
      ∧ t.ss.sect (!cal) = s.ss.sect (!cal) ∧ t.ss.result = (if verified then 0 else 4) ∧ OnlyIn [.ss, .bel] s t) := by
  have heff : Eff (fun c => decide (c ∈ [Comp.ss, .bel])) s (s.ssEnd verified) := by
    rw [ssEnd_of_commit hc]
    exact .set_ss (.refl _ s) rfl
  obtain ⟨t, hexec, hss, -, hframe⟩ := goesTo_ssCommandEnd hon verified heff (by decide)
  have hself : t.ss.sect cal = (s.ss.sect cal).programmed bs verified := by
    rw [hss, ssEnd_of_commit hc]
    exact Settings.sect_setSect_self ..
  have hother : t.ss.sect (!cal) = s.ss.sect (!cal) := by
    rw [hss, ssEnd_of_commit hc]
    exact Settings.sect_setSect_not ..
  rw [ssEnd_of_commit hc] at hss
  exact ⟨t, hexec, by rw [hss], by rw [hself]; rfl, by rw [hself]; rfl, by rw [hself]; rfl, hother, by rw [hss], hframe⟩

theorem goesTo_loadEnd {cal : Bool} {bs : Tab Byte} (hon : s.pins.life ≠ .off) (hc : s.ss.busy = some ⟨false, cal, bs⟩)
    (verified : Bool) : GoesTo (exec (.ssCommandEnd verified) s) (fun t =>
      t.ss = { s.ss with busy := none, result := 0 } ∧ (∀ i < 4096, t.reg (R.STAGING i) = (s.ss.sect cal).word i)
      ∧ (∀ o, (o < R.STAGING 0 ∨ R.STAGING 4096 ≤ o) → t.reg o = s.reg o) ∧ OnlyIn [.rf, .ss, .bel] s t) := by
  obtain ⟨t, hexec, hss, hreg, hframe⟩ := goesTo_ssCommandEnd (l := [.rf, .ss, .bel]) hon verified
    (State.ssEnd_eff (.refl _ s) rfl rfl verified) (by decide)
  obtain ⟨hendSs, hendReg⟩ := ssEnd_of_load hc verified
  refine ⟨t, hexec, hss.trans hendSs, fun i hi => ?_, fun o ho => ?_, hframe⟩
  · rw [hreg, hendReg, reg_stageWords_of_lt _ hi]
  · rw [hreg, hendReg, reg_stageWords_of_out _ ho]

end SettingsStore

/-- Settles O15: the reason to refuse a commit is found first, and the end of a command acts by what the command is. -/
theorem settingsStoreCommands : Obligations.SettingsStoreCommands := by
  unfold Obligations.SettingsStoreCommands
  refine ⟨⟨?busy, ?locked, ?counts, ?worn, ?accepted, ?load, ?unlock⟩, ?ends⟩
  case busy =>
    intro s cal ha hb
    exact ⟨exec_commit_refused ha cal (commitRefusal_of_busy hb cal), by rw [exec_load ha, ssLoad_of_busy hb]⟩
  case locked => exact fun s ha hb hl => exec_commit_refused ha true (commitRefusal_of_locked hb hl)
  case counts =>
    intro s hcfg hcal
    rw [readWindow_ssStatus]
    exact ssStatus_commits hcfg hcal
  case worn => exact fun s cal ha hb hu hworn => exec_commit_refused ha cal (by rw [commitRefusal_of_idle hb hu, if_pos hworn])
  case accepted =>
    exact fun s cal ha hb hu hleft => goesTo_commit_accepted ha cal (by rw [commitRefusal_of_idle hb hu, if_neg (by omega)])
  case load => exact fun s cal ha hb => by rw [exec_load ha, ssLoad_of_idle hb]
  case unlock => exact fun s v ha => congrArg Host.Outcome.next (if_pos ha)
  case ends =>
    intro s verified cal bs hon
    exact ⟨fun hc => goesTo_commitEnd hon hc verified, fun hc => goesTo_loadEnd hon hc verified⟩

end Sys2Proof.Machine

/-! Proof of O9: the phases of a boot from the flash (R82 to R93, Table 3-1), a configuration section that fails (R96), and the entry to
service (R106). -/

namespace Sys2Proof.Machine

section Boot
variable {s : State}

/-! ## The phase -/

theorem bootPhase_setPhase (s : State) {p : Nat} (hp : p < 16) : (s.setPhase p).bootPhase = p :=
  (s.field_setField_self R.CFG_BOOT_STATUS 0 4 p (by decide)).trans (Nat.mod_eq_of_lt hp)

theorem reg_setPhase_of_ne (p : Nat) {o : Nat} (h : o ≠ R.CFG_BOOT_STATUS) : (s.setPhase p).reg o = s.reg o :=
  s.reg_setField_of_ne 0 4 p h

/-- A fold of steps that each leave a register leaves it. -/
theorem reg_foldl {α : Type} {f : State → α → State} {o : Nat} {l : List α} (h : ∀ u, ∀ a ∈ l, (f u a).reg o = u.reg o) :
    (l.foldl f s).reg o = s.reg o := by
  induction l generalizing s with
  | nil => rfl
  | cons a l ih =>
    rw [List.foldl_cons, ih (fun u b hb => h u b (List.mem_cons_of_mem _ hb)), h s a (List.mem_cons_self ..)]

/-! ## Phase 0x1: the settings store (R84, R96, R101) -/

/-- The configuration section that a boot uses (R101). -/
def State.cfgTaken (s : State) : Section := if s.boot.pin then s.ss.cfg else s.ss.cfgUse

/-- That section passes its check and its items are allowed (R95, R96, R100). -/
def State.cfgPasses (s : State) : Bool := s.cfgTaken.sound && !s.ss.cfg.broken && itemsAllowed s.cfgTaken.bytes

theorem cfgPasses_of_check_ne (h : s.cfgTaken.check.toNat ≠ crc32c (sectionBytes s.cfgTaken.bytes)) : s.cfgPasses = false := by
  simp [State.cfgPasses, Section.sound, h]

theorem takeSections_cfgUse : s.takeSections.ss.cfgUse = s.cfgTaken := by
  unfold State.takeSections State.cfgTaken
  split <;> rfl

theorem takeSections_cfg : s.takeSections.ss.cfg = s.ss.cfg := by
  unfold State.takeSections
  split <;> rfl

/-- The sections judged (R96, R97): the items in use, what is to be recorded, and CFG_STATUS. -/
def State.judgeSections (s : State) : State :=
  let s := s.takeSections
  let cfgOk := s.ss.cfgUse.sound && !s.ss.cfg.broken && itemsAllowed s.ss.cfgUse.bytes
  let calOk := s.ss.calUse.sound && !s.ss.cal.broken && s.calOwn
  let items := if cfgOk then s.ss.cfgUse.bytes else factoryConfig
  let s := { s with ss := { s.ss with items := items }, boot := { s.boot with cfgLog := !cfgOk, calLog := !calOk } }
  s.setReg R.CFG_STATUS (BitVec.ofNat 64 (b2n (!cfgOk) + b2n (!calOk) * 2 + b2n (!s.calOwn) * 4 + b2n (s.item 0x6 1 == 2) * 16))

theorem judgeSections_items : s.judgeSections.ss.items = if s.cfgPasses then s.cfgTaken.bytes else factoryConfig := by
  rw [State.cfgPasses, ← takeSections_cfgUse, ← takeSections_cfg]
  rfl

theorem judgeSections_cfg : s.judgeSections.ss.cfg = s.ss.cfg := takeSections_cfg

theorem judgeSections_cfgLog : s.judgeSections.boot.cfgLog = !s.cfgPasses := by
  rw [State.cfgPasses, ← takeSections_cfgUse, ← takeSections_cfg]
  rfl

/-- Bit 0 of a sum of flags at bits 0, 1, 2 and 4 is the first flag. -/
theorem bitAt_flags_zero (a b c d : Bool) :
    bitAt (BitVec.ofNat 64 (b2n a + b2n b * 2 + b2n c * 4 + b2n d * 16)) 0 = a := by
  cases a <;> cases b <;> cases c <;> cases d <;> rfl

theorem judgeSections_cfgStatus : s.judgeSections.regBit R.CFG_STATUS 0 = !s.cfgPasses := by
  rw [State.cfgPasses, ← takeSections_cfgUse, ← takeSections_cfg]
  unfold State.judgeSections State.regBit
  rw [State.reg_setReg_self, bitAt_flags_zero]

theorem loadItems_onlyIn (s : State) : OnlyIn [.rf, .smb] s s.loadItems := (State.loadItems_eff (.refl _ s) rfl rfl).onlyIn

theorem loadItems_ss (s : State) : s.loadItems.ss = s.ss := (loadItems_onlyIn s).2 .ss (by decide)

theorem loadItems_boot (s : State) : s.loadItems.boot = s.boot := (loadItems_onlyIn s).2 .boot (by decide)

theorem reg_set_smb (s : State) (x : Smb) (o : Nat) : ({ s with smb := x } : State).reg o = s.reg o := rfl

theorem reg_loadItems_cfgStatus : s.loadItems.reg R.CFG_STATUS = s.reg R.CFG_STATUS := by
  unfold State.loadItems
  simp (disch := decide) only [reg_set_smb, State.reg_setReg_of_ne, State.reg_setField_of_ne]

/-- Starting the stamps and setting the phase leave the settings, what is to be recorded, and CFG_STATUS. -/
theorem startStamps_setPhase (u : State) (p : Nat) :
    (u.startStamps.setPhase p).ss = u.ss ∧ (u.startStamps.setPhase p).boot = u.boot
      ∧ (u.startStamps.setPhase p).stp.running = true ∧ (u.startStamps.setPhase p).reg R.CFG_STATUS = u.reg R.CFG_STATUS :=
  ⟨rfl, rfl, rfl, reg_setPhase_of_ne p (by decide)⟩

theorem storePhase_of_ready (hlife : s.pins.life = .boot) (hphase : s.bootPhase = 1) (hidle : s.ss.busy = none)
    (hclk : s.pins.refclk = true) : s.storePhase = s.judgeSections.loadItems.startStamps.setPhase 2 := by
  unfold State.storePhase State.judgeSections
  rw [if_neg (by simp [hlife, hphase, hidle, hclk])]

/-- Phase 0x1 (R96): the items of the section in use, or the factory default of every one. -/
theorem goesTo_store (hlife : s.pins.life = .boot) (hphase : s.bootPhase = 1) (hidle : s.ss.busy = none) (hclk : s.pins.refclk = true) :
    GoesTo (exec .store s) (fun t =>
      t.bootPhase = 2 ∧ t.stp.running = true ∧ t.ss.items = (if s.cfgPasses then s.cfgTaken.bytes else factoryConfig)
      ∧ t.regBit R.CFG_STATUS 0 = !s.cfgPasses ∧ t.ss.cfg = s.ss.cfg ∧ t.boot.cfgLog = !s.cfgPasses
      ∧ OnlyIn [.rf, .smb, .ss, .boot, .stp] s t) := by
  have hframe : OnlyIn [.rf, .smb, .ss, .boot, .stp] s s.storePhase :=
    Eff.onlyIn (State.storePhase_eff (.refl _ s) rfl rfl rfl rfl rfl)
  obtain ⟨hss, hboot, hrun, hreg⟩ := startStamps_setPhase s.judgeSections.loadItems 2
  rw [loadItems_ss] at hss
  rw [loadItems_boot] at hboot
  refine ⟨s.storePhase, rfl, ?_⟩
  rw [storePhase_of_ready hlife hphase hidle hclk] at hframe ⊢
  refine ⟨bootPhase_setPhase _ (by decide), hrun, by rw [hss, judgeSections_items], ?_, by rw [hss, judgeSections_cfg],
    by rw [hboot, judgeSections_cfgLog], hframe⟩
  rw [State.regBit_of_reg _ (hreg.trans reg_loadItems_cfgStatus), judgeSections_cfgStatus]

/-! ## Phases 0x2 and 0x3: the image (R86, R87) -/

theorem goesTo_header {h : HeaderRead} (hlife : s.pins.life = .boot) (hphase : s.bootPhase = 2) (hspi : s.port0Boot = false)
    (hvalid : headerValid h.primary = true) : GoesTo (exec (.header h) s) (fun t =>
      t.bootPhase = 3
      ∧ t.boot = { s.boot with header := h.primary, slotAt := 0, spi := s.boot.spi ++ [⟨0x03, 0, 64, 12500⟩] }
      ∧ OnlyIn [.rf, .boot] s t) := by
  have hfound : s.headerPhase h = (s.spiReads [spiHeader 0]).headerFound h.primary 0 0 := by
    simp [State.headerPhase, hlife, hphase, hspi, hvalid]
  exact ⟨s.headerPhase h, rfl, by rw [hfound]; exact ⟨bootPhase_setPhase _ (by decide), rfl,
    (State.headerFound_eff (State.spiReads_eff (.refl _ s) rfl _) rfl rfl _ _ _).onlyIn⟩⟩

/-- The first n bytes of a list, written, read back. -/
theorem readN_writeN_take (m : Memory) (a : Nat) {n : Nat} {l : List Byte} (h : n ≤ l.length) :
    Memory.readN (Memory.writeN m a (l.take n)) a n = l.take n := by
  have hread := Memory.readN_writeN m a (l.take n)
  rwa [List.length_take_of_le h] at hread

/-- Firmware starts from the bytes of a resident part (R82, R422). -/
theorem startFirmware_loads_part {bs : List Byte} (h : hdrRlen s.boot.header ≤ bs.length) :
    (s.startFirmware bs).bootPhase = 5 ∧ (s.startFirmware bs).reg R.CFG_FW_VERSION = wordAt s.boot.header 4
      ∧ Memory.readN (s.startFirmware bs).curMem 0x40 (hdrRlen s.boot.header) = bs.take (hdrRlen s.boot.header) :=
  ⟨bootPhase_setPhase _ (by decide), (reg_setPhase_of_ne 5 (by decide)).trans (s.reg_setReg_self _ _), readN_writeN_take _ _ h⟩

theorem goesTo_resident {r : ResidentRead} (hlife : s.pins.life = .boot) (hphase : s.bootPhase = 3) (hspi : s.port0Boot = false)
    (hslot : s.regBit R.CFG_BOOT_STATUS 12 = false) (hok : residentOk s.boot.header r.primary = true) :
    GoesTo (exec (.resident r) s) (fun t =>
      t.bootPhase = 5 ∧ t.ldg.wdArmed = true ∧ t.ldg.wdLeft = watchdogFc ∧ t.reg R.CFG_FW_VERSION = wordAt s.boot.header 4
      ∧ Memory.readN t.curMem 0x40 (hdrRlen s.boot.header) = r.primary.take (hdrRlen s.boot.header)
      ∧ OnlyIn [.rf, .curMem, .boot, .ldg] s t) := by
  have hslot' : s.readResident.regBit R.CFG_BOOT_STATUS 12 = false := hslot
  have hstart : s.residentPhase r = s.readResident.startFirmware r.primary := by
    simp [State.residentPhase, hlife, hphase, hspi, hslot', hok]
  have hlen : hdrRlen s.readResident.boot.header ≤ r.primary.length := by
    simp only [residentOk, Bool.and_eq_true, decide_eq_true_eq] at hok
    exact hok.1
  obtain ⟨hnext, hversion, hread⟩ := startFirmware_loads_part hlen
  exact ⟨s.residentPhase r, rfl, by rw [hstart]; exact ⟨hnext, rfl, rfl, hversion, hread,
    (State.startFirmware_eff (State.readResident_eff (.refl _ s) rfl) rfl rfl rfl rfl _).onlyIn⟩⟩

theorem exec_cfgBootGo {v : Word} (hlife : s.pins.life = .boot) (hport : s.port0Boot = true) (hgo : bitAt v 0 = true) :
    exec (.cfgBootGo v) s = .next { s with boot := { s.boot with go := true } } := by
  show Host.Outcome.next (s.bootGo v) = _
  simp [State.bootGo, hlife, hport, hgo]

/-! ## Phases 0x5 and 0x6: training and self-test (R91 to R93) -/

theorem afterTest_onlyIn (s : State) : OnlyIn [.rf] s s.afterTest := (State.afterTest_eff (.refl _ s) rfl).onlyIn

theorem reg_afterTest_of_ne {o : Nat} (h : o ≠ R.CFG_BOOT_STATUS) : s.afterTest.reg o = s.reg o := by
  unfold State.afterTest
  split
  · exact reg_setPhase_of_ne 7 h
  · split
    · exact reg_setPhase_of_ne 6 h
    · rfl

/-- Records of the Ledger leave every register outside the Ledger. -/
theorem reg_logs {α : Type} (l : List α) (src : Nat) (k : Kind) {o : Nat} (h : o < 0xA00000) :
    (l.foldl (fun s _ => s.log src k) s).reg o = s.reg o :=
  reg_foldl fun u _ _ => u.reg_log src k 0 0 0 0 none o (.inl h)

/-- A present stack that loses at most eight channels is up once it has trained (R91, R328). -/
theorem stackUp_trainStack {k : Nat} {t : StackTrain} (hk : k < 6) (hpresent : t.present = true)
    (hlost : popCount 32 (t.failed ||| (s.reg (R.HBM_MAPOUT_FORCE k)).setWidth 32).toNat ≤ 8) : (s.trainStack k t).stackUp k = true := by
  unfold State.trainStack State.stackUp State.regBit
  simp only [hpresent, Bool.not_true, Bool.false_eq_true, if_false, if_neg (Nat.not_lt.mpr hlost)]
  rw [reg_logs _ _ _ (by simp only [R.HBM_STACK_STATE]; omega),
    State.reg_setField_of_ne _ _ _ _ (by simp only [R.HBM_STACK_STATE, R.PWR_DOMAIN_STATE]; omega),
    State.reg_setReg_of_ne _ _ (by simp only [R.HBM_STACK_STATE, R.HBM_CHAN_STATE]; omega), State.reg_setReg_self]
  simp only [bitAt, BitVec.getLsbD_ofNat, Nat.testBit_zero, Bool.and_eq_true, decide_eq_true_eq]
  omega

theorem reg_stackOff_of_ne {j k : Nat} (hj : j < 6) (h : j ≠ k) : (s.stackOff k).reg (R.HBM_STACK_STATE j) = s.reg (R.HBM_STACK_STATE j) := by
  unfold State.stackOff
  rw [State.reg_setField_of_ne _ _ _ _ (by simp only [R.HBM_STACK_STATE, R.PWR_DOMAIN_STATE]; omega),
    State.reg_setReg_of_ne _ _ (by simp only [R.HBM_STACK_STATE, R.HBM_CHAN_STATE]; omega),
    State.reg_setReg_of_ne _ _ (by simp only [R.HBM_STACK_STATE]; omega)]

/-- Training one stack leaves the state of another. -/
theorem reg_trainStack_of_ne {j k : Nat} (hj : j < 6) (h : j ≠ k) (t : StackTrain) :
    (s.trainStack k t).reg (R.HBM_STACK_STATE j) = s.reg (R.HBM_STACK_STATE j) := by
  have hlow : R.HBM_STACK_STATE j < 0xA00000 := by simp only [R.HBM_STACK_STATE]; omega
  unfold State.trainStack
  simp only
  split
  · rw [reg_stackOff_of_ne hj h]
    rfl
  · split
    · rw [State.reg_log _ _ _ _ _ _ _ _ _ (.inl hlow), reg_stackOff_of_ne hj h]
      rfl
    · rw [reg_logs _ _ _ hlow, State.reg_setField_of_ne _ _ _ _ (by simp only [R.HBM_STACK_STATE, R.PWR_DOMAIN_STATE]; omega),
        State.reg_setReg_of_ne _ _ (by simp only [R.HBM_STACK_STATE, R.HBM_CHAN_STATE]; omega),
        State.reg_setReg_of_ne _ _ (by simp only [R.HBM_STACK_STATE]; omega)]
      rfl

/-- Training a port touches its own state, its domain and the Ledger. -/
theorem reg_trainPort_of_lt {p o : Nat} (t : PortTrain) (h : o < R.ILN_PORT_STATE 0) : (s.trainPort p t).reg o = s.reg o := by
  simp only [R.ILN_PORT_STATE] at h
  have hdomain : o ≠ R.PWR_DOMAIN_STATE (portDomain p) := by simp only [R.PWR_DOMAIN_STATE]; omega
  have hport : o ≠ R.ILN_PORT_STATE p := by simp only [R.ILN_PORT_STATE]; omega
  unfold State.trainPort
  split
  · exact (State.reg_setField_of_ne _ _ _ _ hdomain).trans (State.reg_setReg_of_ne _ _ hport)
  · simp only
    split
    · rw [State.reg_log _ _ _ _ _ _ _ _ _ (by omega), State.reg_setField_of_ne _ _ _ _ hdomain, State.reg_setReg_of_ne _ _ hport]
    · rw [State.reg_setField_of_ne _ _ _ _ hdomain, State.reg_setReg_of_ne _ _ hport]

/-- Far windows are listed one after another: l ports fill at most the next l of them (R332). -/
theorem reg_farWindows (bytes : Nat → Nat) {o : Nat} (l : List Nat) (st : State × Nat × Nat)
    (h : o < R.KPR_FAR_MAP 0 ∨ R.KPR_FAR_MAP (st.2.2 + l.length) ≤ o) :
    (l.foldl (fun st p => State.farWindow st p (bytes p)) st).1.reg o = st.1.reg o := by
  simp only [R.KPR_FAR_MAP] at h
  induction l generalizing st with
  | nil => rfl
  | cons p l ih =>
    simp only [List.length_cons] at h
    have hone : (State.farWindow st p (bytes p)).1.reg o = st.1.reg o ∧ (State.farWindow st p (bytes p)).2.2 ≤ st.2.2 + 1 := by
      unfold State.farWindow
      simp only
      split
      · exact ⟨State.reg_setReg_of_ne _ _ (by simp only [R.KPR_FAR_MAP]; omega), Nat.le_refl _⟩
      · exact ⟨rfl, Nat.le_succ _⟩
    rw [List.foldl_cons, ih _ (by omega), hone.1]

theorem reg_farTier_of_ne (ports : List PortTrain) {o : Nat} (h : o < R.KPR_FAR_MAP 0 ∨ R.KPR_FAR_MAP 4 ≤ o) :
    (s.farTier ports).reg o = s.reg o := by
  have hfold := reg_farWindows (o := o) (fun p => (ports.map (·.farBytes)).getD p 0) (List.range 4) (s, 0, 0)
    (by simpa only [List.length_range, Nat.zero_add] using h)
  unfold State.farTier
  exact hfold

/-- Stacks, ports and the far tier have trained. -/
def State.trainLinks (s : State) (stks : List StackTrain) (ports : List PortTrain) : State :=
  let s := (List.range 6).foldl (fun s k => s.trainStack k (stks.getD k noStack)) s
  let s := (List.range 4).foldl (fun s p => if s.portUp p then s else s.trainPort p (ports.getD p noPort)) s
  s.farTier ports

/-- The stacks that are up, as CFG_BOOT_STATUS shows them. -/
def State.stacksUp (s : State) : Nat := listSum (((List.range 6).filter s.stackUp).map (fun k => 2 ^ k))

/-- CFG_BOOT_STATUS and CFG_BOOT_BULK_BASE after training. -/
def State.showTrained (s : State) : State :=
  let pup := listSum (((List.range 4).filter s.portUp).map (fun p => 2 ^ p))
  let s := (s.setField R.CFG_BOOT_STATUS 32 6 s.stacksUp).setField R.CFG_BOOT_STATUS 38 4 pup
  s.setReg R.CFG_BOOT_BULK_BASE (BitVec.ofNat 64 s.fwBase)

theorem trainPhase_of_ready {stks : List StackTrain} {ports : List PortTrain} (hlife : s.pins.life = .boot) (hphase : s.bootPhase = 5)
    (htrained : s.boot.trained = false) : s.trainPhase stks ports =
      let u := (s.trainLinks stks ports).showTrained
      if (s.trainLinks stks ports).stacksUp = 0 then u.bootFail 7 else { u with boot := { u.boot with trained := true } }.afterTest := by
  unfold State.trainPhase State.showTrained State.trainLinks State.stacksUp
  rw [if_neg (by simp [hlife, hphase, htrained])]

theorem stacksUp_ne_zero {k : Nat} (hk : k < 6) (h : s.stackUp k = true) : s.stacksUp ≠ 0 := by
  have hmem : 2 ^ k ∈ ((List.range 6).filter s.stackUp).map (fun k => 2 ^ k) :=
    List.mem_map_of_mem (List.mem_filter.mpr ⟨List.mem_range.mpr hk, h⟩)
  intro hzero
  rw [State.stacksUp, listSum, ← List.sum_eq_foldl] at hzero
  exact Nat.ne_of_gt (Nat.two_pow_pos k) (List.sum_eq_zero_iff_forall_eq_nat.mp hzero _ hmem)

/-- Stack 0 is up after training where it trains on enough channels: no other stack, port or window touches its state. -/
theorem stackUp_trainLinks {stks : List StackTrain} {ports : List PortTrain} (hpresent : (stks.getD 0 noStack).present = true)
    (hlost : popCount 32 ((stks.getD 0 noStack).failed ||| (s.reg (R.HBM_MAPOUT_FORCE 0)).setWidth 32).toNat ≤ 8) :
    (s.trainLinks stks ports).stackUp 0 = true := by
  have hreg : (s.trainLinks stks ports).reg (R.HBM_STACK_STATE 0) = (s.trainStack 0 (stks.getD 0 noStack)).reg (R.HBM_STACK_STATE 0) := by
    unfold State.trainLinks
    rw [reg_farTier_of_ne _ (.inr (by decide)), reg_foldl, List.range_eq_range', List.range'_succ, List.foldl_cons, reg_foldl]
    · intro u k hk
      exact reg_trainStack_of_ne (by decide) (by simp only [List.mem_range'_1] at hk; omega) _
    · intro u p _
      split
      · rfl
      · exact reg_trainPort_of_lt _ (by decide)
  exact (State.regBit_of_reg _ hreg 0).trans (stackUp_trainStack (by decide) hpresent hlost)

theorem trainLinks_eff (stks : List StackTrain) (ports : List PortTrain) :
    Eff (fun c => decide (c ∈ [Comp.rf, .kpr, .ldg])) s (s.trainLinks stks ports) :=
  State.farTier_eff (.foldl (.foldl (.refl _ s) fun _ _ h => State.trainStack_eff h rfl rfl rfl _ _)
    fun _ _ h => .ite h (State.trainPort_eff h rfl rfl _ _)) rfl ports

theorem showTrained_eff {F : Comp → Bool} {s0 : State} (h : Eff F s0 s) (hrf : F .rf = true) : Eff F s0 s.showTrained :=
  State.setReg_eff (State.setField_eff (State.setField_eff h hrf _ _ _ _) hrf _ _ _ _) hrf _ _

theorem stackUp_showTrained (k : Nat) : s.showTrained.stackUp k = s.stackUp k := by
  refine State.regBit_of_reg s ?_ 0
  unfold State.showTrained
  simp only
  rw [State.reg_setReg_of_ne _ _ (by simp only [R.HBM_STACK_STATE, R.CFG_BOOT_BULK_BASE]; omega),
    State.reg_setField_of_ne _ _ _ _ (by simp only [R.HBM_STACK_STATE, R.CFG_BOOT_STATUS]; omega),
    State.reg_setField_of_ne _ _ _ _ (by simp only [R.HBM_STACK_STATE, R.CFG_BOOT_STATUS]; omega)]

theorem goesTo_train {stks : List StackTrain} {ports : List PortTrain} (hlife : s.pins.life = .boot) (hphase : s.bootPhase = 5)
    (htrained : s.boot.trained = false) (hpresent : (stks.getD 0 noStack).present = true)
    (hlost : popCount 32 ((stks.getD 0 noStack).failed ||| (s.reg (R.HBM_MAPOUT_FORCE 0)).setWidth 32).toNat ≤ 8) :
    GoesTo (exec (.train stks ports) s) (fun t => t.boot.trained = true ∧ t.stackUp 0 = true ∧ t.pins = s.pins ∧ t.mem = s.mem) := by
  have hup := stackUp_trainLinks (ports := ports) hpresent hlost
  refine ⟨s.trainPhase stks ports, rfl, ?_⟩
  rw [trainPhase_of_ready hlife hphase htrained]
  simp only [if_neg (stacksUp_ne_zero (by decide) hup)]
  obtain ⟨-, hframe⟩ := (showTrained_eff (trainLinks_eff (s := s) stks ports) rfl).onlyIn
  generalize hu : (s.trainLinks stks ports).showTrained = u at hframe ⊢
  obtain ⟨-, hafter⟩ := afterTest_onlyIn { u with boot := { u.boot with trained := true } }
  have hup' : u.stackUp 0 = true := by rw [← hu, stackUp_showTrained, hup]
  refine ⟨congrArg Boot.trained (hafter .boot (by decide)), ?_, (hafter .pins (by decide)).trans (hframe .pins (by decide)),
    (hafter .mem (by decide)).trans (hframe .mem (by decide))⟩
  exact (State.regBit_of_reg _ (reg_afterTest_of_ne (by decide)) 0).trans hup'

/-- Self-test ends with the shelf stores and folio memories clear (R93). -/
theorem selftestPhase_of_ready (failed : List (Nat × Word)) (hlife : s.pins.life = .boot) (hphase : s.bootPhase = 5 ∨ s.bootPhase = 6)
    (htested : s.boot.tested = false) : ∃ u : State, s.selftestPhase failed =
      { u with mem := Memory.clear u.mem storeBase (2 ^ 64), boot := { u.boot with tested := true } }.afterTest := by
  unfold State.selftestPhase
  rw [if_neg (by rcases hphase with h | h <;> simp [hlife, h, htested])]
  exact ⟨_, rfl⟩

theorem selftestPhase_pins (failed : List (Nat × Word)) : (s.selftestPhase failed).pins = s.pins :=
  (State.selftestPhase_eff (F := fun c => decide (c ≠ .pins)) (.refl _ s) rfl rfl rfl rfl rfl rfl rfl rfl rfl rfl rfl rfl rfl rfl rfl rfl
    failed).same .pins rfl

theorem goesTo_selftest (failed : List (Nat × Word)) (hlife : s.pins.life = .boot) (hphase : s.bootPhase = 5 ∨ s.bootPhase = 6)
    (htested : s.boot.tested = false) : GoesTo (exec (.selftest failed) s) (fun t => t.boot.tested = true ∧ t.pins = s.pins
      ∧ (∀ a, storeBase ≤ a → a < storeBase + 2 ^ 64 → Memory.read t.mem a = 0)) := by
  obtain ⟨u, hu⟩ := selftestPhase_of_ready failed hlife hphase htested
  obtain ⟨-, hafter⟩ := afterTest_onlyIn { u with mem := Memory.clear u.mem storeBase (2 ^ 64), boot := { u.boot with tested := true } }
  refine ⟨s.selftestPhase failed, rfl, ?_, selftestPhase_pins failed, fun a hlo hhi => ?_⟩
  · rw [hu]
    exact congrArg Boot.tested (hafter .boot (by decide))
  · rw [hu]
    exact (congrArg (Memory.read · a) (hafter .mem (by decide))).trans ((Memory.read_clear ..).trans (if_pos ⟨hlo, hhi⟩))

/-! ## Phase 0x7: the bulk part (R88) -/

/-- The state in which the bulk part, read from the flash, lies in the firmware region. -/
def State.bulkWritten (s : State) (part : List Byte) : State :=
  { s.readBulk with mem := Memory.writeN s.mem s.fwBase (part.take (hdrBlen s.boot.header)) }

theorem bulkPhase_of_match {part : List Byte} (hlife : s.pins.life = .boot) (hphase : s.bootPhase = 7) (hspi : s.port0Boot = false)
    (hlen : hdrBlen s.boot.header ≤ part.length)
    (hcrc : crc32c (part.take (hdrBlen s.boot.header)) = hdrBcrc s.boot.header) :
    s.bulkPhase part = { s.bulkWritten part with boot := { (s.bulkWritten part).boot with go := false } }.setPhase 8 := by
  have hread : Memory.readN (s.bulkWritten part).mem (s.bulkWritten part).fwBase (hdrBlen s.boot.header)
      = part.take (hdrBlen s.boot.header) := readN_writeN_take s.mem s.fwBase hlen
  unfold State.bulkPhase
  simp only
  rw [if_neg (by simp [hlife, hphase, hspi])]
  simp only [hspi, Bool.false_eq_true, if_false]
  exact if_pos ⟨(congrArg crc32c hread).trans hcrc, .inr hlen⟩

theorem goesTo_bulk {part : List Byte} (hlife : s.pins.life = .boot) (hphase : s.bootPhase = 7) (hspi : s.port0Boot = false)
    (hlen : hdrBlen s.boot.header ≤ part.length)
    (hcrc : crc32c (part.take (hdrBlen s.boot.header)) = hdrBcrc s.boot.header) : GoesTo (exec (.bulk part) s) (fun t =>
      t.bootPhase = 8 ∧ Memory.readN t.mem s.fwBase (hdrBlen s.boot.header) = part.take (hdrBlen s.boot.header)
      ∧ OtherBytes s.fwBase (hdrBlen s.boot.header) s t ∧ OnlyIn [.rf, .mem, .boot] s t) := by
  have hwritten : Eff (fun c => decide (c ∈ [Comp.rf, .mem, .boot])) s (s.bulkWritten part) :=
    .set_mem (State.readBulk_eff (.refl _ s) rfl) rfl (Memory.wf_writeN _ _)
  refine ⟨s.bulkPhase part, rfl, ?_⟩
  rw [bulkPhase_of_match hlife hphase hspi hlen hcrc]
  refine ⟨bootPhase_setPhase _ (by decide), readN_writeN_take s.mem s.fwBase hlen, fun x hx => ?_,
    (State.setPhase_eff (hwritten.set_boot rfl) rfl 8).onlyIn⟩
  exact Memory.read_writeN_of_out _ s.mem (by rwa [List.length_take_of_le hlen])

/-! ## Phase 0x8: the entry to service (R106) -/

/-- The default state as CONFIGURE leaves it (R106, Table 3-11), the phase and CFG_STATUS saying so. -/
def State.defaultState (s : State) : State :=
  let s := s.setReg R.LDG_LOG_BASE (BitVec.ofNat 64 (s.fwBase + 0x7800000))
  let s := s.setReg R.LDG_LOG_CTL 0x1F
  let s := if s.item 0xE 1 = 1 && !s.ldg.oos then s.defaultCarrel else s
  (s.setPhase 9).setRegBit R.CFG_STATUS 3 true

/-- The same in the service life. -/
def State.inServiceLife (s : State) : State :=
  { s.defaultState with pins := { s.defaultState.pins with life := .service, sbLive := true } }

theorem defaultState_onlyIn (s : State) : OnlyIn [.rf, .cir, .shelves, .kpr] s s.defaultState := by
  have hlog : Eff (fun c => decide (c ∈ [Comp.rf, .cir, .shelves, .kpr])) s _ :=
    State.setReg_eff (State.setReg_eff (.refl _ s) rfl R.LDG_LOG_BASE (BitVec.ofNat 64 (s.fwBase + 0x7800000))) rfl R.LDG_LOG_CTL 0x1F
  exact (State.setRegBit_eff (State.setPhase_eff (Eff.ite (State.defaultCarrel_eff hlog rfl rfl rfl rfl) hlog) rfl 9) rfl _ _ _).onlyIn

theorem configure_of_ready (hlife : s.pins.life = .boot) (hphase : s.bootPhase = 8) : s.configure =
    { s.inServiceLife.serviceRecords with
      boot := { s.inServiceLife.serviceRecords.boot with cause := none, cfgLog := false, calLog := false } } := by
  unfold State.configure
  rw [if_neg (by simp [hlife, hphase])]
  rfl

theorem serviceRecords_onlyIn (s : State) : OnlyIn [.rf, .ldg] s s.serviceRecords :=
  (State.serviceRecords_eff (.refl _ s) rfl rfl).onlyIn

theorem configure_pins (hlife : s.pins.life = .boot) (hphase : s.bootPhase = 8) :
    s.configure.pins = { s.pins with life := .service, sbLive := true } := by
  rw [configure_of_ready hlife hphase]
  exact ((serviceRecords_onlyIn _).2 .pins (by decide)).trans
    (congrArg (fun p : Pins => { p with life := .service, sbLive := true }) ((defaultState_onlyIn s).2 .pins (by decide)))

theorem configure_mem : s.configure.mem = s.mem :=
  (State.configure_eff (F := fun c => decide (c ≠ .mem)) (.refl _ s) rfl rfl rfl rfl rfl rfl rfl).same .mem rfl

/-! ## The records due at the entry to service (R96) -/

/-- A message that waits at a source goes on waiting while others are sent. -/
theorem mem_waiting_send {x : LMsg} {src : Nat} (m : LMsg) (h : x ∈ Tab.getD s.ldg.waiting src []) :
    x ∈ Tab.getD (s.send m).ldg.waiting src [] := by
  unfold State.send
  simp only
  split
  · by_cases hsrc : src = m.source.toNat
    · subst hsrc
      rw [Tab.getD_put_self]
      exact List.mem_append_left _ h
    · rwa [Tab.getD_put_of_ne _ _ _ _ hsrc]
  · split <;> exact h

/-- A message sent to a source where fewer than four wait joins them (R413). -/
theorem mem_waiting_send_self {m : LMsg} (h : (Tab.getD s.ldg.waiting m.source.toNat []).length < 4) :
    m ∈ Tab.getD (s.send m).ldg.waiting m.source.toNat [] := by
  unfold State.send
  simp [h]

/-- The message of source 0 that the configuration section failed (R96). -/
abbrev isCfgDefaulted (m : LMsg) : Prop := m.source = 0 ∧ m.kind = 3 ∧ m.code = 0x1011

theorem log_cfgDefaulted_waits (h : Tab.getD s.ldg.waiting 0 [] = []) :
    ∃ m ∈ Tab.getD (s.log 0 K.cfgDefaulted).ldg.waiting 0 [], isCfgDefaulted m := by
  refine ⟨_, mem_waiting_send_self ?_, rfl, rfl, rfl⟩
  show (Tab.getD s.ldg.waiting 0 []).length < 4
  simp [h]

theorem serviceRecords_cfgDefaulted (hlog : s.boot.cfgLog = true) (h : Tab.getD s.ldg.waiting 0 [] = []) :
    ∃ m ∈ Tab.getD s.serviceRecords.ldg.waiting 0 [], isCfgDefaulted m := by
  obtain ⟨m, hm, his⟩ := log_cfgDefaulted_waits h
  refine ⟨m, ?_, his⟩
  have hif {u : State} {b : Bool} {k : Kind} (hu : m ∈ Tab.getD u.ldg.waiting 0 []) :
      m ∈ Tab.getD (if b then u.log 0 k else u).ldg.waiting 0 [] := by
    split
    · exact mem_waiting_send _ hu
    · exact hu
  unfold State.serviceRecords
  simp only [hlog, if_true]
  refine hif ?_
  split
  · exact mem_waiting_send _ (hif hm)
  · exact hif hm

theorem goesTo_configure_cfgDefaulted (hlife : s.pins.life = .boot) (hphase : s.bootPhase = 8) (hlog : s.boot.cfgLog = true)
    (h : Tab.getD s.ldg.waiting 0 [] = []) : GoesTo (exec .configure s) (fun t => t.inService = true
      ∧ ∃ m ∈ Tab.getD t.ldg.waiting 0 [], isCfgDefaulted m) := by
  have hboot : s.inServiceLife.boot = s.boot := (defaultState_onlyIn s).2 .boot (by decide)
  have hldg : s.inServiceLife.ldg = s.ldg := (defaultState_onlyIn s).2 .ldg (by decide)
  refine ⟨s.configure, rfl, ?_, ?_⟩
  · simp [State.inService, configure_pins hlife hphase]
  · rw [configure_of_ready hlife hphase]
    exact serviceRecords_cfgDefaulted (by rw [hboot, hlog]) (by rw [hldg, h])

end Boot

/-- Settles O9: each phase is read off the state it leaves, its registers through those that follow. -/
theorem bootReachesService : Obligations.BootReachesService := by
  unfold Obligations.BootReachesService
  refine ⟨⟨?store, ?header, ?resident, ?go⟩, ⟨?train, ?selftest, ?bulk, ?configure⟩, ?defaults, ?recorded⟩
  case store =>
    intro s hlife hphase hidle hclk
    obtain ⟨t, hexec, hnext, hrun, hitems, hstatus, -, -, hframe⟩ := goesTo_store hlife hphase hidle hclk
    exact ⟨t, hexec, hnext, hrun, hitems, hstatus, hframe⟩
  case header => exact fun s h hlife hphase hspi hvalid => goesTo_header hlife hphase hspi hvalid
  case resident => exact fun s r hlife hphase hspi hslot hok => goesTo_resident hlife hphase hspi hslot hok
  case go => exact fun s v hlife hport hgo => exec_cfgBootGo hlife hport hgo
  case train => exact fun s stks ports hlife hphase ht hpresent hlost => goesTo_train hlife hphase ht hpresent hlost
  case selftest => exact fun s failed hlife hphase ht => goesTo_selftest failed hlife hphase ht
  case bulk => exact fun s part hlife hphase hspi hlen hcrc => goesTo_bulk hlife hphase hspi hlen hcrc
  case configure =>
    exact fun s hlife hphase => ⟨s.configure, rfl, configure_pins hlife hphase, by rw [configure_of_ready hlife hphase], configure_mem⟩
  case defaults =>
    intro s hlife hphase hidle hclk cfg hcheck
    obtain ⟨t, hexec, -, -, hitems, hstatus, hcfg, hlog, -⟩ := goesTo_store hlife hphase hidle hclk
    have hfails : s.cfgPasses = false := cfgPasses_of_check_ne hcheck
    rw [hfails] at hitems hstatus hlog
    exact ⟨t, hexec, hitems, hstatus, hcfg, hlog⟩
  case recorded => exact fun s hlife hphase hlog h => goesTo_configure_cfgDefaulted hlife hphase hlog h

end Sys2Proof.Machine

/-! Proof of O11: the Stamp unit's part of a stamp (R108, R111, R117, R120, R138), what the other parts leave of local memory where no shelf
holds posted traffic back (R265) and of the carrel manager's state (R401), and PHASE (R109). -/

namespace Sys2Proof.Machine

/-! ## Posted traffic held back (R265) -/

section PostedTraffic
variable {s t u : State} {sh : Nat}

/-- Where no shelf of s holds posted traffic back, none of t does, and local memory is the same. -/
structure HeldKept (s t : State) : Prop where
  held : s.noneHeld → t.noneHeld
  mem : s.noneHeld → t.mem = s.mem

/-- Every component but local memory and the shelves. -/
def offShelves (c : Comp) : Bool := c != .mem && c != .shelves

theorem HeldKept.refl (s : State) : HeldKept s s := ⟨id, fun _ => rfl⟩

theorem HeldKept.trans (h : HeldKept s u) (h' : HeldKept u t) : HeldKept s t :=
  ⟨fun hn => h'.held (h.held hn), fun hn => (h'.mem (h.held hn)).trans (h.mem hn)⟩

theorem HeldKept.of_eff (h : Eff offShelves s t) : HeldKept s t := by
  have hshelves : t.shelves = s.shelves := h.same .shelves rfl
  exact ⟨fun hn => by rw [State.noneHeld, hshelves]; exact hn, fun _ => h.same .mem rfl⟩

theorem HeldKept.ite {c : Prop} [Decidable c] (ht : HeldKept s t) (hu : HeldKept s u) : HeldKept s (if c then t else u) := by
  split <;> assumption

theorem HeldKept.foldl {α : Type} {f : State → α → State} {l : List α} (hf : ∀ u a, HeldKept u (f u a)) :
    HeldKept s (l.foldl f s) := by
  induction l generalizing s with
  | nil => exact .refl s
  | cons a l ih => exact (hf s a).trans ih

theorem Tab.mem_of_find? {α : Type} {l : Tab α} {n : Nat} {x : α} (h : Tab.find? l n = some x) : (n, x) ∈ l := by
  induction l with
  | nil => cases h
  | cons p l ih =>
    obtain ⟨k, v⟩ := p
    rw [Tab.find?] at h
    split at h
    case isTrue hk => cases h; exact hk ▸ List.mem_cons_self ..
    case isFalse => exact List.mem_cons_of_mem _ (ih h)

theorem posted_of_noneHeld (h : s.noneHeld) (sh : Nat) : (s.shelf sh).posted = [] := by
  unfold State.shelf Tab.getD
  cases hf : Tab.find? s.shelves sh with
  | none => rfl
  | some x => exact h _ (Tab.mem_of_find? hf)

/-- A shelf written holds nothing back that it did not. -/
theorem HeldKept.setShelf {x : Shelf} (hx : (s.shelf sh).posted = [] → x.posted = []) : HeldKept s (s.setShelf sh x) := by
  refine ⟨fun hn p hp => ?_, fun _ => rfl⟩
  unfold State.setShelf Tab.put at hp
  split at hp
  · exact hn p (List.mem_filter.1 hp).1
  · rcases Tab.mem_insert hp with rfl | hp
    · exact hx (posted_of_noneHeld hn sh)
    · exact hn p hp

/-! ## Shelves that change their list of passes -/

theorem modRun_heldKept (s : State) (sh : Nat) (f : Running → Running) : HeldKept s (s.modRun sh f) := by
  unfold State.modRun
  split
  · exact .setShelf id
  · exact .refl s

theorem modEntry_posted (x : Shelf) (p : PassEntry → Bool) (f : PassEntry → PassEntry) : (x.modEntry p f).posted = x.posted := by
  unfold Shelf.modEntry
  split <;> rfl

theorem takeFrame_posted (x : Shelf) : x.takeFrame.posted = x.posted := by
  unfold Shelf.takeFrame
  split
  · rfl
  · split
    · rfl
    · split
      · exact modEntry_posted ..
      · rfl

theorem tryLeave_heldKept (s : State) (sh : Nat) : HeldKept s (s.tryLeave sh) := by
  unfold State.tryLeave
  extract_lets x s1
  have h1 : HeldKept s s1 := .setShelf fun _ => rfl
  exact .ite (.ite h1 (h1.trans (.of_eff (State.orReg_eff (.refl _ s1) rfl _ _)))) (.refl s)

theorem shelfNext_heldKept (s : State) (sh : Nat) : HeldKept s (s.shelfNext sh) := by
  have htake : HeldKept s (s.setShelf sh (s.shelf sh).takeFrame) := .setShelf fun h => (takeFrame_posted _).trans h
  exact htake.trans (tryLeave_heldKept _ sh)

theorem setLoan_posted (x : Shelf) (f : Nat) (l : Option Loan) : (x.setLoan f l).posted = x.posted := by
  unfold Shelf.setLoan
  split <;> rfl

theorem loanReturn_heldKept (s : State) (sh carrel tag f gen who : Nat) : HeldKept s (s.loanReturn sh carrel tag f gen who) := by
  have hrefused (k : Kind) (ev : Word) : HeldKept s (s.returnRefused sh carrel tag f gen who k ev) :=
    .of_eff (State.returnRefused_eff (.refl _ s) rfl rfl rfl ..)
  unfold State.loanReturn
  extract_lets x
  split
  · exact hrefused ..
  · exact hrefused ..
  · exact .setShelf fun h => (setLoan_posted ..).trans h

theorem entryReturn_heldKept (s : State) (sh : Nat) (e : PassEntry) (who : Nat) : HeldKept s (s.entryReturn sh e who) := by
  unfold State.entryReturn
  split
  · exact .refl s
  · exact .ite (.refl s) (loanReturn_heldKept ..)

theorem dropEarly_of_posted_nil (h : (s.shelf sh).posted = []) (f : TallySig → Bool) : s.dropEarly sh f =
    s.setShelf sh { s.shelf sh with early := (s.shelf sh).early.filter (fun g => !f g), posted := [] } := by
  rw [State.dropEarly, h, List.foldl_nil]

theorem dropEarly_heldKept (s : State) (sh : Nat) (f : TallySig → Bool) : HeldKept s (s.dropEarly sh f) := by
  refine ⟨fun hn => ?_, fun hn => ?_⟩
  · rw [dropEarly_of_posted_nil (posted_of_noneHeld hn sh)]
    exact (HeldKept.setShelf fun _ => rfl).held hn
  · rw [dropEarly_of_posted_nil (posted_of_noneHeld hn sh), State.setShelf_mem]

/-! ## Passes that end at the stamp: overruns (R134) and abandoned slips (R187) -/

theorem carryQueue_heldKept (s : State) (sh : Nat) (log : Bool) : HeldKept s (s.carryQueue sh log) := by
  unfold State.carryQueue
  extract_lets x s1
  have h1 : HeldKept s s1 := .setShelf id
  refine h1.trans (.foldl fun u e => ?_)
  have hmark : HeldKept u (u.modSlip e.slip (fun y => { y with cnt := { y.cnt with deferred := true } })) :=
    .of_eff (State.modSlip_eff (.refl _ u) rfl _ _)
  exact hmark.trans (.ite (.of_eff (State.log_eff (.refl _ _) rfl rfl ..)) (.refl _))

theorem overrun_heldKept (s : State) (sh : Nat) : HeldKept s (s.overrun sh) := by
  unfold State.overrun
  split
  case h_1 => exact .refl s
  case h_2 r _ =>
    refine .ite (.refl s) ?_
    extract_lets s1 s2 s3
    have h1 : HeldKept s s1 := modRun_heldKept ..
    have h2 : HeldKept s1 s2 := .of_eff (State.log_eff (.refl _ _) rfl rfl ..)
    have h3 : HeldKept s2 s3 := .of_eff (State.modSlip_eff (.refl _ _) rfl _ _)
    have h4 : HeldKept s3 (s3.carryQueue sh false) := carryQueue_heldKept ..
    exact (((h1.trans h2).trans h3).trans h4).trans (.setShelf id)

theorem dropReqs_heldKept (s : State) (who : Nat) (e : PassEntry) (r : Option Running) :
    HeldKept s (if who = 2 then s else s.dropReqs e r) :=
  .ite (.refl s) (.of_eff (State.dropReqs_eff (.refl _ s) rfl e r))

theorem discardOn_heldKept (s : State) (sh id who : Nat) : HeldKept s (s.discardOn sh id who) := by
  unfold State.discardOn
  extract_lets x mine stopped unlisted unended y filtered dropped
  have hrun : HeldKept s stopped := by
    unfold stopped
    split
    case h_1 r _ =>
      refine .ite ?_ (.refl s)
      extract_lets noted quit returned
      have hnoted : HeldKept s noted := (HeldKept.of_eff (State.sendNotes_eff (.refl _ s) rfl rfl sh)).trans
        (.of_eff (State.countCc_eff (.refl _ _) rfl r))
      have hquit : HeldKept noted quit := dropReqs_heldKept ..
      have hreturned : HeldKept quit returned := entryReturn_heldKept ..
      have hstop : HeldKept returned (returned.setShelf sh { returned.shelf sh with run := none }) := .setShelf fun h => h
      exact (((hnoted.trans hquit).trans hreturned).trans hstop).trans (.of_eff (State.quietFrom_eff (.refl _ _) rfl sh))
    case h_2 => exact .refl s
  have hlist : HeldKept stopped unlisted :=
    .foldl fun u e => .ite ((dropReqs_heldKept ..).trans (entryReturn_heldKept ..)) (.refl u)
  have hended : HeldKept unlisted unended := by
    unfold unended
    split
    · exact (entryReturn_heldKept ..).trans (.setShelf fun h => h)
    · exact .refl _
  have hfilter : HeldKept unended filtered := .setShelf fun h => h
  have hearly : HeldKept filtered dropped := by
    unfold dropped
    split
    · exact dropEarly_heldKept ..
    · exact .refl _
  have hall : HeldKept s dropped := (((hrun.trans hlist).trans hended).trans hfilter).trans hearly
  exact (hall.trans (.of_eff (Eff.set_cir (.refl _ _) rfl))).trans (shelfNext_heldKept ..)

theorem stopSlip_heldKept (s : State) (id who : Nat) : HeldKept s (s.stopSlip id who) := by
  unfold State.stopSlip
  extract_lets s1 ids s2
  have h1 : HeldKept s s1 := .foldl fun u p => discardOn_heldKept u p.1 id who
  have h2 : HeldKept s1 s2 := .ite (.refl _) (.of_eff (State.modIln_eff (.refl _ _) rfl _))
  exact (h1.trans h2).trans (.of_eff (State.modKpr_eff (.refl _ _) rfl _))

theorem abandon_heldKept (s : State) (id : Nat) (x : Slip) : HeldKept s (s.abandon id x) := by
  have hcapture : HeldKept s (s.captureStall x) := .of_eff (State.captureStall_eff (.refl _ s) rfl rfl rfl x)
  unfold State.abandon
  split
  · exact .ite (.refl s) (hcapture.trans (.of_eff (State.modSlip_eff (.refl _ _) rfl _ _)))
  · have hstop := hcapture.trans (stopSlip_heldKept _ id 1)
    have hfinish := hstop.trans (.of_eff (State.finish_eff (.refl _ _) rfl rfl rfl rfl rfl rfl rfl rfl rfl id 0x8001))
    exact hfinish.trans (.of_eff (State.goneSettle_eff (.refl _ _) rfl))

theorem noProgress_heldKept (s : State) (id : Nat) (x : Slip) : HeldKept s (s.noProgress id x) := by
  unfold State.noProgress
  extract_lets s1 s2 s3
  have h1 : Eff offShelves s s1 := State.modSlip_eff (.refl _ s) rfl _ _
  have h2 : Eff offShelves s s2 := .ite h1 (State.bell_eff h1 rfl _ _)
  have h3 : Eff offShelves s s3 :=
    .ite h1 (State.modSlip_eff (State.log_eff (State.setRegBit_eff h2 rfl ..) rfl rfl ..) rfl _ _)
  exact .ite ((HeldKept.of_eff h3).trans (abandon_heldKept ..)) (.of_eff h3)

theorem stampDue_heldKept (s : State) : HeldKept s s.stampDue := by
  have hover (u : State) (end_ : Nat) : HeldKept u (u.overrunsAt end_) := .foldl fun v p => overrun_heldKept v p.1
  have hnone (u : State) : HeldKept u u.noProgressDue := .foldl fun v p => by
    split
    · exact noProgress_heldKept ..
    · exact .refl v
  exact (hover ..).trans (hnone _)

end PostedTraffic

/-! ## The Stamp unit's part -/

section StampClock
variable {s : State}

/-- The inputs change the count of misses and the frame's bits alone (R117). -/
theorem stampInputs_stp (s : State) : ∃ misses bits, s.stampInputs.stp = { s.stp with misses := misses, bits := bits } := by
  unfold State.stampInputs
  split
  · exact ⟨_, _, rfl⟩
  · extract_lets p _ u
    have hu : ∃ misses bits, u.stp = { p with misses := misses, bits := bits } := by
      unfold u
      split <;> exact ⟨_, _, rfl⟩
    split
    · extract_lets v
      split <;> exact hu
    · exact hu

/-- What a stamp makes of a follower's state (Table 4-3): it stays, HOLDOVER begins, or frames align it (R120). -/
theorem stampState_stp (s : State) (b : Bool) (detail : Nat) :
    (s.stampState b detail).stp = s.stp
    ∨ (s.stp.state ≠ 0 ∧ (s.stampState b detail).stp = s.stp.toHoldover)
    ∨ (s.stp.state = 2 ∧ ∃ n, (s.stampState b detail).stp =
        { s.stp with state := 3, stamp := BitVec.ofNat 48 n, bits := [], misses := 0, periods := 0 }) := by
  unfold State.stampState
  extract_lets p
  split
  · exact .inl rfl
  · next h0 =>
    split
    · exact .inr (.inl ⟨h0, rfl⟩)
    · split
      · exact .inr (.inl ⟨h0, rfl⟩)
      · split
        · exact .inr (.inl ⟨h0, rfl⟩)
        · split
          · next h2 =>
            split
            · exact .inr (.inr ⟨h2, _, rfl⟩)
            · exact .inl rfl
          · exact .inl rfl

/-- The change still armed once stamp n has come (R138). -/
def Stp.armedAfter (p : Stp) (n : Nat) : Option (Nat × Nat) := p.armed.filter (fun c => decide (n < c.1))

theorem armedAfter_of_none {p : Stp} {n : Nat} (h : p.armed = none) : p.armedAfter n = none := by
  rw [Stp.armedAfter, h, Option.filter_none]

theorem armedAfter_of_some {p : Stp} {n at_ per : Nat} (h : p.armed = some (at_, per)) :
    p.armedAfter n = if at_ ≤ n then none else some (at_, per) := by
  rw [Stp.armedAfter, h, Option.filter_some]
  by_cases hn : at_ ≤ n
  · rw [if_pos hn, if_neg (by simpa using hn)]
  · rw [if_neg hn, if_pos (by simpa using hn)]

/-- The period that begins takes an armed change whose stamp has come (R138), and new delays and length (R140). -/
theorem stampPeriod_stp (s : State) : ∃ delay offA offB len, s.stampPeriod.stp = { s.stp with
    newPer := none, armed := s.stp.armedAfter s.stp.stamp.toNat, delay := delay, offA := offA, offB := offB, len := len } := by
  unfold State.stampPeriod
  extract_lets n p u v before q w after r
  have hu : u.stp = { p with newPer := none } := by
    unfold u
    split
    · rfl
    · next h => rw [← h]
  have hv : v.stp = { u.stp with armed := u.stp.armedAfter n } := by
    unfold v
    split
    · next at_ per h =>
      rw [armedAfter_of_some h]
      split
      · extract_lets x
        have hx : x.stp = u.stp := by unfold x; split <;> rfl
        exact congrArg (fun y : Stp => { y with armed := none }) hx
      · rw [← h]
    · next h => rw [armedAfter_of_none h, ← h]
  have hq : q = { p with newPer := none, armed := p.armedAfter n } := by
    show v.stp = _
    rw [hv, hu]
    rfl
  refine ⟨w.stp.delay, w.stp.offA, w.stp.offB, w.periodFc + after - before, ?_⟩
  exact congrArg (fun y : Stp => { y with
    delay := w.stp.delay, offA := w.stp.offA, offB := w.stp.offB, len := w.periodFc + after - before }) hq

/-- p counts the period that follows the one in progress in s (R108, R111, R117). -/
structure State.Restarted (s : State) (p : Stp) : Prop where
  t : p.t = 0
  total : p.total = s.stp.total + (s.stampFc - s.stp.t)
  cut : p.cut = false
  newNum : p.newNum = none
  edgeA : p.edgeA = none

/-- p counts the next period under the number due, the state and the armed change being those of s. -/
structure State.Counted (s : State) (p : Stp) : Prop extends s.Restarted p where
  stamp : p.stamp = s.stp.nextStamp
  state : p.state = s.stp.state
  armed : p.armed = s.stp.armed

theorem Stp.nextStamp_eq (p : Stp) : p.nextStamp = p.newNum.elim (p.stamp + 1) (BitVec.ofNat 48) := by
  unfold Stp.nextStamp
  cases p.newNum <;> rfl

theorem State.Restarted.stampState {u : State} (h : s.Restarted u.stp) (b : Bool) (detail : Nat) :
    s.Restarted (u.stampState b detail).stp := by
  rcases stampState_stp u b detail with hp | ⟨-, hp⟩ | ⟨-, n, hp⟩
  all_goals
    rw [hp]
    exact ⟨h.t, h.total, h.cut, h.newNum, h.edgeA⟩

theorem stampState_armed (s : State) (b : Bool) (detail : Nat) : (s.stampState b detail).stp.armed = s.stp.armed := by
  rcases stampState_stp s b detail with hp | ⟨-, hp⟩ | ⟨-, n, hp⟩
  all_goals exact (congrArg Stp.armed hp :)

theorem stampState_stamp (h : s.stp.state ≠ 2) (b : Bool) (detail : Nat) : (s.stampState b detail).stp.stamp = s.stp.stamp := by
  rcases stampState_stp s b detail with hp | ⟨-, hp⟩ | ⟨h2, -⟩
  · exact congrArg Stp.stamp hp
  · exact (congrArg Stp.stamp hp :)
  · exact absurd h2 h

theorem stampState_of_master (h : s.stp.state = 0) (b : Bool) (detail : Nat) : (s.stampState b detail).stp = s.stp := by
  rcases stampState_stp s b detail with hp | ⟨h0, -⟩ | ⟨h2, -⟩
  · exact hp
  · exact absurd h h0
  · exact absurd (h.symm.trans h2) (by decide)

theorem State.Restarted.stampPeriod {u : State} (h : s.Restarted u.stp) : s.Restarted u.stampPeriod.stp := by
  obtain ⟨_, _, _, _, hp⟩ := stampPeriod_stp u
  rw [hp]
  exact ⟨h.t, h.total, h.cut, h.newNum, h.edgeA⟩

theorem stampPeriod_stamp (s : State) : s.stampPeriod.stp.stamp = s.stp.stamp := by
  obtain ⟨_, _, _, _, hp⟩ := stampPeriod_stp s
  rw [hp]

theorem stampPeriod_state (s : State) : s.stampPeriod.stp.state = s.stp.state := by
  obtain ⟨_, _, _, _, hp⟩ := stampPeriod_stp s
  rw [hp]

theorem stampPeriod_armed (s : State) : s.stampPeriod.stp.armed = s.stp.armedAfter s.stp.stamp.toNat := by
  obtain ⟨_, _, _, _, hp⟩ := stampPeriod_stp s
  rw [hp]

/-- A stamp restarts the count; where the Stamp unit runs, the follower's state is then judged, and the next period begins. -/
theorem stampClock_counted (s : State) : ∃ u : State, s.Counted u.stp ∧ s.stampClock =
    if s.stp.running then (u.stampState (s.stp.running && s.agrees == some false) s.splitDetail).stampPeriod
    else { u with stp := { u.stp with len := fcPerUs * u.period } } := by
  unfold State.stampClock
  extract_lets p b detail f short u1 u2 shift q u3 u4
  have h1 : ∃ misses bits, u1.stp = { s.stp with misses := misses, bits := bits } := by
    unfold u1
    split
    · exact stampInputs_stp s
    · exact ⟨_, _, rfl⟩
  obtain ⟨misses, bits, h1⟩ := h1
  have h4 : u4.stp = u3.stp := by
    unfold u4
    split
    · exact State.event_stp ..
    · rfl
  have hu4 : s.Counted u4.stp := by
    rw [h4]
    refine ⟨⟨rfl, ?_, rfl, rfl, rfl⟩, rfl, ?_, ?_⟩
    · show u1.stp.total + _ = _; rw [h1]
    · show u1.stp.state = _; rw [h1]
    · show u1.stp.armed = _; rw [h1]
  by_cases hrun : p.running = true
  · refine ⟨u4.takeCtl, ?_, ?_⟩
    · exact ⟨⟨hu4.t, hu4.total, hu4.cut, hu4.newNum, hu4.edgeA⟩, hu4.stamp, hu4.state, hu4.armed⟩
    · rw [if_pos hrun, if_pos hrun]
  · refine ⟨u4, hu4, ?_⟩
    rw [if_neg hrun, if_neg hrun]

theorem stampClock_restarted (s : State) : s.Restarted s.stampClock.stp := by
  obtain ⟨u, hu, hclock⟩ := stampClock_counted s
  rw [hclock]
  split
  · exact (hu.toRestarted.stampState ..).stampPeriod
  · exact ⟨hu.t, hu.total, hu.cut, hu.newNum, hu.edgeA⟩

theorem stampClock_stamp (h : s.stp.running = false ∨ s.stp.state ≠ 2) : s.stampClock.stp.stamp = s.stp.nextStamp := by
  obtain ⟨u, hu, hclock⟩ := stampClock_counted s
  rw [hclock]
  split
  · next hrun =>
    have hstate : u.stp.state ≠ 2 := hu.state ▸ h.resolve_left (by simp [hrun])
    rw [stampPeriod_stamp, stampState_stamp hstate, hu.stamp]
  · exact hu.stamp

theorem stampClock_armed (hrun : s.stp.running = true) :
    s.stampClock.stp.armed = s.stp.armedAfter s.stampClock.stp.stamp.toNat := by
  obtain ⟨u, hu, hclock⟩ := stampClock_counted s
  rw [hclock, if_pos hrun, stampPeriod_armed, stampPeriod_stamp, Stp.armedAfter, stampState_armed, hu.armed, Stp.armedAfter]

theorem stampClock_of_master (h : s.stp.state = 0) : s.stampClock.stp.state = 0 := by
  obtain ⟨u, hu, hclock⟩ := stampClock_counted s
  rw [hclock]
  split
  · rw [stampPeriod_state, stampState_of_master (hu.state.trans h), hu.state, h]
  · exact hu.state.trans h

/-- Without an accepted edge the period ends after LEN, or at once where that has passed (R111, R131). -/
theorem stampFc_of_no_edge (h : s.stp.edgeA = none) : s.stampFc = max s.stp.t s.stp.len := by
  unfold State.stampFc State.stampAt
  rw [h]
  split
  · simp only; omega
  · rfl

end StampClock

/-! ## PHASE (R109) -/

theorem phase_lt (s : State) : s.phase < 65536 := by
  unfold State.phase
  omega

theorem phase_of_start {s : State} (h : s.stp.t = 0) : s.phase = 0 := by
  rw [State.phase, h, Nat.mul_zero, Nat.zero_div, Nat.min_zero]

/-- While the period lasts the quotient of R109 stays below 65,536, and so is PHASE itself. -/
theorem phase_of_lt {s : State} (h : s.stp.t < s.stp.len) : s.phase = 65536 * s.stp.t / s.stp.len := by
  have hlt : 65536 * s.stp.t / s.stp.len < 65536 := Nat.div_lt_of_lt_mul (by omega)
  exact Nat.min_eq_right (by omega)

theorem phase_of_cutoff {s : State} (h : 4 * s.stp.t = 3 * s.stp.len) (hlt : s.stp.t < s.stp.len) : s.phase = 0xC000 := by
  rw [phase_of_lt hlt]
  exact Nat.div_eq_of_eq_mul_left (by omega) (by omega)

theorem now_phase (s : State) : fld s.now 0 16 = s.phase := by
  have hstamp := s.stp.stamp.isLt
  have hphase := phase_lt s
  unfold fld State.now
  rw [BitVec.toNat_ofNat, Nat.shiftRight_zero]
  omega

/-! ## The whole stamp -/

section StampFall
variable {s : State}

/-- Every component but the Stamp unit, local memory and the carrel manager. -/
def offClock (c : Comp) : Bool := c != .stp && c != .mem && c != .crl

theorem drainLimits_of_no_resets (h : s.crl.resets = []) : s.drainLimits = s := by
  rw [State.drainLimits, h]
  rfl

/-- What begins at a stamp leaves the carrel manager's state where no carrel is in reset (R401). -/
theorem stampWork_eff_of_no_resets (h : s.crl.resets = []) : Eff offClock s s.stampWork := by
  unfold State.stampWork
  extract_lets _ u
  have hu : Eff offClock s u := Eff.set_obs (.refl _ s) rfl
  have hdrain : u.drainLimits = u := drainLimits_of_no_resets h
  rw [hdrain]
  have hqueues := State.addCredits_eff (State.queuesForm_eff hu rfl rfl rfl rfl) rfl
  have hmoves := State.holdsGo_eff (State.quotaEviction_eff hqueues rfl) rfl rfl rfl rfl rfl rfl rfl rfl rfl
  have hepoch := State.epochFire_eff (State.slotsBegin_eff hmoves rfl) rfl rfl
  exact State.settle_eff hepoch rfl rfl rfl rfl rfl rfl rfl rfl rfl

theorem stampPower_bell_eff (s : State) (sense : StampSense) : Eff offClock s ((s.stampPower sense).bell 1105) :=
  State.bell_eff (State.stampPower_eff (.refl _ s) rfl rfl rfl rfl rfl rfl sense) rfl ..

/-- A stamp is what was due before it (nothing in a die that does not run), the Stamp unit's part, and work that leaves the Stamp unit
and local memory, and the carrel manager's state where no carrel is in reset. -/
theorem stampFall_clock (hon : s.pins.life ≠ .off) (sense : StampSense) : ∃ u, (u = s ∨ u = s.stampDue)
    ∧ (s.stampFall sense).stp = u.stampClock.stp ∧ (s.stampFall sense).mem = u.stampClock.mem
    ∧ (u.stampClock.crl.resets = [] → (s.stampFall sense).crl = u.stampClock.crl) := by
  unfold State.stampFall
  rw [if_neg (by simpa using hon)]
  split
  · exact ⟨s, .inl rfl, rfl, rfl, fun _ => rfl⟩
  · split
    · extract_lets v
      have hv : Eff offClock s.stampDue.stampClock v := State.stallUpdate_eff (.refl _ _) rfl rfl
      have hpower : Eff offClock s.stampDue.stampClock ((v.stampPower sense).bell 1105) := hv.trans (stampPower_bell_eff v sense)
      have hwork := State.stampWork_eff (F := fun c => c != .stp && c != .mem) (.refl _ ((v.stampPower sense).bell 1105))
        rfl rfl rfl rfl rfl rfl rfl rfl rfl rfl rfl rfl
      refine ⟨s.stampDue, .inr rfl, ?_, ?_, fun hresets => ?_⟩
      · exact (hwork.same .stp rfl).trans (hpower.same .stp rfl)
      · exact (hwork.same .mem rfl).trans (hpower.same .mem rfl)
      · have hcrl : ((v.stampPower sense).bell 1105).crl = s.stampDue.stampClock.crl := hpower.same .crl rfl
        exact ((stampWork_eff_of_no_resets (by rw [hcrl, hresets])).same .crl rfl).trans hcrl
    · have hpower := stampPower_bell_eff s.stampClock sense
      exact ⟨s, .inl rfl, hpower.same .stp rfl, hpower.same .mem rfl, fun _ => hpower.same .crl rfl⟩

theorem stampClock_keeps_mem_crl (s : State) : Eff (fun c => c != .mem && c != .crl) s s.stampClock :=
  State.stampClock_eff (.refl _ s) rfl rfl rfl rfl rfl rfl

theorem stampDue_keeps_stp_crl (s : State) : Eff (fun c => c != .stp && c != .crl) s s.stampDue :=
  State.stampDue_eff (.refl _ s) rfl rfl rfl rfl rfl rfl rfl rfl rfl rfl rfl rfl rfl rfl

theorem stampFall_stp (hon : s.pins.life ≠ .off) (sense : StampSense) :
    ∃ u : State, u.stp = s.stp ∧ (s.stampFall sense).stp = u.stampClock.stp := by
  obtain ⟨u, hu, hstp, -, -⟩ := stampFall_clock hon sense
  refine ⟨u, ?_, hstp⟩
  rcases hu with rfl | rfl
  · rfl
  · exact (stampDue_keeps_stp_crl s).same .stp rfl

theorem stampFall_mem (hon : s.pins.life ≠ .off) (sense : StampSense) (hn : s.noneHeld) : (s.stampFall sense).mem = s.mem := by
  obtain ⟨u, hu, -, hmem, -⟩ := stampFall_clock hon sense
  have hclock : u.stampClock.mem = u.mem := (stampClock_keeps_mem_crl u).same .mem rfl
  rw [hmem, hclock]
  rcases hu with rfl | rfl
  · rfl
  · exact (stampDue_heldKept s).mem hn

theorem stampFall_crl (hon : s.pins.life ≠ .off) (sense : StampSense) (hr : s.crl.resets = []) : (s.stampFall sense).crl = s.crl := by
  obtain ⟨u, hu, -, -, hcrl⟩ := stampFall_clock hon sense
  have hs : u.crl = s.crl := by
    rcases hu with rfl | rfl
    · rfl
    · exact (stampDue_keeps_stp_crl s).same .crl rfl
  have hclock : u.stampClock.crl = s.crl := ((stampClock_keeps_mem_crl u).same .crl rfl).trans hs
  rw [hcrl (by rw [hclock, hr]), hclock]

theorem stampFall_keeps_curMem_ss (s : State) (sense : StampSense) : Eff (fun c => c != .curMem && c != .ss) s (s.stampFall sense) :=
  State.stampFall_eff (.refl _ s) rfl rfl rfl rfl rfl rfl rfl rfl rfl rfl rfl rfl rfl rfl rfl rfl rfl rfl sense

end StampFall

/-- Settles O11: the Stamp unit's part of a stamp is read off its count, its number and its state; the other parts leave it. -/
theorem stampAdvancesTheDatestamp : Obligations.StampAdvancesTheDatestamp := by
  unfold Obligations.StampAdvancesTheDatestamp
  refine ⟨fun s sense hon => ?stamp, fun s => ?phase⟩
  case stamp =>
    obtain ⟨u, hu, hstp⟩ := stampFall_stp hon sense
    have hcount := stampClock_restarted u
    have hkeeps := stampFall_keeps_curMem_ss s sense
    refine ⟨s.stampFall sense, rfl, ?_⟩
    dsimp only
    rw [hstp, ← hu]
    refine ⟨hcount.t, hcount.cut, hcount.newNum, hcount.edgeA, fun hplain => ?number, fun hedge => ?total,
      fun at_ p hrun harmed => ?armed, stampClock_of_master, hkeeps.same .curMem rfl, hkeeps.same .ss rfl, stampFall_mem hon sense,
      stampFall_crl hon sense⟩
    case number => rw [stampClock_stamp hplain, Stp.nextStamp_eq]
    case total =>
      rw [hcount.total, stampFc_of_no_edge hedge]
      omega
    case armed => rw [stampClock_armed hrun, armedAfter_of_some harmed]
  case phase => exact ⟨phase_lt s, phase_of_start, phase_of_lt, now_phase s, phase_of_cutoff⟩

end Sys2Proof.Machine

/-! Proof of O31: tallies modulo 2^16 (R263), waits and folios at the head of a stream (R263, R268), and tally signals at their shelf
(R265). -/

namespace Sys2Proof.Machine

section Tallies
variable {s : State} {sh j e : Nat} {r : Running}

/-! ## The cores of the running pass -/

@[simp] theorem Running.core_setCore_self (r : Running) (j : Nat) (c : CoreSt) : (r.setCore j c).core j = c := by
  rw [Running.core, Running.setCore, Tab.getD, Tab.find?_insert_self, Option.getD_some]

theorem Running.core_setCore_of_ne (r : Running) {i j : Nat} (c : CoreSt) (h : i ≠ j) : (r.setCore j c).core i = r.core i := by
  rw [Running.core, Running.setCore, Tab.getD, Tab.find?_insert_of_ne _ _ h, Running.core, Tab.getD]

theorem coreOf_of_run (h : (s.shelf sh).run = some r) (j : Nat) : s.coreOf sh j = r.core j := by
  rw [State.coreOf, h]

theorem run_modCore (h : (s.shelf sh).run = some r) (j : Nat) (f : CoreSt → CoreSt) :
    ((s.modCore sh j f).shelf sh).run = some (r.setCore j (f (r.core j))) := by
  rw [State.modCore, State.modRun, h]
  exact congrArg Shelf.run (s.shelf_setShelf_self sh _)

theorem coreOf_modCore_self (h : (s.shelf sh).run = some r) (j : Nat) (f : CoreSt → CoreSt) :
    (s.modCore sh j f).coreOf sh j = f (r.core j) := by
  rw [coreOf_of_run (run_modCore h j f), Running.core_setCore_self]

theorem coreOf_modCore_of_ne (h : (s.shelf sh).run = some r) {i j : Nat} (f : CoreSt → CoreSt) (hi : i ≠ j) :
    (s.modCore sh j f).coreOf sh i = r.core i := by
  rw [coreOf_of_run (run_modCore h j f), Running.core_setCore_of_ne _ _ hi]

@[simp] theorem CoreSt.stream_setStream_self (c : CoreSt) (e : Nat) (x : Stream) : (c.setStream e x).stream e = x := by
  unfold CoreSt.setStream CoreSt.stream
  split
  · rfl
  · split <;> rfl

@[simp] theorem CoreSt.setStream_tally (c : CoreSt) (e : Nat) (x : Stream) : (c.setStream e x).tally = c.tally := by
  unfold CoreSt.setStream
  split
  · rfl
  · split <;> rfl

theorem streamOf_modStream_self (h : (s.shelf sh).run = some r) (j e : Nat) (f : Stream → Stream) :
    (s.modStream sh j e f).streamOf sh j e = f ((r.core j).stream e) := by
  rw [State.streamOf, State.modStream, coreOf_modCore_self h, CoreSt.stream_setStream_self]

theorem tally_modStream (h : (s.shelf sh).run = some r) (j e : Nat) (f : Stream → Stream) :
    ((s.modStream sh j e f).coreOf sh j).tally = (r.core j).tally := by
  rw [State.modStream, coreOf_modCore_self h, CoreSt.setStream_tally]

/-! ## A tally (R263) -/

theorem CoreSt.tallyAt_lt (c : CoreSt) (t : Nat) : c.tallyAt t < 65536 := BitVec.isLt _

@[simp] theorem CoreSt.tallyAt_bump_self (c : CoreSt) (t inc : Nat) : (c.bump t inc).tallyAt t = (c.tallyAt t + inc) % 65536 := by
  rw [CoreSt.tallyAt, CoreSt.bump, Tab.getD_put_self, BitVec.toNat_ofNat]

theorem CoreSt.tallyAt_bump_of_ne (c : CoreSt) {t i : Nat} (inc : Nat) (h : i ≠ t) : (c.bump t inc).tallyAt i = c.tallyAt i := by
  rw [CoreSt.tallyAt, CoreSt.bump, Tab.getD_put_of_ne _ _ _ _ h, CoreSt.tallyAt]

theorem Folio.waitValue_lt (x : Folio) : x.waitValue < 65536 := Nat.mod_lt _ (by decide)

/-- A value is reached where the tally stands less than half the range past it (R263). -/
theorem reached_iff (t v : Nat) : reached t v = true ↔ ((t : Int) - v) % 65536 < 32768 := by
  rw [reached, decide_eq_true_iff]
  omega

/-! ## The wait of a folio (R263) -/

section Wait
variable {c : PassCtx} {x : Folio}

theorem waitMet_of_waitEn (hen : x.waitEn = true) (hrun : (s.shelf c.sh).run = some r) : s.waitMet c j x =
    if reached ((r.core j).tallyAt x.waitTally) x.waitValue = true then
      some (if x.consume = true then s.modCore c.sh j (fun y => y.bump x.waitTally (65536 - x.waitValue)) else s)
    else none := by
  rw [State.waitMet, hen, coreOf_of_run hrun]
  rfl

theorem waitMet_eq_none_iff (hen : x.waitEn = true) (hrun : (s.shelf c.sh).run = some r) :
    s.waitMet c j x = none ↔ 32768 ≤ (((r.core j).tallyAt x.waitTally : Int) - x.waitValue) % 65536 := by
  rw [waitMet_of_waitEn hen hrun, ite_eq_right_iff, reached_iff]
  simp

/-- Consuming subtracts the value modulo 2^16. -/
theorem tallyAt_bump_consumed (y : CoreSt) (x : Folio) : ((y.bump x.waitTally (65536 - x.waitValue)).tallyAt x.waitTally : Int)
    = ((y.tallyAt x.waitTally : Int) - x.waitValue) % 65536 := by
  have hv := x.waitValue_lt
  rw [CoreSt.tallyAt_bump_self]
  omega

/-- A wait that is met leaves every core as it was, or takes its value from its tally. -/
theorem waitMet_eq_some (hen : x.waitEn = true) (hrun : (s.shelf c.sh).run = some r) {u : State} (hu : s.waitMet c j x = some u) :
    (x.consume = true ∧ u = s.modCore c.sh j (fun y => y.bump x.waitTally (65536 - x.waitValue))) ∨ (x.consume = false ∧ u = s) := by
  rw [waitMet_of_waitEn hen hrun, Option.ite_none_right_eq_some, Option.some_inj] at hu
  obtain ⟨-, hu⟩ := hu
  split at hu
  case isTrue hc => exact .inl ⟨hc, hu.symm⟩
  case isFalse hc => exact .inr ⟨Bool.eq_false_iff.2 hc, hu.symm⟩

theorem waitMet_tallies (hen : x.waitEn = true) (hrun : (s.shelf c.sh).run = some r) {u : State} (hu : s.waitMet c j x = some u) :
    ((u.coreOf c.sh j).tallyAt x.waitTally : Int) = (if x.consume = true
        then (((r.core j).tallyAt x.waitTally : Int) - x.waitValue) % 65536 else (r.core j).tallyAt x.waitTally)
    ∧ (∀ i, i ≠ x.waitTally → (u.coreOf c.sh j).tallyAt i = (r.core j).tallyAt i) ∧ ∀ i, i ≠ j → u.coreOf c.sh i = r.core i := by
  rcases waitMet_eq_some hen hrun hu with ⟨hc, rfl⟩ | ⟨hc, rfl⟩
  · rw [coreOf_modCore_self hrun, if_pos hc]
    exact ⟨tallyAt_bump_consumed _ x, fun i hi => CoreSt.tallyAt_bump_of_ne _ _ hi, fun i hi => coreOf_modCore_of_ne hrun _ hi⟩
  · simp [hc, coreOf_of_run hrun]

/-! ## The folio at the head (R268) -/

theorem eccShelfRead_of_ecc_nil (h : s.ecc = []) (sh a n lo : Nat) : s.eccShelfRead sh a n lo = (s, none) := by
  rw [State.eccShelfRead, h]
  rfl

/-- A folio that no cutoff and no skip count passes, that the fetch checks accept and that is no PRE folio starts where it has met its
wait, and is judged by its wait and its predicate where it has not (R268). -/
theorem headFolio_of_fetched {st : Stream} {p : OpSpec} (hst : (r.core j).stream e = st) (hx : ⟨st.ptr, s.folioSlot c.sh st.ptr⟩ = x)
    (hecc : s.ecc = []) (hcut : st.cut = false) (hskip : st.skipLeft = 0) (hfetch : x.fetchCheck e c.size = none)
    (hop : opSpec x.opcode = some p) (hext : s.extBad c x p = false) (hpre : x.pre = false) :
    s.headFolio c r j e = if st.ready then s.tryStart c j e x p else s.headRun c j e x p := by
  subst hst hx
  simp [State.headFolio, eccShelfRead_of_ecc_nil hecc, hcut, hskip, hfetch, hop, hext, hpre]

/-- A stream that may take a folio, where no cutoff is due, meets the one at its head (R268). -/
theorem folioHead_of_open {st : Stream} (hrun : (s.shelf sh).run = some r) (hst : (r.core j).stream e = st) (hended : st.ended = false)
    (hheld : st.held = false) (hroom : st.room e = true) (hcutoff : s.cutoffDue sh j e = none) :
    s.folioHead sh j e = s.headFolio (s.ctxOf sh r.e) r j e := by
  subst hst
  simp [State.folioHead, hrun, hended, hheld, hroom, hcutoff]

theorem headRun_of_unmet {p : OpSpec} (h : s.waitMet c j x = none) :
    s.headRun c j e x p = s.modStream c.sh j e (fun st => { st with reason := 0 }) := by
  rw [State.headRun, h]

end Wait

theorem exec_folioHead (hon : s.running = true) (sh : ShelfNo) (core : BitVec 8) (e : Engine) :
    exec (.folioHead sh core e) s = .next (s.folioHead sh.toNat core.toNat (engNo e)) :=
  congrArg Host.Outcome.next (if_pos hon)

/-! ## A signal's increment (R263, R265) -/

/-- From r to q the cores listed have had an increment of one tally; the entry and the other cores are the same. -/
structure Running.Bumped (r q : Running) (cores : List Nat) (t inc : Nat) : Prop where
  entry : q.e = r.e
  hit : ∀ j ∈ cores, q.core j = (r.core j).bump t inc
  miss : ∀ j, j ∉ cores → q.core j = r.core j

/-- Cores that a signal names. -/
def signalled : Option Nat → List Nat
  | none => List.range 256
  | some j => [j]

theorem signalled_none : signalled none = List.range 256 := by rw [signalled]

theorem signalled_some (j : Nat) : signalled (some j) = [j] := by rw [signalled]

theorem applySignal_eq_foldl (s : State) (sh : Nat) (core : Option Nat) (t inc : Nat) :
    s.applySignal sh core t inc = (signalled core).foldl (fun u j => u.modCore sh j (fun c => c.bump t inc)) (s.wake sh) := by
  cases core with
  | none => rw [State.applySignal, signalled_none]
  | some j => rfl

theorem bumped_of_foldl {cores : List Nat} (hnodup : cores.Nodup) (t inc : Nat) (hrun : (s.shelf sh).run = some r) :
    ∃ q, ((cores.foldl (fun u j => u.modCore sh j (fun c => c.bump t inc)) s).shelf sh).run = some q ∧ r.Bumped q cores t inc := by
  induction cores generalizing s r with
  | nil => exact ⟨r, hrun, rfl, by simp, fun _ _ => rfl⟩
  | cons a cores ih =>
    obtain ⟨ha, hnodup⟩ := List.nodup_cons.1 hnodup
    obtain ⟨q, hq, hentry, hhit, hmiss⟩ := ih hnodup (run_modCore hrun a (fun c => c.bump t inc))
    refine ⟨q, hq, hentry, fun j hj => ?_, fun j hj => ?_⟩
    · rcases List.mem_cons.1 hj with rfl | hj
      · rw [hmiss j ha, Running.core_setCore_self]
      · have hne : j ≠ a := fun h => ha (h ▸ hj)
        rw [hhit j hj, Running.core_setCore_of_ne _ _ hne]
    · obtain ⟨hne, hj⟩ := not_or.1 (mt List.mem_cons.2 hj)
      rw [hmiss j hj, Running.core_setCore_of_ne _ _ hne]

theorem wake_shelf (s : State) (sh k : Nat) : (s.wake sh).shelf k = s.shelf k := by
  have hshelves : (s.wake sh).shelves = s.shelves := (State.wake_eff (F := (· == .pwr)) (.refl _ s) rfl sh).same .shelves rfl
  rw [State.shelf, hshelves, State.shelf]

theorem applySignal_bumped (hrun : (s.shelf sh).run = some r) (core : Option Nat) (t inc : Nat) :
    ∃ q, ((s.applySignal sh core t inc).shelf sh).run = some q ∧ r.Bumped q (signalled core) t inc := by
  have hnodup : (signalled core).Nodup := by
    cases core with
    | none => exact signalled_none ▸ List.nodup_range
    | some j => exact List.nodup_cons.2 ⟨List.not_mem_nil, List.nodup_nil⟩
  rw [applySignal_eq_foldl]
  exact bumped_of_foldl hnodup t inc (by rw [wake_shelf, hrun])

theorem applySignal_onlyIn (s : State) (sh : Nat) (core : Option Nat) (t inc : Nat) :
    OnlyIn [.shelves, .pwr] s (s.applySignal sh core t inc) :=
  (State.applySignal_eff (.refl _ s) rfl rfl sh core t inc).onlyIn

/-! ## A signal at its shelf (R265) -/

section Signal
variable {k : ShelfNo} {g : TallySig}

theorem exec_tallySignal (hon : s.running = true) : exec (.tallySignal k g) s = .next (s.deliverSignal k.toNat g) :=
  congrArg Host.Outcome.next (if_pos hon)

theorem exec_tallySignal_of_waiting (hon : s.running = true)
    (h : 256 ≤ (s.shelf k.toNat).early.length ∨ (s.shelf k.toNat).posted ≠ []) :
    exec (.tallySignal k g) s = .next (s.holdBack k.toNat (.signal g)) := by
  rw [exec_tallySignal hon, State.deliverSignal, if_pos (by simpa using h)]

theorem exec_tallySignal_of_free (hon : s.running = true) (hroom : (s.shelf k.toNat).early.length < 256)
    (hposted : (s.shelf k.toNat).posted = []) : exec (.tallySignal k g) s = .next (s.judgeSignal k.toNat g) := by
  rw [exec_tallySignal hon, State.deliverSignal, if_neg (by simp [hroom, hposted])]

theorem judgeSignal_of_running (hrun : (s.shelf sh).run = some r)
    (hpass : r.e.isPass g.carrel.toNat g.tag.toNat g.pass.toNat = true) :
    s.judgeSignal sh g = s.applySignal sh (g.core.map (·.toNat)) g.tally.toNat g.inc.toNat := by
  simp [State.judgeSignal, hrun, hpass]

theorem judgeSignal_of_not_running
    (h : (s.shelf sh).run.all (fun r => !r.e.isPass g.carrel.toNat g.tag.toNat g.pass.toNat) = true) : s.judgeSignal sh g =
    if (s.shelf sh).awaits g.carrel.toNat g.tag.toNat g.pass.toNat then
      s.setShelf sh { s.shelf sh with early := (s.shelf sh).early ++ [g] }
    else s.log (shelfSource sh) K.tallyStale g.carrel.toNat (shelfAdr sh 0) g.tag.toNat g.pass.toNat := by
  have hany : (s.shelf sh).run.any (fun r => r.e.isPass g.carrel.toNat g.tag.toNat g.pass.toNat) = false := by
    cases hrun : (s.shelf sh).run with
    | none => rfl
    | some r => simpa [hrun] using h
  simp [State.judgeSignal, hany]

/-- A signal to the running pass adds to its tally in the cores it names, and touches the shelf and its clock alone. -/
theorem goesTo_tallySignal_running (hon : s.running = true) (hroom : (s.shelf k.toNat).early.length < 256)
    (hposted : (s.shelf k.toNat).posted = []) (hrun : (s.shelf k.toNat).run = some r)
    (hpass : r.e.isPass g.carrel.toNat g.tag.toNat g.pass.toNat = true) :
    GoesTo (exec (.tallySignal k g) s) (fun t => ∃ q, (t.shelf k.toNat).run = some q
      ∧ r.Bumped q (signalled (g.core.map (·.toNat))) g.tally.toNat g.inc.toNat ∧ OnlyIn [.shelves, .pwr] s t) := by
  obtain ⟨q, hq, hbumped⟩ := applySignal_bumped hrun (g.core.map (·.toNat)) g.tally.toNat g.inc.toNat
  refine ⟨_, ?_, q, hq, hbumped, applySignal_onlyIn ..⟩
  rw [exec_tallySignal_of_free hon hroom hposted, judgeSignal_of_running hrun hpass]

end Signal

end Tallies

/-- Settles O31: a wait is read off its tally's distance from its value, and a signal goes where its pass stands at the shelf. -/
theorem talliesCountModulo : Obligations.TalliesCountModulo := by
  unfold Obligations.TalliesCountModulo
  refine ⟨fun s sh core e r hon hrun hen => ⟨?unmet, ?met, ?atHead⟩,
    fun s sh g hon => ⟨?full, fun hroom hposted => ⟨?one, ?every, ?early, ?stale⟩⟩⟩
  case unmet => exact waitMet_eq_none_iff hen hrun
  case met => exact fun u hu => waitMet_tallies hen hrun hu
  case atHead =>
    intro p hfar hended hheld hready hroom hcutoff hcut hskip hclean hfetch hop hext hpre
    have hunmet := (waitMet_eq_none_iff (c := s.ctxOf sh.toNat r.e) hen hrun).2 hfar
    have hstays : s.folioHead sh.toNat core.toNat (engNo e) =
        s.modStream sh.toNat core.toNat (engNo e) (fun st => { st with reason := 0 }) := by
      rw [folioHead_of_open hrun rfl hended hheld hroom hcutoff,
        headFolio_of_fetched (c := s.ctxOf sh.toNat r.e) rfl rfl hclean.1 hcut hskip hfetch hop hext hpre, hready, if_neg (by decide)]
      exact headRun_of_unmet hunmet
    refine ⟨_, (exec_folioHead hon ..).trans (congrArg _ hstays), tally_modStream hrun .., ?_⟩
    rw [streamOf_modStream_self hrun]
    exact ⟨hready, rfl⟩
  case full => exact exec_tallySignal_of_waiting hon
  case one =>
    intro r j hrun hpass hcore
    obtain ⟨t, ht, q, hq, ⟨hentry, hhit, hmiss⟩, honly⟩ := goesTo_tallySignal_running hon hroom hposted hrun hpass
    rw [hcore, Option.map_some, signalled_some] at hhit hmiss
    have hj : q.core j.toNat = _ := hhit j.toNat (List.mem_singleton_self _)
    refine ⟨t, ht, q, hq, hentry, ?_, fun v hv => ?_, fun i hi => hmiss i (mt List.mem_singleton.1 hi), honly⟩
    · rw [hj, CoreSt.tallyAt_bump_self]
    · rw [hj, CoreSt.tallyAt_bump_of_ne _ _ hv]
  case every =>
    intro r hrun hpass hcore
    obtain ⟨t, ht, q, hq, ⟨hentry, hhit, -⟩, honly⟩ := goesTo_tallySignal_running hon hroom hposted hrun hpass
    rw [hcore, Option.map_none, signalled_none] at hhit
    refine ⟨t, ht, q, hq, hentry, fun j hj => ?_, honly⟩
    rw [hhit j (List.mem_range.2 hj), CoreSt.tallyAt_bump_self]
  case early =>
    intro hrun hawaits
    rw [exec_tallySignal_of_free hon hroom hposted, judgeSignal_of_not_running hrun, if_pos hawaits]
  case stale =>
    intro hrun hawaits
    rw [exec_tallySignal_of_free hon hroom hposted, judgeSignal_of_not_running hrun, if_neg (by simp [hawaits])]
    exact ⟨_, rfl, s.send_onlyIn _⟩

end Sys2Proof.Machine

/-! Proof of O54: the Ledger's keys and heartbeats (R422, R429, R431), block resets by key and watchdog (R422, R425, R428), and what takes
over a block reset (R427). -/

namespace Sys2Proof.Machine

section BlockResets
variable {s t u : State}

/-! ## A block reset that runs at once (R425) -/

/-- A block reset asked for in this state goes on to its boot at once: none is under way, and no scan-out holds it up. -/
structure State.ResetsNow (s : State) : Prop where
  alive : s.alive = true
  idle : s.blockResetting = false
  scan : s.obs.scan = false
  scanCtl : s.regBit R.OBS_SCAN_CTL 2 = false

theorem State.ResetsNow.of_same (h : s.ResetsNow) (hpins : t.pins = s.pins) (hboot : t.boot = s.boot) (hscan : t.obs.scan = s.obs.scan)
    (hctl : t.reg R.OBS_SCAN_CTL = s.reg R.OBS_SCAN_CTL) : t.ResetsNow where
  alive := by rw [State.alive, hpins]; exact h.alive
  idle := by rw [State.blockResetting, hboot]; exact h.idle
  scan := hscan.trans h.scan
  scanCtl := (s.regBit_of_reg hctl 2).trans h.scanCtl

/-- The die as a block reset hushes it: the hush, and no injector armed (R421, R425). -/
def State.hushForReset (s : State) : State := (s.startHush 4).disarm

theorem disarm_onlyIn (s : State) : OnlyIn [.rf] s s.disarm := (State.disarm_eff (.refl _ s) rfl).onlyIn

theorem reg_disarm (s : State) {o : Nat} (h : o < 0xA00000 ∨ 0xA05000 ≤ o) : s.disarm.reg o = s.reg o :=
  reg_foldl fun u i hi => by
    have := List.mem_range.mp hi
    exact u.reg_setRegBit_of_ne 16 false (by simp only [R.LDG_INJECT]; omega)

theorem startHush_scan (s : State) (cause : Nat) : (s.startHush cause).obs.scan = s.obs.scan := by
  unfold State.startHush
  split <;> rfl

theorem reg_startHush (s : State) (cause : Nat) {o : Nat} (hstatus : o ≠ R.OBS_HUSH_STATUS) (hwhen : o ≠ R.OBS_HUSH_WHEN) :
    (s.startHush cause).reg o = s.reg o := by
  by_cases hh : s.hushed = true
  · rw [startHush_of_hushed hh]
  · rw [startHush_of_not_hushed (by simpa using hh)]
    exact (State.reg_setReg_of_ne _ _ hwhen).trans (State.reg_setReg_of_ne _ _ hstatus)

theorem hushForReset_eff {F : Comp → Bool} {s0 : State} (h : Eff F s0 s) (hrf : F .rf = true) (hobs : F .obs = true) :
    Eff F s0 s.hushForReset :=
  State.disarm_eff (State.startHush_eff h hrf hobs 4 0) hrf

theorem hushForReset_onlyIn (s : State) : OnlyIn [.rf, .obs] s s.hushForReset := (hushForReset_eff (.refl _ s) rfl rfl).onlyIn

@[simp] theorem hushForReset_ldg (s : State) : s.hushForReset.ldg = s.ldg := (hushForReset_onlyIn s).2 .ldg (by decide)
@[simp] theorem hushForReset_stp (s : State) : s.hushForReset.stp = s.stp := (hushForReset_onlyIn s).2 .stp (by decide)
@[simp] theorem hushForReset_ss (s : State) : s.hushForReset.ss = s.ss := (hushForReset_onlyIn s).2 .ss (by decide)
@[simp] theorem hushForReset_boot (s : State) : s.hushForReset.boot = s.boot := (hushForReset_onlyIn s).2 .boot (by decide)

theorem hushForReset_scan (s : State) : s.hushForReset.obs.scan = s.obs.scan :=
  (congrArg Obs.scan ((disarm_onlyIn _).2 .obs (by decide))).trans (startHush_scan s 4)

theorem hushForReset_scanCtl (s : State) : s.hushForReset.reg R.OBS_SCAN_CTL = s.reg R.OBS_SCAN_CTL :=
  (reg_disarm _ (by decide)).trans (reg_startHush s 4 (by decide) (by decide))

/-- The time of a block reset noted among the counted ones (R428). -/
def State.countReset (s : State) : State := { s with ldg := { s.ldg with history := s.stp.total :: s.ldg.history } }

/-- Block resets counted, this one among them, have reached LIMIT (R428). -/
def State.resetEscalates (s : State) (counted : Bool) : Bool := counted && decide (s.escLimit ≤ s.countReset.escCount)

theorem escCount_congr (hhist : t.ldg.history = s.ldg.history) (htotal : t.stp.total = s.stp.total) (hss : t.ss = s.ss) :
    t.escCount = s.escCount := by
  unfold State.escCount State.escWindow State.item
  rw [hhist, htotal, hss]

theorem resetEscalates_congr (hldg : t.ldg = s.ldg) (hstp : t.stp = s.stp) (hss : t.ss = s.ss) (counted : Bool) :
    t.resetEscalates counted = s.resetEscalates counted := by
  have hcount : t.countReset.escCount = s.countReset.escCount :=
    escCount_congr (by simp only [State.countReset, hldg, hstp]) (congrArg Stp.total hstp) hss
  have hlimit : t.escLimit = s.escLimit := by simp only [State.escLimit, State.item, hss]
  simp only [State.resetEscalates, hcount, hlimit]

/-- A hushed die takes a block reset: the time of a counted one is noted, the cause is kept, and the watchdog is off (R422, R425, R428). -/
def State.takeReset (s : State) (source kind : Nat) (counted : Bool) : State :=
  let u := if counted then s.countReset else s
  { u with
    ldg := { u.ldg with wdArmed := false }
    boot := { u.boot with cause := some (source, kind), escalated := counted && decide (u.escLimit ≤ u.escCount) } }

/-- The die as it takes a block reset, before its units are reset (R425). -/
def State.resetTaken (s : State) (source kind : Nat) (counted : Bool) : State := s.hushForReset.takeReset source kind counted

section Taken
variable (source kind : Nat) (counted : Bool)

theorem takeReset_ldg (s : State) : (s.takeReset source kind counted).ldg =
    { s.ldg with history := if counted then s.stp.total :: s.ldg.history else s.ldg.history, wdArmed := false } := by
  cases counted <;> rfl

theorem takeReset_boot (s : State) : (s.takeReset source kind counted).boot =
    { s.boot with cause := some (source, kind), escalated := s.resetEscalates counted } := by
  cases counted with
  | false => simp [State.takeReset, State.resetEscalates]
  | true => rfl

theorem takeReset_eff {F : Comp → Bool} {s0 : State} (h : Eff F s0 s) (hboot : F .boot = true) (hldg : F .ldg = true) :
    Eff F s0 (s.takeReset source kind counted) := by
  cases counted with
  | false => exact h.set_boot_ldg hboot hldg
  | true => exact Eff.set_boot_ldg (s := s.countReset) (h.set_ldg hldg) hboot hldg

theorem takeReset_onlyIn (s : State) : OnlyIn [.boot, .ldg] s (s.takeReset source kind counted) :=
  (takeReset_eff source kind counted (.refl _ s) rfl rfl).onlyIn

theorem resetTaken_onlyIn (s : State) : OnlyIn [.rf, .boot, .obs, .ldg] s (s.resetTaken source kind counted) :=
  (takeReset_eff source kind counted (hushForReset_eff (.refl _ s) rfl rfl) rfl rfl).onlyIn

theorem resetTaken_stp (s : State) : (s.resetTaken source kind counted).stp = s.stp :=
  (resetTaken_onlyIn source kind counted s).2 .stp (by decide)

theorem resetTaken_smb (s : State) : (s.resetTaken source kind counted).smb = s.smb :=
  (resetTaken_onlyIn source kind counted s).2 .smb (by decide)

theorem resetTaken_ldg (s : State) : (s.resetTaken source kind counted).ldg =
    { s.ldg with history := if counted then s.stp.total :: s.ldg.history else s.ldg.history, wdArmed := false } := by
  rw [State.resetTaken, takeReset_ldg, hushForReset_ldg, hushForReset_stp]

@[simp] theorem resetTaken_oos (s : State) : (s.resetTaken source kind counted).ldg.oos = s.ldg.oos := by rw [resetTaken_ldg]
@[simp] theorem resetTaken_wdExpiries (s : State) : (s.resetTaken source kind counted).ldg.wdExpiries = s.ldg.wdExpiries := by
  rw [resetTaken_ldg]
@[simp] theorem resetTaken_wdArmed (s : State) : (s.resetTaken source kind counted).ldg.wdArmed = false := by rw [resetTaken_ldg]

theorem resetTaken_boot (s : State) : (s.resetTaken source kind counted).boot =
    { s.boot with cause := some (source, kind), escalated := s.resetEscalates counted } := by
  rw [State.resetTaken, takeReset_boot, hushForReset_boot,
    resetEscalates_congr (hushForReset_ldg s) (hushForReset_stp s) (hushForReset_ss s)]

theorem resetTaken_scan (s : State) : (s.resetTaken source kind counted).obs.scan = s.obs.scan := by
  rw [State.resetTaken, (takeReset_onlyIn source kind counted _).2 .obs (by decide), hushForReset_scan]

theorem resetTaken_scanCtl (s : State) : (s.resetTaken source kind counted).reg R.OBS_SCAN_CTL = s.reg R.OBS_SCAN_CTL := by
  rw [State.resetTaken, State.reg_of_rf _ ((takeReset_onlyIn source kind counted _).2 .rf (by decide)), hushForReset_scanCtl]

theorem blockReset_of_resetsNow (h : s.ResetsNow) :
    s.blockReset source kind counted = (s.resetTaken source kind counted).blockResetGo := by
  have hfree : ¬ (s.blockResetting || !s.alive) = true := by simp [h.alive, h.idle]
  have hscan : ¬ (s.resetTaken source kind counted).obs.scan = true := by simp [resetTaken_scan, h.scan]
  have hctl : ¬ (s.resetTaken source kind counted).regBit R.OBS_SCAN_CTL 2 = true := by
    simp [s.regBit_of_reg (resetTaken_scanCtl source kind counted s) 2, h.scanCtl]
  exact (if_neg hfree).trans ((if_neg hscan).trans (if_neg hctl))

end Taken

/-- A block reset under way absorbs another (R419, R427). -/
theorem blockReset_of_blockResetting (h : s.blockResetting = true) (source kind : Nat) (counted : Bool) :
    s.blockReset source kind counted = s := if_pos (by simp [h])

/-- A block reset counted in t, later than s and with no other counted since, finds at most one more in the window (R428). -/
theorem escCount_counted_le (hhist : t.ldg.history = s.ldg.history) (htotal : s.stp.total ≤ t.stp.total)
    (hwindow : t.escWindow = s.escWindow) : t.countReset.escCount ≤ s.escCount + 1 := by
  have hmono : (s.ldg.history.filter (fun x => decide (t.stp.total < x + s.escWindow * fcPerHour))).length ≤ s.escCount := by
    rw [State.escCount, ← List.countP_eq_length_filter, ← List.countP_eq_length_filter]
    exact List.countP_mono_left fun x _ hx => by simp only [decide_eq_true_eq] at hx ⊢; omega
  have hcounted : t.countReset.escCount =
      ((t.stp.total :: s.ldg.history).filter (fun x => decide (t.stp.total < x + s.escWindow * fcPerHour))).length := by
    rw [← hhist, ← hwindow]
    rfl
  rw [hcounted, List.filter_cons]
  split
  · exact Nat.succ_le_succ hmono
  · exact Nat.le_succ_of_le hmono

/-- From u to t the units have been reset and a boot begins (R425, Table 16-6): phase 0x1, with the always-on part of the die kept. -/
structure State.BootsAfresh (u t : State) : Prop where
  life : t.pins.life = .boot
  phase : t.bootPhase = 1
  cause : t.boot.cause = u.boot.cause
  history : t.ldg.history = u.ldg.history
  oos : t.ldg.oos = u.ldg.oos
  expiries : t.ldg.wdExpiries = u.ldg.wdExpiries
  armed : t.ldg.wdArmed = u.ldg.wdArmed
  alerts : t.smb.cause = u.smb.cause
  stamp : t.stp.stamp = u.stp.stamp
  total : t.stp.total = u.stp.total
  cat : t.cat = Cat.reset
  shelves : t.shelves = []
  mem : t.mem = Memory.dropOnDie u.mem

/-- The units reset, and the boot life from phase 0x1. -/
def State.bootAgain (u : State) : State :=
  let u := u.resetUnits
  { u with pins := { u.pins with life := .boot, sbLive := false } }.setPhase 1

theorem bootAgain_bootsAfresh (u : State) : u.BootsAfresh u.bootAgain := by
  refine ⟨rfl, bootPhase_setPhase _ (by decide), ?_, ?_, ?_, ?_, ?_, ?_, ?_, ?_, ?_, ?_, ?_⟩ <;> rfl

theorem blockReset_bootsAfresh (h : s.ResetsNow) (source kind : Nat) {counted : Bool} (hesc : s.resetEscalates counted = false) :
    (s.resetTaken source kind counted).BootsAfresh (s.blockReset source kind counted) := by
  have hgo : (s.resetTaken source kind counted).blockResetGo = (s.resetTaken source kind counted).bootAgain :=
    if_neg (by simp [resetTaken_boot, hesc])
  rw [blockReset_of_resetsNow source kind counted h, hgo]
  exact bootAgain_bootsAfresh _

theorem read_dropOnDie_of_near (m : Memory) {a : Nat} (h : a < farBase) : Memory.read (Memory.dropOnDie m) a = 0 := by
  unfold Memory.dropOnDie
  rw [Memory.read_clear, Memory.read_clear, if_neg (by simp only [farBase, storeBase] at h ⊢; omega), if_pos (by omega)]

/-! ## Records of the Ledger (R412, R413) -/

/-- From s to t records have been made: the block resets noted and the watchdog's expiries are the same, and so is every register outside
the Ledger's. -/
structure State.RecordsOnly (s t : State) : Prop where
  history : t.ldg.history = s.ldg.history
  expiries : t.ldg.wdExpiries = s.ldg.wdExpiries
  regs : ∀ o, (o < 0xA00000 ∨ 0xA05000 ≤ o) → t.reg o = s.reg o

namespace State.RecordsOnly

theorem refl (s : State) : s.RecordsOnly s := ⟨rfl, rfl, fun _ _ => rfl⟩

theorem trans (h : s.RecordsOnly t) (h' : t.RecordsOnly u) : s.RecordsOnly u :=
  ⟨h'.history.trans h.history, h'.expiries.trans h.expiries, fun o ho => (h'.regs o ho).trans (h.regs o ho)⟩

/-- A change that leaves the registers and the Ledger's own state. -/
theorem upd (h : s.RecordsOnly t) (hrf : u.rf = t.rf) (hldg : u.ldg = t.ldg) : s.RecordsOnly u :=
  h.trans ⟨congrArg Ldg.history hldg, congrArg Ldg.wdExpiries hldg, fun o _ => t.reg_of_rf hrf o⟩

theorem setLdg (h : s.RecordsOnly t) (g : Ldg) (hhist : g.history = t.ldg.history) (hexp : g.wdExpiries = t.ldg.wdExpiries) :
    s.RecordsOnly { t with ldg := g } :=
  h.trans ⟨hhist, hexp, fun _ _ => rfl⟩

theorem setReg (h : s.RecordsOnly t) {off : Nat} (v : Word) (hoff : 0xA00000 ≤ off ∧ off < 0xA05000) : s.RecordsOnly (t.setReg off v) :=
  h.trans ⟨rfl, rfl, fun o ho => t.reg_setReg_of_ne v (by omega)⟩

/-- A change of LDG_STATUS, which counts what the log takes and loses. -/
theorem setStatus (h : s.RecordsOnly t) (lo width v : Nat) : s.RecordsOnly (t.setField R.LDG_STATUS lo width v) :=
  h.setReg _ (by decide)

theorem ite {c : Prop} [Decidable c] (ht : s.RecordsOnly t) (hu : s.RecordsOnly u) : s.RecordsOnly (if c then t else u) := by
  split <;> assumption

theorem foldl {α : Type} {f : State → α → State} {l : List α} (h : s.RecordsOnly t)
    (hf : ∀ u, ∀ a ∈ l, s.RecordsOnly u → s.RecordsOnly (f u a)) : s.RecordsOnly (l.foldl f t) := by
  induction l generalizing t with
  | nil => exact h
  | cons a l ih =>
    exact ih (hf t a (List.mem_cons_self ..) h) fun u b hb => hf u b (List.mem_cons_of_mem _ hb)

theorem bell (h : s.RecordsOnly t) (n : Nat) : s.RecordsOnly (t.bell n) := h.upd (t.bell_rf n false) (t.bell_ldg n false)

theorem hostWrite (h : s.RecordsOnly t) (func addr : Nat) (data : List Byte) : s.RecordsOnly (t.hostWrite func addr data) :=
  h.upd (t.hostWrite_rf func addr data .nobody) (t.hostWrite_ldg func addr data .nobody)

theorem ldgCount (h : s.RecordsOnly t) {src : Nat} (hsrc : src < 1024) : s.RecordsOnly (t.ldgCount src) :=
  h.trans ⟨by rw [t.ldgCount_ldg], by rw [t.ldgCount_ldg], fun o ho => t.reg_ldgCount src o ho hsrc⟩

theorem send (h : s.RecordsOnly t) (m : LMsg) : s.RecordsOnly (t.send m) := by
  unfold State.send
  exact .ite (.setLdg h _ rfl rfl) (.ite h (.setStatus (h.ldgCount m.source.isLt) _ _ _))

theorem logPut (h : s.RecordsOnly t) (ws : List Word) : s.RecordsOnly (t.logPut ws) := by
  unfold State.logPut
  extract_lets n a bs near written counted ledger noted
  have hwritten : s.RecordsOnly written := .ite (h.upd rfl rfl) (h.hostWrite _ _ _)
  have hnoted : s.RecordsOnly noted :=
    .setLdg (.setStatus (.setReg hwritten (off := R.LDG_LOG_TAIL) _ (by decide)) _ _ _) _ rfl rfl
  exact .ite (.setStatus h _ _ _) (.ite (hnoted.bell _) hnoted)

theorem logDrainN (h : s.RecordsOnly t) (n : Nat) : s.RecordsOnly (t.logDrainN n) := by
  induction n generalizing t with
  | zero => exact h
  | succ n ih =>
    rw [State.logDrainN]
    split
    next => exact h
    next ws rest _ => exact .ite h (ih (.logPut (.setLdg h { t.ldg with buffer := rest } rfl rfl) ws))

theorem logDrain (h : s.RecordsOnly t) : s.RecordsOnly t.logDrain := by
  unfold State.logDrain
  extract_lets drained
  have hdrained : s.RecordsOnly drained := h.logDrainN _
  exact .ite hdrained (.send (.setLdg hdrained { drained.ldg with lost := 0 } rfl rfl) _)

theorem logRecord (h : s.RecordsOnly t) (ws : List Word) : s.RecordsOnly (t.logRecord ws) := by
  unfold State.logRecord
  extract_lets drained
  have hdrained : s.RecordsOnly drained := h.logDrainN _
  exact .ite (.logDrain (.setLdg hdrained { drained.ldg with buffer := drained.ldg.buffer ++ [ws] } rfl rfl))
    (.setLdg (.setStatus hdrained _ _ _) { drained.ldg with lost := drained.ldg.lost + 1 } rfl rfl)

theorem keep (h : s.RecordsOnly t) (ws : List Word) : s.RecordsOnly (t.keep ws) := by
  unfold State.keep
  extract_lets k
  have hslot : k < 16 := Nat.mod_lt _ (by decide)
  refine .setStatus (.foldl h fun u w hw hu => ?_) _ _ _
  have hword : w < 4 := List.mem_range.mp hw
  exact hu.setReg _ (by simp only [R.LDG_KEEP]; omega)

theorem notifyRecord (h : s.RecordsOnly t) (ws : List Word) : s.RecordsOnly (t.notifyRecord ws) :=
  .ite (.hostWrite (h.keep ws) _ _ _) (h.keep ws)

end State.RecordsOnly

/-- A message of severity 2 or above recorded, before the rest of what its severity brings. -/
def State.recorded (s : State) (m : LMsg) : State :=
  let src := m.source.toNat
  let ws := ledgerRecord m (!s.regBit (R.LDG_FIRST (src / 64)) (src % 64)) (s.severity src m.code.toNat)
  ((s.ldgCount src).logRecord ws).notifyRecord ws

theorem recorded_recordsOnly (s : State) (m : LMsg) : s.RecordsOnly (s.recorded m) :=
  (((State.RecordsOnly.refl s).ldgCount m.source.isLt).logRecord _).notifyRecord _

theorem recorded_onlyIn (s : State) (m : LMsg) : OnlyIn [.rf, .mem, .iln, .bel, .ldg, .hostOut] s (s.recorded m) :=
  Eff.onlyIn (State.notifyRecord_eff (State.logRecord_eff (State.ldgCount_eff (.refl _ s) rfl _) rfl rfl rfl rfl rfl rfl _) rfl rfl rfl _)

/-- A message of severity 4 is recorded and resets the block (R419, Table 16-4). -/
theorem accept_of_severity_four {m : LMsg} (hsev : s.severity m.source.toNat m.code.toNat = 4) (hcode : m.code ≠ 0x1070) :
    s.accept m = (s.recorded m).blockReset m.source.toNat m.kind.toNat true := by
  have h0 : ¬ (4 : Nat) = 0 := by decide
  have h2 : (2 : Nat) ≤ 4 := by decide
  have h3 : ¬ (4 : Nat) = 3 := by decide
  simp only [State.accept, State.recorded, hsev, if_neg hcode, if_neg h0, if_pos h2, if_neg h3, if_true]

/-! ## The watchdog expires (R422) -/

theorem observe_scan (s : State) (n : Nat) : (s.observe n).obs.scan = s.obs.scan := by
  unfold State.observe
  simp only
  split <;> split <;> rfl

theorem advance_scan (s : State) (n : Nat) : (s.advance n).obs.scan = s.obs.scan := by
  unfold State.advance
  simp only
  split
  · rfl
  · exact observe_scan s n

/-- The watchdog has run out: its time has passed, ALERT_CAUSE shows it, and it starts anew. -/
def State.watchdogRunOut (s : State) : State :=
  let u := (s.advance s.ldg.wdLeft).alert 3
  { u with ldg := { u.ldg with wdExpiries := min 65535 (u.ldg.wdExpiries + 1), wdSeen := 0, wdLeft := watchdogFc } }

/-- The record of an expiry, with the heartbeats that are missing. -/
def State.watchdogMessage (s : State) : LMsg :=
  { source := 0, kind := 2, code := 0x8011, carrel := 0, holdover := s.watchdogRunOut.holdover, stamp := s.watchdogRunOut.now, addr := 0, tag := 0
    info := BitVec.ofNat 64 (15 - s.ldg.wdSeen.toNat) }

/-- The state in which an expiry asks for its block reset. -/
def State.watchdogRecorded (s : State) : State := s.watchdogRunOut.recorded s.watchdogMessage

theorem watchdogExpire_eq_blockReset (s : State) : s.watchdogExpire = s.watchdogRecorded.blockReset 0 2 true :=
  have hcode : (0x8011 : BitVec 16) ≠ 0x1070 := by decide
  accept_of_severity_four (s := s.watchdogRunOut) (m := s.watchdogMessage) rfl hcode

theorem watchdogRunOut_onlyIn (s : State) : OnlyIn [.stp, .shelves, .ldg, .obs, .smb] s s.watchdogRunOut :=
  (Eff.set_ldg (State.alert_eff (State.advance_eff (.refl _ s) rfl rfl rfl rfl _) rfl 3) rfl).onlyIn

theorem watchdogRecorded_resetsNow (h : s.ResetsNow) : s.watchdogRecorded.ResetsNow := by
  have hout := watchdogRunOut_onlyIn s
  have hrec := recorded_onlyIn s.watchdogRunOut s.watchdogMessage
  refine h.of_same ((hrec.2 .pins (by decide)).trans (hout.2 .pins (by decide)))
    ((hrec.2 .boot (by decide)).trans (hout.2 .boot (by decide))) ?scan ?ctl
  case scan => exact (congrArg Obs.scan (hrec.2 .obs (by decide))).trans (advance_scan s _)
  case ctl =>
    exact ((recorded_recordsOnly s.watchdogRunOut s.watchdogMessage).regs _ (by decide)).trans (s.reg_of_rf (hout.2 .rf (by decide)) _)

theorem watchdogRecorded_total (s : State) : s.watchdogRecorded.stp.total = s.stp.total + s.ldg.wdLeft :=
  congrArg Stp.total ((recorded_onlyIn s.watchdogRunOut s.watchdogMessage).2 .stp (by decide))

theorem watchdogRecorded_ss (s : State) : s.watchdogRecorded.ss = s.ss :=
  ((recorded_onlyIn s.watchdogRunOut s.watchdogMessage).2 .ss (by decide)).trans ((watchdogRunOut_onlyIn s).2 .ss (by decide))

theorem watchdogRecorded_history (s : State) : s.watchdogRecorded.ldg.history = s.ldg.history :=
  (recorded_recordsOnly s.watchdogRunOut s.watchdogMessage).history

theorem watchdogRecorded_expiries (s : State) : s.watchdogRecorded.ldg.wdExpiries = min 65535 (s.ldg.wdExpiries + 1) :=
  (recorded_recordsOnly s.watchdogRunOut s.watchdogMessage).expiries

theorem watchdogRecorded_alert (s : State) : s.watchdogRecorded.smb.cause.getLsbD 3 = true := by
  have hcause : s.watchdogRecorded.smb.cause = (s.advance s.ldg.wdLeft).smb.cause ||| 1#6 <<< 3 :=
    congrArg Smb.cause ((recorded_onlyIn s.watchdogRunOut s.watchdogMessage).2 .smb (by decide))
  rw [hcause, BitVec.getLsbD_or]
  simp

/-- With fewer than LIMIT block resets counted, this one among them, the expiry does not latch the die out of service (R428). -/
theorem watchdogRecorded_not_escalates (hlimit : s.escCount + 1 < s.escLimit) : s.watchdogRecorded.resetEscalates true = false := by
  have hlim : s.watchdogRecorded.escLimit = s.escLimit := by simp only [State.escLimit, State.item, watchdogRecorded_ss]
  have hwindow : s.watchdogRecorded.escWindow = s.escWindow := by simp only [State.escWindow, State.item, watchdogRecorded_ss]
  have hcount := escCount_counted_le (watchdogRecorded_history s) (by simp [watchdogRecorded_total]) hwindow
  rw [State.resetEscalates, hlim]
  exact decide_eq_false (by omega)

/-- An armed watchdog that runs out on a die that is not hushed resets the block (R422). -/
theorem exec_watchdogExpired (ha : s.alive = true) (harmed : s.ldg.wdArmed = true) (hh : s.hushed = false) :
    exec .watchdogExpired s = .next (s.watchdogRecorded.blockReset 0 2 true) := by
  rw [← watchdogExpire_eq_blockReset]
  exact congrArg Host.Outcome.next (if_pos (by simp [ha, harmed, hh]))

theorem exec_watchdogExpired_of_paused (h : s.ldg.wdArmed = false ∨ s.hushed = true) : exec .watchdogExpired s = .next s :=
  congrArg Host.Outcome.next (if_neg (by obtain h | h := h <;> simp [h]))

theorem goesTo_watchdogExpired (h : s.ResetsNow) (harmed : s.ldg.wdArmed = true) (hh : s.hushed = false)
    (hlimit : s.escCount + 1 < s.escLimit) : GoesTo (exec .watchdogExpired s) (fun t =>
      t.pins.life = .boot ∧ t.bootPhase = 1 ∧ t.boot.cause = some (0, 2) ∧ t.smb.cause.getLsbD 3 = true
      ∧ t.stp.total = s.stp.total + s.ldg.wdLeft ∧ t.ldg.wdExpiries = min 65535 (s.ldg.wdExpiries + 1) ∧ t.ldg.wdArmed = false) := by
  have hboots := blockReset_bootsAfresh (watchdogRecorded_resetsNow h) 0 2 (watchdogRecorded_not_escalates hlimit)
  refine ⟨_, exec_watchdogExpired h.alive harmed hh, hboots.life, hboots.phase, ?cause, ?alert, ?total, ?expiries, ?armed⟩
  case cause => rw [hboots.cause, resetTaken_boot]
  case alert => rw [hboots.alerts, resetTaken_smb, watchdogRecorded_alert]
  case total => rw [hboots.total, resetTaken_stp, watchdogRecorded_total]
  case expiries => rw [hboots.expiries, resetTaken_wdExpiries, watchdogRecorded_expiries]
  case armed => rw [hboots.armed, resetTaken_wdArmed]

/-! ## The keys and the heartbeats (R422, R429, R431) -/

section Keys
variable (ha : s.alive = true) (v : Word)
include ha

theorem exec_ldgBlockReset : exec (.ldgBlockReset v) s = .next (s.managerReset v) := congrArg Host.Outcome.next (if_pos ha)

theorem exec_ldgOosClear : exec (.ldgOosClear v) s = .next (s.oosClear v) := congrArg Host.Outcome.next (if_pos ha)

theorem exec_ldgHeartbeat : exec (.ldgHeartbeat v) s = .next (s.heartbeat v) := congrArg Host.Outcome.next (if_pos ha)

end Keys

theorem managerReset_of_key {v : Word} (h : fld v 0 16 = 0xB10C) : s.managerReset v = s.blockReset 0 0 false := if_pos h

theorem managerReset_of_not_key {v : Word} (h : fld v 0 16 ≠ 0xB10C) : s.managerReset v = s := if_neg h

/-- A block reset under way absorbs the manager's (R427). -/
theorem managerReset_of_blockResetting (h : s.blockResetting = true) (v : Word) : s.managerReset v = s := by
  by_cases hkey : fld v 0 16 = 0xB10C
  · rw [managerReset_of_key hkey, blockReset_of_blockResetting h]
  · exact managerReset_of_not_key hkey

theorem goesTo_ldgBlockReset {v : Word} (h : s.ResetsNow) (hkey : fld v 0 16 = 0xB10C) : GoesTo (exec (.ldgBlockReset v) s) (fun t =>
    t.pins.life = .boot ∧ t.bootPhase = 1 ∧ t.boot.cause = some (0, 0) ∧ t.ldg.history = s.ldg.history ∧ t.ldg.oos = s.ldg.oos
    ∧ t.stp.stamp = s.stp.stamp ∧ t.cat = Cat.reset ∧ t.shelves = [] ∧ ∀ a < farBase, Memory.read t.mem a = 0) := by
  have hboots := blockReset_bootsAfresh h 0 0 (counted := false) rfl
  refine ⟨s.blockReset 0 0 false, ?exec, hboots.life, hboots.phase, ?cause, ?history, ?oos, ?stamp, hboots.cat, hboots.shelves, ?mem⟩
  case exec => rw [exec_ldgBlockReset h.alive, managerReset_of_key hkey]
  case cause => rw [hboots.cause, resetTaken_boot]
  case history => rw [hboots.history, resetTaken_ldg]; rfl
  case oos => rw [hboots.oos, resetTaken_oos]
  case stamp => rw [hboots.stamp, resetTaken_stp]
  case mem => exact fun a hnear => by rw [hboots.mem, read_dropOnDie_of_near _ hnear]

theorem oosClear_of_key {v : Word} (hkey : fld v 0 16 = 0x0C1E) (hoos : s.ldg.oos = true) (hcycled : s.ldg.cycled = true) :
    s.oosClear v = { s with ldg := { s.ldg with oos := false, cycled := false, history := [] } } := if_pos (by simp [hkey, hoos, hcycled])

theorem oosClear_of_barred {v : Word} (h : fld v 0 16 ≠ 0x0C1E ∨ s.ldg.oos = false ∨ s.ldg.cycled = false) : s.oosClear v = s :=
  if_neg (by obtain h | h | h := h <;> simp [h])

theorem heartbeat_of_disarmed (h : s.ldg.wdArmed = false) (v : Word) : s.heartbeat v = s := if_pos (by simp [h])

/-- A heartbeat's bits join those seen; with all four the watchdog restarts. -/
theorem heartbeat_of_armed (h : s.ldg.wdArmed = true) (v : Word) : s.heartbeat v =
    let seen := s.ldg.wdSeen ||| v.setWidth 4
    { s with ldg := { s.ldg with
      wdSeen := if seen = 15 then 0 else seen, wdLeft := if seen = 15 then watchdogFc else s.ldg.wdLeft } } := by
  unfold State.heartbeat
  rw [if_neg (by simp [h])]
  simp only
  split <;> rfl

theorem set_ldg_onlyIn (s : State) (g : Ldg) : OnlyIn [.ldg] s { s with ldg := g } := (Eff.set_ldg (.refl _ s) rfl).onlyIn

/-! ## RESET_N and PWROK low (R71, R72, R427) -/

theorem goesTo_resetNDeassert (h : s.pins.life = .reset) (straps : BitVec 4) : GoesTo (exec (.resetNDeassert straps) s) (fun u =>
    u.pins.life = .boot ∧ u.reg R.CFG_STRAP = BitVec.ofNat 64 (strapWord straps.toNat)) := by
  refine ⟨s.resetDeassert straps.toNat, rfl, ?_⟩
  unfold State.resetDeassert
  rw [if_neg (by simp [h]), if_neg (by simp [h])]
  exact ⟨rfl, (reg_setPhase_of_ne 1 (by decide)).trans (s.reg_setReg_self _ _)⟩

theorem goesTo_pinReset (hon : s.pins.life ≠ .off) :
    GoesTo (exec .pinReset s) (fun t => t.pins.life = .reset ∧ t.blockResetting = false) := by
  refine ⟨s.pinReset, rfl, ?_⟩
  rw [State.pinReset, if_neg hon]
  exact ⟨rfl, rfl⟩

theorem goesTo_pwrokFall (hon : s.pins.life ≠ .off) :
    GoesTo (exec .pwrokFall s) (fun t => t.pins.life = .off ∧ t.blockResetting = false) := by
  refine ⟨s.pwrokFall, rfl, ?_⟩
  rw [State.pwrokFall, if_neg hon]
  exact ⟨rfl, rfl⟩

end BlockResets

/-- Settles O54: a block reset that nothing holds up boots afresh, whether the manager's key or an expiry asks for it; one under way absorbs
the manager's, and the pins end it. -/
theorem blockResetsAndTheWatchdog : Obligations.BlockResetsAndTheWatchdog := by
  unfold Obligations.BlockResetsAndTheWatchdog
  refine ⟨fun s v ha => ⟨?wrongKey, ?key, ?clears, ?barred, ?beats, ?disarmed, ?expires, ?paused⟩,
    fun s hreset => ⟨?absorbed, ?resetN, ?pwrok⟩⟩
  case wrongKey => exact fun hkey => by rw [exec_ldgBlockReset ha, managerReset_of_not_key hkey]
  case key => exact fun hkey hidle hscan hctl => goesTo_ldgBlockReset ⟨ha, hidle, hscan, hctl⟩ hkey
  case clears =>
    intro hkey hoos hcycled
    rw [exec_ldgOosClear ha, oosClear_of_key hkey hoos hcycled]
    exact ⟨_, rfl, rfl, set_ldg_onlyIn s _⟩
  case barred => exact fun h => by rw [exec_ldgOosClear ha, oosClear_of_barred h]
  case beats =>
    intro harmed
    rw [exec_ldgHeartbeat ha, heartbeat_of_armed harmed]
    exact ⟨_, rfl, rfl, rfl, rfl, set_ldg_onlyIn s _⟩
  case disarmed => exact fun h => by rw [exec_ldgHeartbeat ha, heartbeat_of_disarmed h]
  case expires => exact fun harmed hh hidle hscan hctl hlimit => goesTo_watchdogExpired ⟨ha, hidle, hscan, hctl⟩ harmed hh hlimit
  case paused => exact exec_watchdogExpired_of_paused
  case absorbed =>
    intro v
    show Host.Outcome.next (if s.alive then s.managerReset v else s) = _
    rw [managerReset_of_blockResetting hreset, ite_self]
  case resetN =>
    intro hon
    obtain ⟨t, hexec, hlife, hidle⟩ := goesTo_pinReset hon
    exact ⟨t, hexec, hlife, hidle, goesTo_resetNDeassert hlife⟩
  case pwrok => exact goesTo_pwrokFall

end Sys2Proof.Machine

/-! Proof of O55: a hush and its release (R443, R445, R446), and a scan-out from its start to the image written (R425, R447, R448). -/

namespace Sys2Proof.Machine

section HushAndScan
variable {s : State}

/-! ## A hush begins (R443) -/

section InService
variable (hs : s.inService = true)
include hs

theorem exec_hush : exec .hush s = .next (s.startHush 1) := congrArg Host.Outcome.next (if_pos hs)

theorem exec_hushRelease : exec .hushRelease s = .next s.releaseHush := congrArg Host.Outcome.next (if_pos hs)

theorem exec_scanStart : exec .scanStart s = .next s.scanStart := congrArg Host.Outcome.next (if_pos hs)

theorem exec_scanDone : exec .scanDone s = .next s.scanDone := congrArg Host.Outcome.next (if_pos (alive_of_inService hs))

end InService

/-- The Observation unit's own state is no register. -/
theorem reg_set_obs (u : State) (x : Obs) (o : Nat) : ({ u with obs := x } : State).reg o = u.reg o := u.reg_of_rf rfl o

theorem reg_hushStatus_startHush (h : s.hushed = false) (cause : Nat) :
    (s.startHush cause).reg R.OBS_HUSH_STATUS = BitVec.ofNat 64 (2 + cause * 4) := by
  rw [startHush_of_not_hushed h, reg_set_obs, State.reg_setReg_of_ne _ _ (by decide), State.reg_setReg_self]

theorem reg_hushWhen_startHush (h : s.hushed = false) (cause : Nat) : (s.startHush cause).reg R.OBS_HUSH_WHEN = s.now := by
  rw [startHush_of_not_hushed h, reg_set_obs, State.reg_setReg_self]

theorem hushed_of_hushStatus {v : Word} (h : s.reg R.OBS_HUSH_STATUS = v) : s.hushed = (fld v 0 2 != 0) := by
  rw [State.hushed, State.field, h]

theorem goesTo_hush (hs : s.inService = true) (h : s.hushed = false) : GoesTo (exec .hush s) (fun t =>
    t.hushed = true ∧ t.field R.OBS_HUSH_STATUS 2 3 = 1 ∧ t.reg R.OBS_HUSH_WHEN = s.now
    ∧ (∀ o, o ≠ R.OBS_HUSH_STATUS → o ≠ R.OBS_HUSH_WHEN → t.reg o = s.reg o) ∧ OnlyIn [.rf, .obs] s t) := by
  have hstatus := reg_hushStatus_startHush h 1
  refine ⟨s.startHush 1, exec_hush hs, ?hushed, ?cause, reg_hushWhen_startHush h 1, fun o => reg_startHush s 1,
    s.startHush_onlyIn 1 0⟩
  case hushed => rw [hushed_of_hushStatus hstatus]; rfl
  case cause => rw [State.field, hstatus]; rfl

/-! ## Time stands still (R445) -/

theorem Tab.find?_map {α β : Type} (f : α → β) (t : Tab α) (n : Nat) :
    Tab.find? (t.map (fun p => (p.1, f p.2))) n = (Tab.find? t n).map f := by
  induction t with
  | nil => rfl
  | cons p t ih =>
    by_cases h : n = p.1
    · simp [Tab.find?, h]
    · simpa [Tab.find?, h] using ih

theorem Tab.getD_map {α β : Type} (f : α → β) (t : Tab α) (n : Nat) (d : α) :
    Tab.getD (t.map (fun p => (p.1, f p.2))) n (f d) = f (Tab.getD t n d) := by
  rw [Tab.getD, Tab.find?_map, Option.getD_map, Tab.getD]

/-- Every shelf's running deadline moves, that of a shelf not listed too: it runs nothing. -/
theorem shelf_shiftTimers (s : State) (n sh : Nat) : (s.shiftTimers n).shelf sh = (s.shelf sh).deadlineLater n :=
  Tab.getD_map (Shelf.deadlineLater n) s.shelves sh Shelf.idle

/-! ## The release (R446) -/

/-- The release is refused: no hush holds the die, a scan-out runs, or the hush is a block reset's. -/
theorem releaseHush_of_barred
    (h : s.hushed = false ∨ s.obs.scan = true ∨ s.blockResetting = true ∨ s.field R.OBS_HUSH_STATUS 2 3 = 4) : s.releaseHush = s :=
  if_pos (by obtain h | h | h | h := h <;> simp [h])

/-- The die as its hush ends (R445, R446), before the Catalogue's moves that have become due. -/
def State.hushReleased (s : State) : State :=
  let u := (s.shiftTimers s.obs.hushFc).setReg R.OBS_HUSH_STATUS 0
  { u with obs := { u.obs with hushFc := 0, resuming := true } }.event R.OBS_EVENT 1

theorem releaseHush_of_releasable (hh : s.hushed = true) (hscan : s.obs.scan = false) (hidle : s.blockResetting = false)
    (hcause : s.field R.OBS_HUSH_STATUS 2 3 ≠ 4) : s.releaseHush = s.hushReleased.settle :=
  if_neg (by simp [hh, hscan, hidle, hcause])

theorem hushReleased_onlyIn (s : State) : OnlyIn [.rf, .shelves, .iln, .bel, .obs] s s.hushReleased :=
  (State.event_eff (.set_obs (State.setReg_eff (State.shiftTimers_eff (.refl _ s) rfl rfl _) rfl _ _) rfl) rfl rfl _ _).onlyIn

theorem reg_hushStatus_hushReleased (s : State) : s.hushReleased.reg R.OBS_HUSH_STATUS = 0 := by
  rw [State.hushReleased, State.reg_event_of_ne _ _ _ (by decide), reg_set_obs, State.reg_setReg_self]

theorem running_hushReleased (hs : s.inService = true) : s.hushReleased.running = true := by
  have hpins : s.hushReleased.pins = s.pins := (hushReleased_onlyIn s).2 .pins (by decide)
  have hserves : s.hushReleased.inService = true := by rw [State.inService, hpins]; exact hs
  rw [State.running, hserves, hushed_of_hushStatus (reg_hushStatus_hushReleased s)]
  rfl

/-- The release shows in OBS_EVENT.HUSH_ENDED. -/
theorem regBit_hushEnded_hushReleased (s : State) : s.hushReleased.regBit R.OBS_EVENT 0 = true := by
  rw [State.regBit, State.hushReleased, State.reg_event_self, bitAt, BitVec.getLsbD_or]
  simp

/-- Source 1,107 is up while an event of the Observation unit is (Table 15-1). -/
theorem belLevelOf_obsEvent {i : Nat} (h : s.regBit R.OBS_EVENT i = true) : s.belLevelOf 1107 = true := by
  have hne : s.reg R.OBS_EVENT ≠ 0 := fun h0 => by simp [State.regBit, bitAt, h0] at h
  exact bne_iff_ne.mpr hne

theorem obs_hushReleased (s : State) : s.hushReleased.obs = { s.obs with hushFc := 0, resuming := true } := State.event_obs _ _ _

theorem run_hushReleased {sh : Nat} {r : Running} (h : (s.shelf sh).run = some r) :
    (s.hushReleased.shelf sh).run = some { r with deadline := r.deadline + s.obs.hushFc } := by
  have hshelf : s.hushReleased.shelf sh = (s.shelf sh).deadlineLater s.obs.hushFc :=
    (congrArg (Tab.getD · sh Shelf.idle) (State.event_shelves _ _ _)).trans (shelf_shiftTimers s _ sh)
  rw [hshelf, Shelf.deadlineLater, h]
  rfl

/-! ## A scan-out starts (R447) -/

/-- START while a scan-out runs, or on a die that is not hushed, has no effect. -/
theorem scanStart_of_barred (h : s.hushed = false ∨ s.obs.scan = true) : s.scanStart = s :=
  if_neg (by obtain h | h := h <;> simp [h])

theorem scanStart_of_hushed (hh : s.hushed = true) (hscan : s.obs.scan = false) :
    s.scanStart = { s.setReg R.OBS_SCAN_STATUS 1 with obs := { s.obs with scan := true } } := if_pos (by simp [hh, hscan])

theorem goesTo_scanStart (hs : s.inService = true) (hh : s.hushed = true) (hscan : s.obs.scan = false) :
    GoesTo (exec .scanStart s) (fun t => t.reg R.OBS_SCAN_STATUS = 1 ∧ OtherRegs R.OBS_SCAN_STATUS s t
      ∧ t.obs = { s.obs with scan := true } ∧ OnlyIn [.rf, .obs] s t) := by
  have hframe : Eff (fun c => decide (c ∈ [Comp.rf, .obs])) s s.scanStart := State.scanStart_eff (.refl _ s) rfl rfl
  refine ⟨s.scanStart, exec_scanStart hs, ?_, ?_, ?_, hframe.onlyIn⟩ <;> rw [scanStart_of_hushed hh hscan]
  · rw [reg_set_obs, State.reg_setReg_self]
  · exact fun o ho => by rw [reg_set_obs, State.reg_setReg_of_ne _ _ ho]

/-! ## A scan-out ends (R425, R447, R448) -/

/-- The image has gone to the near tier or to host memory, with its size in 4 KiB units. -/
def State.imageWritten (s : State) : State × Nat := (s.scanImage s.scanRanges).1.scanWrite (s.scanImage s.scanRanges).2

/-- The scan-out is shown as done, with the size of its image (Table 18-6). -/
def State.endScan (s : State) (n : Nat) : State :=
  { s.setReg R.OBS_SCAN_STATUS (BitVec.ofNat 64 (2 + n * 2 ^ 16)) with obs := { s.obs with scan := false } }

theorem endScan_eff {F : Comp → Bool} {s0 : State} (h : Eff F s0 s) (hrf : F .rf = true) (hobs : F .obs = true) (n : Nat) :
    Eff F s0 (s.endScan n) := .set_obs (State.setReg_eff h hrf _ _) hobs

theorem endScan_onlyIn (s : State) (n : Nat) : OnlyIn [.rf, .obs] s (s.endScan n) := (endScan_eff (.refl _ s) rfl rfl n).onlyIn

@[simp] theorem endScan_hostOut (s : State) (n : Nat) : (s.endScan n).hostOut = s.hostOut := (endScan_onlyIn s n).2 .hostOut (by decide)
@[simp] theorem endScan_mem (s : State) (n : Nat) : (s.endScan n).mem = s.mem := (endScan_onlyIn s n).2 .mem (by decide)
@[simp] theorem endScan_scan (s : State) (n : Nat) : (s.endScan n).obs.scan = false := rfl

theorem endScan_status (s : State) (n : Nat) : (s.endScan n).field R.OBS_SCAN_STATUS 0 2 = 2 := by
  have hdone : fld (BitVec.ofNat 64 (2 + n * 2 ^ 16)) 0 2 = 2 := by
    rw [fld, BitVec.toNat_ofNat]
    omega
  rw [State.field, State.endScan, reg_set_obs, State.reg_setReg_self, hdone]

/-- The scan-out is over; a block reset may still wait for it. -/
def State.scanEnded (s : State) : State := s.imageWritten.1.endScan s.imageWritten.2

theorem scanDone_of_not_scan (h : s.obs.scan = false) : s.scanDone = s := if_pos (by simp [h])

theorem scanDone_of_scan (h : s.obs.scan = true) :
    s.scanDone = if s.scanEnded.blockResetting then s.scanEnded.blockResetGo else s.scanEnded := if_neg (by simp [h])

theorem scanEnded_onlyIn (s : State) : OnlyIn [.freeCtr, .rf, .mem, .ecc, .kpr, .iln, .bel, .ldg, .obs, .hostOut] s s.scanEnded :=
  (endScan_eff (EffP.fst (State.scanWrite_eff (EffP.fst (State.scanImage_eff (.refl _ s) rfl s.scanRanges))
    rfl rfl rfl rfl rfl rfl rfl rfl rfl rfl _)) rfl rfl _).onlyIn

theorem scanEnded_boot (s : State) : s.scanEnded.boot = s.boot := (scanEnded_onlyIn s).2 .boot (by decide)

theorem scanEnded_blockResetting (s : State) : s.scanEnded.blockResetting = s.blockResetting := by
  rw [State.blockResetting, scanEnded_boot, State.blockResetting]

theorem scanDone_of_idle (h : s.obs.scan = true) (hidle : s.blockResetting = false) : s.scanDone = s.scanEnded := by
  rw [scanDone_of_scan h, scanEnded_blockResetting, hidle, if_neg Bool.false_ne_true]

/-- A block reset that waited for the scan-out goes on (R425). -/
theorem scanDone_of_blockResetting (h : s.obs.scan = true) (hreset : s.blockResetting = true) : s.scanDone = s.scanEnded.blockResetGo := by
  rw [scanDone_of_scan h, scanEnded_blockResetting, hreset, if_pos rfl]

/-- A block reset that does not latch the die out of service boots it again (R425, R428). -/
theorem blockResetGo_of_not_escalated (h : s.boot.escalated = false) : s.blockResetGo = s.bootAgain := if_neg (by simp [h])

theorem hostOut_hostWrite (h : s.regBit (R.ILN_PORT_STATE 0) 2 = true) (func addr : Nat) (bs : List Byte) :
    (s.hostWrite func addr bs).hostOut = s.hostOut ++ [⟨func, addr, bs⟩] := by
  rw [State.hostWrite, if_neg (by simp [h])]

/-- With LOC 1 the image goes to the manager's host memory (Table 18-6). -/
theorem scanWrite_of_host (h : s.regBit R.OBS_SCAN_BASE 0 = true) (bs : List Byte) :
    s.scanWrite bs = (s.hostWrite 0 (4096 * s.field R.OBS_SCAN_BASE 12 52) bs, ceilDiv bs.length 4096) := if_pos h

theorem scanImage_reg (rs : List Nat) (o : Nat) : (s.scanImage rs).1.reg o = s.reg o :=
  s.reg_of_rf ((scanImage_onlyIn rs).2 .rf (by decide)) o

theorem imageWritten_of_host (h : s.regBit R.OBS_SCAN_BASE 0 = true) : s.imageWritten.1 =
    (s.scanImage s.scanRanges).1.hostWrite 0 (4096 * s.field R.OBS_SCAN_BASE 12 52) (s.scanImage s.scanRanges).2 := by
  have hbase := scanImage_reg (s := s) s.scanRanges R.OBS_SCAN_BASE
  rw [State.imageWritten, scanWrite_of_host ((s.regBit_of_reg hbase 0).trans h), s.field_of_reg hbase]

/-- The image leaves whole for host memory, and local memory stays. -/
theorem scanEnded_of_host (hhost : s.regBit R.OBS_SCAN_BASE 0 = true) (hup : s.regBit (R.ILN_PORT_STATE 0) 2 = true) :
    s.scanEnded.hostOut = s.hostOut ++ [⟨0, 4096 * s.field R.OBS_SCAN_BASE 12 52, (s.scanImage s.scanRanges).2⟩]
    ∧ s.scanEnded.mem = s.mem := by
  have hframe : OnlyIn [.freeCtr] s (s.scanImage s.scanRanges).1 := scanImage_onlyIn s.scanRanges
  have hout : (s.scanImage s.scanRanges).1.hostOut = s.hostOut := hframe.2 .hostOut (by decide)
  have hmem : (s.scanImage s.scanRanges).1.mem = s.mem := hframe.2 .mem (by decide)
  have hup' := (s.regBit_of_reg (scanImage_reg s.scanRanges (R.ILN_PORT_STATE 0)) 2).trans hup
  constructor
  · rw [State.scanEnded, endScan_hostOut, imageWritten_of_host hhost, hostOut_hostWrite hup', hout]
  · rw [State.scanEnded, endScan_mem, imageWritten_of_host hhost, State.hostWrite_mem, hmem]

end HushAndScan

/-- Settles O55: a hush, its release and a scan-out act where nothing bars them; a block reset that waited for the scan-out boots afresh. -/
theorem hushesAndScansOut : Obligations.HushesAndScansOut := by
  unfold Obligations.HushesAndScansOut
  intro s hs
  refine ⟨goesTo_hush hs, ?joins, ?barred, ?releases, goesTo_scanStart hs, ?noStart, ?noScan, ?ends, ?resets⟩
  case joins => exact fun h => by rw [exec_hush hs, startHush_of_hushed h]
  case barred => exact fun h => by rw [exec_hushRelease hs, releaseHush_of_barred h]
  case releases =>
    intro hh hscan hidle hcause
    have hended := regBit_hushEnded_hushReleased s
    refine ⟨s.hushReleased, ?_, running_hushReleased hs, reg_hushStatus_hushReleased s, hended, belLevelOf_obsEvent hended, ?_, ?_,
      fun sh r => run_hushReleased, hushReleased_onlyIn s⟩
    · rw [exec_hushRelease hs, releaseHush_of_releasable hh hscan hidle hcause]
    · rw [obs_hushReleased]
    · rw [obs_hushReleased]
  case noStart => exact fun h => by rw [exec_scanStart hs, scanStart_of_barred h]
  case noScan => exact fun h => by rw [exec_scanDone hs, scanDone_of_not_scan h]
  case ends =>
    intro hscan hidle
    refine ⟨s.scanEnded, ?_, endScan_scan _ _, endScan_status _ _, scanEnded_of_host⟩
    rw [exec_scanDone hs, scanDone_of_idle hscan hidle]
  case resets =>
    intro hscan hreset hesc
    have hgo : s.scanEnded.blockResetGo = s.scanEnded.bootAgain :=
      blockResetGo_of_not_escalated (by rw [scanEnded_boot, hesc])
    have hboots := bootAgain_bootsAfresh s.scanEnded
    refine ⟨s.scanEnded.bootAgain, ?_, hboots.life, hboots.phase, hboots.cause.trans (congrArg Boot.cause (scanEnded_boot s))⟩
    rw [exec_scanDone hs, scanDone_of_blockResetting hscan hreset, hgo]

end Sys2Proof.Machine
